-- ==== Sys2Proof/Word.lean ====
section
/-!
DEFINITION. The byte, and sparse tables: the two plain data types that every other file builds on.
-/

namespace Sys2Proof

/-- One byte of a memory, a buffer or an image. -/
abbrev Byte := BitVec 8

/-- A sparse table: pairs of a key and a value, keys strictly rising. -/
abbrev Tbl (β : Type) := List (Nat × β)

end Sys2Proof
end

