-- ==== Sys2Proof/Syntax.lean ====
section
/-!
DEFINITION. The commands of the block (one constructor of `Instr` per row of the opcode table) and the data they carry:
messages of the control channel, mailbox submissions, packets, readings and the physical circumstances of a step.
-/

namespace Sys2Proof

/-- Why a token is VOID (R61, Table 3.3). -/
inductive VoidReason where
  | checkFail | abftFail | twinMismatch | inputVoid | lapsed | fenced
deriving DecidableEq, Repr

/-- What the filter in front of the Vigil A queue passes an event as (R292). -/
inductive VgKind where
  | taskStart | taskEnd | completion | array | twin | nle | fusion | planning | checksum | budget | hardFault
deriving DecidableEq, Repr

/-- What an event for Vigil A carries beside the fields every event has (R107, R113, R121, R184, R265). -/
inductive VgInfo where
  /-- Nothing more. -/
  | plain
  /-- A completion record's ARITH and UNIT_STATUS (Table 5.5). -/
  | completion (arith unitStatus : Nat)
  /-- The array, kind, row and column of an array fault (R107). -/
  | array (array kind row col : Nat)
  /-- The other cluster of a twin pair (R121), and the comparator's outcome: whether the notes agreed (R120). -/
  | twin (partner : Nat) (agree : Bool)
  /-- The memory level, logical address and expected generation of a failed tile check, the stage reached, and whether it passed
  there (R184). -/
  | tile (level addr gen stage : Nat) (passed : Bool)
  /-- The checker that disagreed with the grid (R265). -/
  | checker (h : Nat)
deriving DecidableEq, Repr

/-- One of the two Vigil islands (R289). -/
inductive Isl where
  | a | b
deriving DecidableEq, Repr

/-- The kinds of Almanac record the spec names. The 16-bit codes and the layout of a payload are the running image's
(Table 16.1, ALM_INFO): `Config.almCode` and `Config.almPayload`. -/
inductive AlmCode where
  | boot | clear | summary | journalFail | clearFail
  | rwlRange | staleToken | slotOverflow | creditOverflow | lapse | swapStarve | lateCommand | planOverride
  | arrayFault | twinMismatch | nleFault | boxClip | seqEdit | tileCheck | unmapped | weightRepair | weightReload | scrubRepair
  | storeOvertemp | ingestPanic | storeRetain | delayFail | timeStep | sampleDamaged | fusionFault | listRefused
  | planningFault | fallback | checkerDisagreement | contestOver | mapFault | identity | levelStale
  | vigilBreach | islandRestart | restartFail | cmpFail | vigilInput | boardHold | budget
  | disputed | hardFault | commonCause | engineFault | sparesExhausted | expulsion | fence | suspect | health
  | injection | segmentAbort | holidayFail | testDebt | testOverdue | doorbell | expert | aperture | hostDma
  | settingsFormat | seasonFallback | seasonItem | updRefused | settingsReset | updFallback | versionFloor | bootBank
  | sensorSpread | sensorFault | pairLost | pmState | coolant | warmShort | ageing | thermtrip | link | keys | calPhase
deriving DecidableEq, Repr

/-- An event for Vigil A (R292): 16 bytes in the queue, held as its fields. -/
structure VgEvent where
  /-- device time of the stamp (64 bit; 13 R292). -/
  stamp : Nat := 0
  /-- what the filter passes it as (-; 13 R292). -/
  kind : VgKind := .taskStart
  /-- RESOURCE_ID of the unit that raised it (32 bit; 13 R292). -/
  unit : Nat := 0
  /-- plan of the command, 0 where none (64 bit; 13 R308). -/
  planId : Nat := 0
  /-- TASK_ID (16 bit; 13 R292). -/
  task : Nat := 0
  /-- context (8 bit; 13 R292). -/
  ctx : Nat := 0
  /-- CMD_INDEX (16 bit; 13 R292). -/
  idx : Nat := 0
  /-- frame number the event carries (48 bit; 13 R292). -/
  frame : Nat := 0
  /-- STATUS of a completion record (8 bit; 13 R292). -/
  status : Nat := 0
  /-- FLAGS.SAFETY_OUT of the command (1 bit; 02 R54). -/
  safetyOut : Bool := false
  /-- the command belongs to a P0 task (1 bit; 13 R308). -/
  p0 : Bool := false
  /-- what an event of its kind carries beside (-; 05 R107, R113, R121, 08 R184, 11 R265). -/
  info : VgInfo := .plain
deriving DecidableEq, Repr

/-- A token (R60, Table 3.2). -/
structure Token where
  /-- frame number of the producing command (48 bit; 03 R60). -/
  frame : Nat := 0
  /-- none is READY, some r is VOID with reason r (8+8 bit KIND, REASON; 03 R60). -/
  void : Option VoidReason := none
  /-- tile identifier assigned by the plan (32 bit; 03 R60). -/
  tileId : Nat := 0
  /-- generation folded into the tile checksum (16 bit; 03 R60). -/
  gen : Nat := 0
  /-- input token slot of the consumer context (6 bit; 03 R60). -/
  slot : Nat := 0
  /-- consumer context (5 bit; 03 R60). -/
  ctx : Nat := 0
  /-- the token comes from a snapshot binding (the receiver knows this from its binding table) (1 bit; 10 R231). -/
  snap : Bool := false
deriving DecidableEq, Repr

/-- A credit message (R64). -/
structure Credit where
  /-- frame of the tile whose buffer is freed (48 bit; 03 R64). -/
  frame : Nat := 0
  /-- credit counter (5 bit; 03 R64). -/
  counter : Nat := 0
  /-- the producer's context (5 bit; 03 R64). -/
  ctx : Nat := 0
deriving DecidableEq, Repr

/-- A submission entry (Table 17.4). -/
structure SubEntry where
  /-- OPCODE (16 bit; 17 Table 17.4). -/
  opcode : Nat := 0
  /-- FLAGS (8 bit; 17 Table 17.4). -/
  flags : Nat := 0
  /-- TAG (32 bit; 17 Table 17.4). -/
  tag : Nat := 0
  /-- BUF_ADDR (64 bit; 17 Table 17.4). -/
  bufAddr : Nat := 0
  /-- BUF_LEN (32 bit; 17 Table 17.4). -/
  bufLen : Nat := 0
  /-- the two reserved fields, together (40 bit; 17 Table 17.4). -/
  rsv : Nat := 0
  /-- PARAM (40 B; 17 Table 17.4). -/
  param : List Byte := []
deriving DecidableEq, Repr
/-- A difference that a check of the arrays would meet (R102–R107): the array, the kind of check (0 SUM_COLUMN, 1 SUM_ROW,
2 TOLERANCE, 3 DRAIN), the row within the pass, the column within the N-block (16 for the sum column); and the block it stands in. -/
structure ArrayFault where
  array : Nat
  kind : Nat
  row : Nat
  col : Nat
  /-- Row range of the pass (R100). -/
  range : Nat := 0
  /-- N-block. -/
  nblock : Nat := 0
  /-- Block of 32 along the reduction. -/
  kblock : Nat := 0
  /-- Channel group of a convolution (R129). -/
  group : Nat := 0
  /-- Layer of a fused chain, from 0 (R137). -/
  layer : Nat := 0
deriving DecidableEq, Repr

/-- The physical circumstances of one command of a unit: what the spec leaves to the hardware's state and not to data. -/
structure Phys where
  /-- The differences that the checks of the arrays would meet, in the order they arise (R102–R107). One event for each check that is made. -/
  faults : List ArrayFault := []
  /-- The two datapaths of an engine differ (R138, R235, R251). -/
  mismatch : Bool := false
  /-- A parity error in a grid buffer (R251). -/
  parity : Bool := false
  /-- Edge checkers that answer the opposite of what the grid says (R251, R265). -/
  wrong : List Nat := []
  /-- Tiles, by address, whose first read arrives corrupted and whose re-fetch does not (R183). -/
  flaky : List Nat := []
  /-- Tiles, by address, every read of which arrives corrupted on its way to the reader, whatever is stored (R183, R312). -/
  lost : List Nat := []
  /-- Bytes of the output that leave the unit wrong, by offset and XOR, with no check of the unit finding it (R120, R121). -/
  upset : List (Nat × Nat) := []
  /-- Cycles of the unit's clock in which the command runs, stalled ones included (R305). -/
  cycles : Nat := 0
  /-- Stall cycles among them (R285). -/
  stall : Nat := 0
  /-- The stall cycles by the RESOURCE_ID that caused them, 0 for a forerunner regulator (Table 12.7). -/
  stallBy : List (Nat × Nat) := []
  /-- [1] some stall fell in ingest panic, [2] some under an amber or red level (Table 12.7). -/
  stallFlags : Nat := 0
  /-- Requester cycles lost to SRAM bank conflicts (R111). -/
  conflicts : Nat := 0
deriving DecidableEq, Repr

/-- What the window watchdog of an island sees: its firmware services it, or does not (R290). -/
structure WdogService where
  isl : Isl
  serviced : Bool := false
deriving DecidableEq, Repr

/-- What a flush of the journal meets: a write of the due entries that fails, an erase or program error of a compaction (R350, R351). -/
structure FlushFail where
  program : Bool := false
  compact : Bool := false
deriving DecidableEq, Repr

/-- A store transaction a requester port issues: one granule of 128 B (R279). -/
structure StoreTx where
  die : Nat
  /-- Per-Quarter address of the granule. -/
  addr : Nat
  wr : Bool
  /-- Partition of the command it serves, where a command's. -/
  part : Nat := 0
deriving DecidableEq, Repr

/-- A CSI-2 long packet as the receiver takes it (R221). -/
structure CsiPacket where
  vc : Nat
  dt : Nat
  payload : List Byte
  /-- The header's ECC holds an uncorrectable error. -/
  badHeader : Bool := false
  /-- The packet's CRC fails. -/
  badCrc : Bool := false
deriving DecidableEq, Repr

/-- An Ethernet frame as the MAC delivers it: from the destination address to the last payload byte (R222). -/
structure EthFrame where
  /-- The FCS is right. -/
  fcsOk : Bool := true
  bytes : List Byte
deriving DecidableEq, Repr

/-- An event message to Xiuth (R346), with the fields of its record. -/
structure AlmMsg where
  source : Nat
  code : AlmCode
  severity : Nat
  payload : List Nat
  time : Nat
deriving DecidableEq, Repr

/-- What a boot stage meets outside the logic: answers, test results and measurements. -/
structure BootPhys where
  /-- The boot flash answers (R394). -/
  flashOk : Bool := true
  /-- The CRC of the newer boot directory copy fails, its write having been torn (R409). -/
  dirTorn : Bool := false
  /-- An entry of the Almanac journal was being written when the device went into reset, and is found torn (R352, R387). -/
  almTorn : Bool := false
  /-- An entry of the settings journal was (R387, R397). -/
  setTorn : Bool := false
  /-- Clusters, by g, that do not answer on the configuration chain (R272). -/
  silent : List Nat := []
  /-- Clusters whose boot LBIST fails (R272). -/
  lbistFail : List Nat := []
  /-- Clusters at which a microcode relay does not match its DIGEST (R411). -/
  relayFail : List Nat := []
  /-- Store channels, at 32·die + channel, whose test rows fail (R216). -/
  delayFail : List Nat := []
  /-- Rows of Table 15.3 that fail, with the cluster concerned where the row is a cluster's, else 0 (R332). -/
  rowFail : List (Nat × Nat) := []
  /-- The sweep of R440: Quarter, step, and how many raises of 5 mV it takes there. -/
  raises : List (Nat × Nat × Nat) := []
  /-- Quarters and steps at which a counted cluster is still short at 0.85 V (R442). -/
  short : List (Nat × Nat) := []
  /-- Active Quarters whose ceiling step the Season cap does not allow at the start (R438). -/
  capped : List Nat := []
deriving DecidableEq, Repr

/-- What the power manager reads every 1 ms. -/
structure PmInput where
  /-- Sensor readings in 0.5 °C, at 2·pair + sensor: pairs 8·q + p of the Quarters, 32–35 of the hub; none where a sensor has not updated (R424). -/
  temps : List (Option Int) := []
  /-- Power of each VDD_QC rail in 0.1 W (R429). -/
  qPower : List Nat := []
  /-- Current of each VDD_QC rail in 0.1 A. -/
  qCurrent : List Nat := []
  /-- Power of the other rails by the activity model, in 0.1 W. -/
  other : Nat := 0
  /-- Lowest slack of a cluster's two monitors at its Quarter's present step, in 0.1 % (R439). -/
  slack : List (Nat × Int) := []
deriving DecidableEq, Repr

/-- Measurements of one link as it trains (Table 18.4). -/
structure LinkMeasure where
  /-- LANES or WIDTH. -/
  lanes : Nat := 0
  /-- RATE_MBPS or SPEED. -/
  rate : Nat := 0
  /-- SKEW_PS. -/
  skewPs : Nat := 0
  /-- LOSS_X10. -/
  lossX10 : Nat := 0
  /-- PARTNER_SPEED. -/
  pSpeed : Nat := 0
  /-- PARTNER_WIDTH. -/
  pWidth : Nat := 0
  /-- The partner is in LP-11. -/
  lp11 : Bool := false
deriving DecidableEq, Repr

/-- The commands of the block: one constructor per row of the opcode table, in the table's order. -/
inductive Instr where
  /-- CALEND (R25): The frame tick fires at a device-time instant meeting the period, phase and slew rules, and increments the frame number. -/
  | calend
  /-- TRIG_PULSE_START (R30): At Calend plus OFFSET_US the hub drives an enabled trigger output active. -/
  | trigPulseStart (k : Nat)
  /-- TRIG_PULSE_END (R30): After WIDTH_US, or at the next Calend if earlier, the hub returns the trigger to its inactive level. -/
  | trigPulseEnd (k : Nat)
  /-- SEASON_EPOCH (R28): At the epoch Calend Xiuth retires old plans and applies the scheduled Season and its new schedule. -/
  | seasonEpoch
  /-- EVE_CHECK (R308): At Eve Vigil A processes events stamped before Eve, fixes each listed P0 output's state and the frame outcome. -/
  | eveCheck
  /-- EVE_DEADLINE (R309): At Eve plus 150 µs an island that has not fixed its judgement reports FAILED and makes no edge. -/
  | eveDeadline
  /-- SAFE_EDGE (R296): An island toggles its SAFE output for a qualifying frame between Eve plus 10 µs and Eve plus 200 µs. -/
  | safeEdge (isl : Isl)
  /-- FRAME_REPORT_PUBLISH (R380): The hub publishes the previous frame's report in directory index 0 within 200 µs of the Calend. -/
  | frameReportPublish
  /-- NOP (R367): Mailbox command that does nothing and completes OK. -/
  | nop (e : SubEntry)
  /-- GET_EVENTS (R370): Copies and removes notification records oldest first into the host buffer. -/
  | getEvents (e : SubEntry)
  /-- SET_SEASON (R403): Schedules a Season change for an epoch Calend, subject to busy, range, restart and qualification checks. -/
  | setSeason (e : SubEntry)
  /-- SEASON_STORE (R399): Checks a Season image section by section and replaces the stored slot if it passes. -/
  | seasonStore (e : SubEntry) (flashFail : Bool)
  /-- SEASON_READ (R399): Returns a stored Season image unchanged. -/
  | seasonRead (e : SubEntry)
  /-- GET_SURROUNDINGS (R398): Returns the 512-byte surroundings report from the latest measurements. -/
  | getSurroundings (e : SubEntry)
  /-- GET_IDENTITY (R270): Returns the HUB_ID registers and the running firmware version. -/
  | getIdentity (e : SubEntry)
  /-- ATTEST (R422): Returns a signed attestation report over the nonce and the running state. -/
  | attest (e : SubEntry)
  /-- GET_CERTS (R421): Returns the alias and DeviceID certificate chain. -/
  | getCerts (e : SubEntry)
  /-- PLAN_LOAD (R384): Loads a plan image and reserves its result directory entries and buffers. -/
  | planLoad (e : SubEntry)
  /-- PLAN_ADMIT (R41): Checks a loaded plan's header, tables, variants, contexts and admission arithmetic and admits or refuses it. -/
  | planAdmit (e : SubEntry)
  /-- PLAN_SELECT (R47): Schedules a switch of an admitted plan to a named variant at Calend n+1 or n+2. -/
  | planSelect (e : SubEntry)
  /-- PLAN_RETIRE (R368): Retires an admitted plan at the next Calend, or unloads a loaded plan at once. -/
  | planRetire (e : SubEntry)
  /-- QUEUE_STATUS (R113): Returns one cluster's SEQ registers and its last 64 completion records. -/
  | queueStatus (e : SubEntry)
  /-- DATA_WRITE_CREATE (R187): Creates a weight region with optional reserve and marks all its tiles invalid. -/
  | dataWriteCreate (e : SubEntry)
  /-- DATA_WRITE_REWRITE (R369): Writes a whole weight region and its reserve and raises the weight generation by 1. -/
  | dataWriteRewrite (e : SubEntry)
  /-- DATA_WRITE_REPAIR (R186): Writes only invalid tiles of a weight region without changing its generation. -/
  | dataWriteRepair (e : SubEntry)
  /-- DATA_WRITE_DELETE (R369): Deletes a weight region unless a plan or map slot uses it. -/
  | dataWriteDelete (e : SubEntry)
  /-- DATA_READ (R367): Copies bytes as stored from a logical address to the host, unchecked. -/
  | dataRead (e : SubEntry)
  /-- DATA_CHECK (R191): Runs a hub CVU over a memory range and returns the check value and mismatch. -/
  | dataCheck (e : SubEntry)
  /-- STORE_RETAIN (R213): Puts all store dies into self-refresh with the given segment masks after invalidating lost segments. -/
  | storeRetain (e : SubEntry)
  /-- STORE_RESUME (R214): Returns the store dies to service and restores or invalidates lost tiles and sequences. -/
  | storeResume (e : SubEntry)
  /-- MAP_LOAD (R252): Copies and checks a road-map image into a map slot as a weight region. -/
  | mapLoad (e : SubEntry)
  /-- MAP_SELECT (R253): Schedules a loaded map slot to become active at Calend n+1 or n+2. -/
  | mapSelect (e : SubEntry)
  /-- MAP_STATUS (R254): Reports each map slot's state and MAP_ID. -/
  | mapStatus (e : SubEntry)
  /-- SEQ_DEFINE (R144): Creates a sequence descriptor after range and footprint checks. -/
  | seqDefine (e : SubEntry)
  /-- SEQ_EDIT_TRUNCATE (R162): Sets CUR_LEN to a value no greater than the current one and increments GEN. -/
  | seqEditTruncate (e : SubEntry)
  /-- SEQ_EDIT_SET_WINDOW (R162): Replaces the local window W and increments GEN. -/
  | seqEditSetWindow (e : SubEntry)
  /-- SEQ_EDIT_SET_GLOBALS (R162): Replaces the global runs under the run rules and increments GEN. -/
  | seqEditSetGlobals (e : SubEntry)
  /-- SEQ_EDIT_RESET (R162): Sets CUR_LEN and WRITTEN_LEN to 0, raises ARENA_GEN and increments GEN. -/
  | seqEditReset (e : SubEntry)
  /-- SEQ_READ (R367): Returns a 128-byte sequence descriptor. -/
  | seqRead (e : SubEntry)
  /-- SEQ_DELETE (R144): Deletes a sequence unless an admitted plan binds it. -/
  | seqDelete (e : SubEntry)
  /-- RESULT_RING_SET (R379): Sets up a result ring in host memory for a range of directory indices. -/
  | resultRingSet (e : SubEntry)
  /-- RESULT_RING_REMOVE (R379): Removes a result ring. -/
  | resultRingRemove (e : SubEntry)
  /-- RESULT_ACK (R379): Advances a result ring's HEAD without affecting slots. -/
  | resultAck (e : SubEntry)
  /-- RESULT_RING_STATUS (R379): Returns a result ring's tail, head, dropped and too-big counts. -/
  | resultRingStatus (e : SubEntry)
  /-- HEALTH_STATUS (R367): Returns all cluster health registers, Quarter status and health counts. -/
  | healthStatus (e : SubEntry)
  /-- FENCE_CLUSTER_FENCE (R325): Fences a cluster at once, voiding its armed work and abandoning any rotation test. -/
  | fenceClusterFence (e : SubEntry)
  /-- FENCE_CLUSTER_RELEASE (R325): Returns a fenced cluster to its previous state, or to QUARANTINED after a failed self-test. -/
  | fenceClusterRelease (e : SubEntry)
  /-- CLUSTER_RESTRICT_RESTRICT (R326): Moves a cluster from soft quarantine to RESTRICTED. -/
  | clusterRestrictRestrict (e : SubEntry)
  /-- CLUSTER_RESTRICT_UNRESTRICT (R326): Returns a RESTRICTED cluster to QUARANTINED. -/
  | clusterRestrictUnrestrict (e : SubEntry)
  /-- HEALTH_RESUME (R320): Ends a common-cause suspension of expulsion in one Quarter. -/
  | healthResume (e : SubEntry)
  /-- VIGIL_STATUS (R367): Returns both islands' status and restart registers. -/
  | vigilStatus (e : SubEntry)
  /-- VIGIL_DEBUG_ENABLE (R303): Enables an island's debug module, in the Service Season only. -/
  | vigilDebugEnable (e : SubEntry)
  /-- VIGIL_DEBUG_DISABLE (R303): Disables an island's debug module. -/
  | vigilDebugDisable (e : SubEntry)
  /-- GET_SAFETY_REPORT (R367): Returns injection, rotation, segment and test-debt registers. -/
  | getSafetyReport (e : SubEntry)
  /-- ALM_READ (R370): Copies whole Almanac records in SEQ order from FROM_SEQ into the host buffer. -/
  | almRead (e : SubEntry)
  /-- ALM_INFO (R367): Returns the code table of the running Xiuth image. -/
  | almInfo (e : SubEntry)
  /-- ALM_CLEAR (R355): Verifies an authorisation token and erases the Almanac, leaving a CLEAR record. -/
  | almClear (e : SubEntry) (flashFail : Bool)
  /-- UPD_LOAD (R408): Takes a part of an update image, checks the header before payloads and stages components on LAST. -/
  | updLoad (e : SubEntry) (relayFail : List Nat)
  /-- UPD_SCHEDULE (R413): Schedules the update handover at an epoch frame. -/
  | updSchedule (e : SubEntry)
  /-- UPD_CONFIRM (R416): Confirms the new firmware within the window and raises the security floor if requested. -/
  | updConfirm (e : SubEntry)
  /-- UPD_STATUS (R367): Returns the update state and running and pending versions. -/
  | updStatus (e : SubEntry)
  /-- UPD_CANCEL (R418): Discards a loaded or scheduled update, or brings a fallback forward during the window. -/
  | updCancel (e : SubEntry)
  /-- PWR_STATUS (R444): Returns the power and thermal report. -/
  | pwrStatus (e : SubEntry)
  /-- PWR_LIMIT (R430): Sets or removes a host power cap between 20 W and the Season cap. -/
  | pwrLimit (e : SubEntry)
  /-- EXPERT_UNLOCK_P3 (R381): Unlocks expert access in P3 scope in any Season. -/
  | expertUnlockP3 (e : SubEntry)
  /-- EXPERT_UNLOCK_SERVICE (R381): Unlocks expert access ignoring owner tags, in the Service Season only. -/
  | expertUnlockService (e : SubEntry)
  /-- EXPERT_LOCK (R381): Ends expert access. -/
  | expertLock (e : SubEntry)
  /-- SQ_TAIL_DOORBELL (R362): A host write of the submission tail is accepted or ignored with DOORBELL_ERR. -/
  | sqTailDoorbell (v : Nat)
  /-- CQ_HEAD_DOORBELL (R362): A host write of the completion head frees ring space or is ignored with DOORBELL_ERR. -/
  | cqHeadDoorbell (v : Nat)
  /-- SUBMISSION_FETCH (R363): Xiuth copies a submission entry within 10 µs of its doorbell and advances SQ_HEAD. -/
  | submissionFetch
  /-- COMPLETION_POST (R363): A waiting completion is written whole into the completion ring when room exists, then CQ_TAIL advances. -/
  | completionPost
  /-- REGISTER_WRITE (R7): A write to a register without its own row applies its access code, RWL locking and expert refusal. -/
  | registerWrite (addr : Nat) (size : Nat) (value : Nat)
  /-- FRAME_LO_READ (R26): A read of HUB_CAL_FRAME_LO latches frame number bits [47:32] into HUB_CAL_FRAME_HI. -/
  | frameLoRead
  /-- TIME_LO_READ (R217): A read of HUB_TIME_LO latches device time bits [63:32] into HUB_TIME_HI. -/
  | timeLoRead
  /-- ALM_HEAD_LO_READ (R349): A read of HUB_ALM_HEAD_LO latches head bits [47:32] into HUB_ALM_HEAD_HI. -/
  | almHeadLoRead
  /-- APERTURE_READ (R382): A host read of the store aperture returns bytes as stored, or all ones without expert access. -/
  | apertureRead (ofs : Nat) (len : Nat)
  /-- APERTURE_WRITE (R382): A host write of the store aperture changes bytes without updating checksums, if expert access allows. -/
  | apertureWrite (ofs : Nat) (bytes : List Byte)
  /-- CVU_START (R191): A write of HUB_CVU_CTRL with START clears status bits and begins a CVU run. -/
  | cvuStart (k : Nat) (ctrl : Nat)
  /-- CVU_DATA_WRITE (R193): A write to HUB_CVU_DATA during a data-port run hashes up to four bytes. -/
  | cvuDataWrite (k : Nat) (len : Nat) (value : Nat)
  /-- CVU_RUN_DONE (R191): A CVU run ends, sets RUN and RESULT, compares with EXPECT, or ends with FAULT on a refused read. -/
  | cvuRunDone (k : Nat)
  /-- INPUT_VOID_COMPLETE (R66): A head command with a VOID input completes without running and sends INPUT_VOID tokens. -/
  | inputVoidComplete (u : Nat) (ctx : Nat)
  /-- LOAD (R179): Load-engine command that checks and copies tiles into cluster SRAM, skipping resident valid tiles. -/
  | load (u : Nat) (ctx : Nat) (ph : Phys)
  /-- STORE (R117): Load-engine command that checks tiles in cluster SRAM and writes them out with a new generation. -/
  | store (u : Nat) (ctx : Nat) (ph : Phys)
  /-- SYNC (R114): Command that moves no data and only consumes and sends tokens. -/
  | sync (u : Nat) (ctx : Nat) (ph : Phys)
  /-- MATMUL (R115): Array command computing C = A·B with block-exact accumulation and ABFT checks. -/
  | matmul (u : Nat) (ctx : Nat) (ph : Phys)
  /-- MATMUL_DX (R115): Array command computing the activation gradient dC·Bᵀ. -/
  | matmulDx (u : Nat) (ctx : Nat) (ph : Phys)
  /-- MATMUL_DW (R115): Array command accumulating the weight gradient Aᵀ·dC into an FP32 buffer. -/
  | matmulDw (u : Nat) (ctx : Nat) (ph : Phys)
  /-- VEC (R108): Vector-unit elementwise or reduction command. -/
  | vec (u : Nat) (ctx : Nat) (ph : Phys)
  /-- SFU (R95): Special-function command evaluating f(SCALAR0·x + SCALAR1) within the error bounds. -/
  | sfu (u : Nat) (ctx : Nat) (ph : Phys)
  /-- OPT_STEP (R108): Vector-unit SGD-with-momentum update of master weights and momentum. -/
  | optStep (u : Nat) (ctx : Nat) (ph : Phys)
  /-- CONV (R129): Array convolution run as GROUPS matrix reductions with generated padding. -/
  | conv (u : Nat) (ctx : Nat) (ph : Phys)
  /-- CONV_FUSED (R136): Array command running a chain of 2 to 4 convolutions on one tile in two buffers. -/
  | convFused (u : Nat) (ctx : Nat) (ph : Phys)
  /-- DWCONV (R133): Vector-unit depthwise convolution. -/
  | dwconv (u : Nat) (ctx : Nat) (ph : Phys)
  /-- POOL (R133): Vector-unit max or average pooling. -/
  | pool (u : Nat) (ctx : Nat) (ph : Phys)
  /-- LAYOUT (R127): Vector-unit conversion between C16, C32, HWC and CHW layouts. -/
  | layout (u : Nat) (ctx : Nat) (ph : Phys)
  /-- NLE_CONV_IN (R141): NLE convolution of a few-channel input into up to 256 channels. -/
  | nleConvIn (u : Nat) (ctx : Nat) (ph : Phys)
  /-- NLE_CONV_OUT (R141): NLE convolution of a blocked map into up to 8 output channels. -/
  | nleConvOut (u : Nat) (ctx : Nat) (ph : Phys)
  /-- NLE_CROP (R142): NLE crop-and-resize of a box list into S×S blocked maps. -/
  | nleCrop (u : Nat) (ctx : Nat) (ph : Phys)
  /-- NLE_POOL (R141): NLE max, average or global-average pooling. -/
  | nlePool (u : Nat) (ctx : Nat) (ph : Phys)
  /-- NLE_RESAMPLE (R141): NLE 2× nearest or bilinear up-sampling. -/
  | nleResample (u : Nat) (ctx : Nat) (ph : Phys)
  /-- ATTN_STEP (R153): Walker command computing one layer of a step round and writing candidate slots. -/
  | attnStep (u : Nat) (ctx : Nat) (ph : Phys)
  /-- ATTN_PREFILL (R153): Walker command computing one layer of a prefill round and writing new positions. -/
  | attnPrefill (u : Nat) (ctx : Nat) (ph : Phys)
  /-- ATTN_COMMIT (R155): Walker command closing each listed round, compacting the accepted path and updating the descriptor. -/
  | attnCommit (u : Nat) (ctx : Nat) (ph : Phys)
  /-- FUS_EGO (R239): Fusion command estimating ego-motion between point clouds. -/
  | fusEgo (u : Nat) (ctx : Nat) (ph : Phys)
  /-- FUS_UPDATE (R243): Fusion command associating detection and free-space lists with tracks and updating them. -/
  | fusUpdate (u : Nat) (ctx : Nat) (ph : Phys)
  /-- FUS_PUBLISH (R245): Fusion command judging track life over the frame and writing the track list. -/
  | fusPublish (u : Nat) (ctx : Nat) (ph : Phys)
  /-- PLN_GRID (R257): Grid-loader command writing a new grid buffer with contested tracks stamped and raising GRID_GEN. -/
  | plnGrid (u : Nat) (ctx : Nat) (ph : Phys)
  /-- PLN_CHECK (R260): Checker-array command testing horizon edges and writing the top-8 candidate list. -/
  | plnCheck (u : Nat) (ctx : Nat) (ph : Phys)
  /-- PLN_COMMIT (R264): Checker-array command re-checking the top 8 and fallback on the newest grid and writing the trajectory. -/
  | plnCommit (u : Nat) (ctx : Nat) (ph : Phys)
  /-- COMMAND_COMPLETE (R113): A running command completes, sends tokens, returns credits and sends its completion record. -/
  | commandComplete (u : Nat) (ctx : Nat)
  /-- TOKEN_ARRIVAL (R63): A token reaches a unit and is stored, or discarded as stale or overflow. -/
  | tokenArrival (dst : Nat) (t : Token)
  /-- CREDIT_ARRIVAL (R64): A credit reaches a producer's unit and raises a counter, or is discarded. -/
  | creditArrival (dst : Nat) (c : Credit)
  /-- COMMAND_LAPSE (R68): An armed command of frame n not issued by Calend n+2 is removed with LAPSED VOID tokens. -/
  | commandLapse (u : Nat) (ctx : Nat)
  /-- CONTEXT_SWAP_START (R73): The sequencer starts a swap bringing in a ready non-resident context, or records starvation. -/
  | contextSwapStart (u : Nat) (ctx : Nat)
  /-- CONTEXT_SWAP_COMPLETE (R74): A swap completes within 20 µs and the incoming context becomes a candidate. -/
  | contextSwapComplete (u : Nat)
  /-- TWIN_NOTE (R120): A twin's note reaches the comparator, which releases both twins on agreement. -/
  | twinNote (u : Nat) (ctx : Nat)
  /-- RESULT_TOKEN (R376): The result unit takes an output token, checks and copies the tile and publishes the result slot. -/
  | resultToken (planId : Nat) (t : Token)
  /-- VARIANT_SWITCH (R47): An accepted PLAN_SELECT takes effect at its Calend for commands of the new frame. -/
  | variantSwitch (planId : Nat)
  /-- EXCLUSION_SWITCH (R49): At the Calend after a quarantine or fence Xiuth moves affected plans to the lowest avoiding variant. -/
  | exclusionSwitch (planId : Nat)
  /-- MAP_SWITCH (R253): An accepted MAP_SELECT makes its slot active at the scheduled Calend. -/
  | mapSwitch
  /-- QUARANTINE (R316): A decided expulsion takes effect at the next Calend, voiding the cluster's work and starting deep self-test. -/
  | quarantine (g : Nat)
  /-- DEFERRED_EXPULSION (R317): A deferred expulsion takes effect at the first Calend 10 s after the Quarter's previous expulsion. -/
  | deferredExpulsion (q : Nat)
  /-- HARD_FAULT (R318): A hard fault quarantines the cluster at once and sends a hard-fault event to Vigil A. -/
  | hardFault (g : Nat) (cause : Nat)
  /-- BUS_TIMEOUT (R318): A cluster transaction without completion within 50 µs is a hard fault. -/
  | busTimeout (g : Nat)
  /-- SEQ_HEARTBEAT (R319): A sequencer heartbeat reaches Xiuth and clears SUSPECT. -/
  | seqHeartbeat (u : Nat)
  /-- HEARTBEAT_DEADLINE (R319): At Calend plus 100 µs missing heartbeats are counted and DEAD or SUSPECT verdicts given after three. -/
  | heartbeatDeadline
  /-- CHECK_ATTRIBUTION (R312): Xiuth re-checks a stage-3 failed tile with a hub CVU before the next Eve and attributes the failure. -/
  | checkAttribution (k : Nat)
  /-- WEIGHT_REPAIR (R185): Xiuth copies a tile from its reserve to the primary in the BKG class. -/
  | weightRepair (addr : Nat)
  /-- CLEAN_RUN_CREDIT (R313): A cluster's clean-frame count reaches 1,000 and its score rises by 10. -/
  | cleanRunCredit (g : Nat)
  /-- PROBATION_END (R324): A cluster in PROBATION returns to IN_SERVICE after 10,000 clean frames. -/
  | probationEnd (g : Nat)
  /-- DEEP_SELF_TEST_START (R323): A quarantined or fenced cluster starts a deep self-test run every 10 s. -/
  | deepSelfTestStart (g : Nat)
  /-- DEEP_SELF_TEST_DONE (R323): A deep self-test run ends, moving the cluster to PROBATION or RETIRED on the pass or fail counts. -/
  | deepSelfTestDone (g : Nat) (pass : Bool) (lbist : Bool)
  /-- ROTATION_STEP_START (R334): A rotation step puts the cluster at the pointer IN_TEST, naming a substitute if needed. -/
  | rotationStepStart (q : Nat)
  /-- ROTATION_TEST_DONE (R334): A rotation LBIST ends within 35 ms, a failure being a hard fault. -/
  | rotationTestDone (q : Nat) (pass : Bool)
  /-- ROTATION_STEP_END (R334): At Calend n+4 the tested cluster returns to its previous state and the pointer advances. -/
  | rotationStepEnd (q : Nat)
  /-- HOLIDAY_SEGMENT_START (R339): A holiday test segment starts when slack, P0 and panic conditions allow. -/
  | holidaySegmentStart (kind : Nat) (item : Nat) (len : Nat)
  /-- HOLIDAY_SEGMENT_END (R341): A holiday segment ends and its pass or failure is recorded. -/
  | holidaySegmentEnd (pass : Bool) (flaky : List Nat)
  /-- SEGMENT_WATCHDOG (R340): A segment running past 60 µs is aborted and its resource returned. -/
  | segmentWatchdog
  /-- TEST_DEBT_WARNING (R342): A test kind's debt reaches 75 % of its interval. -/
  | testDebtWarning (kind : Nat)
  /-- TEST_OVERDUE (R342): A test kind's debt reaches 100 % and a test-overdue event is raised. -/
  | testOverdue (kind : Nat)
  /-- BUDGET_EXCEEDED (R306): A task's cycle count passes its budget, raising a budget event and throttling P1–P3 tasks. -/
  | budgetExceeded (u : Nat) (ctx : Nat) (count : Nat)
  /-- VIGIL_EVENT (R292): A unit's event enters the Vigil A queue through the filter, or is dropped on overflow. -/
  | vigilEvent (e : VgEvent)
  /-- VIGIL_WATCHDOG_EXPIRY (R290): A window watchdog not serviced in its window resets both cores of the island. -/
  | vigilWatchdogExpiry (w : WdogService)
  /-- VIGIL_HEARTBEAT_SEND (R291): Every 100 µs an island sends its partner a heartbeat with a state snapshot. -/
  | vigilHeartbeatSend (isl : Isl)
  /-- VIGIL_HEARTBEAT (R291): A partner heartbeat arrives, updating the kept snapshot and the clock comparison. -/
  | vigilHeartbeat (isl : Isl)
  /-- PEER_LOSS_TIMEOUT (R291): No heartbeat for 300 µs, or a clock or rail deviation, declares the partner lost. -/
  | peerLossTimeout (isl : Isl) (cause : Nat)
  /-- LOSS_NOTICE (R291): A partner's loss notice makes the island hold under PEER_LOST. -/
  | lossNotice (isl : Isl)
  /-- COMPARATOR_MISMATCH (R297): A lockstep mismatch halts both cores and starts a pair restart. -/
  | comparatorMismatch (isl : Isl) (group : Nat) (async : Bool)
  /-- RESTART_RETRY (R298): 1 ms after a failed restart the island tries again, holding with RESTART_FAIL after three. -/
  | restartRetry (isl : Isl)
  /-- ISLAND_RESET_RELEASE (R299): Release of VA_RST_N or VB_RST_N starts the island with a comparator test. -/
  | islandResetRelease (isl : Isl) (flagged : Nat) (clean : Bool)
  /-- ISLAND_BROWN_OUT (R298): An island's brown-out reset restarts it under the restart procedure. -/
  | islandBrownOut (isl : Isl)
  /-- VIGIL_INPUT_CHANGE (R300): A change on VA_IN or VB_IN is synchronised, reported and recorded. -/
  | vigilInputChange (isl : Isl) (level : Nat)
  /-- VIGIL_B_BREACH (R293): A rail, clock, temperature or partner condition is breached for its stated time. -/
  | vigilBBreach (item : Nat) (reading : Int)
  /-- READ_STATUS (R302): SPI command returning the latest complete status frame. -/
  | readStatus
  /-- HOLD (R302): SPI command holding both islands with BOARD_HOLD. -/
  | hold
  /-- RELEASE (R302): SPI command clearing BOARD_HOLD. -/
  | release
  /-- SPI_BAD_COMMAND (R302): An SPI command with a wrong CRC or unknown opcode is ignored and counted. -/
  | spiBadCommand (cmd : Nat) (arg : Nat) (crc : Nat)
  /-- DEBUG_ATTACH (R303): A debugger attaches to an island and holds its output with DEBUG. -/
  | debugAttach (isl : Isl)
  /-- DEBUG_REGISTER_WRITE (R304): A debugger register or CSR write is recorded in the replay buffer or refused as busy. -/
  | debugRegisterWrite (isl : Isl) (reg : Nat) (value : Nat)
  /-- DEBUG_RESUME (R304): The replay buffer is applied to the checker core and both cores resume together. -/
  | debugResume (isl : Isl)
  /-- DEBUG_DETACH (R304): At detach the island performs a pair restart before clearing DEBUG. -/
  | debugDetach (isl : Isl)
  /-- STORE_REQUEST (R199): A channel scheduler serves a queued granule request in priority order. -/
  | storeRequest (die : Nat) (ch : Nat)
  /-- REFRESH_DUE (R204): A bank's refresh interval expires and a row refresh is issued or postponed up to 4 intervals. -/
  | refreshDue (die : Nat) (ch : Nat) (bank : Nat)
  /-- REFRESH_WINDOW_RETURN (R203): After 1 s below the return point the refresh window lengthens. -/
  | refreshWindowReturn (die : Nat)
  /-- INGEST_WRITE (R209): Ingest data enters a store controller's write buffer, entering or leaving panic at thresholds. -/
  | ingestWrite (die : Nat) (bytes : Nat)
  /-- LEVEL_BROADCAST (R280): Every 256 cycles a store controller broadcasts its queue level to all requester ports. -/
  | levelBroadcast (die : Nat)
  /-- LEVEL_STALE (R282): A port without a broadcast from a die for 32 windows treats that die as red. -/
  | levelStale (port : Nat) (die : Nat)
  /-- TRANSACTION_ISSUE (R279): A requester port issues a store transaction when its count is below the effective limit. -/
  | transactionIssue (port : Nat) (r : StoreTx)
  /-- TRANSACTION_COMPLETE (R283): A store transaction completes and its port's outstanding count falls. -/
  | transactionComplete (port : Nat) (die : Nat) (cls : Nat)
  /-- BUCKET_REFILL (R287): Every 1 µs an enabled partition token bucket gains RATE_64B × 64 bytes. -/
  | bucketRefill
  /-- DELAY_UPDATE (R215): Xiuth writes new channel delays for a new temperature band in a refresh gap. -/
  | delayUpdate (die : Nat)
  /-- CSI2_FRAME_START (R223): A CSI-2 Frame Start opens a sample and stamps START. -/
  | csi2FrameStart (port : Nat) (vc : Nat) (frameNo : Nat)
  /-- CSI2_PACKET (R221): A CSI-2 packet is received, stored or discarded, and checked for damage. -/
  | csi2Packet (port : Nat) (p : CsiPacket)
  /-- CSI2_FRAME_END (R223): A CSI-2 Frame End stamps LAST and closes the sample's data. -/
  | csi2FrameEnd (port : Nat) (vc : Nat) (frameNo : Nat)
  /-- ETHERNET_FRAME (R222): An Ethernet frame goes to the time unit or a stream, or is discarded. -/
  | ethernetFrame (port : Nat) (f : EthFrame)
  /-- GAP_EXPIRY (R222): GAP_US of silence ends an Ethernet sample in GAP mode. -/
  | gapExpiry (k : Nat)
  /-- INGEST_TILE_MOVE (R226): The hub moves filled tiles from the staging ring to the store die in the RT class. -/
  | ingestTileMove (k : Nat)
  /-- SAMPLE_COMPLETE (R223): A sample's last tile and header are acknowledged and COMPLETE is stamped. -/
  | sampleComplete (k : Nat)
  /-- GPTP_SYNC (R218): A gPTP Sync exchange steers or steps device time toward the grandmaster. -/
  | gptpSync (offset : Int) (gm : Nat) (steps : Nat)
  /-- GPTP_HOLDOVER (R218): No Sync for 3 s puts device time into holdover. -/
  | gptpHoldover (lost : Bool)
  /-- ALMANAC_EVENT (R346): An event message to Xiuth creates, folds or drops an Almanac record. -/
  | almanacEvent (e : AlmMsg)
  /-- JOURNAL_FLUSH (R350): Due Almanac entries are programmed into the flash journal, retrying failed writes. -/
  | journalFlush (fail : FlushFail)
  /-- ALMANAC_SUMMARY (R353): Every 60 s Xiuth writes a summary record with drop and journal counts. -/
  | almanacSummary
  /-- SETTINGS_JOURNAL_WRITE (R396): Changed settings keys are written to the settings journal within 1 s, compacting at 75 %. -/
  | settingsJournalWrite
  /-- PORST_RELEASE (R386): Release of PORST_N is boot time 0 and starts boot stage 1. -/
  | porstRelease
  /-- PORST_ASSERT (R387): Assertion of PORST_N resets the device and releases THERMTRIP_N. -/
  | porstAssert
  /-- HUB_RAIL_LOW (R388): VDDIO_18 or VDD_HC below 90 % holds the device in reset until both recover. -/
  | hubRailLow
  /-- HUB_CLOCK_LOCK (R391): Boot stage 1 ends when hub clocks lock and the hub fuse block is read. -/
  | hubClockLock (fuseOk : Bool)
  /-- IMAGE_LOAD (R409): Boot stage 2: the boot ROM checks banks and loads Xiuth, which rebuilds the Almanac. -/
  | imageLoad (ph : BootPhys)
  /-- DISCOVERY (R272): Boot stage 3: settings, fuse identity, cluster discovery with LBIST and health restore. -/
  | discovery (ph : BootPhys)
  /-- DELAY_SETUP (R216): Boot stage 4: store delays set, test rows tested, check bitmaps cleared. -/
  | delaySetup (ph : BootPhys)
  /-- ERROR_INJECTION (R332): Boot stage 5: a fault is injected into every checker and each row recorded. -/
  | errorInjection (ph : BootPhys)
  /-- SEASON_SELECTION (R402): Boot stage 6: Xiuth selects and applies a Season, programs AVS and sweeps ageing margins. -/
  | seasonSelection (ph : BootPhys)
  /-- READY (R391): Boot stage 7: the device reports Ready and frames begin. -/
  | ready
  /-- PERST_RELEASE (R389): Release of PERST_N resets the PCIe endpoint and the host interface. -/
  | perstRelease
  /-- HOST_INTERFACE_RESET (R360): A Function Level Reset, hot reset or link-down resets mailbox, result rings, expert access and DMA. -/
  | hostInterfaceReset (kind : Nat)
  /-- PCIE_POWER_STATE (R360): Entry to or exit from D3hot stops or restarts device DMA and interrupts. -/
  | pciePowerState (d3 : Bool)
  /-- DMA_COMPLETION (R359): A completion to a device DMA read arrives, a bad one ending its command with HOST_DMA. -/
  | dmaCompletion (tag : Nat) (good : Bool)
  /-- DMA_TIMEOUT (R359): A device DMA read without completion within 50 ms ends its command with HOST_DMA. -/
  | dmaTimeout (tag : Nat)
  /-- PM_SAMPLE (R424): Every 1 ms the power manager forms pair readings, marks failed sensors and evaluates survival triggers. -/
  | pmSample (x : PmInput)
  /-- SURVIVAL_P0_STOP (R434): 20 ms after entry, power still above the survival cap stops P0 issue too. -/
  | survivalP0Stop
  /-- SURVIVAL_EXIT (R435): After 10 s of recovered conditions the device leaves SURVIVAL. -/
  | survivalExit
  /-- THERMTRIP (R426): Hardware asserts THERMTRIP_N when a pair reaches the trip temperature on 2 samples. -/
  | thermtrip
  /-- CAP_CONTROL (R431): Every 10 ms mean power is compared with the effective cap and warm hold or a DVFS step is adjusted. -/
  | capControl
  /-- DVFS_STEP_COMPLETE (R431): A Quarter's DVFS change completes after the regulator settles. -/
  | dvfsStepComplete (q : Nat)
  /-- CAP_LAW_UPDATE (R430): Every 100 ms the cap law and thermal-resistance estimates are updated. -/
  | capLawUpdate
  /-- COOLANT_READ (R455): Every 100 ms the device reads coolant temperature over I²C. -/
  | coolantRead (v : Option Int)
  /-- COOLANT_LOST (R427): No valid coolant reading for 1 s switches to the default or held value. -/
  | coolantLost
  /-- COOL_FLOW_PULSE (R452): A rising edge on COOL_FLOW is counted. -/
  | coolFlowPulse
  /-- FLOW_TIMEOUT (R434): No COOL_FLOW pulse for FLOW_TIMEOUT_MS with FLOW_MON set enters SURVIVAL. -/
  | flowTimeout
  /-- WARM_HOLD_ADJUST (R437): Every 100 ms the warm-hold load of each inactive Quarter is adjusted. -/
  | warmHoldAdjust
  /-- WARM_SHORT (R437): A Quarter below its warm target for 10 s sets WARM_SHORT. -/
  | warmShort (q : Nat)
  /-- RTH_JOURNAL (R429): Every 600 s Xiuth journals both thermal-resistance estimates. -/
  | rthJournal
  /-- AGEING_REPLAN (R441): Every 1,000 operating hours Xiuth raises AGE_OFFSET from slack minima and may lower MAX_STEP. -/
  | ageingReplan
  /-- UPDATE_EPOCH (R413): At the update epoch units switch banks seamlessly or the device restarts into the new bank. -/
  | updateEpoch
  /-- CONFIRM_WINDOW_EXPIRY (R417): The confirmation window ends without UPD_CONFIRM, rejecting the bank and scheduling a fallback. -/
  | confirmWindowExpiry
  /-- FALLBACK_EPOCH (R417): At the fallback epoch every unit reverts to its old bank. -/
  | fallbackEpoch
  /-- KEY_DERIVATION_DONE (R420): Background derivation of DeviceID and alias keys and certificates completes after Ready. -/
  | keyDerivationDone
  /-- ISLAND_RESET_ASSERT (R295): Assertion of VA_RST_N or VB_RST_N resets that island and sets its RESET hold. -/
  | islandResetAssert (isl : Isl)
  /-- PAIR_RESTART_DONE (R298): A pair restart that began up to 40 µs earlier ends, the island resumes work and clears RESTARTING. -/
  | pairRestartDone (isl : Isl) (flagged : Nat) (clean : Bool)
  /-- HUB_RAIL_RECOVER (R388): VDDIO_18 and VDD_HC both return above 90 % of nominal and the hub restarts from boot stage 1. -/
  | hubRailRecover
  /-- LINK_TRAINING (R398): A PCIe, Ethernet or CSI-2 link trains, and the device estimates its loss, length and partner settings. -/
  | linkTraining (link : Nat) (m : LinkMeasure)
  /-- ETH_LINK_DOWN (R398): An Ethernet MAC loses its link and its link-up flag clears. -/
  | ethLinkDown (mac : Nat)
  /-- DEBUG_HALT (R304): The debugger halts an island, and the debug module halts both cores on the same cycle. -/
  | debugHalt (isl : Isl)
  /-- DEBUG_SINGLE_STEP (R304): A debugger single step is applied to both cores of the pair. -/
  | debugSingleStep (isl : Isl)
  /-- DEBUG_MEMORY_WRITE (R304): A debugger memory write goes once to the island's shared SRAM. -/
  | debugMemoryWrite (isl : Isl) (addr : Nat) (bytes : List Byte)
  /-- ROW_CLOSE (R199): A channel closes an open row after 64 idle cycles. -/
  | rowClose (die : Nat) (ch : Nat) (bank : Nat)
deriving DecidableEq, Repr
end Sys2Proof
end

