-- ==== Sys2Proof/Decode.lean ====
section
/-!
DEFINITION. The opcode table gives no row of this block any bits (the commands are register accesses, mailbox entries, command
descriptors, messages and pin events), so no table word spells a command.
-/

namespace Sys2Proof

/-- The command a table word spells: none, since no row has bits. -/
def decodeTableWord (_nbits _w : Nat) : Option Instr := none

end Sys2Proof
end

