-- ==== Sys2Proof/Config.lean ====
section
/-!
DEFINITION. What an implementation fixes and the spec leaves open, and the free values. Each constant has no body, so no proof
can see what it is: a claim holds whatever it is.
-/

namespace Sys2Proof.Config

/-- A free number of at most `bits` bits: the value the spec leaves open at the draw numbered `n` (log 4). -/
opaque freeValue : Nat → Nat

/-- The FP32 bits the SFU's table and polynomial give for function `fn` at the operand `x` (FP32 bits). The model takes it only
where it lies within the bound of Table 4.6 (R95; log 13). -/
opaque sfu : Nat → Nat → Nat

/-- The FP32 bits of the walker's cosine (`false`) or sine (`true`) of an FP32 angle, taken where it lies within 2⁻²² of the
exact value (R159; log 13). -/
opaque walkerTrig : Bool → Nat → Nat

/-- The element bits of an FP6 or FP4 element under a block scale of 0xFF, by its format and its index (log 5). -/
opaque nanScaleBits : Nat → Nat → Nat

/-- The numeric CODE of an Almanac record kind, by its place in `AlmCode` (Table 16.1; ALM_INFO gives it; log 9). -/
opaque almCode : Nat → Nat

/-- The PAYLOAD bytes of a record, from its fields (Table 16.1; log 9). -/
opaque almPayload : Nat → List Nat → List Byte

/-- The code table of a Xiuth image, 32 bytes an entry (ALM_INFO; log 9). -/
opaque almInfo : List Byte → List Byte

/-- A byte of a word with more wrong bits than its SECDED code corrects: the wrong bits, the byte's address (log 47). -/
opaque wrongByte : Nat → Nat → Nat

/-- A register of an island's cores, which its firmware decides: the draw, the register (R289; log 49). -/
opaque coreReg : Nat → Nat → Nat

/-- What one instruction of an island's firmware leaves in a register: the draw, the register, its value before (R304; log 49). -/
opaque coreStep : Nat → Nat → Nat → Nat

/-- The point that stands for the points of one voxel (R239): FP32 bits of x, y, z. -/
opaque voxelPoint : List (List Nat) → List Nat

/-- The registration of a reduced cloud to the previous one from the previous delta (R239 step 3): whether the last iteration
moved less than the limits (0 or 1), whether the normal matrix is well conditioned (0 or 1), the inliers, then the FP32 bits of
the six components of the delta and of the 21 of its covariance. -/
opaque egoRegister : List (List Nat) → List (List Nat) → List Nat → List Nat

/-- The check of an SLH-DSA-SHA2-192s signature: public key, message, signature (log 26). -/
opaque slhOk : List Byte → List Byte → List Byte → Bool

/-- The Almanac authorisation keys that a type 0x08 payload holds: RSA modulus and SLH-DSA public key (log 26). -/
opaque almKeys : List Byte → List Byte × List Byte

/-- A signature the device makes: the key's seed, the algorithm (0 RSA-3072 PSS, 1 SLH-DSA-SHA2-192s), the draw, the body
(log 26). -/
opaque sign : List Byte → Nat → Nat → List Byte → List Byte

/-- The certificates of the alias keys: seed of the DeviceID keys, CDI₁, algorithm (log 26). -/
opaque aliasCert : List Byte → List Byte → Nat → List Byte

/-- The records of a Season section: its TYPE and body to the numbers and byte contents of each record, in the order of Table 18.5 (the
spec gives the sections' contents and no layout; log 34). -/
opaque seasonRecords : Nat → List Byte → List (List Int × List Byte)

/-- BODY_DIGEST of a factory Season, of which the spec gives the values and not the image (log 34). -/
opaque factoryDigest : Nat → List Byte

/-- The FORMAT in which a Xiuth firmware payload writes a class of the settings journal (log 34). -/
opaque settingsFmt : List Byte → Nat → Nat

/-- The further FORMATs of a class of the settings journal that a Xiuth firmware payload supports (log 34). -/
opaque settingsAlso : List Byte → Nat → Nat → Bool

/-- The qualification code of every revision tuple of Table 12.4, as final test fuses it (R277; log 38). -/
opaque finalQual : List Nat → Nat

/-- The further pairs of revision tuple and code in a type 0x07 payload (R277; log 38). -/
opaque qualPair : List Byte → List Nat → Nat → Bool

end Sys2Proof.Config
end

