-- ==== Sys2Proof/Machine/State.lean ====
section
/-!
DEFINITION. The state of the device, as plain data; what stops a run; and the state right after reset.
-/

namespace Sys2Proof.Machine

/-- A byte memory: the bytes that differ from what an unlisted address reads as (0), by rising address. -/
abbrev Memory := List Host.Cell

/-- The seven health states of a cluster (Table 14.1), in the order of their codes. -/
inductive CluState where
  | inService | inTest | probation | quarantined | fenced | restricted | retired
deriving DecidableEq, Repr

/-- Why the machine stops with a fault. No meaning of this block raises one: the spec gives every command an effect. -/
inductive Fault where
  /-- Raised by nobody. Safe. -/
  | none
deriving DecidableEq, Repr

/-- Why a command is refused. -/
inductive Refusal where
  /-- The command has no meaning yet: raised by `exec` alone. Safe. -/
  | notModelled (mnemonic : String)
deriving DecidableEq, Repr

/-- One sample of an ingest stream (R223-R231). -/
structure Sample where
  /-- SEQ (32 bit; 10 R223). -/
  seq : Nat := 0
  /-- generation of its tiles (16 bit; 10 R228). -/
  gen : Nat := 0
  /-- ring slot (4 bit; 10 R228). -/
  slot : Nat := 0
  /-- its ring slot is chosen (1 bit; 10 R228). -/
  placed : Bool := false
  /-- START (64 bit; 10 R223). -/
  start : Nat := 0
  /-- LAST (64 bit; 10 R223). -/
  last : Nat := 0
  /-- COMPLETE (64 bit; 10 R223). -/
  complete : Nat := 0
  /-- SENSOR_TS as received (64 bit; 10 R224). -/
  sensorTs : Nat := 0
  /-- INSTANT (64 bit; 10 R224). -/
  instant : Nat := 0
  /-- start of the last TRIG pulse before START, 0 for none (64 bit; 10 R224). -/
  trigTime : Nat := 0
  /-- bytes received (32 bit; 10 R226). -/
  bytes : Nat := 0
  /-- pixel rows received (14 bit; 10 R225). -/
  rows : Nat := 0
  /-- embedded lines received (3 bit; 10 R225). -/
  emb : Nat := 0
  /-- its data as stored from slot + 64 KiB on (-; 10 R226). -/
  data : List Byte := []
  /-- bytes moved to the store die (32 bit; 10 R226). -/
  moved : Nat := 0
  /-- cause of damage, 0 none (-; 10 R225). -/
  fail : Nat := 0
  /-- time of the latest frame of the sample (64 bit; 10 R222). -/
  lastAt : Nat := 0
deriving DecidableEq, Repr

/-- A token or credit on the control channel, not yet arrived (R62). dst is a RESOURCE_ID, or resultUnit for the hub result unit. -/
structure Flight where
  /-- RESOURCE_ID of the sender (32 bit; 03 R62). -/
  src : Nat := 0
  /-- RESOURCE_ID of the receiver (32 bit; 03 R62). -/
  dst : Nat := 0
  /-- the token, when the message is one (-; 03 R62). -/
  tok : Option Token := none
  /-- the credit, when the message is one (-; 03 R62). -/
  cred : Option Credit := none
  /-- plan of the sending context (the result unit finds the plan from it) (64 bit; 17 R376). -/
  planId : Nat := 0
  /-- device time of sending (64 bit; 03 R62). -/
  sentAt : Nat := 0
  /-- completion stamp of the producing command (64 bit; 17 R376). -/
  stamp : Nat := 0
deriving DecidableEq, Repr

/-- An armed command (R57): its descriptor beside the frame number the sequencer holds. -/
structure Armed where
  /-- frame number stamped at arming (48 bit; 03 R57). -/
  frame : Nat := 0
  /-- plan that holds the command (64 bit; 02 R50). -/
  planId : Nat := 0
  /-- TASK_ID (16 bit; 02 R50). -/
  task : Nat := 0
  /-- CMD_INDEX (12 bit; 03 R59). -/
  idx : Nat := 0
  /-- variant under which it was armed (2 bit; 02 R47). -/
  variant : Nat := 0
  /-- the descriptor bytes (64 B; 03 R59). -/
  desc : List Byte := []
deriving DecidableEq, Repr

/-- One output tile of a running command. -/
structure OutTile where
  /-- tile identifier of the descriptor, where the opcode gives one (32 bit; 02 R54). -/
  tileId : Nat := 0
  /-- generation of the tile (16 bit; 08 R173). -/
  gen : Nat := 0
  /-- stored tile checksum (32 bit; 08 R172). -/
  crc : Nat := 0
  /-- logical address (48 bit; 08 R172). -/
  addr : Nat := 0
  /-- tile bytes (16 bit; 08 R171). -/
  size : Nat := 256
deriving DecidableEq, Repr

/-- A sequence descriptor (Table 7.1), with what Xiuth keeps beside it. -/
structure SeqDesc where
  /-- the descriptor is in use (1 bit; 07 R144). -/
  valid : Bool := false
  /-- BASE (48 bit; 07 Table 7.1). -/
  base : Nat := 0
  /-- LAYER_STRIDE (32 bit; 07 Table 7.1). -/
  layerStride : Nat := 0
  /-- MAX_LEN (32 bit; 07 Table 7.1). -/
  maxLen : Nat := 0
  /-- CUR_LEN (32 bit; 07 Table 7.1). -/
  curLen : Nat := 0
  /-- WRITTEN_LEN (32 bit; 07 Table 7.1). -/
  writtenLen : Nat := 0
  /-- GEN (32 bit; 07 Table 7.1). -/
  gen : Nat := 0
  /-- ARENA_GEN (16 bit; 07 Table 7.1). -/
  arenaGen : Nat := 0
  /-- WINDOW (16 bit; 07 Table 7.1). -/
  window : Nat := 0
  /-- LAYERS (8 bit; 07 Table 7.1). -/
  layers : Nat := 0
  /-- HQ (8 bit; 07 Table 7.1). -/
  hq : Nat := 0
  /-- HKV (8 bit; 07 Table 7.1). -/
  hkv : Nat := 0
  /-- HEAD_DIM_32 (8 bit; 07 Table 7.1). -/
  headDim32 : Nat := 0
  /-- KV_FMT (8 bit; 07 Table 7.1). -/
  kvFmt : Nat := 0
  /-- LOG2_TILE_POS (8 bit; 07 Table 7.1). -/
  log2TilePos : Nat := 0
  /-- ROPE_DIM (16 bit; 07 Table 7.1). -/
  ropeDim : Nat := 0
  /-- ROPE_THETA (FP32 bits) (32 bit; 07 Table 7.1). -/
  ropeTheta : Nat := 0
  /-- ROPE_MODE (8 bit; 07 Table 7.1). -/
  ropeMode : Nat := 0
  /-- PARTITION (8 bit; 07 Table 7.1). -/
  part : Nat := 0
  /-- STATE.OPEN (1 bit; 07 Table 7.1). -/
  isOpen : Bool := false
  /-- STATE.PREFILL (1 bit; 07 Table 7.1). -/
  prefill : Bool := false
  /-- STATE.BROKEN (1 bit; 07 Table 7.1). -/
  broken : Bool := false
  /-- ROUND_T (16 bit; 07 Table 7.1). -/
  roundT : Nat := 0
  /-- NEXT_LAYER (8 bit; 07 Table 7.1). -/
  nextLayer : Nat := 0
  /-- TREE_CRC (32 bit; 07 Table 7.1). -/
  treeCrc : Nat := 0
  /-- tree record of the open round (16 B; 07 R155). -/
  parents : List Int := []
  /-- GLOBAL_RUNS in use (N_RUNS is their number) (16 x 32 bit; 07 R146). -/
  runs : List Nat := []
  /-- the words of GLOBAL_RUNS from N_RUNS on (16 x 32 bit; 07 Table 7.1). -/
  runRest : List Nat := []
  /-- stored edit (EDIT_PENDING): operation, value, runs (-; 07 R163). -/
  pendingEdit : Option (Nat × Nat × List Nat) := none
  /-- admitted plan that binds it (64 bit; 07 R145). -/
  boundPlan : Option Nat := none
  /-- task that binds it (16 bit; 07 R145). -/
  boundTask : Nat := 0
deriving DecidableEq, Repr

/-- Entries that a walker command writes into one layer of a sequence's region (R149). -/
structure ArenaWr where
  /-- the descriptor as the command latched it (-; 07 R153). -/
  desc : SeqDesc := {}
  /-- positions below which tiles are initialised (32 bit; 07 R149). -/
  written : Nat := 0
  /-- the layer (8 bit; 07 Table 7.3). -/
  layer : Nat := 0
  /-- positions with their bytes in each area (-; 07 R147). -/
  ents : List (Nat × List (List Byte)) := []
deriving DecidableEq, Repr

/-- A command that has issued and not completed (R58). -/
structure Run where
  /-- the command (-; 03 R58). -/
  cmd : Armed := {}
  /-- completion STATUS it will report: none is DONE (8 bit; 05 R113). -/
  status : Option VoidReason := none
  /-- arithmetic status byte (8 bit; 04 R94). -/
  arith : Nat := 0
  /-- UNIT_STATUS (32 bit; 05 R113). -/
  unitStatus : Nat := 0
  /-- output tiles in the order written (-; 02 R54). -/
  outs : List OutTile := []
  /-- a tile check failed, so it holds the credits of the tiles it read (1 bit; 03 R65). -/
  failed : Bool := false
  /-- cycles of its unit's clock, stalled ones included (64 bit; 13 R305). -/
  cycles : Nat := 0
  /-- stall cycles among them (64 bit; 12 R285). -/
  stall : Nat := 0
  /-- stall cycles by the RESOURCE_ID that caused them, 0 for a forerunner regulator (-; 12 Table 12.7). -/
  stallBy : List (Nat × Nat) := []
  /-- PANIC and AMBER_RED of its stall (8 bit; 12 Table 12.7). -/
  stallFlags : Nat := 0
  /-- cycles of X already counted in earlier frames (64 bit; 12 R285). -/
  chX : Nat := 0
  /-- stall cycles already counted in earlier frames (64 bit; 12 R285). -/
  chS : Nat := 0
  /-- what its twin note carries beside the header (checksums, latched GENs) (-; 05 R120). -/
  notes : List Nat := []
  /-- its note has reached the comparator (1 bit; 05 R120). -/
  noted : Bool := false
  /-- it may publish (always for a command outside twin mode) (1 bit; 05 R120). -/
  released : Bool := false
  /-- arena entries the primary writes on release (-; 07 R157). -/
  defer : List ArenaWr := []
  /-- descriptors written at completion (-; 07 R157). -/
  seqWr : List (Nat × SeqDesc) := []
  /-- device time of issue (64 bit; 03 R67). -/
  issuedAt : Nat := 0
  /-- execution units claimed from issue to completion (0 arrays, 1 vector, 2 SFU, 3 walker, 4 load engine, 5 engine, 6 grid loader) (-; 03 R66). -/
  unitsClaimed : List Nat := []
  /-- its tokens and credits are discarded: its cluster was fenced or quarantined while it ran (1 bit; 03 R69). -/
  quiet : Bool := false
  /-- sequences a walker command lists (-; 07 R154). -/
  seqIds : List Nat := []
deriving DecidableEq, Repr

/-- A completion record (Table 5.5). -/
structure Completion where
  /-- frame number of the command (48 bit; 05 R113). -/
  frame : Nat := 0
  /-- CMD_INDEX (16 bit; 05 R113). -/
  idx : Nat := 0
  /-- context (8 bit; 05 R113). -/
  ctx : Nat := 0
  /-- 0 DONE, 1-6 the VOID reasons (8 bit; 05 R113). -/
  status : Nat := 0
  /-- arithmetic status byte (8 bit; 05 R113). -/
  arith : Nat := 0
  /-- UNIT_STATUS (32 bit; 05 R113). -/
  unitStatus : Nat := 0
deriving DecidableEq, Repr

/-- One defined context of a unit (R71, R72). -/
structure Ctx where
  /-- plan that defines it (64 bit; 03 R70). -/
  planId : Nat := 0
  /-- task that occupies it (16 bit; 02 R51). -/
  task : Nat := 0
  /-- partition of the task (2 bit; 02 R50). -/
  part : Nat := 0
  /-- P0, or marked pinned (1 bit; 03 R72). -/
  pinned : Bool := false
  /-- 0 no twin, 1 primary, 2 secondary (2 bit; 05 R118). -/
  twin : Nat := 0
  /-- RESOURCE_ID of the twin cluster (32 bit; 05 R118). -/
  partner : Nat := 0
  /-- unused by the issue rule; set when a command lists a safety output (1 bit; 02 R34). -/
  safety : Bool := false
  /-- resident in the sequencer (1 bit; 03 R71). -/
  resident : Bool := false
  /-- armed commands, oldest first, the running one at the head (-; 03 R57). -/
  queue : List Armed := []
  /-- the running head command (-; 03 R58). -/
  run : Option Run := none
  /-- input token slots, tokens in order of FRAME (64 slots x 2; 03 R63). -/
  slots : Tbl (List Token) := []
  /-- current value of each credit counter (32 counters; 03 R64). -/
  credits : Tbl Nat := []
  /-- initial value of each credit counter, 1-4 (32 counters; 03 R64). -/
  creditInit : Tbl Nat := []
  /-- credits held until the next Calend after a failed check (-; 03 R65). -/
  held : List Flight := []
  /-- frame most recently armed on the context (48 bit; 03 R63). -/
  lastArmed : Nat := 0
  /-- issue count stamp of the last issue (64 bit; 03 R73). -/
  lastIssue : Nat := 0
  /-- has issued since it was swapped in (1 bit; 03 R73). -/
  issuedSinceIn : Bool := true
  /-- BUDGET of the task (32 bit; 02 R50). -/
  budget : Nat := 0
  /-- S_r of the task (32 bit; 12 R285). -/
  stallRef : Nat := 0
  /-- cycles counted for the task, by frame number (64 bit; 13 R305). -/
  count : Tbl Nat := []
  /-- a command of the task has completed in the current frame (1 bit; 12 R285). -/
  slowRan : Bool := false
  /-- X: unstalled cycles counted in the current frame (64 bit; 12 R285). -/
  slowX : Nat := 0
  /-- S: stall cycles counted in the current frame (64 bit; 12 R285). -/
  slowS : Nat := 0
  /-- S by the RESOURCE_ID that caused it, 0 for a forerunner regulator (-; 12 Table 12.7). -/
  slowBy : Tbl Nat := []
  /-- PANIC and AMBER_RED of the frame's stall (8 bit; 12 Table 12.7). -/
  slowFlags : Nat := 0
  /-- the unit's ports hold the task's class at its minimum (1 bit; 13 R306). -/
  throttled : Bool := false
  /-- the task stops when its running command completes (1 bit; 13 R306). -/
  stopPending : Bool := false
  /-- frame in which the task was stopped (48 bit; 13 R307). -/
  stopped : Option Nat := none
  /-- its plan is retired, or a switch has moved its slot off: it need not stay resident (1 bit; 03 R72). -/
  leaving : Bool := false
  /-- last frame whose task start event was sent (48 bit; 13 R292). -/
  started : Option Nat := none
  /-- a holiday segment has delayed the task in this frame (1 bit; 15 R339). -/
  delayedBy : Bool := false
  /-- last frame for which a budget event was raised (48 bit; 13 R306). -/
  overrun : Option Nat := none
deriving DecidableEq, Repr

/-- The sequencer part of a cluster, NLE or hub engine: contexts, queue and swap state (R57-R75). -/
structure SeqUnit where
  /-- defined contexts (32 (8 on an engine); 03 R71). -/
  ctxs : Tbl Ctx := []
  /-- context that last issued, by partition (4 x 5 bit; 03 R67). -/
  rr : Tbl Nat := []
  /-- count of issues, the order of "least recently issued" (-; 03 R73). -/
  issueSeq : Nat := 0
  /-- swap in progress: incoming, and evicted if any (SWAP_BUSY) (1 bit + 2 x 5 bit; 03 R73). -/
  swap : Option (Nat × Option Nat) := none
  /-- context brought in by the current or last swap (5 bit; 03 SEQ_SWAP_STATUS). -/
  inCtx : Nat := 0
  /-- context evicted by the current or last swap (5 bit; 03 SEQ_SWAP_STATUS). -/
  outCtx : Nat := 0
  /-- starvation episodes in the current frame (16 bit; 03 SEQ_SWAP_STATUS). -/
  starve : Nat := 0
  /-- waiting contexts with an open starvation episode (32 bit; 03 R75). -/
  starving : List Nat := []
  /-- stale tokens discarded since reset (8 bit; 03 SEQ_TOKEN_ERR). -/
  stale : Nat := 0
  /-- tokens and credits discarded for overflow since reset (8 bit; 03 SEQ_TOKEN_ERR). -/
  overflow : Nat := 0
  /-- last 64 completion records, newest last (64 x 16 B; 05 R113). -/
  records : List Completion := []
  /-- clusters whose tokens or credits it received in the current frame (288 bit; 14 R319). -/
  heardFrom : List Nat := []
  /-- heartbeat on its way to Xiuth, with the clusters it heard from in the previous frame (288 bit; 05 R113, 14 R319). -/
  hbOut : Option (List Nat) := none
  /-- active microcode bank (1 bit; 05 R113, 19 R411). -/
  ucBank : Nat := 0
  /-- contents of the two microcode banks (2 x 64 KiB; 05 Table 5.1, 19 R411). -/
  microcode : Tbl (List Byte) := []
  /-- the last relay into each bank matched its DIGEST (2 x 1 bit; 19 R411). -/
  relayOk : Tbl Bool := []
deriving DecidableEq, Repr

/-- Register counters of one cluster (CLU, LDE, WLK blocks). -/
structure Clu where
  /-- NAN_LOST_COUNT, this frame (8 bit; 04 CLU_ARITH_COUNT). -/
  arithNanLost : Nat := 0
  /-- INEXACT_COUNT, this frame (8 bit; 04 CLU_ARITH_COUNT). -/
  arithInexact : Nat := 0
  /-- NAN_COUNT, this frame (8 bit; 04 CLU_ARITH_COUNT). -/
  arithNan : Nat := 0
  /-- SAT_COUNT, this frame (8 bit; 04 CLU_ARITH_COUNT). -/
  arithSat : Nat := 0
  /-- DRAIN events (8 bit; 05 CLU_CHECK_COUNT). -/
  drain : Nat := 0
  /-- TOLERANCE events (8 bit; 05 CLU_CHECK_COUNT). -/
  tol : Nat := 0
  /-- SUM_ROW events (8 bit; 05 CLU_CHECK_COUNT). -/
  row : Nat := 0
  /-- SUM_COLUMN events (8 bit; 05 CLU_CHECK_COUNT). -/
  col : Nat := 0
  /-- ARRAY (4 bit; 05 CLU_ABFT_LAST). -/
  lastArray : Nat := 0
  /-- KIND (2 bit; 05 CLU_ABFT_LAST). -/
  lastKind : Nat := 0
  /-- ROW (10 bit; 05 CLU_ABFT_LAST). -/
  lastRow : Nat := 0
  /-- COLUMN (5 bit; 05 CLU_ABFT_LAST). -/
  lastCol : Nat := 0
  /-- CONTEXT (5 bit; 05 CLU_ABFT_LAST_CMD). -/
  lastCtx : Nat := 0
  /-- CMD_INDEX (12 bit; 05 CLU_ABFT_LAST_CMD). -/
  lastCmd : Nat := 0
  /-- FRAME_LO (32 bit; 05 CLU_ABFT_LAST_FRAME). -/
  lastFrame : Nat := 0
  /-- COMPARED, this frame (16 bit; 05 CLU_TWIN_COUNT). -/
  compared : Nat := 0
  /-- MISMATCH (8 bit; 05 CLU_TWIN_COUNT). -/
  mismatch : Nat := 0
  /-- STALL_CYCLES, this frame (32 bit; 05 CLU_SRAM_STALL). -/
  sramStall : Nat := 0
  /-- FAIL_COUNT (8 bit; 08 LDE_CHECK_COUNT). -/
  ldeFail : Nat := 0
  /-- RESERVE_COUNT (8 bit; 08 LDE_CHECK_COUNT). -/
  ldeReserve : Nat := 0
  /-- REFETCH_COUNT, this frame (16 bit; 08 LDE_CHECK_COUNT). -/
  ldeRefetch : Nat := 0
  /-- STAGE (2 bit; 08 LDE_CHECK_LAST). -/
  ldeLastStage : Nat := 0
  /-- ADDR (48 bit; 08 LDE_CHECK_LAST). -/
  ldeLastAddr : Nat := 0
  /-- BUSY (1 bit; 07 WLK_STATUS). -/
  wlkBusy : Bool := false
  /-- OPCODE (8 bit; 07 WLK_STATUS). -/
  wlkOpcode : Nat := 0
  /-- LAYER (8 bit; 07 WLK_STATUS). -/
  wlkLayer : Nat := 0
  /-- SEQ_ID (6 bit; 07 WLK_STATUS). -/
  wlkSeq : Nat := 0
  /-- CHECK_FAILS (8 bit; 07 WLK_COUNT). -/
  wlkCheckFails : Nat := 0
  /-- SEQ_ERRORS, this frame (8 bit; 07 WLK_COUNT). -/
  wlkSeqErrors : Nat := 0
  /-- EMPTY_ROWS, this frame (16 bit; 07 WLK_COUNT). -/
  wlkEmpty : Nat := 0
  /-- BUSY_CYCLES, this frame (32 bit; 07 WLK_BUSY_CYCLES). -/
  wlkBusyCycles : Nat := 0
deriving DecidableEq, Repr

/-- NLE registers of one Quarter. -/
structure Nle where
  /-- BUSY (1 bit; 06 NLE_STATUS). -/
  busy : Bool := false
  /-- CONTEXT (3 bit; 06 NLE_STATUS). -/
  ctx : Nat := 0
  /-- CMD_INDEX (12 bit; 06 NLE_STATUS). -/
  cmd : Nat := 0
  /-- OPCODE (8 bit; 06 NLE_STATUS). -/
  opcode : Nat := 0
  /-- DUP_MISMATCH (8 bit; 06 NLE_COUNT). -/
  dup : Nat := 0
  /-- EMPTY_BOXES, this frame (12 bit; 06 NLE_COUNT). -/
  empty : Nat := 0
  /-- CLIPPED_BOXES, this frame (12 bit; 06 NLE_COUNT). -/
  clipped : Nat := 0
  /-- BUSY_CYCLES, this frame (32 bit; 06 NLE_BUSY_CYCLES). -/
  busyCycles : Nat := 0
deriving DecidableEq, Repr

/-- A loaded or admitted frame plan (R40-R54, R368). -/
structure Plan where
  /-- PLAN_ID (64 bit; 02 R40). -/
  planId : Nat := 0
  /-- the whole image, header and body (-; 02 R40). -/
  image : List Byte := []
  /-- admitted, else only loaded (1 bit; 02 R42). -/
  admitted : Bool := false
  /-- active variant (2 bit; 02 R46). -/
  variant : Nat := 0
  /-- first frame it runs in (48 bit; 02 R28). -/
  startFrame : Nat := 0
  /-- accepted PLAN_SELECTs still to take effect: variant, frame of effect; one for a frame (2 x (2+48 bit); 02 R47). -/
  select : List (Nat × Nat) := []
  /-- PLAN_RETIRE accepted, effective at the next Calend (1 bit; 17 R368). -/
  retiring : Bool := false
  /-- retired; contexts freed once the last command has completed (1 bit; 03 R70). -/
  retired : Bool := false
  /-- built for the pending Season (1 bit; 18 R403). -/
  pendingSeason : Bool := false
  /-- first result directory index (10 bit; 17 R384). -/
  dirFirst : Nat := 0
deriving DecidableEq, Repr

/-- HUB_CAL: the Calend (R24-R39). -/
structure CalS where
  /-- PERIOD_100US (RWL) (10 bit; 02 HUB_CAL_CTRL). -/
  periodReg : Nat := 0x0FA
  /-- EVE_GUARD_US (RWL) (11 bit; 02 HUB_CAL_CTRL). -/
  eveGuardUs : Nat := 0x1F4
  /-- PHASE_US (RWL) (17 bit; 02 HUB_CAL_PHASE). -/
  phaseUs : Nat := 0
  /-- HOLIDAY_US (RWL) (12 bit; 02 HUB_CAL_HOLIDAY). -/
  holidayUs : Nat := 0x12C
  /-- frame number; 1 at the first Calend after Ready (48 bit; 02 HUB_CAL_FRAME_LO, R26). -/
  frame : Nat := 0
  /-- bits [47:32] latched by the last read of FRAME_LO (16 bit; 02 HUB_CAL_FRAME_HI). -/
  frameHi : Nat := 0
  /-- LAST_OUTCOME (3 bit; 02 HUB_CAL_STATUS). -/
  lastOutcome : Nat := 7
  /-- SLEWING (1 bit; 02 HUB_CAL_STATUS, R27). -/
  slewing : Bool := false
  /-- remaining phase error, held in ns, read in us (24 bit (us); 02 HUB_CAL_STATUS, R27). -/
  phaseErrNs : Int := 0
  /-- device time of the latest Calend (64 bit; 02 R25). -/
  calend : Nat := 0
  /-- device time of the Calend before it (64 bit; 10 R233). -/
  prevCalend : Nat := 0
  /-- device time of the next Calend, fixed at the latest one (64 bit; 02 R33). -/
  next : Nat := 0
  /-- Eve of the current frame (64 bit; 02 R33). -/
  eve : Nat := 0
  /-- outcome of the current frame once fixed (3 bit; 02 R34). -/
  outcome : Nat := 7
  /-- Xiuth has evaluated the current frame (1 bit; 14 R314). -/
  evalDone : Bool := true
  /-- first frame after an epoch Calend at which a Season was applied (1 bit; 13 Table 13.5). -/
  firstOfSeason : Bool := false
  /-- Eve of the previous frame (64 bit; 02 R35). -/
  prevEve : Nat := 0
  /-- the record of a phase error above 100 us is written, that of its end is not (1 bit; 02 R27). -/
  errNoted : Bool := false
deriving DecidableEq, Repr

/-- One trigger output and its HUB_TRIG_CFG register (R30). -/
structure Trig where
  /-- EN (1 bit; 02 HUB_TRIG_CFG). -/
  en : Bool := false
  /-- POL, true is active low (1 bit; 02 HUB_TRIG_CFG). -/
  pol : Bool := false
  /-- WIDTH_US (10 bit; 02 HUB_TRIG_CFG). -/
  widthUs : Nat := 0x064
  /-- OFFSET_US (20 bit; 02 HUB_TRIG_CFG). -/
  offsetUs : Nat := 0
  /-- the pulse is on (1 pin; 02 R30). -/
  active : Bool := false
  /-- driven (else high impedance, before a Season is applied) (1 bit; 21 R451). -/
  driven : Bool := false
  /-- start of the latest pulse (device time), for R224 (64 bit; 02 R30). -/
  pulseStart : Nat := 0
deriving DecidableEq, Repr

/-- Counts of one frame for the frame report (R380). -/
structure FrameStats where
  /-- P1-P3 outputs completed after Eve (32 bit; 17 Table 17.18). -/
  lateP1P3 : Nat := 0
  /-- commands still running at the next Calend (32 bit; 17 Table 17.18, 02 R36). -/
  overruns : Nat := 0
  /-- lapsed commands (32 bit; 03 R68). -/
  lapses : Nat := 0
  /-- starvation episodes (32 bit; 03 R75). -/
  starves : Nat := 0
  /-- PLAN_SELECTs overridden (16 bit; 02 R49). -/
  overrides : Nat := 0
  /-- Vigil A restarts (8 bit; 13 Table 13.5). -/
  restartsA : Nat := 0
  /-- Vigil B restarts (8 bit; 13 Table 13.5). -/
  restartsB : Nat := 0
  /-- re-fetches (32 bit; 08 R184). -/
  refetches : Nat := 0
  /-- reserve uses (32 bit; 08 R184). -/
  reserves : Nat := 0
  /-- stage-3 failures by memory: 0 cluster SRAM, 1 commons, 2 hub SRAM, 3 store (4 x 32 bit; 08 R184). -/
  stage3 : Tbl Nat := []
  /-- failures attributed to no cluster (32 bit; 14 R312). -/
  unattributed : Nat := 0
  /-- scrub bytes verified (64 bit; 17 Table 17.18). -/
  scrubBytes : Nat := 0
  /-- per cluster: STARVE, LAPSES, EVENTS (-; 17 Table 17.18). -/
  clu : Tbl (Nat × Nat × Nat) := []
  /-- DVFS step changes (16 bit; 20 Table 20.6). -/
  stepChanges : Nat := 0
  /-- time in SURVIVAL (16 bit; 20 Table 20.6). -/
  survivalMs : Nat := 0
  /-- highest power state reached (2 bit; 20 Table 20.6). -/
  pmStateMax : Nat := 0
  /-- sum of the 1 ms samples of P in 0.1 W (-; 20 Table 20.6). -/
  pSum : Nat := 0
  /-- how many samples (-; 20 Table 20.6). -/
  pCount : Nat := 0
  /-- checker disagreements (16 bit; 17 Table 17.18). -/
  disagrees : Nat := 0
deriving DecidableEq, Repr

/-- A weight region (R187, R369). -/
structure Region where
  /-- the region exists (1 bit; 08 R187). -/
  valid : Bool := false
  /-- BASE (48 bit; 08 R187). -/
  base : Nat := 0
  /-- SIZE (64 bit; 08 R187). -/
  size : Nat := 0
  /-- log2 of the tile size (8 bit; 08 R187). -/
  log2Tile : Nat := 8
  /-- partition (2 bit; 08 R187). -/
  part : Nat := 0
  /-- reserve base, or 0 (48 bit; 08 R187). -/
  reserve : Nat := 0
  /-- weight generation: 1 at creation, +1 at each complete rewrite (16 bit; 08 R173). -/
  gen : Nat := 0
  /-- map slot that uses it (1 bit; 11 R252). -/
  mapSlot : Option Nat := none
  /-- tiles that Xiuth has marked invalid and asked the host to reload, until they are written (-; 08 R186). -/
  asked : List Nat := []
deriving DecidableEq, Repr

/-- A fine-tile region of a store die (R176). -/
structure Fine where
  /-- first address (48 bit; 08 R176). -/
  base : Nat := 0
  /-- bytes (64 bit; 08 R176). -/
  size : Nat := 0
  /-- log2 of the tile size (8 bit; 08 R176). -/
  log2Tile : Nat := 8
  /-- address of the extension table (48 bit; 08 R176). -/
  ext : Nat := 0
  /-- keys of the plans, sequences and regions that it serves (-; 08 R176). -/
  users : List Nat := []
deriving DecidableEq, Repr

/-- One check-value unit of the hub (HUB_CVU). -/
structure Cvu where
  /-- BUSY (1 bit; 08 HUB_CVU_CTRL). -/
  busy : Bool := false
  /-- DONE (W1C) (1 bit; 08 HUB_CVU_CTRL). -/
  done : Bool := false
  /-- MISMATCH (W1C) (1 bit; 08 HUB_CVU_CTRL). -/
  mismatch : Bool := false
  /-- FAULT (W1C) (1 bit; 08 HUB_CVU_CTRL). -/
  fault : Bool := false
  /-- COMPARE, FINAL, CONT, SRC, SEQ4, FOLD_SEQ, FOLD_ADDR, POLY (10 bit; 08 HUB_CVU_CTRL). -/
  ctrl : Nat := 0
  /-- LEN (32 bit; 08 HUB_CVU_LEN). -/
  len : Nat := 0
  /-- SEQ (32 bit; 08 HUB_CVU_SEQ). -/
  seq : Nat := 0
  /-- ADDR (48 bit; 08 HUB_CVU_ADDR). -/
  addr : Nat := 0
  /-- RUN (64 bit; 08 HUB_CVU_RUN). -/
  run : Nat := 0
  /-- RESULT (64 bit; 08 HUB_CVU_RESULT). -/
  result : Nat := 0
  /-- EXPECT (64 bit; 08 HUB_CVU_EXPECT). -/
  expect : Nat := 0
  /-- bytes of LEN still to arrive through the data port (32 bit; 08 R193). -/
  left : Nat := 0
  /-- lower half of ADDR awaiting the upper (32 bit; 08 R193). -/
  loAddr : Nat := 0
  /-- lower half of RUN awaiting the upper (32 bit; 08 R193). -/
  loRun : Nat := 0
  /-- lower half of EXPECT awaiting the upper (32 bit; 08 R193). -/
  loExpect : Nat := 0
deriving DecidableEq, Repr

/-- A queued granule request of a store channel (R199). -/
structure Req where
  /-- requester port (-; 12 R279). -/
  port : Nat := 0
  /-- 0 RT, 1 SAF, 2 STD, 3 BKG (2 bit; 12 R278). -/
  cls : Nat := 0
  /-- per-Quarter address (33 bit; 09 R195). -/
  addr : Nat := 0
  /-- write (1 bit; 09 R199). -/
  wr : Bool := false
  /-- ingest write (1 bit; 09 R199). -/
  ingest : Bool := false
  /-- arrival time (64 bit; 09 R199). -/
  atT : Nat := 0
deriving DecidableEq, Repr

/-- One bank of a store channel. -/
structure Bank where
  /-- open row (11 bit; 09 R199). -/
  openRow : Option Nat := none
  /-- postponed refresh intervals (3 bit; 09 R204). -/
  postponed : Nat := 0
  /-- time of the last access, for the 64-cycle close (64 bit; 09 R199). -/
  lastUse : Nat := 0
  /-- neighbour rows awaiting a leap refresh (-; 09 R206). -/
  pending : List Nat := []
  /-- next row to refresh (11 bit; 09 R204). -/
  refRow : Nat := 0
  /-- cycle of the 900 MHz clock at which its running operation ends (64 bit; 09 R198). -/
  freeAt : Nat := 0
deriving DecidableEq, Repr

/-- One store channel. -/
structure Chan where
  /-- queued requests, oldest first (64 entries; 12 R280). -/
  queue : List Req := []
  /-- banks (32; 09 R194). -/
  banks : Tbl Bank := []
  /-- leap-refresh LFSR (32 bit; 09 R206). -/
  lfsr : Nat := 1
  /-- busy cycles counted up to busyTo, this frame (32 bit; 09 STC_CH_BUSY). -/
  busy : Nat := 0
  /-- cycle of the 900 MHz clock up to which busy cycles are counted (64 bit; 09 R201). -/
  busyTo : Nat := 0
  /-- DATA, this frame (32 bit; 09 STC_CH_DATA). -/
  data : Nat := 0
  /-- ACT, this frame (32 bit; 09 STC_CH_ACT). -/
  act : Nat := 0
  /-- RD_DLY (8 bit; 09 STC_DLY_CH). -/
  rd : Nat := 0
  /-- WR_DLY (8 bit; 09 STC_DLY_CH). -/
  wr : Nat := 0
  /-- CA_DLY (8 bit; 09 STC_DLY_CH). -/
  ca : Nat := 0
  /-- pattern that the last test left in the two test rows of every bank (-; 09 R194). -/
  testRows : Nat := 0
deriving DecidableEq, Repr

/-- One store controller (STC block). -/
structure Stc where
  /-- MASK of channel bits (RWL) (5 x 33 bit; 09 STC_XOR_CH). -/
  xorCh : List Nat := [0x008020080, 0x010040100, 0x020080200, 0x040100400, 0x080200800]
  /-- MASK of bank bits (RWL) (5 x 33 bit; 09 STC_XOR_BANK). -/
  xorBank : List Nat := [0x000401000, 0x000802000, 0x001004000, 0x002008000, 0x004010000]
  /-- LOG2_INV_P (RWL) (4 bit; 09 STC_LEAP_CFG). -/
  log2InvP : Nat := 7
  /-- WINDOW: 0 32 ms, 1 16 ms, 2 8 ms (2 bit; 09 STC_REF_STATUS). -/
  window : Nat := 0
  /-- OVERTEMP (1 bit; 09 STC_REF_STATUS). -/
  overtemp : Bool := false
  /-- POSTPONED_MAX, this frame (8 bit; 09 STC_REF_STATUS). -/
  postMax : Nat := 0
  /-- time since when the temperature has stayed below the return point (64 bit; 09 R203). -/
  belowSince : Option Nat := none
  /-- PANIC_ON (RWL) (4 bit; 09 STC_INGEST_CFG). -/
  panicOn : Nat := 0xC
  /-- PANIC_OFF (RWL) (4 bit; 09 STC_INGEST_CFG). -/
  panicOff : Nat := 0x4
  /-- PANIC (1 bit; 09 STC_INGEST_STATUS). -/
  panic : Bool := false
  /-- LEVEL in bytes (18 bit; 09 STC_INGEST_STATUS). -/
  level : Nat := 0
  /-- time at which panic was entered (or the Calend) (64 bit; 09 R210). -/
  panicSince : Nat := 0
  /-- time in panic in the current frame, held in ns (24 bit (us); 09 STC_INGEST_COUNT). -/
  panicNs : Nat := 0
  /-- ENTRIES, this frame (8 bit; 09 STC_INGEST_COUNT). -/
  entries : Nat := 0
  /-- RETAINING (1 bit; 09 STC_PASR_STATUS). -/
  retaining : Bool := false
  /-- RETAINED (8 bit; 09 STC_PASR_STATUS). -/
  retained : Nat := 0xFF
  /-- TEMP_C, held in half degrees (8 bit; 09 STC_DLY_STATUS). -/
  tempHalf : Int := 0
  /-- SOURCE: true is flash calibration (1 bit; 09 STC_DLY_STATUS). -/
  dlySource : Bool := false
  /-- BAND (8 bit; 09 STC_DLY_STATUS). -/
  band : Nat := 0
  /-- DLY_TRIM of the running Season for this die (4 bit; 18 Table 18.5). -/
  dlyTrim : Int := 0
  /-- LEAP_ROWS, this frame (32 bit; 09 STC_LEAP_COUNT). -/
  leapRows : Nat := 0
  /-- channels (32; 09 R194). -/
  chans : Tbl Chan := []
  /-- AMBER_ON (RWL) (6 bit; 12 STC_LEVEL_CFG). -/
  amberOn : Nat := 24
  /-- RED_ON (RWL; 64 is held as 64 and read as 0) (6 bit; 12 STC_LEVEL_CFG). -/
  redOn : Nat := 48
  /-- peak occupancy of the fullest queue in the current window (7 bit; 12 R280). -/
  peak : Nat := 0
  /-- bytes read by class, this frame (4 x 48 bit; 12 STC_BYTES_RD). -/
  bytesRd : Tbl Nat := []
  /-- bytes written by class, this frame (4 x 48 bit; 12 STC_BYTES_WR). -/
  bytesWr : Tbl Nat := []
  /-- commons bytes read by class, this frame (4 x 48 bit; 12 STC_COM_RD). -/
  comRd : Tbl Nat := []
  /-- commons bytes written by class, this frame (4 x 48 bit; 12 STC_COM_WR). -/
  comWr : Tbl Nat := []
deriving DecidableEq, Repr

/-- One ingest stream: its Season fields (Table 10.1) and its state (R220-R233). -/
structure Stream where
  /-- the Season defines the stream (1 bit; 10 R220). -/
  defd : Bool := false
  /-- 0 CSI-2, 1 Ethernet (1 bit; 10 Table 10.1). -/
  kind : Nat := 0
  /-- PORT (4 bit; 10 Table 10.1). -/
  port : Nat := 0
  /-- VC (4 bit; 10 Table 10.1). -/
  vc : Nat := 0
  /-- DT (8 bit; 10 Table 10.1). -/
  dt : Nat := 0
  /-- UDP_PORT (16 bit; 10 Table 10.1). -/
  udp : Nat := 0
  /-- WIDTH (14 bit; 10 Table 10.1). -/
  width : Nat := 0
  /-- HEIGHT (14 bit; 10 Table 10.1). -/
  height : Nat := 0
  /-- EMB_LINES (3 bit; 10 Table 10.1). -/
  embLines : Nat := 0
  /-- BOUNDARY: true is GAP (1 bit; 10 Table 10.1). -/
  gapMode : Bool := false
  /-- END_OFS (11 bit; 10 Table 10.1). -/
  endOfs : Nat := 0
  /-- END_MASK (8 bit; 10 Table 10.1). -/
  endMask : Nat := 1
  /-- GAP_US (14 bit; 10 Table 10.1). -/
  gapUs : Nat := 20
  /-- STAGE_64K (5 bit; 10 Table 10.1). -/
  stage64k : Nat := 1
  /-- RING_BASE (48 bit; 10 Table 10.1). -/
  ringBase : Nat := 0
  /-- SLOTS (4 bit; 10 Table 10.1). -/
  slots : Nat := 3
  /-- SLOT_STRIDE (29 bit; 10 Table 10.1). -/
  stride : Nat := 0x20000
  /-- TILE_LOG2 (5 bit; 10 Table 10.1). -/
  tileLog2 : Nat := 8
  /-- TS_SRC (2 bit; 10 Table 10.1). -/
  tsSrc : Nat := 0
  /-- TS_OFS (12 bit; 10 Table 10.1). -/
  tsOfs : Nat := 0
  /-- TS_UNIT (1 bit; 10 Table 10.1). -/
  tsUnit : Nat := 0
  /-- TRIG (8 bit; 10 Table 10.1). -/
  trig : Nat := 0xFF
  /-- MAX_RATE (10 bit; 10 Table 10.1). -/
  maxRate : Nat := 1
  /-- SEQ of the latest sample, damaged or complete (32 bit; 10 HUB_ING_SEQ). -/
  seq : Nat := 0
  /-- DAMAGED (8 bit; 10 HUB_ING_ERR). -/
  damaged : Nat := 0
  /-- OVERFLOW (8 bit; 10 HUB_ING_ERR). -/
  overflow : Nat := 0
  /-- DROPPED_RETAIN (8 bit; 10 HUB_ING_ERR). -/
  dropRetain : Nat := 0
  /-- LATE (8 bit; 10 HUB_ING_ERR). -/
  late : Nat := 0
  /-- samples opened since Ready (32 bit; 10 R228). -/
  opened : Nat := 0
  /-- the open sample (-; 10 R223). -/
  cur : Option Sample := none
  /-- samples closed and not yet complete, oldest first (-; 10 R226). -/
  closing : List Sample := []
  /-- the latest complete sample (-; 10 R225). -/
  latest : Option Sample := none
  /-- the complete sample before it (-; 10 R31). -/
  prev : Option Sample := none
  /-- the sample of the current frame's input set (-; 10 R31). -/
  snap : Option Sample := none
  /-- SEQ of the previous frame's entry (REPEAT) (32 bit; 10 Table 10.4). -/
  prevSnapSeq : Nat := 0
  /-- a sample was damaged since the previous Calend (1 bit; 10 Table 10.4). -/
  damagedSince : Bool := false
deriving DecidableEq, Repr

/-- A pose of the vehicle in O at the instant of a cloud (R240), FP32 bits. -/
structure Pose where
  /-- instant (64 bit; 10 R240). -/
  t : Nat := 0
  /-- x (32 bit; 10 R240). -/
  x : Nat := 0
  /-- y (32 bit; 10 R240). -/
  y : Nat := 0
  /-- z (32 bit; 10 R240). -/
  z : Nat := 0
  /-- roll (32 bit; 10 R240). -/
  roll : Nat := 0
  /-- pitch (32 bit; 10 R240). -/
  pitch : Nat := 0
  /-- yaw (32 bit; 10 R240). -/
  yaw : Nat := 0
deriving DecidableEq, Repr

/-- One entry of the track table (R240-R246). Numbers are FP32 bits. -/
structure Track where
  /-- the entry is in use (1 bit; 10 R246). -/
  used : Bool := false
  /-- TRACK_ID, 0 for a candidate (32 bit; 10 R246). -/
  id : Nat := 0
  /-- 0 candidate, 1 tentative, 2 confirmed (2 bit; 10 R245). -/
  life : Nat := 0
  /-- time of the state (64 bit; 10 R241). -/
  t : Nat := 0
  /-- state p_x v_x a_x p_y v_y a_y (6 x 32 bit; 10 R241). -/
  x : List Nat := []
  /-- covariance, row by row (36 x 32 bit; 10 R241). -/
  p : List Nat := []
  /-- LENGTH WIDTH HEIGHT YAW (4 x 32 bit; 10 R242). -/
  ext : List Nat := []
  /-- class (4 bit; 10 R242). -/
  cls : Nat := 0
  /-- CONTESTED (1 bit; 10 R245). -/
  contested : Bool := false
  /-- consecutive frames without contradiction (5 bit; 10 R245). -/
  clean : Nat := 0
  /-- consecutive misses (8 bit; 10 R245). -/
  misses : Nat := 0
  /-- frame in which it became tentative (AGE) (48 bit; 10 R248). -/
  born : Nat := 0
  /-- newest first, per frame: sensors that hit, sensors that contradicted, clean hit (-; 10 R245). -/
  hist : List (Nat × Nat × Bool) := []
  /-- sensors that gave a hit in the current frame (16 bit; 10 R245). -/
  hits : Nat := 0
  /-- sensors whose free space contradicted it in the current frame (16 bit; 10 R244). -/
  contra : Nat := 0
deriving DecidableEq, Repr

/-- The fusion engine (R234-R248). -/
structure Fus where
  /-- BUSY (1 bit; 10 HUB_FUS_STATUS). -/
  busy : Bool := false
  /-- CONTEXT (3 bit; 10 HUB_FUS_STATUS). -/
  ctx : Nat := 0
  /-- CMD_INDEX (12 bit; 10 HUB_FUS_STATUS). -/
  cmd : Nat := 0
  /-- GREEDY, this frame (8 bit; 10 HUB_FUS_COUNT). -/
  greedy : Nat := 0
  /-- OUT_OF_ORDER, this frame (8 bit; 10 HUB_FUS_COUNT). -/
  outOfOrder : Nat := 0
  /-- SKIPPED, this frame (8 bit; 10 HUB_FUS_COUNT). -/
  skipped : Nat := 0
  /-- DUP_MISMATCH (8 bit; 10 HUB_FUS_COUNT). -/
  dup : Nat := 0
  /-- track table (1,024; 10 R246). -/
  tracks : Tbl Track := []
  /-- poses, newest first (-; 10 R240). -/
  poses : List Pose := []
  /-- previous reduced cloud (-; 10 R239). -/
  prevCloud : List (List Nat) := []
  /-- its INSTANT (64 bit; 10 R239). -/
  prevInstant : Option Nat := none
  /-- previous delta (6 x 32 bit; 10 R239). -/
  prevDelta : List Nat := []
  /-- latest valid delta with its DT (6 x 32 bit + 64; 10 R240). -/
  validDelta : List Nat := []
  /-- the frame's delta is invalid (1 bit; 10 R240). -/
  egoInvalid : Bool := false
  /-- next TRACK_ID (32 bit; 10 R246). -/
  nextId : Nat := 1
  /-- detections taken in the current frame (14 bit; 10 R236). -/
  taken : Nat := 0
  /-- frame of the latest FUS_EGO or FUS_UPDATE, whose counts and lists it holds (48 bit; 10 R236). -/
  frame : Nat := 0
  /-- frame of the latest FUS_PUBLISH (48 bit; 10 R247). -/
  pubFrame : Nat := 0
  /-- a FUS_UPDATE has run since the start of cold start (1 bit; 10 R247). -/
  updated : Bool := false
  /-- frames with a FUS_PUBLISH since the first FUS_UPDATE, to 5 (3 bit; 10 R247). -/
  publishes : Nat := 0
  /-- free-space lists received in the frame: sensor, TIME, ranges, ORIGIN_X, ORIGIN_Y, AZ0 (-; 10 R244). -/
  free : List (Nat × Nat × List Nat × Nat × Nat × Nat) := []
  /-- Season sensor table: kind, FREE_CONFIDENT, default variances (16; 10 R236). -/
  sensors : Tbl (Nat × Bool × List Nat) := []
  /-- GATE_POS 9.21 (32 bit; 10 Table 10.11). -/
  gatePos : Nat := 0x41135C29
  /-- GATE_POSVEL 13.28 (32 bit; 10 Table 10.11). -/
  gatePosVel : Nat := 0x41547AE1
  /-- Q_JERK per class; an unlisted class has 1.0 (16 x 32 bit; 10 Table 10.11). -/
  qJerk : Tbl Nat := []
  /-- INIT_VAR_V 100 (32 bit; 10 Table 10.11). -/
  initVarV : Nat := 0x42C80000
  /-- INIT_VAR_A 25 (32 bit; 10 Table 10.11). -/
  initVarA : Nat := 0x41C80000
  /-- MISS_LIMIT (5 bit; 10 Table 10.11). -/
  missLimit : Nat := 5
  /-- TRACE_LIMIT 25 (32 bit; 10 Table 10.11). -/
  traceLimit : Nat := 0x41C80000
  /-- CONTEST_CLEAR (5 bit; 10 Table 10.11). -/
  contestClear : Nat := 3
  /-- FREE_MARGIN 1.0 m (32 bit; 10 Table 10.11). -/
  freeMargin : Nat := 0x3F800000
  /-- FREE_MAX_DT (8 bit; 10 Table 10.11). -/
  freeMaxDtMs : Nat := 50
  /-- EGO_MIN_INLIERS (17 bit; 10 Table 10.11). -/
  egoMinInliers : Nat := 2000
  /-- EGO_INFLATE 4.0 (32 bit; 10 Table 10.11). -/
  egoInflate : Nat := 0x40800000
  /-- hits for birth (4 bit; 10 Table 10.10). -/
  birthM : Nat := 2
  /-- frames for birth (4 bit; 10 Table 10.10). -/
  birthN : Nat := 3
  /-- clean hits for confirmation from two kinds (4 bit; 10 Table 10.10). -/
  confM2 : Nat := 3
  /-- clean hits for confirmation from one kind (4 bit; 10 Table 10.10). -/
  confM1 : Nat := 4
  /-- frames for confirmation (4 bit; 10 Table 10.10). -/
  confN : Nat := 5
  /-- Season default covariance (21 x 32 bit; 10 R239). -/
  egoCov : List Nat := []
deriving DecidableEq, Repr

/-- One road-map slot (R252-R254). -/
structure MapSlot where
  /-- SLOT_LOADED (1 bit; 11 HUB_PLN_STATUS). -/
  loaded : Bool := false
  /-- MAP_ID (64 bit; 11 R252). -/
  mapId : Nat := 0
  /-- the image as loaded (also stored in the region) (-; 11 R252). -/
  image : List Byte := []
deriving DecidableEq, Repr

/-- One grid buffer (R257). -/
structure Grid where
  /-- generation it holds, 0 for none (32 bit; 11 R257). -/
  gen : Nat := 0
  /-- BUF_BAD (1 bit; 11 HUB_PLN_STATUS). -/
  bad : Bool := false
  /-- INSTANT (64 bit; 11 R255). -/
  instant : Nat := 0
  /-- occupancy slices then cost layer (1.5 MiB; 11 R255). -/
  cells : List Byte := []
deriving DecidableEq, Repr

/-- The planning engine (R249-R266). -/
structure Pln where
  /-- CHECK_BUSY (1 bit; 11 HUB_PLN_STATUS). -/
  checkBusy : Bool := false
  /-- GRID_BUSY (1 bit; 11 HUB_PLN_STATUS). -/
  gridBusy : Bool := false
  /-- NEWEST_BUF (1 bit; 11 HUB_PLN_STATUS). -/
  newest : Nat := 0
  /-- CONTEXT (3 bit; 11 HUB_PLN_STATUS). -/
  ctx : Nat := 0
  /-- CMD_INDEX (12 bit; 11 HUB_PLN_STATUS). -/
  cmd : Nat := 0
  /-- ACTIVE_SLOT (1 bit; 11 HUB_PLN_STATUS). -/
  active : Nat := 0
  /-- MAP_VALID (1 bit; 11 HUB_PLN_STATUS). -/
  mapValid : Bool := false
  /-- GRID_GEN (32 bit; 11 HUB_PLN_GEN). -/
  gridGen : Nat := 0
  /-- FALLBACKS, this frame (8 bit; 11 HUB_PLN_COUNT). -/
  fallbacks : Nat := 0
  /-- CONTEST_OVER, this frame (8 bit; 11 HUB_PLN_COUNT). -/
  contestOver : Nat := 0
  /-- DISAGREE (8 bit; 11 HUB_PLN_COUNT). -/
  disagree : Nat := 0
  /-- DUP_MISMATCH (8 bit; 11 HUB_PLN_COUNT). -/
  dup : Nat := 0
  /-- CHECKER (12 bit; 11 HUB_PLN_LAST_DISAGREE). -/
  lastChecker : Nat := 0
  /-- BUSY_CYCLES, this frame (32 bit; 11 HUB_PLN_BUSY_CYCLES). -/
  busyCycles : Nat := 0
  /-- map slots (2; 11 R252). -/
  slots : Tbl MapSlot := []
  /-- grid buffers (2; 11 R257). -/
  grids : Tbl Grid := []
  /-- accepted MAP_SELECTs still to take effect: slot, frame of effect; one for a frame (2 x (1+48 bit); 11 R253). -/
  select : List (Nat × Nat) := []
  /-- free bit and cost of every horizon position of the last PLN_CHECK, 0 the cost of a blocked one (262,144 x (1+32 bit); 11 R260). -/
  edges : List (Bool × Nat) := []
  /-- running checker command: buffer, generation, map slot (2 where no slot is active) (-; 11 R260). -/
  latched : Option (Nat × Nat × Nat) := none
  /-- map slot and frame of the top-8 lists not yet read by their PLN_COMMIT (-; 11 R254). -/
  unread : List (Nat × Nat) := []
  /-- STAMP_MARGIN 0.5 m (32 bit; 11 R258). -/
  stampMargin : Nat := 0x3F000000
deriving DecidableEq, Repr

/-- One RGL instance. -/
structure Rgl where
  /-- BASE_RT (RWL) (8 bit; 12 RGL_OT_BASE). -/
  baseRT : Nat := 64
  /-- BASE_SAF (RWL) (8 bit; 12 RGL_OT_BASE). -/
  baseSAF : Nat := 32
  /-- BASE_STD (RWL) (8 bit; 12 RGL_OT_BASE). -/
  baseSTD : Nat := 24
  /-- BASE_BKG (RWL) (8 bit; 12 RGL_OT_BASE). -/
  baseBKG : Nat := 8
  /-- STD_MIN (RWL) (8 bit; 12 RGL_OT_MIN). -/
  stdMin : Nat := 2
  /-- BKG_MIN (RWL) (8 bit; 12 RGL_OT_MIN). -/
  bkgMin : Nat := 2
  /-- stale levels by port and die, at port*4+die: time of the latest warning record (STALE) (-; 12 R282). -/
  stale : Tbl Nat := []
  /-- LEVEL: latest level of each die (4 x 2 bit; 12 RGL_LEVEL_STATUS). -/
  level : Tbl Nat := []
  /-- device time of the last broadcast from each die (4 x 64 bit; 12 R282). -/
  lastLevel : Tbl Nat := []
  /-- EN (RWL) (3 x 1 bit; 12 RGL_TB_CFG). -/
  tbEn : Tbl Bool := []
  /-- BURST_KIB (RWL) (3 x 12 bit; 12 RGL_TB_CFG). -/
  tbBurst : Tbl Nat := []
  /-- RATE_64B (RWL) (3 x 16 bit; 12 RGL_TB_CFG). -/
  tbRate : Tbl Nat := []
  /-- bytes in the bucket (3 x 32 bit; 12 R287). -/
  tbLevel : Tbl Nat := []
  /-- SLOW_REPORT_X256 (RWL, instance 0) (16 bit; 12 RGL_SLOW_CFG). -/
  slowReport : Nat := 282
deriving DecidableEq, Repr

/-- Identity: fuses and HUB_ID (R270-R277). -/
structure Ident where
  /-- SERIAL (fuse) (64 bit; 12 HUB_ID_SERIAL). -/
  serial : Nat := 0
  /-- PRODUCT, GRADE, VARIANT (fuse) (16 bit; 12 HUB_ID_TYPE). -/
  hwType : Nat := 0x5110
  /-- revisions of Q0-Q3 as recorded in the hub (fuse) (4 x 8 bit; 12 HUB_ID_REV_Q). -/
  revQ : Tbl Nat := [(0,0x10),(1,0x10),(2,0x10),(3,0x10)]
  /-- revisions of S0-S3 as recorded in the hub (fuse) (4 x 8 bit; 12 HUB_ID_REV_S). -/
  revS : Tbl Nat := [(0,0x01),(1,0x01),(2,0x01),(3,0x01)]
  /-- REV_HUB (fuse) (8 bit; 12 HUB_ID_REV_HUB). -/
  revHub : Nat := 0x01
  /-- QUAL_CODE (fuse) (16 bit; 12 HUB_ID_REV_HUB). -/
  qualCode : Nat := 0
  /-- fused populated-slot map (4 bit; 12 R271). -/
  slotMapFuse : Nat := 0xF
  /-- the CRC of the hub fuse block passes (1 bit; 18 R394). -/
  hubFuseOk : Bool := true
  /-- slot number fused in each die (keys 0-3 Q, 4-7 S; unlisted reads 0) (8 x 2 bit; 12 R271). -/
  dieSlot : Tbl Nat := [(1,1),(2,2),(3,3),(5,1),(6,2),(7,3)]
  /-- revision fused in each die (8 x 8 bit; 12 R271). -/
  dieRev : Tbl Nat := [(0,0x10),(1,0x10),(2,0x10),(3,0x10),(4,1),(5,1),(6,1),(7,1)]
  /-- the stack answers with a good fuse block (4 bit; 12 R271). -/
  stackOk : Tbl Bool := [(0,true),(1,true),(2,true),(3,true)]
  /-- SLOT_MAP (4 bit; 12 HUB_ID_STATUS). -/
  slotMap : Nat := 0
  /-- PRESENT (4 bit; 12 HUB_ID_STATUS). -/
  present : Nat := 0
  /-- UNQUALIFIED (1 bit; 12 HUB_ID_STATUS). -/
  unqualified : Bool := false
  /-- MISMATCH (1 bit; 12 HUB_ID_STATUS). -/
  mismatch : Bool := false
  /-- ABSENT (1 bit; 12 HUB_ID_STATUS). -/
  absent : Bool := false
  /-- FEATURES (32 bit; 12 HUB_ID_FEATURES). -/
  features : Nat := 0
  /-- P0 plans are refused with 0x0C (1 bit; 12 Table 12.2). -/
  p0Refused : Bool := false
  /-- blown bits of the security-version floor (64 bit thermometer; 19 R410). -/
  floor : Nat := 0
  /-- key slot digests (4 x 48 B; 19 R406). -/
  keyDigest : Tbl (List Byte) := []
  /-- revoke bits (4 bit; 19 R406). -/
  keyRevoked : Tbl Bool := []
  /-- unique device secret; readable by the boot ROM only (256 bit; 19 R419). -/
  uds : List Byte := []
  /-- locked against every reader (1 bit; 19 R419). -/
  udsLocked : Bool := false
  /-- factory delay base per channel (die*32+ch): RD, WR, CA (128 x 24 bit; 09 R215). -/
  dlyBase : Tbl (Nat × Nat × Nat) := []
  /-- factory delay offset per channel and band (128 x 33; 09 R215). -/
  dlyTable : Tbl (Tbl Int) := []
  /-- V_BASE(q,k) in mV at q*5+k (20 x 10 bit; 20 R438). -/
  vBase : Tbl Nat := []
deriving DecidableEq, Repr

/-- An island's persistent state as its heartbeat carries it (R291). -/
structure IslSnap where
  /-- the frame it works on (48 bit; 13 R291). -/
  frame : Nat := 0
  /-- events Vigil A has processed (-; 13 R291). -/
  events : List VgEvent := []
  /-- queue entries, from the oldest on, that the state covers (14 bit; 13 R292). -/
  covers : Nat := 0
  /-- Vigil B: a condition of Table 13.2 was breached since the previous Eve (1 bit; 13 R293). -/
  breached : Bool := false
  /-- Vigil B: one was breached after Eve, before the frame was judged (1 bit; 13 R293). -/
  breachedNext : Bool := false
deriving DecidableEq, Repr

/-- One Vigil island (R289-R309). -/
structure Island where
  /-- SAFE_LEVEL (1 pin; 13 HUB_VG_STATUS). -/
  safe : Bool := false
  /-- HOLD[29] DEBUG (1 bit; 13 HUB_VG_STATUS). -/
  hDebug : Bool := false
  /-- HOLD[28] CMP_FAIL (1 bit; 13 HUB_VG_STATUS). -/
  hCmpFail : Bool := false
  /-- HOLD[27] PEER_LOST (1 bit; 13 HUB_VG_STATUS). -/
  hPeerLost : Bool := false
  /-- HOLD[26] BOARD_HOLD (1 bit; 13 HUB_VG_STATUS). -/
  hBoard : Bool := false
  /-- HOLD[25] RESTART_FAIL (1 bit; 13 HUB_VG_STATUS). -/
  hRestartFail : Bool := false
  /-- HOLD[24] RESET (1 bit; 13 HUB_VG_STATUS). -/
  hReset : Bool := false
  /-- RESTARTING (1 bit; 13 HUB_VG_STATUS). -/
  restarting : Bool := false
  /-- PEER_DEBUG (1 bit; 13 HUB_VG_STATUS). -/
  peerDebug : Bool := false
  /-- IN (3 bit; 13 HUB_VG_STATUS). -/
  inp : Nat := 0
  /-- TOGGLES (16 bit; 13 HUB_VG_STATUS). -/
  toggles : Nat := 0
  /-- FLAGGED (64 bit; 13 HUB_VG_CMP). -/
  flagged : Nat := 0
  /-- ASYNC (8 bit; 13 HUB_VG_RESTART). -/
  rAsync : Nat := 0
  /-- OTHER (8 bit; 13 HUB_VG_RESTART). -/
  rOther : Nat := 0
  /-- WDOG (8 bit; 13 HUB_VG_RESTART). -/
  rWdog : Nat := 0
  /-- LAST_GROUP (6 bit; 13 HUB_VG_RESTART). -/
  lastGroup : Nat := 0
  /-- its cores run (its reset input is released) (1 bit; 13 R289). -/
  running : Bool := false
  /-- failed restarts in a row (2 bit; 13 R298). -/
  fails : Nat := 0
  /-- a failed restart waits 1 ms to retry (1 bit; 13 R298). -/
  waiting : Bool := false
  /-- time at which it failed (64 bit; 13 R298). -/
  failedAt : Nat := 0
  /-- heartbeat on the link to the partner, with its snapshot (-; 13 R291). -/
  hbOut : Option IslSnap := none
  /-- a loss notice of the partner is on the link to this island (1 bit; 13 R291). -/
  noticeIn : Bool := false
  /-- its own restart waits until the partner has resumed (1 bit; 13 R298). -/
  deferred : Bool := false
  /-- cause of the current restart: 0 mismatch, 1 asynchronous mismatch, 2 watchdog or brown-out, 3 debug detach (2 bit; 13 R298). -/
  cause : Nat := 0
  /-- time of the last watchdog service (64 bit; 13 R290). -/
  lastWdog : Nat := 0
  /-- time of the last heartbeat received (64 bit; 13 R291). -/
  lastHb : Nat := 0
  /-- time since when heartbeats have arrived again (64 bit; 13 Table 13.3). -/
  hbSince : Option Nat := none
  /-- the partner's comparator test has passed since the loss (1 bit; 13 Table 13.3). -/
  peerCmpOk : Bool := false
  /-- the partner was lost at some time since the previous Eve (1 bit; 13 R294). -/
  lostSinceEve : Bool := false
  /-- latest snapshot of the partner's persistent state (-; 13 R291). -/
  snapshot : Option IslSnap := none
  /-- its judgement of the current frame is fixed (1 bit; 13 R309). -/
  judged : Bool := false
  /-- the judged frame qualifies for an edge (1 bit; 13 R293). -/
  good : Bool := false
  /-- the edge of the current frame has been made (1 bit; 13 R296). -/
  edged : Bool := false
  /-- debug is enabled (1 bit; 13 R303). -/
  debugEn : Bool := false
  /-- a debugger is attached (1 bit; 13 R303). -/
  attached : Bool := false
  /-- both cores are halted (1 bit; 13 R304). -/
  halted : Bool := false
  /-- a detach owes the pair restart that clears DEBUG: 1 it has not begun, 2 it is under way (2 bit; 13 R304). -/
  detach : Nat := 0
  /-- replay buffer: register, value (256 entries; 13 R304). -/
  replay : List (Nat × Nat) := []
  /-- the model's own: which free values the registers and CSRs of both cores hold where no debug write has set them (-; 13 R289). -/
  regSeed : Nat := 0
  /-- registers and CSRs of the main core that debug writes have set, by debug register number (32 bit each; 13 R304). -/
  regsMain : Tbl Nat := []
  /-- registers and CSRs of the checker core that the replay has set (32 bit each; 13 R304). -/
  regsChk : Tbl Nat := []
  /-- shared SRAM (512 KiB; 13 R289). -/
  sram : Tbl Byte := []
  /-- stored bits of an SRAM word, by address / 4, that are wrong: 32 data bits, then 7 SECDED check bits (39 bit each; 13 R289). -/
  wrongBits : Tbl Nat := []
  /-- single steps applied to both cores (-; 13 R304). -/
  steps : Nat := 0
  /-- last debugger write ended with an abstract-command busy error (1 bit; 13 R304). -/
  abstractBusy : Bool := false
  /-- the first start after reset release has been tested (1 bit; 13 R299). -/
  cmpTestDone : Bool := false
deriving DecidableEq, Repr

/-- What the two islands share: the event queue, Vigil A's output states, the SPI link. -/
structure Vg where
  /-- event queue, oldest first (8,192 x 16 B; 13 R292). -/
  queue : List VgEvent := []
  /-- queue entries, from the oldest on, that Vigil A has processed (14 bit; 13 R292). -/
  processed : Nat := 0
  /-- PEAK, this frame (14 bit; 13 HUB_VG_QUEUE). -/
  queuePeak : Nat := 0
  /-- OVERFLOW, this frame (1 bit; 13 HUB_VG_QUEUE). -/
  queueOvf : Bool := false
  /-- events Vigil A has processed for the current frame (-; 13 R308). -/
  events : List VgEvent := []
  /-- P0_OVERRUN, this frame (8 bit; 13 HUB_VG_BUDGET). -/
  p0Overrun : Nat := 0
  /-- THROTTLES, this frame (12 bit; 13 HUB_VG_BUDGET). -/
  throttles : Nat := 0
  /-- STOPS, this frame (12 bit; 13 HUB_VG_BUDGET). -/
  stops : Nat := 0
  /-- BREACH, this frame (13 bit; 13 HUB_VG_RAIL). -/
  rail : Nat := 0
  /-- a condition of Table 13.2 was breached since the previous Eve (1 bit; 13 R293). -/
  breached : Bool := false
  /-- one was breached after Eve, before the frame was judged (1 bit; 13 R293). -/
  breachedNext : Bool := false
  /-- a holiday failure makes every frame FAILED until reset (1 bit; 15 R341). -/
  holidayFailed : Bool := false
  /-- BAD_CMDS (8 bit; 13 Table 13.5). -/
  badCmds : Nat := 0
  /-- latest complete status frame (32 B; 13 R302). -/
  statusFrame : List Byte := []
  /-- bytes shifted out on VB_SPI_MISO by the last READ_STATUS (32 B; 13 R302). -/
  spiOut : List Byte := []
  /-- fixed state of each listed output: PLAN_ID, output, Table 2.2 value (-; 13 R308). -/
  outStates : List (Nat × Nat × Nat) := []
  /-- highest Tj in the frame, 0.5 C (16 bit; 13 Table 13.5). -/
  tjMaxFrame : Int := 0
  /-- THERMTRIP_N asserted (1 pin; 20 R426). -/
  tripped : Bool := false
deriving DecidableEq, Repr

/-- A command that ran on a cluster, as R315 looks it up. -/
structure RanCmd where
  /-- frame number it carries (48 bit; 14 R315). -/
  frame : Nat := 0
  /-- plan (64 bit; 14 R315). -/
  planId : Nat := 0
  /-- context (5 bit; 14 R315). -/
  ctx : Nat := 0
  /-- CMD_INDEX (8 bit; 14 R315). -/
  idx : Nat := 0
  /-- it failed a check (1 bit; 14 R315). -/
  failed : Bool := false
deriving DecidableEq, Repr

/-- Health of one cluster (HUB_HLT_CLUg). -/
structure Health where
  /-- STATE (3 bit; 14 HUB_HLT_CLU). -/
  state : CluState := .inService
  /-- DEFERRED (1 bit; 14 HUB_HLT_CLU). -/
  deferred : Bool := false
  /-- SUSPECT (1 bit; 14 HUB_HLT_CLU). -/
  suspect : Bool := false
  /-- PASSES (2 bit; 14 HUB_HLT_CLU). -/
  passes : Nat := 0
  /-- TEST_FAILS (4 bit; 14 HUB_HLT_CLU). -/
  fails : Nat := 0
  /-- SCORE (10 bit; 14 HUB_HLT_CLU). -/
  score : Nat := 0
  /-- CLEAN (10 bit; 14 HUB_HLT_CLU). -/
  clean : Nat := 0
  /-- consecutive clean frames in PROBATION (-; 14 R324). -/
  cleanRun : Nat := 0
  /-- state before a fence or a rotation test (3 bit; 14 R325). -/
  prior : CluState := .inService
  /-- a deep self-test failed while FENCED (1 bit; 14 R325). -/
  fenceFail : Bool := false
  /-- the quarantine came from a hard fault (1 bit; 14 R326). -/
  hardQ : Bool := false
  /-- quarantine decided, effective at this frame's Calend (48 bit; 14 R316). -/
  decided : Option Nat := none
  /-- order of the decision among deferred clusters (64 bit; 14 R317). -/
  decidedAt : Nat := 0
  /-- frames disputed and counted (-; 14 R316). -/
  disputed : List Nat := []
  /-- commands that completed with DONE or a failed check in the present frame and the one before (-; 14 R315). -/
  ran : List RanCmd := []
  /-- disputed events not yet classified: frame, plan, context, CMD_INDEX, Almanac SEQ (-; 14 R315). -/
  dispEvents : List (Nat × Nat × Nat × Nat × Nat) := []
  /-- a deep self-test run is in progress (1 bit; 14 R323). -/
  testing : Bool := false
  /-- start of the last deep self-test run (64 bit; 14 R323). -/
  lastTest : Option Nat := none
  /-- consecutive frames with a missing heartbeat (2 bit; 14 R319). -/
  hbMissing : Nat := 0
  /-- the heartbeat of the current frame has arrived (1 bit; 14 R319). -/
  hbSeen : Bool := false
  /-- frame of the last token, credit or completion record from the cluster (-; 14 R319). -/
  active : Nat := 0
  /-- answered at discovery (1 bit; 12 R272). -/
  answers : Bool := true
  /-- rows of Table 14.2 charged for the current frame (-; 14 R311). -/
  chargedRows : List Nat := []
  /-- charged in the current frame (1 bit; 14 R313). -/
  charged : Bool := false
  /-- a DEAD verdict stands, until a heartbeat arrives (1 bit; 14 R319). -/
  dead : Bool := false
deriving DecidableEq, Repr

/-- Health of one Quarter (HUB_HLT_Qq). -/
structure HltQ where
  /-- SUSPENDED (1 bit; 14 HUB_HLT_Q). -/
  suspended : Bool := false
  /-- EXHAUSTED (1 bit; 14 HUB_HLT_Q). -/
  exhausted : Bool := false
  /-- time of the last expulsion (64 bit; 14 HUB_HLT_Q). -/
  lastExpel : Option Nat := none
deriving DecidableEq, Repr

/-- An event Xiuth has not yet evaluated (R314). -/
structure HEvent where
  /-- stamp (64 bit; 14 R314). -/
  atT : Nat := 0
  /-- row of Table 14.2: 0 array, 1 twin, 2 checksum, 3 ageing, 4 engine, 5 checker (-; 14 R311). -/
  row : Nat := 0
  /-- RESOURCE_ID charged (32 bit; 14 R311). -/
  unit : Nat := 0
  /-- frame number the event carries (48 bit; 14 R314). -/
  frame : Nat := 0
  /-- event kind of the signature: 0-3 array kinds, 4 TWIN, 5 CHECKSUM (-; 14 R320). -/
  kind : Nat := 0
  /-- opcode of the signature (8 bit; 14 R320). -/
  opcode : Nat := 0
  /-- plan of the command (64 bit; 14 R315). -/
  planId : Nat := 0
  /-- context (5 bit; 14 R315). -/
  ctx : Nat := 0
  /-- CMD_INDEX (12 bit; 14 R315). -/
  idx : Nat := 0
  /-- SEQ of its Almanac record (48 bit; 14 R315). -/
  almSeq : Nat := 0
deriving DecidableEq, Repr

/-- A stage-3 failure Xiuth has still to attribute (an entry; none at reset) (R312). -/
structure TileFail where
  /-- address of the tile (48 bit; 14 R312). -/
  loc : Nat := 0
  /-- log2 of its size (5 bit; 14 R312). -/
  log2 : Nat := 8
  /-- generation it was checked with (16 bit; 14 R312). -/
  gen : Nat := 0
  /-- RESOURCE_ID of the reader (32 bit; 14 R312). -/
  unit : Nat := 0
  /-- opcode of the reader's command (8 bit; 14 R320). -/
  opcode : Nat := 0
  /-- its frame (48 bit; 14 R314). -/
  frame : Nat := 0
  /-- the tile was valid when the reader met it (1 bit; 14 R312). -/
  valid : Bool := false
deriving DecidableEq, Repr

/-- Rotation of one Quarter (HUB_ST_ROTq). -/
structure Rot where
  /-- STEP_ACTIVE (1 bit; 15 HUB_ST_ROT). -/
  active : Bool := false
  /-- SUBSTITUTED (1 bit; 15 HUB_ST_ROT). -/
  substituted : Bool := false
  /-- CLUSTER (7 bit; 15 HUB_ST_ROT). -/
  pointer : Nat := 0
  /-- SUBSTITUTE (7 bit; 15 HUB_ST_ROT). -/
  substitute : Nat := 0
  /-- SKIPPED (8 bit; 15 HUB_ST_ROT). -/
  skipped : Nat := 0
  /-- frame of Calend n of the step (48 bit; 15 R334). -/
  startFrame : Nat := 0
  /-- LBIST of the step has passed, at this time (64 bit; 15 R334). -/
  passed : Option Nat := none
  /-- last pass of each cluster (72 x 64 bit; 15 R342). -/
  lastPass : Tbl Nat := []
deriving DecidableEq, Repr

/-- A holiday segment in progress (R338). -/
structure Seg where
  /-- kind 1-5 (3 bit; 15 Table 15.4). -/
  kind : Nat := 0
  /-- item within the kind (-; 15 R340). -/
  item : Nat := 0
  /-- start time (64 bit; 15 R340). -/
  start : Nat := 0
  /-- declared length in ns (-; 15 R339). -/
  len : Nat := 0
  /-- store die that the segment holds whole (source of scrub) (2 bit; 15 R338). -/
  die : Option Nat := none
deriving DecidableEq, Repr

/-- Safety-test state (HUB_ST). -/
structure St where
  /-- time of Ready, when every item counts as passed (64 bit; 15 R342). -/
  readyAt : Nat := 0
  /-- DONE (1 bit; 15 HUB_ST_INJ). -/
  injDone : Bool := false
  /-- FAIL_ANY (1 bit; 15 HUB_ST_INJ). -/
  injFail : Bool := false
  /-- PASS (16 bit; 15 HUB_ST_INJ). -/
  injPass : Nat := 0
  /-- rotation by Quarter (4; 15 HUB_ST_ROT). -/
  rot : Tbl Rot := []
  /-- ABORTS (8 bit; 15 HUB_ST_SEG). -/
  aborts : Nat := 0
  /-- RUN, this frame (8 bit; 15 HUB_ST_SEG). -/
  run : Nat := 0
  /-- BUSY_US, this frame, held in ns (16 bit (us); 15 HUB_ST_SEG). -/
  busyNs : Nat := 0
  /-- segment in progress (-; 15 R338). -/
  seg : Option Seg := none
  /-- last pass of each item, at kind*4096+item; an unlisted item passed at Ready (64 bit each; 15 R342). -/
  lastPass : Tbl Nat := []
  /-- consecutive aborts of each item (-; 15 R340). -/
  abortRun : Tbl Nat := []
  /-- frame of each item's last abort (48 bit each; 15 R340). -/
  abortFrame : Tbl Nat := []
  /-- last test of each item, at kind*4096+item; an unlisted item counts as tested at Ready (64 bit each; 15 R339). -/
  lastTest : Tbl Nat := []
  /-- STATE by kind (6 x 2 bit; 15 HUB_ST_DEBT). -/
  debtState : Tbl Nat := []
  /-- FAILS (8 bit; 08 HUB_SCRUB_STATUS). -/
  scrubFails : Nat := 0
  /-- CYCLE_S (16 bit; 08 HUB_SCRUB_STATUS). -/
  scrubCycleS : Nat := 0
  /-- bytes verified in the current cycle (PERCENT) (-; 08 HUB_SCRUB_STATUS). -/
  scrubDone : Nat := 0
  /-- start of the current scrub cycle (64 bit; 08 R188). -/
  scrubStart : Nat := 0
  /-- quota Q of the frame (-; 08 R188). -/
  scrubQuota : Nat := 0
deriving DecidableEq, Repr

/-- An Almanac record (Table 16.1). -/
structure AlmRec where
  /-- SEQ (48 bit; 16 R344). -/
  seq : Nat := 0
  /-- SOURCE (16 bit; 16 Table 16.2). -/
  source : Nat := 0
  /-- TIME (64 bit; 16 Table 16.1). -/
  time : Nat := 0
  /-- LAST_TIME (64 bit; 16 Table 16.1). -/
  lastTime : Nat := 0
  /-- CODE, by name (the numbers are the image's, ALM_INFO) (16 bit; 16 Table 16.1). -/
  code : AlmCode := .boot
  /-- SEVERITY (3 bit; 16 Table 16.1). -/
  severity : Nat := 1
  /-- FLAGS: 1 CLEAR, 2 SUMMARY, 4 BOOT (3 bit; 16 Table 16.1). -/
  flags : Nat := 0
  /-- REPEAT (20 bit; 16 R348). -/
  repeats : Nat := 1
  /-- PAYLOAD, as the fields the code names (24 B; 16 Table 16.1). -/
  payload : List Nat := []
  /-- COMMIT (32 bit; 16 R347). -/
  commit : Nat := 0
deriving DecidableEq, Repr

/-- A journal entry due or written. -/
structure JEntry where
  /-- record image (64 B; 16 R350). -/
  img : AlmRec := {}
  /-- time by which it is to be programmed (64 bit; 16 R350). -/
  due : Nat := 0
  /-- its VALID does not match (1 bit; 16 R352). -/
  torn : Bool := false
  /-- its write failed and awaits retry (1 bit; 16 R351). -/
  retry : Bool := false
deriving DecidableEq, Repr

/-- The Almanac (R343-R356). -/
structure Alm where
  /-- occupied slots (16,384 x 64 B; 16 R345). -/
  ring : Tbl AlmRec := []
  /-- COMMIT of every slot, free ones too (16,384 x 32 bit; 16 R347). -/
  commits : Tbl Nat := []
  /-- slot written last (14 bit; 16 R346). -/
  lastSlot : Nat := 0
  /-- SEQ of the newest record (48 bit; 16 HUB_ALM_HEAD). -/
  head : Nat := 0
  /-- latched bits (16 bit; 16 HUB_ALM_HEAD_HI). -/
  headHi : Nat := 0
  /-- SEQ of the newest record ever created by SOURCE and CODE (-; 16 R348). -/
  newest : List (Nat × AlmCode × Nat) := []
  /-- READY (1 bit; 16 HUB_ALM_STATUS). -/
  ready : Bool := false
  /-- COMPACTING (1 bit; 16 HUB_ALM_STATUS). -/
  compacting : Bool := false
  /-- a step of the compaction failed and awaits retry (1 bit; 16 R351). -/
  compactFailed : Bool := false
  /-- time from which the compaction goes on (64 bit; 16 R351). -/
  compactAt : Nat := 0
  /-- CLEARING (1 bit; 16 HUB_ALM_STATUS). -/
  clearing : Bool := false
  /-- the ALM_CLEAR whose completion comes when the clear ends (-; 16 R354). -/
  clearEntry : Option SubEntry := none
  /-- token body of the clear in progress (64 B; 16 R355). -/
  clearBody : List Byte := []
  /-- the flash fails under the clear in progress (1 bit; 16 R355). -/
  clearFails : Bool := false
  /-- events buffered while CLEARING is set (256 entries; 16 R355). -/
  clearBuffer : List AlmMsg := []
  /-- events dropped beyond the buffer, by severity, counted when the clear ends (5 x 32 bit; 16 R355). -/
  clearDrops : Tbl Nat := []
  /-- JOURNAL_FAULT (1 bit; 16 HUB_ALM_STATUS). -/
  journalFault : Bool := false
  /-- DROPS by severity (5 x 32 bit; 16 HUB_ALM_DROP). -/
  drops : Tbl Nat := []
  /-- DROPS at the previous summary (5 x 32 bit; 16 R353). -/
  lastDrops : Tbl Nat := []
  /-- device time of the previous summary (64 bit; 16 R353). -/
  lastSummary : Nat := 0
  /-- ACTIVE_HALF (1 bit; 16 HUB_ALM_JOURNAL). -/
  half : Nat := 0
  /-- COMPACTIONS (16 bit; 16 HUB_ALM_JOURNAL). -/
  compactions : Nat := 0
  /-- journal faults since reset (16 bit; 16 R353). -/
  faults : Nat := 0
  /-- PRESENT (1 bit; 16 HUB_ALM_CLEAR). -/
  clearPresent : Bool := false
  /-- CLEAR_GEN (15 bit; 16 HUB_ALM_CLEAR). -/
  clearGen : Nat := 0
  /-- SLOT (14 bit; 16 HUB_ALM_CLEAR). -/
  clearSlot : Nat := 0
  /-- journal entries due (-; 16 R350). -/
  due : List JEntry := []
  /-- entries in each journal half of the flash (2 x 4 MiB; 16 R350). -/
  halves : Tbl (List JEntry) := []
deriving DecidableEq, Repr

/-- A finished command whose completion waits (R363). -/
structure MbxDone where
  /-- TAG (32 bit; 17 Table 17.5). -/
  tag : Nat := 0
  /-- OPCODE (16 bit; 17 Table 17.5). -/
  opcode : Nat := 0
  /-- STATUS (8 bit; 17 Table 17.6). -/
  status : Nat := 0
  /-- RESULT (20 B; 17 Table 17.5). -/
  result : List Byte := []
  /-- NO_IRQ of the submission (1 bit; 17 Table 17.4). -/
  noIrq : Bool := false
deriving DecidableEq, Repr

/-- A notification record (R372). -/
structure Notif where
  /-- KIND (16 bit; 17 R372). -/
  kind : Nat := 0
  /-- FRAME (48 bit; 17 R372). -/
  frame : Nat := 0
  /-- TIME (64 bit; 17 R372). -/
  time : Nat := 0
  /-- ALM_SEQ (48 bit; 17 R372). -/
  almSeq : Nat := 0
  /-- DETAIL (32 bit; 17 R372). -/
  detail : Nat := 0
deriving DecidableEq, Repr

/-- A result ring (R379). -/
structure Ring where
  /-- the ring is set up (1 bit; 17 R379). -/
  isSet : Bool := false
  /-- log2 entry size (8 bit; 17 Table 17.10). -/
  log2Entry : Nat := 8
  /-- log2 entry count (8 bit; 17 Table 17.10). -/
  log2Count : Nat := 2
  /-- RING_BASE (64 bit; 17 Table 17.10). -/
  base : Nat := 0
  /-- TAIL_ADDR (64 bit; 17 Table 17.10). -/
  tailAddr : Nat := 0
  /-- OUT_FIRST (16 bit; 17 Table 17.10). -/
  outFirst : Nat := 0
  /-- OUT_COUNT (16 bit; 17 Table 17.10). -/
  outCount : Nat := 0
  /-- TAIL (32 bit; 17 R379). -/
  tail : Nat := 0
  /-- HEAD (32 bit; 17 R379). -/
  head : Nat := 0
  /-- DROPPED (32 bit; 17 R379). -/
  dropped : Nat := 0
  /-- TOO_BIG (32 bit; 17 R379). -/
  tooBig : Nat := 0
deriving DecidableEq, Repr

/-- One of the three buffers of an output (Table 17.17). -/
structure Buf where
  /-- SEQ_START (and SEQ_END) (32 bit; 17 Table 17.17). -/
  seqStart : Nat := 0
  /-- FLAGS.VALID (1 bit; 17 Table 17.17). -/
  valid : Bool := false
  /-- FLAGS.LATE (1 bit; 17 Table 17.17). -/
  late : Bool := false
  /-- FLAGS.FRAME_REPORT (1 bit; 17 Table 17.17). -/
  report : Bool := false
  /-- REASON (8 bit; 17 Table 17.17). -/
  reason : Nat := 0
  /-- FRAME (48 bit; 17 Table 17.17). -/
  frame : Nat := 0
  /-- LENGTH (32 bit; 17 Table 17.17). -/
  length : Nat := 0
  /-- GEN (16 bit; 17 Table 17.17). -/
  gen : Nat := 0
  /-- COMPLETE_TIME (64 bit; 17 Table 17.17). -/
  completeTime : Nat := 0
  /-- LAST_VALID_FRAME (48 bit; 17 Table 17.17). -/
  lastValidFrame : Nat := 0
  /-- LAST_VALID_BUF (8 bit; 17 Table 17.17). -/
  lastValidBuf : Nat := 0xFF
  /-- payload area (-; 17 R377). -/
  payload : List Byte := []
deriving DecidableEq, Repr

/-- A result directory entry (Table 17.16) and its buffers. -/
structure Dir where
  /-- STATE: 0 free, 1 loaded, 2 admitted (8 bit; 17 Table 17.16). -/
  state : Nat := 0
  /-- CUR (8 bit; 17 Table 17.16). -/
  cur : Nat := 0xFF
  /-- LAST_VALID (8 bit; 17 Table 17.16). -/
  lastValid : Nat := 0xFF
  /-- DIR_SEQ (and DIR_SEQ_END) (32 bit; 17 Table 17.16). -/
  dirSeq : Nat := 0
  /-- PLAN_ID (64 bit; 17 Table 17.16). -/
  planId : Nat := 0
  /-- OUTPUT (16 bit; 17 Table 17.16). -/
  output : Nat := 0
  /-- FLAGS.SAFETY (1 bit; 17 Table 17.16). -/
  safety : Bool := false
  /-- LENGTH (32 bit; 17 Table 17.16). -/
  length : Nat := 0
  /-- BUF: BAR2 offsets (3 x 32 bit; 17 Table 17.16). -/
  bufOfs : List Nat := []
  /-- PUB (32 bit; 17 Table 17.16). -/
  pub : Nat := 0
  /-- CUR_FRAME (48 bit; 17 Table 17.16). -/
  curFrame : Nat := 0
  /-- LAST_VALID_FRAME (48 bit; 17 Table 17.16). -/
  lastValidFrame : Nat := 0
  /-- the three buffers (3; 17 R377). -/
  bufs : Tbl Buf := []
deriving DecidableEq, Repr

/-- Host interface (HUB_HOST, HUB_MBX, rings, results, notifications). -/
structure HostS where
  /-- READY (1 bit; 17 HUB_HOST_STATUS). -/
  ready : Bool := false
  /-- SECDED words of Xiuth's and the Almanac's hub SRAM units that no longer stand as written, by address / 8: which of the 72 stored bits are wrong (80 x 64 KiB x 72/64; 08 R170). -/
  wrongBits : Tbl Nat := []
  /-- MBX_READY (1 bit; 17 HUB_HOST_STATUS). -/
  mbxReady : Bool := false
  /-- SERVICE_ONLY (1 bit; 17 HUB_HOST_STATUS). -/
  serviceOnly : Bool := false
  /-- EXPERT_ON (1 bit; 17 HUB_HOST_STATUS). -/
  expertOn : Bool := false
  /-- EXPERT_SCOPE (1 bit; 17 HUB_HOST_STATUS). -/
  expertScope : Bool := false
  /-- BOOT_STAGE (3 bit; 17 HUB_HOST_STATUS). -/
  bootStage : Nat := 0
  /-- SEASON (2 bit; 17 HUB_HOST_STATUS). -/
  season : Nat := 0
  /-- VERSION (32 bit; 17 HUB_HOST_FW). -/
  fw : Nat := 0
  /-- COUNT (32 bit; 17 HUB_HOST_EXPERT_REFUSED). -/
  refused : Nat := 0
  /-- BASE in 1 MiB units (28 bit; 17 HUB_HOST_APER_BASE). -/
  aperBase : Nat := 0
  /-- lower half of a 4-byte write awaiting the upper (32 bit; 17 HUB_HOST_APER_BASE). -/
  aperLo : Nat := 0
  /-- ERROR (8 bit; 18 HUB_HOST_BOOT). -/
  bootError : Nat := 0
  /-- CAUSE (8 bit; 18 HUB_HOST_BOOT). -/
  bootCause : Nat := 0
  /-- SEASON_SRC (4 bit; 18 HUB_HOST_BOOT). -/
  seasonSrc : Nat := 0
  /-- READY_MS (12 bit; 18 HUB_HOST_BOOT). -/
  readyMs : Nat := 0
  /-- TAIL (6 bit; 17 HUB_MBX_SQ_TAIL). -/
  sqTail : Nat := 0
  /-- HEAD (6 bit; 17 HUB_MBX_SQ_HEAD). -/
  sqHead : Nat := 0
  /-- TAIL (6 bit; 17 HUB_MBX_CQ_TAIL). -/
  cqTail : Nat := 0
  /-- HEAD (6 bit; 17 HUB_MBX_CQ_HEAD). -/
  cqHead : Nat := 0
  /-- DOORBELL_ERR (W1C) (1 bit; 17 HUB_MBX_STATUS). -/
  doorbellErr : Bool := false
  /-- submission ring memory (4,096 B; 17 Table 17.2). -/
  sq : Tbl Byte := []
  /-- completion ring memory (2,048 B; 17 Table 17.2). -/
  cq : Tbl Byte := []
  /-- commands taken and not yet completed, oldest first (OUTSTANDING) (-; 17 R363). -/
  taken : List SubEntry := []
  /-- completions waiting for ring space, oldest first (-; 17 R363). -/
  waiting : List MbxDone := []
  /-- notification queue, oldest first (256 records; 17 R372). -/
  notifs : List Notif := []
  /-- records discarded since the last GET_EVENTS (32 bit; 17 R372). -/
  lost : Nat := 0
  /-- result rings (8; 17 R379). -/
  rings : Tbl Ring := []
  /-- result directory (1,024; 17 R377). -/
  dir : Tbl Dir := []
  /-- times each MSI-X vector has been signalled (64; 17 R371). -/
  msix : Tbl Nat := []
  /-- words of the MSI-X table but the vector control words (256 x 32 bit; 17 Table 17.1). -/
  msixTab : Tbl Nat := []
  /-- per-vector mask of the MSI-X table, by vector; an unlisted vector is masked (64; 17 Table 17.1). -/
  msixMask : Tbl Bool := []
  /-- MSI-X pending bits (64; 17 Table 17.1). -/
  msixPend : Tbl Bool := []
  /-- the function is in D3hot (1 bit; 17 R360). -/
  d3hot : Bool := false
  /-- device DMA channels run (1 bit; 17 R360). -/
  dmaOn : Bool := true
  /-- the PCIe link is up (1 bit; 18 R392). -/
  linkUp : Bool := false
  /-- the endpoint answers with Configuration Request Retry Status (1 bit; 18 R392). -/
  crs : Bool := true
  /-- device DMA channels 2-7 that carry a buffer: the TAG of the command (6; 17 R373). -/
  dmaChan : Tbl Nat := []
  /-- tags of taken commands whose host buffer has arrived (-; 17 R359). -/
  dmaDone : List Nat := []
  /-- AER uncorrectable errors logged (32 bit; 17 R359). -/
  aer : Nat := 0
  /-- data returned by the last host read (-; 17 R361). -/
  readData : List Byte := []
deriving DecidableEq, Repr

/-- One temperature sensor pair. -/
structure PairS where
  /-- latest reading of sensor 0 in half degrees; none before the first (16 bit; 20 R424). -/
  a : Option Int := none
  /-- latest reading of sensor 1 in half degrees; none before the first (16 bit; 20 R424). -/
  b : Option Int := none
  /-- sensor 0 marked failed (1 bit; 20 HUB_PM_SFAIL). -/
  failA : Bool := false
  /-- sensor 1 marked failed (1 bit; 20 HUB_PM_SFAIL). -/
  failB : Bool := false
  /-- pair reading in half degrees (16 bit; 20 Table 20.1). -/
  reading : Int := 0
  /-- milliseconds since sensor 0 updated (-; 20 R424). -/
  staleA : Nat := 0
  /-- milliseconds since sensor 1 updated (-; 20 R424). -/
  staleB : Nat := 0
  /-- consecutive trip samples (2 bit; 20 R426). -/
  tripRun : Nat := 0
deriving DecidableEq, Repr

/-- Power state of one Quarter. -/
structure PmQ where
  /-- STEP (3 bit; 20 HUB_PM_Q). -/
  step : Nat := 0
  /-- CEILING (3 bit; 20 HUB_PM_Q). -/
  ceiling : Nat := 0
  /-- VQC_MV (10 bit; 20 HUB_PM_Q). -/
  vqc : Nat := 0
  /-- time of the last change of its AVS target (64 bit; 13 Table 13.2). -/
  avsAt : Option Nat := none
  /-- time of its last step change (64 bit; 13 Table 13.2). -/
  stepAt : Option Nat := none
  /-- MAX_STEP (3 bit; 20 R440). -/
  maxStep : Nat := 0
  /-- AGE_OFFSET per step in units of 5 mV (5 x 8 bit; 20 R441). -/
  ageOffset : Tbl Nat := []
  /-- DVFS change in progress (3 bit; 20 R431). -/
  pendingStep : Option Nat := none
  /-- power in 0.1 W (16 bit; 20 Table 20.7). -/
  powerX10 : Nat := 0
  /-- current in 0.1 A (16 bit; 20 Table 20.7). -/
  currentX10 : Nat := 0
  /-- warm-hold load in 0.1 W (16 bit; 20 R437). -/
  warmX10 : Nat := 0
  /-- WARM_SHORT (1 bit; 20 HUB_PM_STATUS). -/
  warmShort : Bool := false
  /-- time since when Tj has stayed below the warm target (64 bit; 20 R437). -/
  warmBelow : Option Nat := none
  /-- lowest slack of each cluster at each step (c*8+step) in 0.1 % (72 x 5; 20 R439). -/
  minSlack : Tbl Int := []
  /-- steps that ran since the last re-plan (5 bit; 20 R441). -/
  ranStep : Tbl Bool := []
deriving DecidableEq, Repr

/-- Power and thermal management (HUB_PM, R424-R444). -/
structure Pm where
  /-- STATE (2 bit; 20 HUB_PM_STATUS). -/
  state : Nat := 0
  /-- FLOW_PRESENT (1 bit; 20 HUB_PM_STATUS). -/
  flowPresent : Bool := false
  /-- COOLANT_SRC (1 bit; 20 HUB_PM_STATUS). -/
  coolantSrc : Bool := false
  /-- RTH_NOMINAL (1 bit; 20 HUB_PM_STATUS). -/
  rthNominal : Bool := false
  /-- CAP_W (9 bit; 20 HUB_PM_STATUS). -/
  capW : Nat := 0
  /-- PEAK_X10, this frame (16 bit; 20 HUB_PM_POWER). -/
  peakX10 : Nat := 0
  /-- MEAN_X10 (16 bit; 20 HUB_PM_POWER). -/
  meanX10 : Nat := 0
  /-- RTH_S in 10^-4 K/W (16 bit; 20 HUB_PM_RTH). -/
  rthS : Nat := 0
  /-- RTH_J in 10^-4 K/W (16 bit; 20 HUB_PM_RTH). -/
  rthJ : Nat := 0
  /-- coolant temperature used, held in 1/128 C, read in 0.5 C (16 bit; 20 HUB_PM_TEMP). -/
  tc : Int := 0
  /-- Tj_max in 0.5 C (16 bit; 20 HUB_PM_TEMP). -/
  tjMax : Int := 0
  /-- Tj of each Quarter (4 the hub), 0.5 C (5 x 8 bit; 20 HUB_PM_Q). -/
  tj : Tbl Int := []
  /-- T_S of each store die, 0.5 C (4 x 8 bit; 20 HUB_PM_Q). -/
  ts : Tbl Int := []
  /-- OP_HOURS (20 bit; 20 HUB_PM_AGE). -/
  opHours : Nat := 0
  /-- TO_REPLAN (12 bit; 20 HUB_PM_AGE). -/
  toReplan : Nat := 0
  /-- REPLANS (8 bit; 20 HUB_PM_SHORT). -/
  replans : Nat := 0
  /-- an ageing entry was restored at this boot, so it is not the first (1 bit; 20 R440). -/
  aged : Bool := false
  /-- SHORT (9 bit; 20 HUB_PM_SHORT). -/
  short : Nat := 0
  /-- power state of each Quarter (4; 20 HUB_PM_Q). -/
  q : Tbl PmQ := []
  /-- sensor pairs: q*8+p for the Quarters, 32-35 the hub (36; 20 R424). -/
  pairs : Tbl PairS := []
  /-- PWR_LIMIT (9 bit; 20 R430). -/
  pwrLimit : Option Nat := none
  /-- last good coolant reading, in 1/128 C (16 bit; 20 R427). -/
  lastGood : Option Int := none
  /-- time of the last good coolant reading (64 bit; 20 R427). -/
  lastCoolant : Nat := 0
  /-- time of the last COOL_FLOW pulse (64 bit; 20 R433). -/
  lastFlow : Nat := 0
  /-- rising edges counted (-; 21 R452). -/
  flowCount : Nat := 0
  /-- time between the last two pulses (the reported rate) (-; 20 R433). -/
  flowPeriodNs : Nat := 0
  /-- time of the last cap update, for the 10 W/s rise (64 bit; 20 R430). -/
  capRiseAt : Nat := 0
  /-- 1 ms samples of the last second, newest first: time, Tj_max, P in 0.1 W (-; 20 R434). -/
  tjHist : List (Nat × Int × Nat) := []
  /-- 100 ms samples, newest first: time, Tj_max, highest T_S, T_C, P in 0.1 W (-; 20 R428). -/
  powHist : List (Nat × Int × Int × Int × Nat) := []
  /-- accepted evidence (-; 20 R429). -/
  evidenceMs : Nat := 0
  /-- RTH_J by time, for RTH_TREND (-; 20 Table 20.6). -/
  rthHist : List (Nat × Nat) := []
  /-- time SURVIVAL was entered (64 bit; 20 R434). -/
  survAt : Nat := 0
  /-- P0 issue stopped in SURVIVAL (1 bit; 20 R434). -/
  p0Stopped : Bool := false
  /-- time since when the exit conditions have held together (64 bit; 20 R435). -/
  coolSince : Option Nat := none
  /-- time of the last step raise (64 bit; 20 R431). -/
  lastRaise : Nat := 0
  /-- no evidence is taken before this time (64 bit; 20 R428). -/
  evidenceBar : Nat := 0
  /-- a cap below the Season cap has lowered a step or warm hold, not yet undone (-; 20 R432). -/
  lowered : Bool := false
  /-- operating time counted beyond the whole hours of OP_HOURS, ns (-; 20 R441). -/
  opNs : Nat := 0
  /-- device time up to which operating time is counted (64 bit; 20 R441). -/
  opMark : Nat := 0
  /-- POWER section of the latest frame, latched at its Calend (32 B; 20 R444). -/
  powSection : List Byte := []
deriving DecidableEq, Repr

/-- The decoded fields of a Season image (Table 18.5). -/
structure SeasonCfg where
  /-- SEASON (2 bit; 18 R399). -/
  num : Nat := 0
  /-- PERIOD_100US (10 bit; 18 Table 18.5). -/
  period : Nat := 250
  /-- phase in us (17 bit; 18 Table 18.5). -/
  phaseUs : Nat := 0
  /-- Eve guard in us (11 bit; 18 Table 18.5). -/
  guardUs : Nat := 500
  /-- holiday budget in us (12 bit; 18 Table 18.5). -/
  holidayUs : Nat := 300
  /-- admission floor step, 0 900 MHz to 4 300 MHz (3 bit; 02 R44). -/
  floorStep : Nat := 4
  /-- trigger words (12 x 32 bit; 18 Table 18.5). -/
  trig : List Nat := []
  /-- active-Quarter mask (4 bit; 18 Table 18.5). -/
  quarters : Nat := 1
  /-- SPARES per Quarter (8 bit; 18 Table 18.5). -/
  spares : Nat := 4
  /-- permitted-partition mask (4 bit; 18 Table 18.5). -/
  permitted : Nat := 0xF
  /-- XOR masks (10 x 33 bit; 18 Table 18.5). -/
  xor : List Nat := [0x008020080, 0x010040100, 0x020080200, 0x040100400, 0x080200800, 0x000401000, 0x000802000, 0x001004000, 0x002008000, 0x004010000]
  /-- LOG2_INV_P (4 bit; 18 Table 18.5). -/
  log2InvP : Nat := 7
  /-- PANIC_ON (4 bit; 18 Table 18.5). -/
  panicOn : Nat := 12
  /-- PANIC_OFF (4 bit; 18 Table 18.5). -/
  panicOff : Nat := 4
  /-- DLY_TRIM (4 x 4 bit; 18 Table 18.5). -/
  dlyTrim : List Int := [0,0,0,0]
  /-- RGL_OT_BASE (32 bit; 18 Table 18.5). -/
  otBase : Nat := 0x40201808
  /-- RGL_OT_MIN (32 bit; 18 Table 18.5). -/
  otMin : Nat := 0x0202
  /-- RGL_TB_CFG1-3 (3 x 32 bit; 18 Table 18.5). -/
  tb : List Nat := [0,0,0]
  /-- SLOW_REPORT_X256 (16 bit; 18 Table 18.5). -/
  slow : Nat := 282
  /-- AMBER_ON (6 bit; 18 Table 18.5). -/
  amber : Nat := 24
  /-- RED_ON (7 bit; 18 Table 18.5). -/
  red : Nat := 48
  /-- time port (2 bit; 18 Table 18.5). -/
  timePort : Nat := 0
  /-- TABLE_BASE (48 bit; 10 R230). -/
  tableBase : Nat := 0x110000800000
  /-- stream table (32; 18 Table 18.5). -/
  streams : List (Nat × Stream) := []
  /-- sensor table and fusion parameters (its parameter fields) (-; 18 Table 18.5). -/
  fus : Fus := {}
  /-- STAMP_MARGIN (32 bit; 11 R258). -/
  stampMargin : Nat := 0x3F000000
  /-- CAP_W (16 bit; 20 Table 20.5). -/
  capW : Nat := 40
  /-- WARM_HOLD (1 bit; 20 Table 20.5). -/
  warmHold : Bool := false
  /-- WARM_MAX_W (8 bit; 20 Table 20.5). -/
  warmMaxW : Nat := 15
  /-- TJ_TARGET_C (8 bit; 20 Table 20.5). -/
  tjTarget : Nat := 110
  /-- TS_TARGET_C (8 bit; 20 Table 20.5). -/
  tsTarget : Nat := 100
  /-- COOLANT_DEFAULT_C (8 bit; 20 Table 20.5). -/
  coolantDef : Int := 65
  /-- FLOW_MON (1 bit; 20 Table 20.5). -/
  flowMon : Bool := true
  /-- FLOW_TIMEOUT_MS (16 bit; 20 Table 20.5). -/
  flowTimeout : Nat := 500
  /-- RTH_J_NOM (16 bit; 20 Table 20.5). -/
  rthJNom : Nat := 1500
  /-- RTH_S_NOM (16 bit; 20 Table 20.5). -/
  rthSNom : Nat := 1200
  /-- plan images (-; 18 Table 18.5). -/
  plans : List (List Byte) := []
  /-- weight regions: REGION_ID, parameters, contents (-; 18 Table 18.5). -/
  preload : List (Nat × Region × List Byte) := []
  /-- maps: slot, partition, BASE, RESERVE, image (-; 18 Table 18.5). -/
  preMaps : List (Nat × Nat × Nat × Nat × List Byte) := []
  /-- BODY_DIGEST (48 B; 18 R399). -/
  bodyDigest : List Byte := []
deriving DecidableEq, Repr

/-- Seasons: the stored slots, the running one and a pending change. -/
structure SeasonSt where
  /-- image of each Season slot in the flash; unlisted is erased (4 x 52 MiB; 18 Table 18.3). -/
  slots : Tbl (List Byte) := []
  /-- the running Season (-; 18 R400). -/
  cfg : SeasonCfg := {}
  /-- a Season has been applied since reset (RWL fields locked) (1 bit; 18 R400). -/
  applied : Bool := false
  /-- SET_SEASON accepted: Season, epoch frame (2+48 bit; 18 R403). -/
  pending : Option (Nat × Nat) := none
  /-- SEASON[1:0] (2 pins; 18 R386). -/
  pins : Nat := 0
deriving DecidableEq, Repr

/-- One bank of the boot directory (Table 19.5) and its image in the flash. -/
structure BootBank where
  /-- STATE: 0 EMPTY, 1 VALID, 2 PENDING, 3 CONFIRMED, 4 REJECTED (8 bit; 19 Table 19.5). -/
  state : Nat := 0
  /-- ATTEMPTS (8 bit; 19 Table 19.5). -/
  attempts : Nat := 0
  /-- VERSION (64 bit; 19 Table 19.5). -/
  version : Nat := 0
  /-- HEADER_DIGEST (16 B; 19 Table 19.5). -/
  digest : List Byte := []
  /-- image bank contents (16 MiB; 18 Table 18.3). -/
  image : List Byte := []
  /-- running payload, by type, of the components its image does not carry (-; 19 R405). -/
  kept : Tbl (List Byte) := []
  /-- STATE_FORMAT of each of them (-; 19 R412). -/
  keptFmt : Tbl Nat := []
deriving DecidableEq, Repr

/-- One bank in the older boot directory copy (Table 19.5). -/
structure DirBank where
  /-- STATE (8 bit; 19 Table 19.5). -/
  state : Nat := 0
  /-- ATTEMPTS (8 bit; 19 Table 19.5). -/
  attempts : Nat := 0
  /-- VERSION (64 bit; 19 Table 19.5). -/
  version : Nat := 0
  /-- HEADER_DIGEST (16 B; 19 Table 19.5). -/
  digest : List Byte := []
deriving DecidableEq, Repr

/-- Firmware update and identity keys (R404-R423). -/
structure Upd where
  /-- UPD_STATUS state (8 bit; 19 Table 19.6). -/
  state : Nat := 0
  /-- boot directory and image banks (2; 19 R409). -/
  banks : Tbl BootBank := []
  /-- WRITE_COUNT of the newer boot directory copy (64 bit; 19 R409). -/
  writeCount : Nat := 0
  /-- the older boot directory copy; none while its CRC fails (256 B; 19 R409). -/
  olderDir : Option (Tbl DirBank) := none
  /-- WRITE_COUNT of the older copy (64 bit; 19 R409). -/
  olderCount : Nat := 0
  /-- bank the running Xiuth was loaded from (1 bit; 19 R409). -/
  bank : Nat := 0
  /-- handover code of the loaded update (1 bit; 19 R412). -/
  handover : Nat := 0
  /-- scheduled update epoch (48 bit; 19 R413). -/
  epoch : Option Nat := none
  /-- Calend that ends the confirmation window (48 bit; 19 R416). -/
  windowEnd : Option Nat := none
  /-- fallback epoch (48 bit; 19 R417). -/
  fallback : Option Nat := none
  /-- the update was a restart handover (1 bit; 19 R417). -/
  restartKind : Bool := false
  /-- CONFIRM_FRAMES of the update (16 bit; 19 R416). -/
  confirmFrames : Nat := 0
  /-- DeviceID and alias keys and certificates exist (1 bit; 19 R420). -/
  keysReady : Bool := false
  /-- CDI_1 (48 B; 19 R419). -/
  cdi : List Byte := []
  /-- certificates of the RSA and the SLH-DSA alias key (-; 19 R420). -/
  aliasCerts : List (List Byte) := []
  /-- DeviceID seed, erased once the keys exist (48 B; 19 R419). -/
  devSeed : List Byte := []
  /-- running payload of each component type (-; 19 Table 19.3). -/
  components : Tbl (List Byte) := []
  /-- component types (4-6) that the loaded image has put into the inactive banks of their units (-; 19 Table 19.3). -/
  staged : List Nat := []
  /-- floor and revoke step begun and not completed (-; 19 R410). -/
  floorPending : Option (Nat × Nat) := none
deriving DecidableEq, Repr

/-- A settings-journal entry (R396). -/
structure JKey where
  /-- KEY: class in [31:24], index in [23:0] (32 bit; 18 R396). -/
  key : Nat := 0
  /-- WRITE_COUNT (64 bit; 18 R396). -/
  writeCount : Nat := 0
  /-- FORMAT (16 bit; 18 R396). -/
  format : Nat := 1
  /-- VALUE, as the fields the class names (44 B; 18 R396). -/
  value : List Nat := []
  /-- its CRC passes (1 bit; 18 R397). -/
  good : Bool := true
deriving DecidableEq, Repr

/-- The journals and settings kept in the boot flash (R395-R397). -/
structure Flash where
  /-- entries of both halves of the settings journal (2 x 2 MiB; 18 R396). -/
  halves : Tbl (List JKey) := []
  /-- active half (1 bit; 18 R396). -/
  half : Nat := 0
  /-- highest WRITE_COUNT written (64 bit; 18 R396). -/
  count : Nat := 0
  /-- package serial number that the flash calibration is bound to (64 bit; 09 R215). -/
  calSerial : Nat := 0
  /-- flash calibration record, the bytes its digest covers (-; 09 R215). -/
  calRecord : List Byte := []
  /-- SHA-384 digest stored with the flash calibration (48 B; 09 R215). -/
  calDigest : List Byte := []
  /-- flash delay base per channel (128 x 24 bit; 09 R215). -/
  calBase : Tbl (Nat × Nat × Nat) := []
  /-- flash delay offset per channel and band (128 x 33; 09 R215). -/
  calTable : Tbl (Tbl Int) := []
  /-- DeviceID certificates of the serial-bound area (-; 19 R421). -/
  certs : List (List Byte) := []
  /-- capacity in MiB (32 bit; 18 R395). -/
  mib : Nat := 256
deriving DecidableEq, Repr

/-- Measurements of one serial link (Table 18.4). Keys: 0-11 CSI-2, 16-19 MACs, 32 PCIe. -/
structure LinkS where
  /-- link up, or high-speed seen (1 bit; 18 Table 18.4). -/
  up : Bool := false
  /-- LANES or WIDTH (8 bit; 18 Table 18.4). -/
  lanes : Nat := 0
  /-- RATE_MBPS or SPEED (16 bit; 18 Table 18.4). -/
  rate : Nat := 0
  /-- SKEW_PS (16 bit; 18 Table 18.4). -/
  skewPs : Nat := 0
  /-- LOSS_X10 (16 bit; 18 Table 18.4). -/
  lossX10 : Nat := 0
  /-- LENGTH_MM (16 bit; 18 Table 18.4). -/
  lengthMm : Nat := 0
  /-- PARTNER_SPEED (8 bit; 18 Table 18.4). -/
  pSpeed : Nat := 0
  /-- PARTNER_WIDTH (8 bit; 18 Table 18.4). -/
  pWidth : Nat := 0
  /-- ERRORS or FCS_ERRORS or AER correctable errors (32 bit; 18 Table 18.4). -/
  errors : Nat := 0
  /-- partner in LP-11 (1 bit; 18 Table 18.4). -/
  lp11 : Bool := false
deriving DecidableEq, Repr

/-- Device time and gPTP (HUB_TIME, R217-R218). -/
structure TimeS where
  /-- latched bits [63:32] (32 bit; 10 HUB_TIME_HI). -/
  hi : Nat := 0
  /-- GM_PRESENT (1 bit; 10 HUB_TIME_STATUS). -/
  gmPresent : Bool := false
  /-- HOLDOVER (1 bit; 10 HUB_TIME_STATUS). -/
  holdover : Bool := false
  /-- SLEWING_BACK (1 bit; 10 HUB_TIME_STATUS). -/
  slewBack : Bool := false
  /-- TIME_PORT (2 bit; 10 HUB_TIME_STATUS). -/
  timePort : Nat := 0
  /-- OFFSET_NS (HUB_TIME_STATUS shows it within 16 bits) (64 bit; 18 Table 18.4). -/
  offset : Int := 0
  /-- frequency correction in ppm (-; 10 R218). -/
  ppm : Int := 0
  /-- time of the last Sync (64 bit; 10 R218). -/
  lastSync : Nat := 0
  /-- the first lock before Ready has stepped device time (1 bit; 10 R218). -/
  locked : Bool := false
  /-- GM_IDENTITY (64 bit; 18 Table 18.4). -/
  gmId : Nat := 0
  /-- STEPS_REMOVED (16 bit; 18 Table 18.4). -/
  stepsRemoved : Nat := 0
  /-- device time owed by the frequency correction, in 10^-6 ns (-; 10 R218). -/
  frac : Int := 0
deriving DecidableEq, Repr

/-- The whole device, and the queue of waiting commands. -/
structure State where
  /-- commands waiting, first in, first out (the model's own) (-; model). -/
  pending : List Instr := []
  /-- device time in ns (64 bit; 10 R217). -/
  now : Nat := 0
  /-- free-value counter (the model's own): read and advanced by every step that draws a free value (-; model). -/
  fresh : Nat := 0
  /-- PORST_N is asserted (1 bit; 18 R386). -/
  inReset : Bool := true
  /-- VDDIO_18 or VDD_HC is below 90 % (1 bit; 18 R388). -/
  railsLow : Bool := false
  /-- device time at boot time 0 (it moves with the step of R218) (64 bit; 18 R391). -/
  boot0 : Int := 0
  /-- the Calend (-; 02). -/
  cal : CalS := {}
  /-- trigger outputs (12; 02 R30). -/
  trig : Tbl Trig := []
  /-- counts of the current frame (-; 17 R380). -/
  stats : FrameStats := {}
  /-- the previous frame's report is not yet published (1 bit; 17 R380). -/
  reportPend : Bool := false
  /-- sections latched at the Calend (-; 17 R380). -/
  reportRaw : List Byte := []
  /-- loaded and admitted plans, in order of loading (16; 02 R40, 17 R368). -/
  plans : List Plan := []
  /-- sequencer part of every unit, by RESOURCE_ID (288 + 4 + 2; 03). -/
  units : Tbl SeqUnit := []
  /-- tokens and credits on the control channel, oldest first (-; 03 R62). -/
  flights : List Flight := []
  /-- register counters of every cluster, by g (288; 04, 05, 07, 08). -/
  clu : Tbl Clu := []
  /-- NLE registers (4; 06). -/
  nle : Tbl Nle := []
  /-- every memory of Table 8.1, byte by byte (48-bit addresses; 08 R165). -/
  mem : Memory := []
  /-- side-band words of SRAM, by address / 256; 0 at power-up (64 bit per 256 B; 08 R174). -/
  side : Tbl Nat := []
  /-- owner tags, by address / 65,536; an unlisted unit has its fixed assignment or FREE (3 bit per 64 KiB; 08 R167). -/
  tags : Tbl Nat := []
  /-- tag changes that take effect at the next Calend (-; 08 R168). -/
  tagPend : List (Nat × Nat) := []
  /-- units in use, with the key of the plan, sequence or region that uses them (-; 08 R168). -/
  tagUse : List (Nat × Nat) := []
  /-- sequence table (64; 07 R144). -/
  seqs : Tbl SeqDesc := []
  /-- weight regions, by REGION_ID; map slots at 65,536 + slot (1,024; 08 R187). -/
  regions : Tbl Region := []
  /-- fine-tile regions of each store die (4 x 64; 08 R176). -/
  fines : Tbl (List Fine) := []
  /-- check-value units (16; 08 HUB_CVU). -/
  cvu : Tbl Cvu := []
  /-- store controllers (4; 09). -/
  stc : Tbl Stc := []
  /-- ingest streams (32; 10 R220). -/
  streams : Tbl Stream := []
  /-- fusion engine (-; 10). -/
  fus : Fus := {}
  /-- planning engine (-; 11). -/
  pln : Pln := {}
  /-- identity and fuses (-; 12). -/
  ident : Ident := {}
  /-- RGL instances (5; 12). -/
  rgl : Tbl Rgl := []
  /-- outstanding counts, by (port*4+die)*4+class (-; 12 R279). -/
  ports : Tbl Nat := []
  /-- bytes entering the switch, by port*4+class, this frame (44 x 48 bit; 12 HUB_SW_IN). -/
  swIn : Tbl Nat := []
  /-- bytes leaving the switch, by port*4+class, this frame (44 x 48 bit; 12 HUB_SW_OUT). -/
  swOut : Tbl Nat := []
  /-- requests waiting at the switch output port of each Quarter, oldest first (-; 12 R269). -/
  swWait : Tbl (List Req) := []
  /-- granules of STD an output port has served since its last of BKG while both waited (-; 12 R269). -/
  swTurn : Tbl Nat := []
  /-- Vigil A (-; 13). -/
  islA : Island := {}
  /-- Vigil B (-; 13). -/
  islB : Island := {}
  /-- event queue, Eve states, SPI link (-; 13). -/
  vg : Vg := {}
  /-- twin commands waiting in the comparator: unit, context, what ran (-; 05 R120). -/
  twinNotes : List (Nat × Nat × Run) := []
  /-- cluster health, by g (288; 14). -/
  health : Tbl Health := []
  /-- Quarter health (4; 14). -/
  hltQ : Tbl HltQ := []
  /-- events not yet evaluated (-; 14 R314). -/
  hEvents : List HEvent := []
  /-- charges of the last second of device time (-; 14 R320). -/
  hRecent : List HEvent := []
  /-- disputed frames of each engine, by RESOURCE_ID (-; 14 R321). -/
  engDisp : Tbl (List Nat) := []
  /-- tiles Xiuth has still to repair: failed copy, good copy, log2 of the size, generation, partition (-; 08 R185). -/
  repairs : List (Nat × Nat × Nat × Nat × Nat) := []
  /-- stage-3 failures to attribute (-; 14 R312). -/
  tileFails : List TileFail := []
  /-- frame whose missing heartbeats have been counted (48 bit; 14 R319). -/
  hbJudged : Nat := 0
  /-- QUARANTINES (8 bit; 14 HUB_HLT_COUNT). -/
  quarantines : Nat := 0
  /-- HARD (8 bit; 14 HUB_HLT_COUNT). -/
  hards : Nat := 0
  /-- COMMON_CAUSE (8 bit; 14 HUB_HLT_COUNT). -/
  commons : Nat := 0
  /-- SUSPECT (8 bit; 14 HUB_HLT_COUNT). -/
  suspects : Nat := 0
  /-- clusters quarantined or fenced whose plans R49 has still to move (-; 02 R49). -/
  moved : List Nat := []
  /-- plans whose exclusion switch at the coming Calend is done (the model's own) (-; 02 R49). -/
  exclDone : List Nat := []
  /-- safety tests (-; 15). -/
  st : St := {}
  /-- Almanac (-; 16). -/
  alm : Alm := {}
  /-- host interface (-; 17). -/
  host : HostS := {}
  /-- the host's memory as the device's DMA sees it (the model's own) (64-bit addresses; 17 R379). -/
  hostMem : Memory := []
  /-- boot flash: journals, calibration (-; 18 R395). -/
  flash : Flash := {}
  /-- Seasons (-; 18). -/
  season : SeasonSt := {}
  /-- firmware update (-; 19). -/
  upd : Upd := {}
  /-- power and thermal management (-; 20). -/
  pm : Pm := {}
  /-- serial links (-; 18 Table 18.4). -/
  links : Tbl LinkS := []
  /-- device time and gPTP (-; 10). -/
  time : TimeS := {}
deriving DecidableEq, Repr
/-- The machine while and right after PORST_N is asserted: every field at the value the spec gives for reset, or the value
the assumption log names. -/
def State.reset : State := {}

end Sys2Proof.Machine
end

