-- ==== Sys2Proof/Machine/Tbl.lean ====
section
/-!
DEFINITION. Sparse tables and the byte memory: lookup, update, and ranges of bytes. A table keeps its keys strictly rising;
a memory also lists no byte equal to what an unlisted address reads as, so that equal memories are equal lists.
-/

namespace Sys2Proof.Machine

/-- The entry at a key, if the table lists one. -/
def tfind {β : Type} (t : Tbl β) (k : Nat) : Option β :=
  match t with
  | [] => none
  | (k', v) :: r => if k' = k then some v else tfind r k

/-- The entry at a key, or `d` where none is listed. -/
def tget {β : Type} (t : Tbl β) (k : Nat) (d : β) : β := (tfind t k).getD d

/-- The table with `v` at `k`. -/
def tput {β : Type} (t : Tbl β) (k : Nat) (v : β) : Tbl β :=
  match t with
  | [] => [(k, v)]
  | (k', v') :: r =>
    if k < k' then (k, v) :: (k', v') :: r
    else if k = k' then (k, v) :: r
    else (k', v') :: tput r k v

/-- The table without an entry at `k`. -/
def tdel {β : Type} (t : Tbl β) (k : Nat) : Tbl β := t.filter (fun p => p.1 ≠ k)

/-- The table with the entry at `k` changed by `f`, from `d` where none is listed. -/
def tmod {β : Type} (t : Tbl β) (k : Nat) (d : β) (f : β → β) : Tbl β := tput t k (f (tget t k d))

/-- Is an entry listed at `k`? -/
def thas {β : Type} (t : Tbl β) (k : Nat) : Bool := (tfind t k).isSome

/-- The listed keys. -/
def tkeys {β : Type} (t : Tbl β) : List Nat := t.map (·.1)

/-- The listed entries. -/
def tvals {β : Type} (t : Tbl β) : List β := t.map (·.2)

/-- Every listed entry changed by `f`. -/
def tmap {β : Type} (t : Tbl β) (f : β → β) : Tbl β := t.map (fun p => (p.1, f p.2))

/-- What an address that a memory does not list reads as (the spec gives RAM no contents at power-on). -/
def Memory.unlisted : Byte := 0

/-- One byte of a memory. -/
def mget (m : Memory) (a : Nat) : Byte :=
  match m with
  | [] => Memory.unlisted
  | (b, v) :: r => if b = a then v else mget r a

/-- The memory with byte `v` at `a`, in canonical form if `m` was. -/
def mset (m : Memory) (a : Nat) (v : Byte) : Memory :=
  match m with
  | [] => if v = Memory.unlisted then [] else [(a, v)]
  | (b, w) :: r =>
    if a < b then (if v = Memory.unlisted then (b, w) :: r else (a, v) :: (b, w) :: r)
    else if a = b then (if v = Memory.unlisted then r else (a, v) :: r)
    else (b, w) :: mset r a v

/-- `n` bytes from `a` up. -/
def mread (m : Memory) (a n : Nat) : List Byte := (List.range n).map (fun i => mget m (a + i))

/-- The memory with the bytes `bs` from `a` up. -/
def mwrite (m : Memory) (a : Nat) (bs : List Byte) : Memory :=
  match bs with
  | [] => m
  | v :: r => mwrite (mset m a v) (a + 1) r

/-- Every listed address of `m` lies above `lo`, addresses rise strictly, and no listed byte is the unlisted one. -/
def Memory.wfFrom (lo : Option Nat) (m : Memory) : Bool :=
  match m with
  | [] => true
  | (a, v) :: r => (match lo with | none => true | some l => decide (l < a)) && v != Memory.unlisted && Memory.wfFrom (some a) r

/-- The canonical form of a memory. -/
def Memory.wf (m : Memory) : Bool := Memory.wfFrom none m

end Sys2Proof.Machine
end

