-- ==== Sys2Proof/Machine/Bits.lean ====
section
/-!
DEFINITION. Bit fields, byte order, and the check values of the spec: CRC-32C, CRC-32, CRC-16/CCITT-FALSE, CRC-64.
-/

namespace Sys2Proof.Machine

/-- Bits [hi:lo] of a number. -/
def bits (v hi lo : Nat) : Nat := (v >>> lo) % 2 ^ (hi + 1 - lo)

/-- One bit of a number. -/
def bit (v i : Nat) : Bool := (v >>> i) % 2 = 1

/-- A flag as a number. -/
def b2n (b : Bool) : Nat := if b then 1 else 0

/-- A two's complement number of `w` bits. -/
def sext (w v : Nat) : Int :=
  let m := v % 2 ^ w
  if m < 2 ^ (w - 1) then (m : Int) else (m : Int) - 2 ^ w

/-- The `w`-bit two's complement of an integer. -/
def twos (w : Nat) (x : Int) : Nat := (x % (2 ^ w : Int)).toNat

/-- `v` limited to at most `m` (a saturating counter). -/
def sat (m v : Nat) : Nat := if v ≤ m then v else m

/-- A little-endian number. -/
def leNat : List Byte → Nat
  | [] => 0
  | b :: r => b.toNat + 256 * leNat r

/-- `n` little-endian bytes of a number. -/
def natLe : Nat → Nat → List Byte
  | 0, _ => []
  | n + 1, v => BitVec.ofNat 8 v :: natLe n (v / 256)

/-- A big-endian number. -/
def beNat (bs : List Byte) : Nat := bs.foldl (fun a b => a * 256 + b.toNat) 0

/-- `n` big-endian bytes of a number. -/
def natBe (n v : Nat) : List Byte := (natLe n v).reverse

/-- `n` bytes of a list from offset `o`, zero where the list ends. -/
def slice (bs : List Byte) (o n : Nat) : List Byte :=
  let t := (bs.drop o).take n
  t ++ List.replicate (n - t.length) 0

/-- The little-endian field of `n` bytes at offset `o`. -/
def fld (bs : List Byte) (o n : Nat) : Nat := leNat ((bs.drop o).take n)

/-- A list of bytes cut or zero-filled to `n`. -/
def padTo (n : Nat) (bs : List Byte) : List Byte := slice bs 0 n

/-- Bytes `o ..` of a list replaced by `v`. -/
def splice (bs : List Byte) (o : Nat) (v : List Byte) : List Byte :=
  slice bs 0 o ++ v ++ bs.drop (o + v.length)

/-- `⌈a / b⌉`. -/
def cdiv (a b : Nat) : Nat := (a + b - 1) / b

/-- The next multiple of `b` at or above `a`. -/
def alignUp (a b : Nat) : Nat := cdiv a b * b

/-- The base-2 logarithm rounded up. -/
def clog2 (n : Nat) : Nat := if n ≤ 1 then 0 else Nat.log2 (n - 1) + 1

/-- One reflected CRC step per bit. -/
def crcBits (poly : Nat) : Nat → Nat → Nat
  | 0, c => c
  | n + 1, c => crcBits poly n (if c % 2 = 1 then (c >>> 1) ^^^ poly else c >>> 1)

/-- A reflected CRC over bytes from running value `c`. -/
def crcRun (poly : Nat) (c : Nat) (bs : List Byte) : Nat :=
  bs.foldl (fun c b => crcBits poly 8 (c ^^^ b.toNat)) c

/-- CRC-32C (reflected polynomial 0x82F63B78), running value to running value. -/
def crc32cRun (c : Nat) (bs : List Byte) : Nat := crcRun 0x82F63B78 c bs

/-- CRC-32C of a byte string: initial value and final XOR all ones. -/
def crc32c (bs : List Byte) : Nat := crc32cRun 0xFFFFFFFF bs ^^^ 0xFFFFFFFF

/-- One CRC-16 step per bit, most significant bit first, polynomial 0x1021. -/
def crc16Bits : Nat → Nat → Nat
  | 0, c => c
  | n + 1, c => crc16Bits n (if c ≥ 0x8000 then ((c * 2) % 0x10000) ^^^ 0x1021 else c * 2)

/-- CRC-16/CCITT-FALSE: initial value 0xFFFF, no final XOR. -/
def crc16 (bs : List Byte) : Nat := bs.foldl (fun c b => crc16Bits 8 (c ^^^ (b.toNat * 256))) 0xFFFF

end Sys2Proof.Machine
end

