-- ==== Sys2Proof/Machine/Crypto.lean ====
section
/-!
DEFINITION. The algorithms the spec names by standard: SHA-384 (FIPS 180-4), HMAC and HKDF over it (RFC 2104, RFC 5869), and the
check of an RSA-3072 PSS signature (RFC 8017). SLH-DSA stays a constant of Config (log 26).
-/

namespace Sys2Proof.Machine

/-! ## SHA-384 -/

/-- 64-bit words. -/
def m64 : Nat := 2 ^ 64
/-- Rotate a 64-bit word right. -/
def ror64 (x n : Nat) : Nat := (x >>> n) ||| ((x <<< (64 - n)) % m64)

/-- The `b` highest bits of the `k`-th root of `v` still to find, below those that `r` holds. -/
def rootBits (k v : Nat) : Nat → Nat → Nat
  | 0, r => r
  | b + 1, r => rootBits k v b (if (r + 2 ^ b) ^ k ≤ v then r + 2 ^ b else r)

/-- The first 64 bits of the fraction of the `k`-th root of a number below 2¹² (FIPS 180-4 takes every constant of SHA-384 so). -/
def rootFrac (k p : Nat) : Nat := rootBits k (p * m64 ^ k) 70 0 % m64

/-- The primes below 412: the first 80. -/
def shaPrimes : List Nat :=
  (List.range 412).filter (fun n => 2 ≤ n && (List.range 21).all (fun d => d < 2 || n ≤ d || n % d ≠ 0))

/-- The round constants: fractions of the cube roots of the first 80 primes. -/
def shaConsts : List Nat := shaPrimes.map (rootFrac 3)

/-- The initial value of SHA-384: fractions of the square roots of the ninth to the sixteenth prime. -/
def shaInit : List Nat := ((shaPrimes.drop 8).take 8).map (rootFrac 2)

/-- The message words of a block: the block's 16, then what the schedule adds, newest first in the accumulator. -/
def shaWords : Nat → List Nat → List Nat
  | 0, w => w
  | n + 1, w =>
    let a := w.getD 14 0
    let b := w.getD 1 0
    let s0 := ror64 a 1 ^^^ ror64 a 8 ^^^ (a >>> 7)
    let s1 := ror64 b 19 ^^^ ror64 b 61 ^^^ (b >>> 6)
    shaWords n (((w.getD 15 0 + s0 + w.getD 6 0 + s1) % m64) :: w)

/-- One round. -/
def shaRound (v : List Nat) (kw : Nat × Nat) : List Nat :=
  match v with
  | [a, b, c, d, e, f, g, h] =>
    let s1 := ror64 e 14 ^^^ ror64 e 18 ^^^ ror64 e 41
    let ch := (e &&& f) ^^^ ((m64 - 1 - e) &&& g)
    let t1 := h + s1 + ch + kw.1 + kw.2
    let s0 := ror64 a 28 ^^^ ror64 a 34 ^^^ ror64 a 39
    let maj := (a &&& b) ^^^ (a &&& c) ^^^ (b &&& c)
    [(t1 + s0 + maj) % m64, a, b, c, (d + t1) % m64, e, f, g]
  | _ => v

/-- Big-endian words of 8 bytes. -/
def beWords : Nat → List Byte → List Nat
  | 0, _ => []
  | n + 1, bs => beNat (bs.take 8) :: beWords n (bs.drop 8)

/-- Compress one block of 128 bytes. -/
def shaBlock (h : List Nat) (block : List Byte) : List Nat :=
  let w := (shaWords 64 (beWords 16 block).reverse).reverse
  List.zipWith (fun x y => (x + y) % m64) h ((shaConsts.zip w).foldl shaRound h)

/-- Compress `n` blocks. -/
def shaRun : Nat → List Nat → List Byte → List Nat
  | 0, h, _ => h
  | n + 1, h, bs => shaRun n (shaBlock h (bs.take 128)) (bs.drop 128)

/-- SHA-384 of a byte string, 48 bytes. -/
def sha384 (m : List Byte) : List Byte :=
  let n := (m.length + 17 + 127) / 128
  let p := m ++ [0x80] ++ List.replicate (n * 128 - m.length - 17) 0 ++ natBe 16 (8 * m.length)
  ((shaRun n shaInit p).take 6).flatMap (natBe 8)

/-! ## HMAC and HKDF -/

/-- XOR of every byte of a 128-byte key block. -/
def padKey (k : List Byte) (x : Byte) : List Byte :=
  (padTo 128 (if k.length > 128 then sha384 k else k)).map (· ^^^ x)

/-- HMAC-SHA-384. -/
def hmac384 (k m : List Byte) : List Byte := sha384 (padKey k 0x5c ++ sha384 (padKey k 0x36 ++ m))

/-- HKDF-SHA-384 with no salt: extract, then the first 48 bytes of the expansion with `info`. -/
def hkdf384 (ikm info : List Byte) : List Byte := hmac384 (hmac384 [] ikm) (info ++ [1])

/-- The ASCII bytes of a label. -/
def ascii (s : String) : List Byte := s.toList.map (fun c => BitVec.ofNat 8 c.toNat)

/-! ## RSA-3072 PSS (SHA-384, MGF1 with SHA-384, salt of 48 bytes) -/

/-- `b ^ e mod n` by squaring, for an exponent of at most `fuel` bits. -/
def powMod (n : Nat) : Nat → Nat → Nat → Nat
  | 0, _, _ => 1 % n
  | fuel + 1, b, e =>
    if e = 0 then 1 % n
    else
      let r := powMod n fuel (b * b % n) (e / 2)
      if e % 2 = 1 then r * b % n else r

/-- MGF1 with SHA-384, `n` bytes. -/
def mgf1 (seed : List Byte) (n : Nat) : List Byte :=
  ((List.range (cdiv n 48)).flatMap (fun i => sha384 (seed ++ natBe 4 i))).take n

/-- The check of a signature over `msg` under a modulus, both fields of 384 bytes and little-endian as every multi-byte field is (R5, R406). -/
def rsaPssOk (modulus msg sig : List Byte) : Bool :=
  let n := leNat modulus
  let s := leNat sig
  if n < 2 ^ 3071 || s ≥ n then false
  else
    let em := natBe 384 (powMod n 32 s 65537)
    let masked := em.take 335
    let h := (em.drop 335).take 48
    let db := List.zipWith (· ^^^ ·) masked (mgf1 h 335)
    let db := match db with | b :: r => (b &&& 0x7f) :: r | [] => []
    (em.drop 383 == [0xbc]) && (match masked with | b :: _ => b &&& 0x80 == 0 | [] => false) &&
      db.take 287 == List.replicate 286 0 ++ [1] &&
      sha384 (List.replicate 8 0 ++ sha384 msg ++ db.drop 287) == h

end Sys2Proof.Machine
end

