-- ==== Sys2Proof/Machine/Num.lean ====
section
/-!
DEFINITION. Number formats and arithmetic (chapter 4): decoding and encoding of the eleven formats, exact dyadic arithmetic,
rounding (R89–R91), the outcomes of Table 4.4, MX block scales (R80, R81) and packing (R78).
-/

namespace Sys2Proof.Machine

/-- A value: NaN, an infinity, or `(−1)^neg · m · 2^e` (a zero keeps its sign). -/
inductive Num where
  | nan
  | inf (neg : Bool)
  | fin (neg : Bool) (m : Nat) (e : Int)
deriving DecidableEq, Repr

/-- A float format: exponent bits, mantissa bits, bias. -/
structure FloatFmt where
  eb : Nat
  mb : Nat
  bias : Int
deriving DecidableEq, Repr

/-- The float format of a code of Table 4.1. -/
def floatFmt : Nat → Option FloatFmt
  | 0 => some ⟨8, 23, 127⟩
  | 1 => some ⟨5, 10, 15⟩
  | 2 => some ⟨8, 7, 127⟩
  | 3 => some ⟨4, 3, 7⟩
  | 4 => some ⟨5, 2, 15⟩
  | 5 => some ⟨3, 2, 3⟩
  | 6 => some ⟨2, 3, 1⟩
  | 7 => some ⟨2, 1, 1⟩
  | _ => none

/-- Width in bits of a format code (Table 4.1), 0 for a reserved one. -/
def fmtBits : Nat → Nat
  | 0 => 32 | 1 => 16 | 2 => 16 | 3 => 8 | 4 => 8 | 5 => 6 | 6 => 6 | 7 => 4 | 8 => 16 | 9 => 8 | 10 => 4
  | _ => 0

/-- An integer format (INT16, INT8, INT4). -/
def isIntFmt (f : Nat) : Bool := f = 8 || f = 9 || f = 10
/-- A format with IEEE infinities and NaNs: FP32, FP16, BF16, FP8 E5M2. -/
def hasInf (f : Nat) : Bool := f = 0 || f = 1 || f = 2 || f = 4
/-- A format that may carry an MX scale (R80): FP8, FP6, FP4, INT8. -/
def mayScale (f : Nat) : Bool := 3 ≤ f && f ≤ 7 || f = 9

/-- The value of an integer. -/
def Num.ofInt (x : Int) : Num := .fin (x < 0) x.natAbs 0

/-- Decode an element of a format (R77). -/
def decodeNum (f raw : Nat) : Num :=
  match floatFmt f with
  | none => Num.ofInt (sext (fmtBits f) raw)
  | some F =>
    let neg := bit raw (F.eb + F.mb)
    let E := (raw >>> F.mb) % 2 ^ F.eb
    let M := raw % 2 ^ F.mb
    if hasInf f && E = 2 ^ F.eb - 1 then (if M = 0 then .inf neg else .nan)
    else if f = 3 && E = 15 && M = 7 then .nan
    else if E = 0 then .fin neg M (1 - F.bias - F.mb)
    else .fin neg (2 ^ F.mb + M) ((E : Int) - F.bias - F.mb)

/-- `⌊log₂⌋` of a finite non-zero magnitude. -/
def flog2 (m : Nat) (e : Int) : Int := (Nat.log2 m : Int) + e

/-- Is the value a zero? -/
def Num.isZero : Num → Bool
  | .fin _ m _ => m = 0
  | _ => false

/-- Negation. -/
def Num.neg : Num → Num
  | .nan => .nan
  | .inf n => .inf !n
  | .fin n m e => .fin (!n) m e

/-- Magnitude. -/
def Num.abs : Num → Num
  | .nan => .nan
  | .inf _ => .inf false
  | .fin _ m e => .fin false m e

/-- Exact product (R79). -/
def Num.mul (a b : Num) : Num :=
  match a, b with
  | .nan, _ => .nan
  | _, .nan => .nan
  | .inf x, .inf y => .inf (x != y)
  | .inf x, .fin y m _ => if m = 0 then .nan else .inf (x != y)
  | .fin x m _, .inf y => if m = 0 then .nan else .inf (x != y)
  | .fin x m e, .fin y n g => .fin (x != y) (m * n) (e + g)

/-- The signed integer of a finite value at exponent `g ≤ e`. -/
def signedAt (neg : Bool) (m : Nat) (e g : Int) : Int :=
  let v : Int := (m * 2 ^ (e - g).toNat : Nat)
  if neg then -v else v

/-- Exact sum; an exact zero from opposite signs is +0, from two −0 is −0 (R79). -/
def Num.add (a b : Num) : Num :=
  match a, b with
  | .nan, _ => .nan
  | _, .nan => .nan
  | .inf x, .inf y => if x = y then .inf x else .nan
  | .inf x, _ => .inf x
  | _, .inf y => .inf y
  | .fin x m e, .fin y n g =>
    let h := if e ≤ g then e else g
    let v := signedAt x m e h + signedAt y n g h
    if v = 0 then .fin (x && y) 0 h else .fin (v < 0) v.natAbs h

/-- Exact difference. -/
def Num.sub (a b : Num) : Num := a.add b.neg

/-- Multiplication by a power of two. -/
def Num.scale (a : Num) (k : Int) : Num :=
  match a with
  | .fin n m e => .fin n m (e + k)
  | x => x

/-- Strict order of values other than NaN, −0 below +0 as in IEEE 754 maximum and minimum. -/
def Num.lt (a b : Num) : Bool :=
  match a, b with
  | .nan, _ => false
  | _, .nan => false
  | .inf true, .inf true => false
  | .inf true, _ => true
  | .inf false, _ => false
  | .fin _ _ _, .inf n => !n
  | .fin x m e, .fin y n g =>
    let h := if e ≤ g then e else g
    let u := signedAt x m e h
    let v := signedAt y n g h
    if m = 0 && n = 0 then x && !y else u < v

/-- Order in value, a zero equal to a zero. -/
def Num.le (a b : Num) : Bool :=
  match a, b with
  | .nan, _ => false
  | _, .nan => false
  | .fin x m e, .fin y n g =>
    let h := if e ≤ g then e else g
    signedAt x m e h ≤ signedAt y n g h
  | x, y => !(y.lt x)

/-- The larger value; NaN if either is. -/
def Num.max (a b : Num) : Num :=
  match a, b with
  | .nan, _ => .nan
  | _, .nan => .nan
  | x, y => if x.lt y then y else x

/-- The smaller value; NaN if either is. -/
def Num.min (a b : Num) : Num :=
  match a, b with
  | .nan, _ => .nan
  | _, .nan => .nan
  | x, y => if y.lt x then y else x

/-- A quotient of two finite non-zero values, to `k` more bits than any format holds, with a sticky last bit: exact for
every rounding of R89. -/
def Num.div (a b : Num) : Num :=
  match a, b with
  | .nan, _ => .nan
  | _, .nan => .nan
  | .inf _, .inf _ => .nan
  | .inf x, .fin y _ _ => .inf (x != y)
  | .fin x _ _, .inf y => .fin (x != y) 0 0
  | .fin x m e, .fin y n g =>
    if n = 0 then (if m = 0 then .nan else .inf (x != y))
    else
      let k := 320 + Nat.log2 n
      let q := m * 2 ^ k / n
      let r := m * 2 ^ k % n
      .fin (x != y) (2 * q + (if r = 0 then 0 else 1)) (e - g - k - 1)

/-- `⌊√n⌋` by `fuel` steps of Newton's method from above. -/
def isqrtFrom : Nat → Nat → Nat → Nat
  | 0, _, x => x
  | fuel + 1, n, x =>
    let y := (x + n / x) / 2
    if y ≥ x then x else isqrtFrom fuel n y

/-- `⌊√n⌋`. -/
def isqrt (n : Nat) : Nat := if n = 0 then 0 else isqrtFrom (2 * Nat.log2 n + 20) n (2 ^ (Nat.log2 n / 2 + 1))

/-- A square root to more bits than any format holds, with a sticky last bit. -/
def Num.sqrt (a : Num) : Num :=
  match a with
  | .nan => .nan
  | .inf n => if n then .nan else .inf false
  | .fin n m e =>
    if m = 0 then .fin n 0 e
    else if n then .nan
    else
      let e0 := if e % 2 = 0 then e else e - 1
      let v := m * 2 ^ (e - e0).toNat * 2 ^ 400
      let q := isqrt v
      .fin false (2 * q + (if q * q = v then 0 else 1)) (e0 / 2 - 200 - 1)

/-- The rounding of a command: mode of R89, the 16-bit draw of R90, and the overflow mode of R91. -/
structure RMode where
  mode : Nat := 0
  draw : Nat := 0
  naninf : Bool := false
deriving DecidableEq, Repr

/-- Round to nearest, ties to even. -/
def rne : RMode := {}

/-- `m·2^e` in units of `2^q`, rounded by the mode (R89, R90). -/
def roundTo (rm : RMode) (m : Nat) (e q : Int) : Nat :=
  if q ≤ e then m * 2 ^ (e - q).toNat
  else
    let k := (q - e).toNat
    let n := m / 2 ^ k
    let r := m % 2 ^ k
    match rm.mode with
    | 1 => n
    | 2 =>
      let d := r * 2 ^ 16 / 2 ^ k
      if r = 0 then n else if d + rm.draw ≥ 65536 then n + 1 else n
    | _ => if 2 * r > 2 ^ k || (2 * r = 2 ^ k && n % 2 = 1) then n + 1 else n

/-- What a conversion leaves beside the element (Table 4.4, Table 4.5). -/
structure Flags where
  sat : Bool := false
  nan : Bool := false
  nanLost : Bool := false
  inexact : Bool := false
  flush : Bool := false
  /-- The block's scale is set to 0xFF. -/
  scaleFF : Bool := false
deriving DecidableEq, Repr

/-- Both sets of flags. -/
def Flags.or (a b : Flags) : Flags :=
  { sat := a.sat || b.sat, nan := a.nan || b.nan, nanLost := a.nanLost || b.nanLost, inexact := a.inexact || b.inexact,
    flush := a.flush || b.flush, scaleFF := a.scaleFF || b.scaleFF }

/-- The arithmetic status byte (Table 4.5). -/
def Flags.byte (f : Flags) : Nat :=
  b2n f.sat + 2 * b2n f.nan + 4 * b2n f.nanLost + 8 * b2n f.inexact + 16 * b2n f.flush

/-- The largest finite magnitude of a float format, as its bits without the sign. -/
def maxRaw (f : Nat) (F : FloatFmt) : Nat :=
  if hasInf f then (2 ^ F.eb - 1) * 2 ^ F.mb - 1
  else if f = 3 then 0x7E
  else 2 ^ (F.eb + F.mb) - 1

/-- The canonical NaN of a format (R79). -/
def nanRaw : Nat → Nat
  | 0 => 0x7FC00000 | 1 => 0x7E00 | 2 => 0x7FC0 | 3 => 0x7F | 4 => 0x7E
  | _ => 0

/-- The infinity of a format, without the sign. -/
def infRaw (F : FloatFmt) : Nat := (2 ^ F.eb - 1) * 2 ^ F.mb

/-- Encode a value into a format (R89–R92, Table 4.4). `scaled` says the element belongs to a block with a scale; an INT8
element of such a block counts in units of 2⁻⁶ (R80). Where Table 4.4 sets the block's scale to 0xFF the
answer only says so: `encodeBlock` then converts the block anew. -/
def encodeNum (f : Nat) (rm : RMode) (scaled : Bool) (x : Num) : Nat × Flags :=
  match floatFmt f with
  | none =>
    let w := fmtBits f
    let top : Int := 2 ^ (w - 1) - 1
    let bot : Int := -(2 ^ (w - 1) : Int)
    let q : Int := if scaled && f = 9 then -6 else 0
    match x with
    | .nan => (0, if scaled then { scaleFF := true, nan := true } else { nanLost := true })
    | .inf n => (twos w (if n then bot else top), { sat := true, nanLost := true })
    | .fin n m e =>
      let v : Int := (roundTo rm m e q : Nat)
      let v := if n then -v else v
      if v > top then (twos w top, { sat := true })
      else if v < bot then (twos w bot, { sat := true })
      else (twos w v, {})
  | some F =>
    let s (neg : Bool) (r : Nat) : Nat := (if neg then 2 ^ (F.eb + F.mb) else 0) + r
    let ovf (neg infIn : Bool) : Nat × Flags :=
      if f = 0 || f = 1 || f = 2 then (s neg (infRaw F), { nan := true })
      else if !rm.naninf || f = 7 then (s neg (maxRaw f F), { sat := true, nanLost := infIn && f != 4 })
      else if f = 3 then (nanRaw 3, { nan := true, nanLost := infIn })
      else if f = 4 then (s neg (infRaw F), { nan := true })
      else (0, { scaleFF := true, nan := true, nanLost := infIn })
    match x with
    | .nan =>
      if nanRaw f ≠ 0 then (nanRaw f, { nan := true })
      else (0, if scaled then { scaleFF := true, nan := true } else { nanLost := true })
    | .inf n => ovf n true
    | .fin n m e =>
      if m = 0 then (s n 0, {})
      else
        let emin : Int := 1 - F.bias
        let E := flog2 m e
        let q := (if E < emin then emin else E) - F.mb
        let r := roundTo rm m e q
        -- a carry out of the mantissa moves the exponent up by one
        let (r, q) := if r ≥ 2 ^ (F.mb + 1) then (r / 2, q + 1) else (r, q)
        let raw := if r < 2 ^ F.mb then r else ((q + F.mb + F.bias).toNat) * 2 ^ F.mb + (r - 2 ^ F.mb)
        if raw ≤ maxRaw f F then (s n raw, {})
        else if rm.mode = 1 then (s n (maxRaw f F), { sat := true })
        else ovf n false

/-- Round to FP32, ties to even; the value again. -/
def rnd32 (x : Num) : Num := decodeNum 0 (encodeNum 0 rne false x).1

/-- FP32 bits of a value. -/
def fp32 (x : Num) : Nat := (encodeNum 0 rne false x).1
/-- Value of FP32 bits. -/
def ofFp32 (r : Nat) : Num := decodeNum 0 (r % 2 ^ 32)
/-- FP32 addition, ties to even. -/
def add32 (a b : Num) : Num := rnd32 (a.add b)
/-- FP32 multiplication, ties to even. -/
def mul32 (a b : Num) : Num := rnd32 (a.mul b)
/-- FP32 fused multiply-add, ties to even. -/
def fma32 (a b c : Num) : Num := rnd32 ((a.mul b).add c)
/-- FP32 division, ties to even. -/
def div32 (a b : Num) : Num := rnd32 (a.div b)
/-- Plus zero. -/
def Num.zero : Num := .fin false 0 0
/-- One. -/
def Num.one : Num := .fin false 1 0
/-- A natural number. -/
def Num.ofNat (n : Nat) : Num := .fin false n 0

/-- The 16-bit draw of R90 for element `n`, with seed `s` and frame `f`. -/
def stochDraw (seed frame n : Nat) : Nat :=
  let M := 2 ^ 32
  let x := (seed ^^^ (frame * 0x9E3779B9 % M) ^^^ (n * 0x85EBCA6B % M)) % M
  let x := (x ^^^ (x >>> 16)) * 0x7FEB352D % M
  let x := (x ^^^ (x >>> 15)) * 0x846CA68B % M
  let x := x ^^^ (x >>> 16)
  x >>> 16

/-- The value of an E8M0 scale byte: its exponent, or none for the NaN scale (R80). -/
def scaleExp (X : Nat) : Option Int := if X = 255 then none else some ((X : Int) - 127)

/-- An element with the scale of its block applied; `X` none for an element without a scale. -/
def scaledNum (f raw : Nat) (X : Option Nat) : Num :=
  match X with
  | none => decodeNum f raw
  | some x =>
    match scaleExp x with
    | none => .nan
    | some k => ((decodeNum f raw).scale (if f = 9 then -6 else 0)).scale k

/-- `e_max` of R81. -/
def eMax : Nat → Int
  | 3 => 8 | 4 => 15 | 5 => 4 | 6 => 2 | 7 => 2
  | _ => 0

/-- The scale of an MX output block (R81). -/
def blockScale (f : Nat) (xs : List Num) : Nat :=
  if xs.any (· = .nan) then 255
  else if xs.all Num.isZero then 0
  else
    let tops := xs.filterMap (fun x => match x with | .fin _ m e => if m = 0 then none else some (flog2 m e) | _ => none)
    match tops with
    | [] => 254
    | t :: ts =>
      let top := ts.foldl (fun a b => if a < b then b else a) t
      let X := top - eMax f + 127
      if X < 0 then 0 else if X > 254 then 254 else X.toNat

/-- A block under a scale of 0xFF: every element is NaN (R80), in the format's own encoding of it where it has one. Table 4.4
gives an integer 0; the bits of an FP6 or FP4 element are free (log 5). -/
def nanBlock (f n0 : Nat) (lost : Bool) (xs : List Num) : Nat × List Nat × Flags :=
  let el (n : Nat) : Nat := if f = 9 then 0 else if nanRaw f ≠ 0 then nanRaw f else Config.nanScaleBits f n % 2 ^ fmtBits f
  (255, (xs.zipIdx n0).map (fun p => el p.2), { nan := true, nanLost := lost })

/-- Convert a block of an MX output: the scale byte, the elements, the flags (R81). `n0` is the first element's index. -/
def encodeBlock (f : Nat) (rm : Nat → RMode) (n0 : Nat) (xs : List Num) : Nat × List Nat × Flags :=
  let X := blockScale f xs
  let es := (xs.zipIdx n0).map (fun p => encodeNum f (rm p.2) true (p.1.scale (127 - (X : Int))))
  let fl : Flags := es.foldl (fun (a : Flags) e => a.or e.2) {}
  if X = 255 || fl.scaleFF then nanBlock f n0 fl.nanLost xs
  else (X, es.map (·.1), fl)

/-- Cut a list into pieces of `n`. -/
def chunks {β : Type} (n : Nat) : Nat → List β → List (List β)
  | 0, _ => []
  | fuel + 1, xs => if xs.isEmpty then [] else xs.take n :: chunks n fuel (xs.drop n)

/-- Unpack `n` elements of a format from a byte string, lowest bits first (R78). -/
def unpackBits (w n : Nat) (bs : List Byte) : List Nat :=
  let v := leNat bs
  (List.range n).map (fun i => (v >>> (i * w)) % 2 ^ w)

/-- Pack elements of `w` bits into bytes, lowest bits first, the last byte filled with zeros (R78). -/
def packBits (w : Nat) (xs : List Nat) : List Byte :=
  natLe (cdiv (xs.length * w) 8) ((xs.zipIdx).foldl (fun a p => a + (p.1 % 2 ^ w) <<< (p.2 * w)) 0)

/-- Bytes that `n` packed elements of a format take. -/
def fmtBytes (f n : Nat) : Nat := cdiv (n * fmtBits f) 8

end Sys2Proof.Machine
end

