-- ==== Sys2Proof/Machine/Ops.lean ====
section
/-!
DEFINITION. The shared operations: resource numbers, the Almanac (R343–R356), notifications and interrupts (R371, R372),
the Vigil A queue (R292), and memory with its owner tags and tile checks (R165–R186).
-/

namespace Sys2Proof.Machine

/-- What a step answers. -/
abbrev Out := Host.Outcome State Fault Refusal

/-- The end of every meaning: the next state `t`, with the command queue as the step left it (`s`). The queue is not
a command's to change (the step alone takes commands from it). -/
def done (s t : State) : Out := .next { t with pending := s.pending }

/-! ## Resource numbers (Table 2.4) -/

/-- RESOURCE_ID of the cluster with global number `g`. -/
def rClu (g : Nat) : Nat := 0x01000000 + (g / 72) * 65536 + g % 72
/-- RESOURCE_ID of the fusion engine. -/
def rFus : Nat := 0x05000000
/-- RESOURCE_ID of the planning engine. -/
def rPln : Nat := 0x06000000
/-- RESOURCE_ID of the NLE of Quarter `q`. -/
def rNle (q : Nat) : Nat := 0x07000000 + q * 65536
/-- Where tokens to the hub result unit go (no RESOURCE_ID of Table 2.4). -/
def rResult : Nat := 0
/-- The type byte of a RESOURCE_ID. -/
def rType (r : Nat) : Nat := bits r 31 24
/-- The Quarter of a RESOURCE_ID. -/
def rQ (r : Nat) : Nat := bits r 23 16
/-- Is it a cluster's? -/
def isClu (r : Nat) : Bool := rType r = 1
/-- The global cluster number `72·q + c` of a cluster's RESOURCE_ID. -/
def gOf (r : Nat) : Nat := rQ r * 72 + bits r 15 0
/-- Does the RESOURCE_ID name a cluster, NLE or hub engine of the package? -/
def isUnit (r : Nat) : Bool :=
  (isClu r && rQ r < 4 && bits r 15 0 < 72) || r = rFus || r = rPln || (rType r = 7 && rQ r < 4 && bits r 15 0 = 0)
/-- How many contexts a unit has: 32 on a cluster, 8 on an NLE or hub engine (Table 2.7). -/
def maxCtx (r : Nat) : Nat := if isClu r then 32 else 8

/-- Almanac SOURCE of a unit (Table 16.2). -/
def srcOf (r : Nat) : Nat :=
  match rType r with
  | 1 => 0x1000 + gOf r
  | 7 => 0x2000 + rQ r
  | 5 => 0x3000
  | 6 => 0x4000
  | _ => 0x7000

/-! ## Notifications and interrupts (R371, R372) -/

/-- Signal MSI-X vector `v`: counted unless the function is in D3hot or the vector is masked, when it pends. A vector is masked from reset on (PCI Express; PRESUMED, log 25). -/
def msix (s : State) (v : Nat) : State :=
  if s.host.d3hot || tget s.host.msixMask v true then
    { s with host := { s.host with msixPend := tput s.host.msixPend v true } }
  else { s with host := { s.host with msix := tmod s.host.msix v 0 (· + 1) } }

/-- Place a notification in the queue of 256; a full queue discards it and counts it (R372). -/
def notify (s : State) (kind detail almSeq : Nat) : State :=
  if s.host.notifs.length ≥ 256 then { s with host := { s.host with lost := sat 0xFFFFFFFF (s.host.lost + 1) } }
  else
    let s1 := { s with host := { s.host with
      notifs := s.host.notifs ++ [{ kind := kind, frame := s.cal.frame, time := s.now, almSeq := almSeq, detail := detail }] } }
    if s.host.notifs.isEmpty then msix s1 1 else s1

/-! ## The Almanac -/

/-- Slots of the ring (R345). -/
def almSlots : Nat := 16384

/-- The first free slot at or after `k`, wrapping; `fuel` slots are looked at (R346). -/
def freeSlot (ring : Tbl AlmRec) : Nat → Nat → Option Nat
  | 0, _ => none
  | fuel + 1, k => if thas ring (k % almSlots) then freeSlot ring fuel (k + 1) else some (k % almSlots)

/-- FLAGS.CLEAR of a record. -/
def AlmRec.isClear (r : AlmRec) : Bool := bit r.flags 0

/-- The occupied slot with the lowest SEQ among those of severity `sev` or less, never the CLEAR record's (R346). -/
def oldestSlot (ring : Tbl AlmRec) (sev : Nat) : Option (Nat × Nat) :=
  ring.foldl (fun best p =>
    if p.2.severity ≤ sev && !p.2.isClear then
      match best with
      | none => some (p.1, p.2.seq)
      | some b => if p.2.seq < b.2 then some (p.1, p.2.seq) else best
    else best) none

/-- The slot R346 gives a new record of severity `sev`, or none when the record is dropped. -/
def placeSlot (a : Alm) (sev : Nat) : Option Nat :=
  match freeSlot a.ring almSlots a.lastSlot with
  | some k => some k
  | none => (oldestSlot a.ring sev).map (·.1)

/-- The SEQ of the newest record ever created with this SOURCE and CODE. -/
def newestSeq (a : Alm) (src : Nat) (c : AlmCode) : Option Nat :=
  (a.newest.find? (fun e => e.1 = src ∧ e.2.1 = c)).map (·.2.2)

/-- When a journal entry is due (R350): within 10 ms for a new record of severity error or safety, else at the next whole
second of device time. -/
def journalDue (now sev : Nat) (fresh : Bool) : Nat :=
  if fresh && sev ≥ 3 then now + 10000000 else (now / 1000000000 + 1) * 1000000000

/-- A record image due for the journal; of several updates of one record within a second only the last is kept (R350). -/
def dueEntry (due : List JEntry) (r : AlmRec) (t : Nat) : List JEntry :=
  due.filter (fun e => e.img.seq ≠ r.seq || e.due ≠ t) ++ [{ img := r, due := t }]

/-- Write the journal counter pair of one slot write: COMMIT goes up by two (R347), and wraps in its 32 bits. -/
def commitUp (c : Nat) : Nat := (c + 2) % 2 ^ 32

/-- Create a record (R344, R346, R347), or drop it and count the drop. `flags` marks BOOT, SUMMARY and CLEAR records. -/
def almCreate (s : State) (src : Nat) (c : AlmCode) (sev flags : Nat) (payload : List Nat) (time : Nat) : State :=
  match placeSlot s.alm sev with
  | none => { s with alm := { s.alm with drops := tmod s.alm.drops sev 0 (fun n => sat 0xFFFFFFFF (n + 1)) } }
  | some k =>
    let seq := s.alm.head + 1
    let com := commitUp (tget s.alm.commits k 0)
    let r : AlmRec := { seq := seq, source := src, time := time, lastTime := time, code := c, severity := sev,
                        flags := flags, repeats := 1, payload := payload, commit := com }
    let s1 := { s with alm := { s.alm with
      ring := tput s.alm.ring k r, commits := tput s.alm.commits k com, lastSlot := k, head := seq,
      newest := (src, c, seq) :: s.alm.newest.filter (fun e => !(e.1 = src ∧ e.2.1 = c)),
      due := dueEntry s.alm.due r (journalDue s.now sev true) } }
    if sev ≥ 3 then msix s1 2 else s1

/-- The slot of the record that an event repeats under R348, if there is one. -/
def repeatSlot (a : Alm) (src : Nat) (c : AlmCode) (sev : Nat) (payload : List Nat) (time : Nat) : Option (Nat × AlmRec) :=
  match newestSeq a src c with
  | none => none
  | some q => a.ring.find? (fun p => p.2.seq = q && p.2.source = src && p.2.code = c && p.2.severity = sev
      && p.2.payload = payload && p.2.flags = 0 && p.2.repeats < 1048575 && time ≤ p.2.lastTime + 1000000000)

/-- While a clear is in progress Xiuth buffers events, up to 256, and drops those beyond (R355). -/
def almBuffer (s : State) (e : AlmMsg) : State :=
  if s.alm.clearBuffer.length < 256 then { s with alm := { s.alm with clearBuffer := s.alm.clearBuffer ++ [e] } }
  else { s with alm := { s.alm with clearDrops := tmod s.alm.clearDrops e.severity 0 (· + 1) } }

/-- An event reaches Xiuth: it is folded into the record it repeats (R348) or makes a new record (R346), or is buffered during a clear (R355).
Nothing is recorded before Xiuth has rebuilt the ring (R352). -/
def almAt (s : State) (src : Nat) (c : AlmCode) (sev : Nat) (payload : List Nat) (time : Nat) : State :=
  if !s.alm.ready then s
  else if s.alm.clearing then almBuffer s { source := src, code := c, severity := sev, payload := payload, time := time }
  else match repeatSlot s.alm src c sev payload time with
    | some (k, r) =>
      let com := commitUp (tget s.alm.commits k 0)
      let r' := { r with repeats := r.repeats + 1, lastTime := time, commit := com }
      { s with alm := { s.alm with ring := tput s.alm.ring k r', commits := tput s.alm.commits k com,
                                   due := dueEntry s.alm.due r' (journalDue s.now sev false) } }
    | none => almCreate s src c sev 0 payload time

/-- An event at the present device time. -/
def alm (s : State) (src : Nat) (c : AlmCode) (sev : Nat) (payload : List Nat) : State := almAt s src c sev payload s.now

/-! ## Events for Vigil A (R292) -/

/-- Do an island's cores run firmware now? -/
def Island.works (x : Island) : Bool := x.running && !x.restarting && !x.waiting && !x.deferred && !x.halted

/-- Vigil A processes the queue entries it has not processed yet (R292, R298). -/
def Vg.process (v : Vg) : Vg := { v with events := v.events ++ v.queue.drop v.processed, processed := v.queue.length }

/-- An event enters the queue of 8,192 entries, or is dropped on overflow (R292). Vigil A processes it at once where its cores run. -/
def vgPush (s : State) (e : VgEvent) : State :=
  if s.vg.queue.length ≥ 8192 then { s with vg := { s.vg with queueOvf := true } }
  else
    let v := { s.vg with queue := s.vg.queue ++ [e], queuePeak := max s.vg.queuePeak (s.vg.queue.length + 1) }
    let s := { s with vg := if s.islA.works then v.process else v }
    if e.kind = .completion && isClu e.unit then
      { s with health := tmod s.health (gOf e.unit) {} (fun h => { h with active := s.cal.frame }) }
    else s

/-- Vigil B finds a condition of Table 13.2 breached: it counts toward the frame whose Eve comes next (R293). It watches while its cores run. -/
def breach (s : State) : State :=
  if !s.host.ready || !s.islB.works then s
  else if s.cal.frame ≠ 0 && s.cal.eve ≤ s.now && !s.islB.judged then { s with vg := { s.vg with breachedNext := true } }
  else { s with vg := { s.vg with breached := true } }

/-! ## Table accessors -/

/-- The sequencer part of a unit. -/
def unitOf (s : State) (r : Nat) : SeqUnit := tget s.units r {}
/-- Store the sequencer part of a unit. -/
def putUnit (s : State) (r : Nat) (u : SeqUnit) : State := { s with units := tput s.units r u }
/-- Change the sequencer part of a unit. -/
def modUnit (s : State) (r : Nat) (f : SeqUnit → SeqUnit) : State := putUnit s r (f (unitOf s r))
/-- One context of a unit, if the unit defines it. -/
def ctxOf (s : State) (r k : Nat) : Option Ctx := tfind (unitOf s r).ctxs k
/-- Store one context of a unit. -/
def putCtx (s : State) (r k : Nat) (c : Ctx) : State := modUnit s r (fun u => { u with ctxs := tput u.ctxs k c })
/-- Change one context of a unit, if it is defined. -/
def modCtx (s : State) (r k : Nat) (f : Ctx → Ctx) : State :=
  match ctxOf s r k with
  | none => s
  | some c => putCtx s r k (f c)
/-- The clock of a DVFS step in MHz (R431). -/
def stepMhz (k : Nat) : Nat := match k with | 0 => 900 | 1 => 750 | 2 => 600 | 3 => 450 | _ => 300
/-- The clock of a unit now, in MHz: its Quarter's DVFS step for clusters and NLEs, 1,200 in the hub. -/
def clockMhz (s : State) (u : Nat) : Nat :=
  if rType u = 1 || rType u = 7 then stepMhz (tget s.pm.q (rQ u) {}).step else 1200
/-- The cycles of its unit's clock in which a command has run so far. -/
def Run.soFar (s : State) (u : Nat) (r : Run) : Nat := min r.cycles ((s.now - r.issuedAt) * clockMhz s u / 1000)
/-- The cycles counted for a context's task in frame `n` so far (R305). -/
def countSoFar (s : State) (u : Nat) (c : Ctx) (n : Nat) : Nat :=
  tget c.count n 0 + (match c.run with | some r => if r.cmd.frame = n then r.soFar s u else 0 | none => 0)
/-- Register counters of a cluster. -/
def cluOf (s : State) (g : Nat) : Clu := tget s.clu g {}
/-- Change the register counters of a cluster. -/
def modClu (s : State) (g : Nat) (f : Clu → Clu) : State := { s with clu := tmod s.clu g {} f }
/-- Change the registers of an NLE. -/
def modNle (s : State) (q : Nat) (f : Nle → Nle) : State := { s with nle := tmod s.nle q {} f }
/-- Change the counts of the current frame. -/
def modStats (s : State) (f : FrameStats → FrameStats) : State := { s with stats := f s.stats }
/-- Health of a cluster. -/
def healthOf (s : State) (g : Nat) : Health := tget s.health g {}
/-- Change the health of a cluster. -/
def modHealth (s : State) (g : Nat) (f : Health → Health) : State := { s with health := tmod s.health g {} f }
/-- The admitted or loaded plan with this PLAN_ID. -/
def planOf (s : State) (id : Nat) : Option Plan := s.plans.find? (fun p => p.planId = id)
/-- Change the plan with this PLAN_ID. -/
def modPlan (s : State) (id : Nat) (f : Plan → Plan) : State :=
  { s with plans := s.plans.map (fun p => if p.planId = id then f p else p) }
/-- Draw a free value's number: the counter, and the state with the counter advanced. -/
def draw (s : State) : Nat × State := (s.fresh, { s with fresh := s.fresh + 1 })

/-! ## Memory (R165–R172) -/

/-- The memory level of a logical address (Table 8.1): 0 cluster SRAM, 1 commons, 2 hub SRAM, 3 store die. -/
def memLevel (a : Nat) : Option Nat :=
  if a < 0x800000000 then some 3
  else if 0x100000000000 ≤ a && a < 0x100004000000 then
    if (a - 0x100000000000) % 0x1000000 < 0xC00000 then some 1 else none
  else if 0x110000000000 ≤ a && a < 0x110002000000 then some 2
  else if 0x120000000000 ≤ a && a < 0x120000000000 + 288 * 0x200000 then
    if (a - 0x120000000000) % 0x200000 < 0x180000 then some 0 else none
  else none

/-- Logical address of LOCAL_ADDR 0 of cluster `g`. -/
def cluBase (g : Nat) : Nat := 0x120000000000 + g * 0x200000

/-- Is every byte of `[a, a + n)` mapped? Levels are made of whole 64 KiB units. -/
def mapped (a n : Nat) : Bool :=
  n = 0 || (List.range ((a + n - 1) / 65536 - a / 65536 + 1)).all (fun i => (memLevel ((a / 65536 + i) * 65536)).isSome)

/-- Per-Quarter address and die of a store-die address. -/
def storeAt (a : Nat) : Nat × Nat := (a / 0x200000000, a % 0x200000000)

/-- The fixed owner of an allocation unit (R167, Table 8.2): SYSTEM (5) or FREE (7). -/
def fixedTag (unit : Nat) : Nat :=
  let a := unit * 65536
  match memLevel a with
  | some 2 => if a - 0x110000000000 < 80 * 65536 then 5 else 7
  | some 3 => if (storeAt a).2 ≥ 0x1FF7C0000 then 5 else 7
  | _ => 7

/-- The owner tag that Xiuth has set for an allocation unit (R167). -/
def ownTag (s : State) (unit : Nat) : Nat := (tfind s.tags unit).getD (fixedTag unit)

/-- The cluster whose SRAM allocation a cluster runs with: during a rotation step the substitute's is that of the cluster under test (R335). -/
def standInFor (s : State) (g : Nat) : Nat :=
  let r := tget s.st.rot (g / 72) {}
  if r.active && r.substituted && 72 * (g / 72) + r.substitute = g then 72 * (g / 72) + r.pointer else g

/-- The owner tag that a write at an address is held against. -/
def tagOf (s : State) (a : Nat) : Nat :=
  if memLevel a = some 0 then
    let g := (a - 0x120000000000) / 0x200000
    ownTag s ((cluBase (standInFor s g) + (a - cluBase g)) / 65536)
  else ownTag s (a / 65536)

/-- Addresses of the allocation units that `[a, a + n)` touches, divided by 65,536. -/
def unitsOf (a n : Nat) : List Nat :=
  if n = 0 then [] else (List.range ((a + n - 1) / 65536 - a / 65536 + 1)).map (· + a / 65536)

/-- The writer that ignores owner tags (an EXPERT_UNLOCK with SCOPE SERVICE, R381). -/
def anyOwner : Nat := 8

/-- May the writer `who` (0–3 a partition, 4 ingest, 5 SYSTEM, 8 any) write `[a, a + n)` (R166, R169)? -/
def mayWrite (s : State) (who a n : Nat) : Bool :=
  mapped a n && (who = anyOwner || (unitsOf a n).all (fun u => tagOf s (u * 65536) = who))

/-- Read bytes. -/
def rd (s : State) (a n : Nat) : List Byte := mread s.mem a n
/-- Write bytes, with no check. -/
def wr (s : State) (a : Nat) (bs : List Byte) : State := { s with mem := mwrite s.mem a bs }

/-- The eight fold-prefix bytes of a tile (R172). -/
def foldPrefix (a gen : Nat) : List Byte := natLe 6 a ++ natLe 2 gen

/-- The stored checksum of a tile with these bytes (R172). -/
def tileCrc (a gen : Nat) (bs : List Byte) : Nat := crc32c (foldPrefix a gen ++ bs)

/-- `Z(x, n)` of R178: CRC-32C with initial value 0 and no final XOR, over 8 bytes and `n` zero bytes. -/
def crcZ (x : List Byte) (n : Nat) : Nat := crc32cRun (crc32cRun 0 x) (List.replicate n 0)

/-- The bytewise XOR of two prefixes. -/
def xorBytes (x y : List Byte) : List Byte := List.zipWith (· ^^^ ·) x y

/-- The checksum a moved copy carries, derived from the stored one: source address and generation, then the copy's (R178). -/
def movedCrc (cs src gs dst gd n : Nat) : Nat := cs ^^^ crcZ (xorBytes (foldPrefix src gs) (foldPrefix dst gd)) n

/-- The check entry of a tile: what the memory keeps beside its bytes. -/
structure TileEntry where
  valid : Bool
  /-- The generation, in SRAM only (store dies keep none). -/
  gen : Nat
  log2 : Nat
  crc : Nat
deriving DecidableEq, Repr

/-- The fine-tile region of a store die that holds an address (R176). -/
def fineOf (s : State) (a : Nat) : Option Fine :=
  (tget s.fines (storeAt a).1 []).find? (fun f => f.base ≤ a && a < f.base + f.size)

/-- Address of the base table's check value and validity bit (byte and bit) for a store-die address (R175). -/
def baseCheck (a : Nat) : Nat × Nat × Nat :=
  let d := (storeAt a).1 * 0x200000000
  let i := (storeAt a).2 / 4096
  (d + 0x1FF800000 + 4 * i, d + 0x1FF7C0000 + i / 8, i % 8)

/-- Address of the check value and of the validity bit (byte and bit) of a store-die tile (R175, R176). -/
def storeCheck (s : State) (a : Nat) : Nat × Nat × Nat :=
  match fineOf s a with
  | some f =>
    let i := (a - f.base) / 2 ^ f.log2Tile
    let n := f.size / 2 ^ f.log2Tile
    (f.ext + 4 * i, f.ext + 4 * n + i / 8, i % 8)
  | none => baseCheck a

/-- The check entry of the tile at an address. -/
def tileEntry (s : State) (a : Nat) : TileEntry :=
  match memLevel a with
  | some 3 =>
    let (c, v, b) := storeCheck s a
    { valid := bit (mget s.mem v).toNat b, gen := 0, log2 := 0, crc := leNat (rd s c 4) }
  | _ =>
    let w := tget s.side (a / 256) 0
    { valid := bit w 63 && bit w 62, gen := bits w 47 32, log2 := bits w 61 58 + 8, crc := bits w 31 0 }

/-- Set or clear one bit of a byte of memory. -/
def wrBit (s : State) (a b : Nat) (v : Bool) : State :=
  let x := (mget s.mem a).toNat
  let y := if v then x ||| 2 ^ b else if bit x b then x - 2 ^ b else x
  wr s a [BitVec.ofNat 8 y]

/-- Write the side-band words of a tile of `2^k` bytes (R174). -/
def putSide (s : State) (a k head rest : Nat) : State :=
  { s with side := (List.range (2 ^ k / 256)).foldl (fun t i => tput t (a / 256 + i) (if i = 0 then head else rest)) s.side }

/-- Write the check entry of a tile of `2^k` bytes, valid (R174, R175). -/
def putCheck (s : State) (a k gen crc : Nat) : State :=
  match memLevel a with
  | some 3 =>
    let (c, v, b) := storeCheck s a
    wrBit (wr s c (natLe 4 crc)) v b true
  | _ => putSide s a k (2 ^ 63 + 2 ^ 62 + (k - 8) * 2 ^ 58 + (gen % 65536) * 2 ^ 32 + crc % 2 ^ 32) (2 ^ 63)

/-- Mark a tile invalid: its VALID, or its validity bit, becomes 0. -/
def dropCheck (s : State) (a k : Nat) : State :=
  match memLevel a with
  | some 3 => let (_, v, b) := storeCheck s a; wrBit s v b false
  | _ => { s with side := (List.range (2 ^ k / 256)).foldl (fun t i => tmod t (a / 256 + i) 0 (· % 2 ^ 63)) s.side }

/-- Write a tile: its bytes, then its checksum and validity (R177). -/
def putTile (s : State) (a k gen crc : Nat) (bs : List Byte) : State := putCheck (wr s a bs) a k gen crc

/-- Does the tile at `a` pass its check with this generation? -/
def tilePass (s : State) (a k gen : Nat) : Bool :=
  let e := tileEntry s a
  e.valid && e.crc = tileCrc a gen (rd s a (2 ^ k))

/-- The largest naturally aligned tiles of `2^lo` bytes to 64 KiB that cover `[a, e)`, from the left (the descriptor of a
cluster or engine command gives no sizes for what it writes; DESIGN CHOICE, log 10). -/
def splitTiles (lo : Nat) : Nat → Nat → Nat → List (Nat × Nat)
  | 0, _, _ => []
  | fuel + 1, a, e =>
    if e ≤ a then []
    else
      let k := ([16, 15, 14, 13, 12, 11, 10, 9].find? (fun k => lo < k && a % 2 ^ k = 0 && a + 2 ^ k ≤ e)).getD lo
      (a, k) :: splitTiles lo fuel (a + 2 ^ k) e

/-- The tiles of an output region of `n` bytes at `a`: of 256 B or more in SRAM, of 4 KiB or more on a store die (R171, R175). -/
def outTilesAt (a n : Nat) : List (Nat × Nat) :=
  let lo := if memLevel a = some 3 then 12 else 8
  let a0 := a / 2 ^ lo * 2 ^ lo
  splitTiles lo ((a + n - a0) / 2 ^ lo + 1) a0 (a + n)

/-- The weight region whose primary holds an address. -/
def regionAt (s : State) (a : Nat) : Option (Nat × Region) :=
  s.regions.find? (fun p => p.2.valid && p.2.base ≤ a && a < p.2.base + p.2.size)

end Sys2Proof.Machine
end

