-- ==== Sys2Proof/Machine/PlanImage.lean ====
section
/-!
DEFINITION. Reading a frame-plan image (Tables 2.3, 2.7–2.9, 17.15), a command descriptor (Table 3.1 and the opcode
tables), the execution units an opcode claims, and the output tiles a command writes (R54).
-/

namespace Sys2Proof.Machine

/-! ## The image -/

/-- A header field of a plan. -/
def ph (img : List Byte) (o n : Nat) : Nat := fld img o n
/-- The body of a plan image. -/
def planBody (img : List Byte) : List Byte := img.drop 256
/-- TASK_COUNT. -/
def taskCount (img : List Byte) : Nat := ph img 0x54 4
/-- VARIANT_COUNT. -/
def variantCount (img : List Byte) : Nat := ph img 0x4C 1
/-- SLOT_COUNT. -/
def slotCount (img : List Byte) : Nat := ph img 0x6C 2
/-- OUTPUT_COUNT. -/
def outputCount (img : List Byte) : Nat := ph img 0x68 4
/-- Does the plan use P0 (PARTITIONS bit 0)? -/
def usesP0 (img : List Byte) : Bool := bit (ph img 0x4B 1) 0

/-- A task entry (Table 2.7). -/
structure Task where
  id : Nat
  part : Nat
  ctx : Nat
  flags : Nat
  rsv0 : Nat
  slot : Nat
  twin : Nat
  budget : Nat
  stallRef : Nat
  cmdOfs : Nat
  cmdCount : Nat
  destCount : Nat
  destOfs : Nat
  rsv1 : Nat
  creditInit : Nat
  rsv2 : Nat
deriving DecidableEq, Repr

/-- Task entry `i`. -/
def taskAt (img : List Byte) (i : Nat) : Task :=
  let b := slice img (256 + ph img 0x50 4 + 64 * i) 64
  { id := i, part := fld b 0 1, ctx := fld b 1 1, flags := fld b 2 1, rsv0 := fld b 3 1, slot := fld b 4 2, twin := fld b 6 2,
    budget := fld b 8 4, stallRef := fld b 0xC 4, cmdOfs := fld b 0x10 4, cmdCount := fld b 0x14 2, destCount := fld b 0x16 2,
    destOfs := fld b 0x18 4, rsv1 := fld b 0x1C 4, creditInit := fld b 0x20 8, rsv2 := fld b 0x28 24 }

/-- All task entries. -/
def tasksOf (img : List Byte) : List Task := (List.range (taskCount img)).map (taskAt img)

/-- Is the task's twin slot present? -/
def Task.isTwin (t : Task) : Bool := t.twin ≠ 0xFFFF
/-- Is the task's context pinned (R72)? -/
def Task.pinned (t : Task) : Bool := t.part = 0 || bit t.flags 0

/-- The RESOURCE_ID that variant `v` gives slot `k` (R52). -/
def variantEntry (img : List Byte) (v k : Nat) : Nat :=
  fld img (256 + ph img 0x60 4 + 4 * (v * slotCount img + k)) 4

/-- A binding entry (Table 2.8). -/
structure Binding where
  task : Nat
  inSlot : Nat
  kind : Nat
  source : Nat
  counter : Nat
  rsv0 : Nat
  tileId : Nat
  rsv1 : Nat
deriving DecidableEq, Repr

/-- Binding entry `i`. -/
def bindAt (img : List Byte) (i : Nat) : Binding :=
  let b := slice img (256 + ph img 0x70 4 + 16 * i) 16
  { task := fld b 0 2, inSlot := fld b 2 1, kind := fld b 3 1, source := fld b 4 2, counter := fld b 6 1, rsv0 := fld b 7 1,
    tileId := fld b 8 4, rsv1 := fld b 0xC 4 }

/-- All binding entries. -/
def bindsOf (img : List Byte) : List Binding := (List.range (ph img 0x74 4)).map (bindAt img)

/-- A destination entry (Table 2.9). -/
structure Dest where
  target : Nat
  slot : Nat
  flags : Nat
  tileId : Nat
deriving DecidableEq, Repr

/-- MORE: the next entry names another receiver of the same tile. -/
def Dest.more (d : Dest) : Bool := bit d.flags 0
/-- RESULT: the receiver is the hub result unit. -/
def Dest.result (d : Dest) : Bool := bit d.flags 1

/-- Destination entry `i` of a task. -/
def destAt (img : List Byte) (t : Task) (i : Nat) : Dest :=
  let b := slice img (256 + t.destOfs + 8 * i) 8
  { target := fld b 0 2, slot := fld b 2 1, flags := fld b 3 1, tileId := fld b 4 4 }

/-- The destination table of a task. -/
def destsOf (img : List Byte) (t : Task) : List Dest := (List.range t.destCount).map (destAt img t)

/-- Command descriptor `i` of a task. -/
def descAt (img : List Byte) (t : Task) (i : Nat) : List Byte := slice img (256 + t.cmdOfs + 64 * i) 64

/-- The command list of a task. -/
def descsOf (img : List Byte) (t : Task) : List (List Byte) := (List.range t.cmdCount).map (descAt img t)

/-- An output-table entry (Table 17.15). -/
structure OutEntry where
  addr : Nat
  length : Nat
  log2 : Nat
  flags : Nat
  rsv : Nat
deriving DecidableEq, Repr

/-- Output-table entry `i`. -/
def outAt (img : List Byte) (i : Nat) : OutEntry :=
  let b := slice img (256 + ph img 0x64 4 + 32 * i) 32
  { addr := fld b 0 8, length := fld b 8 4, log2 := fld b 0xC 1, flags := fld b 0xD 1, rsv := fld b 0xE 2 }

/-- SAFETY: a listed P0 output (R34). -/
def OutEntry.safety (o : OutEntry) : Bool := bit o.flags 0

/-! ## Descriptors -/

/-- OPCODE. -/
def dOp (d : List Byte) : Nat := fld d 0 1
/-- FLAGS.TWIN. -/
def dTwin (d : List Byte) : Bool := bit (fld d 1 1) 0
/-- FLAGS.SAFETY_OUT. -/
def dSafety (d : List Byte) : Bool := bit (fld d 1 1) 1
/-- FLAGS.SYNC_ONLY. -/
def dSync (d : List Byte) : Bool := bit (fld d 1 1) 2
/-- The input token slots a command names. -/
def dIns (d : List Byte) : List Nat := (List.range (fld d 7 1)).map (· + fld d 6 1)
/-- The output credit counters a command takes. -/
def dOuts (d : List Byte) : List Nat := (List.range (fld d 9 1)).map (· + fld d 8 1)
/-- DEST_INDEX. -/
def dDest (d : List Byte) : Nat := fld d 0xA 2
/-- CMD_INDEX. -/
def dIdx (d : List Byte) : Nat := fld d 0xC 2

/-- The execution units an opcode claims (Tables 5.6, 6.2, 7.2, 10.6, 11.1): 0 arrays, 1 vector unit, 2 SFU, 3 walker,
4 load engine, 5 the one engine of an NLE, the fusion engine or the checker array, 6 grid loader. -/
def opUnits (op : Nat) : List Nat :=
  match op with
  | 0x01 => [4] | 0x02 => [4] | 0x03 => []
  | 0x10 => [0] | 0x11 => [0] | 0x12 => [0]
  | 0x20 => [1] | 0x21 => [2] | 0x22 => [1]
  | 0x30 => [0] | 0x31 => [0] | 0x32 => [1] | 0x33 => [1] | 0x34 => [1]
  | 0x38 => [5] | 0x39 => [5] | 0x3A => [5] | 0x3B => [5] | 0x3C => [5]
  | 0x40 => [3] | 0x41 => [3] | 0x42 => [3]
  | 0x60 => [5] | 0x61 => [5] | 0x62 => [5]
  | 0x70 => [6] | 0x71 => [5] | 0x72 => [5]
  | _ => []

/-- Bytes of one row of a blocked map (R122): `ROWP`. -/
def rowPitch (B f W : Nat) : Nat := alignUp (W * (B * fmtBits f / 8)) 64
/-- Bytes of a feature map in a layout (0 C16, 1 C32, 2 HWC, 3 CHW) (R122, R127). -/
def mapBytes (lay f C H W : Nat) : Nat :=
  match lay with
  | 0 => cdiv C 16 * (rowPitch 16 f W * H)
  | 1 => cdiv C 32 * (rowPitch 32 f W * H)
  | _ => alignUp (fmtBytes f (C * H * W)) 64

/-- Output rows, output columns and reduced dimension of a matrix opcode (R115). -/
def matDims (op : Nat) (d : List Byte) : Nat × Nat × Nat :=
  let M := fld d 0x20 2
  let N := fld d 0x22 2
  let K := fld d 0x24 4
  match op with
  | 0x11 => (M, K, N)
  | 0x12 => (K, N, M)
  | _ => (M, N, K)

/-- Output extent of a convolution or pooling dimension (R128). -/
def convExtent (inp pa pb k dil s : Nat) : Nat :=
  if inp + pa + pb < (k - 1) * dil + 1 then 0 else (inp + pa + pb - (k - 1) * dil - 1) / s + 1

/-- Output extents of a descriptor of Table 6.3. -/
def convOut (d : List Byte) : Nat × Nat :=
  let kh := fld d 0x28 1 / 16 + 1
  let kw := fld d 0x28 1 % 16 + 1
  let sh := fld d 0x29 1 / 16 + 1
  let sw := fld d 0x29 1 % 16 + 1
  (convExtent (fld d 0x20 2) (fld d 0x2C 1) (fld d 0x2D 1) kh (fld d 0x2A 1) sh,
   convExtent (fld d 0x22 2) (fld d 0x2E 1) (fld d 0x2F 1) kw (fld d 0x2B 1) sw)

/-- A layer record of CONV_FUSED (R460), 32 B. -/
def layerAt (img d : List Byte) (i : Nat) : List Byte := slice img (256 + fld d 0x1C 4 + 32 * i) 32

/-- Padding of fused layer `r` at the four sides (top, bottom, left, right): `(k − 1)·d / 2` at an image edge, else 0 (R137). -/
def fusedPad (d r : List Byte) : Nat × Nat × Nat × Nat :=
  let e := fld d 0x27 1
  let ph := (fld r 0xC 1 / 16) * fld r 0xE 1 / 2
  let pw := (fld r 0xC 1 % 16) * fld r 0xF 1 / 2
  (if bit e 3 then ph else 0, if bit e 2 then ph else 0, if bit e 1 then pw else 0, if bit e 0 then pw else 0)

/-- Extents of a fused chain after each layer: rows, columns, channels, format (R135). -/
def fusedShapes (img d : List Byte) : List (Nat × Nat × Nat × Nat) :=
  (List.range (fld d 0x26 1)).foldl (fun acc i =>
    let r := layerAt img d i
    let (h, w, _, _) := acc.getLast?.getD (fld d 0x20 2, fld d 0x22 2, fld d 0x24 2, 0)
    let (t, b, l, rr) := fusedPad d r
    acc ++ [(convExtent h t b (fld r 0xC 1 / 16 + 1) (fld r 0xE 1) (fld r 0xD 1 / 16 + 1),
             convExtent w l rr (fld r 0xC 1 % 16 + 1) (fld r 0xF 1) (fld r 0xD 1 % 16 + 1),
             fld r 8 2, fld r 0x11 1 % 16)]) []

/-- Output extents of an NLE descriptor (Tables 6.6, 6.7). -/
def nleOut (d : List Byte) : Nat × Nat :=
  let kh := fld d 0x30 1 / 16 + 1
  let kw := fld d 0x30 1 % 16 + 1
  let pr := fld d 0x32 1 / 16
  let pc := fld d 0x32 1 % 16
  (convExtent (fld d 0x28 2) pr pr kh 1 (fld d 0x31 1 / 16 + 1), convExtent (fld d 0x2A 2) pc pc kw 1 (fld d 0x31 1 % 16 + 1))

/-- Output size S of NLE_CROP (R142). -/
def cropSize (k : Nat) : Nat := if k = 0 then 7 else if k = 1 then 14 else 28

/-- Output bytes of an NLE descriptor. -/
def nleBytes (d : List Byte) : Nat :=
  let f := fld d 0x34 1 % 16
  let lo := (fld d 0x35 1 / 16) % 4
  let C := fld d 0x2C 2
  let (h, w) := nleOut d
  match dOp d with
  | 0x3A => fld d 0x2E 2 * mapBytes lo f C (cropSize (fld d 0x30 1)) (cropSize (fld d 0x30 1))
  | 0x3B => if fld d 0x30 1 = 0xFF then mapBytes lo f C 1 1 else mapBytes lo f C h w
  | 0x3C => mapBytes lo f C (2 * fld d 0x28 2) (2 * fld d 0x2A 2)
  | _ => mapBytes lo f (fld d 0x2E 2) h w

/-- Geometry of a LAYOUT descriptor: width, height, channels (R127). -/
def layoutGeom (d : List Byte) : Nat × Nat × Nat :=
  let W := fld d 0x38 2
  let H := fld d 0x3A 2
  (W, H, fld d 0x1C 4 / (H * W))

/-- The region a command writes its announced output to: address (LOCAL_ADDR on a cluster, logical on an engine) and bytes.
None for a command without one. -/
def outRegion (img d : List Byte) : Option (Nat × Nat) :=
  match dOp d with
  | 0x10 | 0x11 =>
    let (r, c, _) := matDims (dOp d) d
    some (fld d 0x18 4, (r - 1) * (fld d 0x2A 2 * 64) + fmtBytes (fld d 0x2D 1 % 16) c)
  | 0x12 => some (fld d 0x18 4, cdiv (fld d 0x24 4) 16 * cdiv (fld d 0x22 2) 16 * 1024)
  | 0x20 =>
    let n := if 8 ≤ fld d 0x20 1 && fld d 0x20 1 ≤ 10 then fld d 0x1C 4 / fld d 0x38 4 else fld d 0x1C 4
    some (fld d 0x18 4, fmtBytes (fld d 0x22 1 % 16) n)
  | 0x21 => some (fld d 0x18 4, fmtBytes (fld d 0x22 1 % 16) (fld d 0x1C 4))
  | 0x22 => some (fld d 0x18 4, 4 * fld d 0x1C 4)
  | 0x30 | 0x32 | 0x33 =>
    let (h, w) := convOut d
    some (fld d 0x18 4, mapBytes (fld d 0x33 1 / 16) (fld d 0x31 1 % 16) (fld d 0x26 2) h w)
  | 0x31 =>
    let (h, w, c, f) := (fusedShapes img d).getLast?.getD (0, 0, 0, 0)
    some (fld d 0x18 4, mapBytes (fld d 0x28 1) f c h w)
  | 0x34 =>
    let (w, h, c) := layoutGeom d
    some (fld d 0x18 4, mapBytes (fld d 0x20 1 / 16) (fld d 0x22 1 % 16) c h w)
  | 0x38 | 0x39 | 0x3A | 0x3B | 0x3C => some (fld d 0x18 6, nleBytes d)
  | 0x40 | 0x41 | 0x42 => some (fld d 0x14 4, 16 * fld d 0x18 1)
  | 0x60 => some (fld d 0x18 6, 128)
  | 0x62 => some (fld d 0x18 6, 64 + 128 * 1024)
  | 0x71 => some (fld d 0x20 6, 256)
  | 0x72 => some (fld d 0x20 6, 1024)
  | _ => none

/-- Does the opcode run on a cluster, its addresses LOCAL_ADDRs? -/
def onCluster (op : Nat) : Bool := op < 0x38 || (0x40 ≤ op && op < 0x60)

/-- How many output tiles a command announces (R54). LOAD and STORE take their TILE_COUNT; a command without an output tile
of its own (SYNC, FUS_UPDATE, PLN_GRID) sends one group of tokens (DEDUCED, log 11). -/
def outCount (img d : List Byte) : Nat :=
  if dOp d = 1 || dOp d = 2 then fld d 0x1D 1
  else match outRegion img d with
    | some (a, n) => (outTilesAt (if onCluster (dOp d) then cluBase 0 + a else a) n).length
    | none => 1

/-- The destination entries of `n` output tiles from entry `i` on: one group per tile, a group running while MORE is set
(R54). None when they run past the table. -/
def destGroups (ds : List Dest) : Nat → Nat → Nat → Option (List (List Dest))
  | 0, _, _ => some []
  | _, 0, _ => none
  | n + 1, fuel + 1, i =>
    match ds[i]? with
    | none => none
    | some e =>
      if e.more then
        match destGroups ds (n + 1) fuel (i + 1) with
        | some (g :: gs) => some ((e :: g) :: gs)
        | _ => none
      else (destGroups ds n fuel (i + 1)).map ([e] :: ·)

/-- The destination groups of a command, one per output tile; none taken by a task without a table (R54). -/
def cmdDests (img : List Byte) (t : Task) (d : List Byte) : Option (List (List Dest)) :=
  if t.destCount = 0 then some []
  else destGroups (destsOf img t) (outCount img d) (t.destCount + outCount img d + 1) (dDest d)

/-- Is a slot a P0 task's or a twin's (R324)? -/
def strictSlot (img : List Byte) (k : Nat) : Bool :=
  (tasksOf img).any (fun t => (t.part = 0 && t.slot = k) || (t.isTwin && (t.slot = k || t.twin = k)))

end Sys2Proof.Machine
end

