-- ==== Sys2Proof/Machine/Sequence.lean ====
section
/-!
DEFINITION. The sequence table of the key-value arena (R144–R147, R155, R156, R162, R163): footprints, the closing of a round,
edits, and the descriptor's bytes.
-/

namespace Sys2Proof.Machine

/-- A sequence descriptor. -/
def seqOf (s : State) (id : Nat) : SeqDesc := tget s.seqs id {}
/-- Store a sequence descriptor. -/
def putSeq (s : State) (id : Nat) (d : SeqDesc) : State := { s with seqs := tput s.seqs id d }

/-- Head dimension D. -/
def SeqDesc.dim (d : SeqDesc) : Nat := 32 * d.headDim32
/-- FP8 keys and values, else BF16. -/
def SeqDesc.fp8 (d : SeqDesc) : Bool := d.kvFmt % 16 = 3
/-- Keys and values carry MX scales. -/
def SeqDesc.scaled (d : SeqDesc) : Bool := bit d.kvFmt 4
/-- Bytes of a stored element. -/
def SeqDesc.elem (d : SeqDesc) : Nat := if d.fp8 then 1 else 2
/-- `E_K` (R147). -/
def SeqDesc.ek (d : SeqDesc) : Nat := d.hkv * d.dim * d.elem
/-- `E_S` (R147). -/
def SeqDesc.es (d : SeqDesc) : Nat := if d.scaled then d.hkv * d.dim / 32 else 0
/-- Positions per arena tile. -/
def SeqDesc.tp (d : SeqDesc) : Nat := 2 ^ d.log2TilePos
/-- `M_R`: MAX_LEN rounded up to a multiple of TP. -/
def SeqDesc.mr (d : SeqDesc) : Nat := alignUp d.maxLen d.tp
/-- The layer footprint. -/
def SeqDesc.footprint (d : SeqDesc) : Nat := 2 * d.mr * (d.ek + d.es)
/-- Bytes of the whole region. -/
def SeqDesc.bytes (d : SeqDesc) : Nat := d.layers * d.layerStride
/-- The areas of a layer: byte offset, bytes per position. Keys, values, key scales, value scales (R147). -/
def SeqDesc.areas (d : SeqDesc) : List (Nat × Nat) :=
  let M := d.mr
  [(0, d.ek), (M * d.ek, d.ek)] ++
    (if d.scaled then [(2 * M * d.ek, d.es), (2 * M * d.ek + M * d.es, d.es)] else [])

/-- A tile size of 256 B to 64 KiB that is a power of two. -/
def okTile (n : Nat) : Bool := 256 ≤ n && n ≤ 65536 && 2 ^ Nat.log2 n = n

/-- The 16 words of a GLOBAL_RUNS field. -/
def runWords (b : List Byte) : List Nat := (List.range 16).map (fun i => fld b (4 * i) 4)

/-- A run word's START and COUNT (R146). -/
def runOf (w : Nat) : Nat × Nat := (w % 2 ^ 20, bits w 25 20 + 1)

/-- Are the runs in ascending order, disjoint, below MAX_LEN and at most 64 positions together, with no reserved bit (R146)? -/
def runsOk (maxLen : Nat) (runs : List Nat) : Bool :=
  runs.length ≤ 16 && runs.all (fun w => w / 2 ^ 26 = 0 && (runOf w).1 + (runOf w).2 ≤ maxLen) &&
  (runs.map (fun w => (runOf w).2)).foldl (· + ·) 0 ≤ 64 &&
  (List.zip runs (runs.drop 1)).all (fun p => (runOf p.1).1 + (runOf p.1).2 ≤ (runOf p.2).1)

/-- Apply an edit of Table 7.6: 0 TRUNCATE, 1 SET_WINDOW, 2 SET_GLOBALS (`value` is N_RUNS, `runs` the 16 words), 3 RESET. GEN rises
(R162). -/
def applyEdit (d : SeqDesc) (op value : Nat) (runs : List Nat) : SeqDesc :=
  let d := { d with gen := (d.gen + 1) % 2 ^ 32 }
  match op with
  | 0 => { d with curLen := value }
  | 1 => { d with window := value }
  | 2 => { d with runs := runs.take value, runRest := runs.drop value }
  | _ => { d with curLen := 0, writtenLen := 0, arenaGen := (d.arenaGen + 1) % 65536 }

/-- Close a round with `a` accepted entries (R155): CUR_LEN rises, GEN rises, STATE bits [3:0], ROUND_T, NEXT_LAYER and
TREE_CRC are cleared. WRITTEN_LEN rises to cover the round's slots, whoever closes it and however many of its layers were written, since
R149 has it cover every position written (DEDUCED, log 47). A stored edit is applied by `settleSeq`. -/
def closeDesc (d : SeqDesc) (a : Nat) : SeqDesc :=
  { d with curLen := d.curLen + a, writtenLen := max d.writtenLen (d.curLen + d.roundT), gen := (d.gen + 1) % 2 ^ 32, isOpen := false, prefill := false, broken := false,
           roundT := 0, nextLayer := 0, treeCrc := 0, parents := [] }

/-! ## The arena (R147–R149) -/

/-- One of a layer's four areas: offset in the layer, bytes per position. -/
structure Area where
  ofs : Nat
  per : Nat
deriving DecidableEq, Repr

/-- The areas of a sequence: keys, values, then key scales and value scales where it has them (R147). -/
def areasOf (d : SeqDesc) : List Area := d.areas.map (fun a => { ofs := a.1, per := a.2 })

/-- Address of position `p` of an area in a layer. -/
def posAddr (d : SeqDesc) (layer p : Nat) (a : Area) : Nat := d.base + layer * d.layerStride + a.ofs + p * a.per

/-- log2 of an area's tile size. -/
def areaLog (d : SeqDesc) (a : Area) : Nat := Nat.log2 (d.tp * a.per)

/-- The bytes of one position in each area. -/
def posBytes (s : State) (d : SeqDesc) (layer p : Nat) : List (List Byte) :=
  (areasOf d).map (fun a => rd s (posAddr d layer p a) a.per)

/-- Write entries of one area into one tile: whole with zeros when the tile is not initialised, else the entries alone with the
check updated by CRC linearity (R149). `es` are positions with their bytes. -/
def writeTileEntries (d : SeqDesc) (written layer t : Nat) (a : Area) (es : List (Nat × List Byte)) (s : State) : State :=
  let addr := posAddr d layer (t * d.tp) a
  let k := areaLog d a
  let lay (bs : List Byte) : List Byte := es.foldl (fun acc e => splice acc ((e.1 - t * d.tp) * a.per) e.2) bs
  if t * d.tp < written then
    let old := rd s addr (2 ^ k)
    let new := lay old
    let crc := (tileEntry s addr).crc ^^^ crc32cRun 0 (xorBytes old new)
    let (cv, _, _) := storeCheck s addr
    wr (wr s addr new) cv (natLe 4 crc)
  else
    let new := lay (List.replicate (2 ^ k) 0)
    putTile s addr k d.arenaGen (tileCrc addr d.arenaGen new) new

/-- Write the entries of positions `ps` (with bytes per area) in a layer. -/
def writeEntries (d : SeqDesc) (written layer : Nat) (ps : List (Nat × List (List Byte))) (s : State) : State :=
  ((areasOf d).zipIdx).foldl (fun s ai =>
    ((ps.map (fun p => p.1 / d.tp)).eraseDups).foldl (fun s t =>
      writeTileEntries d written layer t ai.1
        ((ps.filter (fun p => p.1 / d.tp = t)).map (fun p => (p.1, (p.2[ai.2]?).getD []))) s) s) s

/-- Write what a walker command has computed for the arena, in the order it lists it (R149, R157). -/
def writeArena (s : State) (ws : List ArenaWr) : State :=
  ws.foldl (fun s w => writeEntries w.desc w.written w.layer w.ents s) s

/-! ## Rounds -/

/-- Apply a stored edit of a sequence whose round is closed, with its Almanac info record (R163). -/
def settleSeq (s : State) (id : Nat) : State :=
  let d := seqOf s id
  match d.pendingEdit with
  | some (op, v, runs) =>
    if d.isOpen then s
    else alm (putSeq s id { applyEdit d op v runs with pendingEdit := none }) 0x0000 .seqEdit 1 [id, op]
  | none => s

/-- What a walker command writes into a descriptor at its completion, over what stands there then (R153, R155). A failed case marks the
round BROKEN, opening it; a step of layer 0 opens the round; a later layer's only moves NEXT_LAYER on, so that a round which Xiuth closed
meanwhile stays closed; a commit closes a round that is still open. Bindings and a stored edit stay. -/
def mergeSeq (cur wr : SeqDesc) : SeqDesc :=
  if !cur.valid then cur
  else if wr.broken then { cur with broken := true, isOpen := true }
  else if wr.isOpen then
    if wr.nextLayer = 1 then
      { cur with isOpen := true, prefill := wr.prefill, roundT := wr.roundT, nextLayer := 1, treeCrc := wr.treeCrc, parents := wr.parents }
    else { cur with nextLayer := wr.nextLayer }
  else if cur.isOpen then { closeDesc cur 0 with curLen := wr.curLen, writtenLen := max cur.writtenLen wr.writtenLen }
  else cur

/-- The descriptor writes of a walker command, each followed by an edit that waited for the round's close (R153, R155, R163). -/
def writeSeqs (s : State) (ws : List (Nat × SeqDesc)) : State :=
  ws.foldl (fun s e => settleSeq (putSeq s e.1 (mergeSeq (seqOf s e.1) e.2)) e.1) s

/-- Xiuth closes the open round of a sequence with `a = 0` and increments GEN (R156). -/
def xiuthClose (s : State) (id : Nat) : State :=
  let d := seqOf s id
  if d.valid && d.isOpen then settleSeq (putSeq s id (closeDesc d 0)) id else s

/-- A round is marked BROKEN, opening it if it was closed (R154). -/
def breakSeq (s : State) (id : Nat) : State :=
  let d := seqOf s id
  if d.valid then putSeq s id { d with broken := true, isOpen := true } else s

/-- STATE byte of a descriptor (Table 7.1). -/
def SeqDesc.stateByte (d : SeqDesc) : Nat :=
  b2n d.isOpen + 2 * b2n d.prefill + 4 * b2n d.pendingEdit.isSome + 8 * b2n d.broken

/-- The 128 bytes of a descriptor (Table 7.1). -/
def SeqDesc.image (d : SeqDesc) : List Byte :=
  natLe 8 d.base ++ natLe 4 d.layerStride ++ natLe 4 d.maxLen ++ natLe 4 d.curLen ++ natLe 4 d.writtenLen ++ natLe 4 d.gen ++
  natLe 2 d.arenaGen ++ natLe 2 d.window ++ natLe 1 d.layers ++ natLe 1 d.hq ++ natLe 1 d.hkv ++ natLe 1 d.headDim32 ++
  natLe 1 d.kvFmt ++ natLe 1 d.log2TilePos ++ natLe 2 d.ropeDim ++ natLe 4 d.ropeTheta ++ natLe 1 d.ropeMode ++
  natLe 1 d.runs.length ++ natLe 1 d.part ++ natLe 1 d.stateByte ++ natLe 2 d.roundT ++ natLe 1 d.nextLayer ++ natLe 1 0 ++
  natLe 4 d.treeCrc ++ natLe 8 0 ++ padTo 64 ((d.runs ++ d.runRest).flatMap (natLe 4))

/-- The sequences a walker command lists: the SEQ_ID of each list entry in cluster SRAM (Table 7.3). -/
def listedSeqs (s : State) (u : Nat) (d : List Byte) : List Nat :=
  (List.range (fld d 0x18 1)).map (fun i => (mget s.mem (cluBase (gOf u) + fld d 0x10 4 + 32 * i)).toNat)

/-- Is the opcode a walker's? -/
def isWalker (op : Nat) : Bool := op = 0x40 || op = 0x41 || op = 0x42

end Sys2Proof.Machine
end

