-- ==== Sys2Proof/Machine/Sequencer.lean ====
section
/-!
DEFINITION. The sequencer (chapter 3): arrival of tokens and credits, the issue rule, completion, lapses, fences, arming,
context swaps; and what completion owes Vigil A (R292) and task budgets (R305, R306).
-/

namespace Sys2Proof.Machine

/-! ## Who talks to whom (R54, R65, R120) -/

/-- The units a task of a plan runs on in a variant: its slot's, and its twin slot's. -/
def taskUnits (img : List Byte) (v : Nat) (t : Task) : List Nat :=
  variantEntry img v t.slot :: (if t.isTwin then [variantEntry img v t.twin] else [])

/-- The units of task `other` that the copy of task `me` on unit `src` speaks to: within a twin pair each twin speaks to its
own side, and only the primary speaks outside the pair (R120). -/
def peerUnits (img : List Byte) (v : Nat) (me : Task) (src : Nat) (other : Task) : List Nat :=
  let mine := taskUnits img v me
  let theirs := taskUnits img v other
  if me.isTwin then
    (if theirs.contains src then [src] else []) ++
      (if mine.head? = some src then theirs.filter (fun u => !mine.contains u) else [])
  else theirs

/-- The rotation step of a Quarter (R334). -/
def rotOf (s : State) (q : Nat) : Rot := tget s.st.rot q {}

/-- The unit that runs the slots a plan gives to `u`: the substitute, while a rotation step names one (R335). -/
def physOf (s : State) (u : Nat) : Nat :=
  let r := rotOf s (rQ u)
  if isClu u && r.active && r.substituted && gOf u % 72 = r.pointer then rClu (rQ u * 72 + r.substitute) else u

/-- The unit a plan names for what runs on `u`. -/
def logiOf (s : State) (u : Nat) : Nat :=
  let r := rotOf s (rQ u)
  if isClu u && r.active && r.substituted && gOf u % 72 = r.substitute then rClu (rQ u * 72 + r.pointer) else u

/-- Is a cluster excluded (R41, R324)? `strict` for a slot of a P0 task or a twin slot. -/
def excludedClu (s : State) (g : Nat) (strict : Bool) : Bool :=
  match (healthOf s g).state with
  | .quarantined | .fenced | .retired => true
  | .probation | .restricted => strict
  | _ => false

/-- Are the tokens and credits of a unit discarded by the hub: a fenced, quarantined or retired cluster (R69)? -/
def hubDrops (s : State) (u : Nat) : Bool :=
  isClu u && (match (healthOf s (gOf u)).state with
    | .quarantined | .fenced | .retired => true
    | _ => false)

/-- Does the plan still run: admitted and not retired (R70)? -/
def planRuns (s : State) (id : Nat) : Bool :=
  match planOf s id with
  | some p => p.admitted && !p.retired
  | none => false

/-- Put a message on the control channel (R62). -/
def send (s : State) (f : Flight) : State := { s with flights := s.flights ++ [{ f with sentAt := s.now }] }

/-- The tokens of one destination group, sent by the copy of task `t` on unit `src` (R54). -/
def groupFlights (img : List Byte) (a : Armed) (t : Task) (src : Nat) (void : Option VoidReason) (gen tid : Option Nat)
    (stamp : Nat) (g : List Dest) : List Flight :=
  g.flatMap (fun e =>
    let tok : Token := { frame := a.frame, void := void, tileId := tid.getD e.tileId, gen := gen.getD 0 }
    if e.result then
      if !t.isTwin || (taskUnits img a.variant t).head? = some src then
        [{ src := src, dst := rResult, planId := a.planId, stamp := stamp,
           tok := some { tok with slot := e.target % 64, ctx := e.target / 64 } }]
      else []
    else
      let T := taskAt img e.target
      (peerUnits img a.variant t src T).map (fun u =>
        { src := src, dst := u, planId := a.planId, stamp := stamp, tok := some { tok with slot := e.slot, ctx := T.ctx } }))

/-- Send the tokens of a command: READY with the generations of its output tiles, or VOID for each of them (R54, R61). -/
def sendOutputs (s : State) (u : Nat) (a : Armed) (void : Option VoidReason) (outs : List OutTile) : State :=
  match planOf s a.planId with
  | none => s
  | some p =>
    let t := taskAt p.image a.task
    match cmdDests p.image t a.desc with
    | none => s
    | some gs =>
      (gs.zipIdx).foldl (fun s gi =>
        let o := outs[gi.2]?
        (groupFlights p.image a t (logiOf s u) void (o.map (·.gen)) (if dOp a.desc = 0x70 then some (fld a.desc 0x2C 4) else none) s.now gi.1).foldl
          (fun s f => send s { f with src := u, dst := physOf s f.dst }) s) s

/-- The credits that a consumer owes for the input slots whose tokens it took: one for each PRODUCER binding with a counter,
to every producer unit that took it (R53, R65). -/
def creditFlights (s : State) (u : Nat) (a : Armed) (slots : List Nat) : List Flight :=
  match planOf s a.planId with
  | none => []
  | some p =>
    let t := taskAt p.image a.task
    ((bindsOf p.image).filter (fun b => b.task = a.task && b.kind = 0 && b.counter ≠ 0xFF && slots.contains b.inSlot)).flatMap
      (fun b =>
        let P := taskAt p.image b.source
        (peerUnits p.image a.variant t (logiOf s u) P).map (fun r =>
          { src := u, dst := physOf s r, planId := a.planId, cred := some { frame := a.frame, counter := b.counter, ctx := P.ctx } }))

/-! ## Arrival (R63, R64) -/

/-- Count and record a discarded stale token or credit. -/
def discardStale (s : State) (dst ctx frame : Nat) : State :=
  alm (modUnit s dst (fun u => { u with stale := sat 255 (u.stale + 1) })) (srcOf dst) .staleToken 2 [ctx, frame]

/-- Count and record a token discarded because its slot is full. -/
def discardFull (s : State) (dst ctx slot frame : Nat) : State :=
  alm (modUnit s dst (fun u => { u with overflow := sat 255 (u.overflow + 1) })) (srcOf dst) .slotOverflow 3 [ctx, slot, frame]

/-- Count and record a credit that would raise its counter above its initial value. -/
def discardCredit (s : State) (dst ctx counter frame : Nat) : State :=
  alm (modUnit s dst (fun u => { u with overflow := sat 255 (u.overflow + 1) })) (srcOf dst) .creditOverflow 3 [ctx, counter, frame]

/-- The floor of a slot: the frame of the oldest armed command that names it, else the frame last armed plus 1 (R63). -/
def slotFloor (c : Ctx) (slot : Nat) : Nat :=
  match c.queue.find? (fun a => (dIns a.desc).contains slot) with
  | some a => a.frame
  | none => c.lastArmed + 1

/-- Put a token into a slot, kept in order of FRAME. -/
def slotInsert (ts : List Token) (t : Token) : List Token :=
  ts.filter (fun x => x.frame ≤ t.frame) ++ [t] ++ ts.filter (fun x => t.frame < x.frame)

/-- A token arrives at a unit: the first matching case of R63. -/
def recvToken (s : State) (dst : Nat) (t : Token) : State :=
  match ctxOf s dst t.ctx with
  | none => discardStale s dst t.ctx t.frame
  | some c =>
    let held := tget c.slots t.slot []
    if t.frame < slotFloor c t.slot then discardStale s dst t.ctx t.frame
    else if held.length ≥ 2 then discardFull s dst t.ctx t.slot t.frame
    else putCtx s dst t.ctx { c with slots := tput c.slots t.slot (slotInsert held t) }

/-- A credit arrives at a producer's unit (R64). -/
def recvCredit (s : State) (dst : Nat) (cr : Credit) : State :=
  match ctxOf s dst cr.ctx with
  | none => discardStale s dst cr.ctx cr.frame
  | some c =>
    let n := tget c.credits cr.counter 0
    if n ≥ tget c.creditInit cr.counter 0 then discardCredit s dst cr.ctx cr.counter cr.frame
    else putCtx s dst cr.ctx { c with credits := tput c.credits cr.counter (n + 1) }

/-- Take the first message that `p` accepts off the channel. A message behind an older one of the same source and
destination cannot arrive yet (R62): then `none`. -/
def takeFlight (fs : List Flight) (p : Flight → Bool) : Option (Flight × List Flight) :=
  match fs.find? p with
  | none => none
  | some f =>
    match fs.find? (fun g => g.src = f.src && g.dst = f.dst) with
    | some g => if g = f then some (f, fs.erase f) else none
    | none => none

/-- Is a message that `p` accepts on the channel? -/
def inFlight (fs : List Flight) (p : Flight → Bool) : Bool := fs.any p

/-! ## The issue rule (R66, R67) -/

/-- The token of frame `n` in a slot. -/
def tokenAt (c : Ctx) (slot n : Nat) : Option Token := (tget c.slots slot []).find? (fun t => t.frame = n)

/-- Does some input slot of the command hold a VOID token of its frame? -/
def voidIn (c : Ctx) (a : Armed) : Bool :=
  (dIns a.desc).any (fun k => match tokenAt c k a.frame with | some t => t.void.isSome | none => false)

/-- Does every input slot hold a READY token of the command's frame? -/
def readyIn (c : Ctx) (a : Armed) : Bool :=
  (dIns a.desc).all (fun k => match tokenAt c k a.frame with | some t => t.void.isNone | none => false)

/-- Is every output counter at least 1? -/
def creditsOk (c : Ctx) (a : Armed) : Bool := (dOuts a.desc).all (fun k => tget c.credits k 0 ≥ 1)

/-- The execution units in use on a unit: those of running commands, and the load engine during a swap (R73). -/
def busyUnits (u : SeqUnit) : List Nat :=
  (u.ctxs.flatMap (fun p => match p.2.run with | some r => r.unitsClaimed | none => [])) ++ (if u.swap.isSome then [4] else [])

/-- Are all execution units the opcode needs free? -/
def unitsFree (u : SeqUnit) (op : Nat) : Bool := (opUnits op).all (fun e => !(busyUnits u).contains e)

/-- A context is ready: its head command is not running and meets the issue rule (R58, R66). -/
def ctxReady (u : SeqUnit) (c : Ctx) : Bool :=
  c.run.isNone && (match c.queue with
    | [] => false
    | a :: _ => !voidIn c a && readyIn c a && creditsOk c a && unitsFree u (dOp a.desc))

/-- A context is blocked: not running and not ready. -/
def ctxBlocked (u : SeqUnit) (c : Ctx) : Bool := c.run.isNone && !ctxReady u c

/-- May a command of this partition issue: SURVIVAL stops P1–P3, and later P0 too (R434). -/
def partMayIssue (s : State) (part : Nat) : Bool :=
  s.pm.state ≠ 3 || (part = 0 && !s.pm.p0Stopped)

/-- Position of context `k` in the round-robin of its partition, counted from the context after the last issued. Before any context of
the partition has issued the order starts at context 0 (DESIGN CHOICE, log 45). -/
def rrRank (u : SeqUnit) (part k : Nat) : Nat := (k + 31 - tget u.rr part 31) % 32

/-- The better of two candidates: the lower partition, then the round-robin order. -/
def better (u : SeqUnit) (x y : Nat × Ctx) : Nat × Ctx :=
  if x.2.part < y.2.part then x
  else if y.2.part < x.2.part then y
  else if rrRank u x.2.part x.1 ≤ rrRank u y.2.part y.1 then x else y

/-- The choice of R67 among contexts. -/
def choose (u : SeqUnit) : List (Nat × Ctx) → Option Nat
  | [] => none
  | x :: xs => some (xs.foldl (better u) x).1

/-- A PLN_GRID is not ready while a running checker command has latched the buffer it would write (R257). -/
def gridHeld (s : State) (c : Ctx) : Bool :=
  (match c.queue with | a :: _ => dOp a.desc = 0x70 | [] => false) &&
    (match s.pln.latched with | some (b, g, _) => g ≠ 0 && b ≠ s.pln.newest | none => false)

/-- The context whose head command the sequencer of a unit issues next. -/
def nextIssue (s : State) (r : Nat) : Option Nat :=
  let u := unitOf s r
  choose u (u.ctxs.filter (fun p => p.2.resident && ctxReady u p.2 && partMayIssue s p.2.part && !gridHeld s p.2))

/-- What a command's meaning is told. -/
structure Cmdr where
  u : Nat
  ctx : Nat
  a : Armed
  toks : List Token
  part : Nat
  twin : Nat
  img : List Byte
  ph : Phys
deriving Repr

/-- What a command's meaning answers: the state with its data written, and what its completion will report. -/
structure Eff where
  s : State
  status : Option VoidReason := none
  arith : Nat := 0
  unitStatus : Nat := 0
  outs : List OutTile := []
  /-- Cycles without stalls. -/
  cycles : Nat := 0
  notes : List Nat := []
  defer : List ArenaWr := []
  seqWr : List (Nat × SeqDesc) := []
  seqIds : List Nat := []

/-- Take the tokens of a frame out of the slots a command names. -/
def takeTokens (c : Ctx) (a : Armed) : List Token × Ctx :=
  ((dIns a.desc).filterMap (fun k => tokenAt c k a.frame),
   { c with slots := (dIns a.desc).foldl (fun t k => tput t k ((tget t k []).filter (fun x => x.frame ≠ a.frame))) c.slots })

/-- The slots among a command's inputs that hold a READY token of its frame. -/
def readySlots (c : Ctx) (a : Armed) : List Nat :=
  (dIns a.desc).filter (fun k => match tokenAt c k a.frame with | some t => t.void.isNone | none => false)

/-- An event for Vigil A about a command. -/
def cmdEvent (s : State) (kind : VgKind) (u ctx : Nat) (a : Armed) (status : Nat) (info : VgInfo := .plain) : State :=
  vgPush s { stamp := s.now, kind := kind, unit := u, planId := a.planId, task := a.task, ctx := ctx, idx := a.idx,
             frame := a.frame, status := status, safetyOut := dSafety a.desc, p0 := fld a.desc 3 1 = 0, info := info }

/-- The code of a completion STATUS (Table 5.5). -/
def statusCode : Option VoidReason → Nat
  | none => 0
  | some .checkFail => 1
  | some .abftFail => 2
  | some .twinMismatch => 3
  | some .inputVoid => 4
  | some .lapsed => 5
  | some .fenced => 6

/-- Keep a completion record (the last 64, R113), note a command that ran on a cluster (R315), and send the record to Vigil A if the filter passes
it (R292). -/
def record (s : State) (u ctx : Nat) (a : Armed) (st : Option VoidReason) (arith us : Nat) : State :=
  let e : Completion :=
    { frame := a.frame, idx := a.idx, ctx := ctx, status := statusCode st, arith := arith, unitStatus := us }
  let s := modUnit s u (fun x => { x with records := (x.records ++ [e]).drop (x.records.length + 1 - 64) })
  let s := if isClu u && statusCode st < 4 then
      modHealth s (gOf u) (fun h => { h with ran := h.ran ++ [{ frame := a.frame, planId := a.planId, ctx := ctx, idx := a.idx, failed := st.isSome }] })
    else s
  if dSafety a.desc || st.isSome then cmdEvent s .completion u ctx a (statusCode st) (.completion arith us) else s

/-- Send the task end event when no command of the task is left in the frame (R292). -/
def taskEnd (s : State) (u ctx : Nat) (a : Armed) : State :=
  match ctxOf s u ctx with
  | none => s
  | some c => if c.queue.any (fun b => b.frame = a.frame && b.task = a.task) then s else cmdEvent s .taskEnd u ctx a 0

/-- Is a status that of a failed check, after which a command holds its input credits (R65, Table 14.1)? -/
def checkReason : VoidReason → Bool
  | .checkFail | .abftFail | .twinMismatch => true
  | .inputVoid | .lapsed | .fenced => false

/-- A waiting twin takes its partner's STATUS (R121). It holds its input credits where that is a failed check's, as Table 14.1 has every
command do whose tiles are announced with a failing reason (DEDUCED, log 46). -/
def Run.takes (r : Run) (st : VoidReason) : Run := { r with status := some st, failed := checkReason st, released := true }

/-- Tell the comparator that a twin ended without a note: its partner, waiting or not yet there, takes the same STATUS (R121). A note that
the twin has sent stays. -/
def twinEnded (s : State) (u ctx : Nat) (c : Ctx) (a : Armed) (st : VoidReason) : State :=
  if c.twin = 0 || !dTwin a.desc || s.twinNotes.any (fun n => n.1 = u && n.2.1 = ctx && n.2.2.cmd.idx = a.idx && n.2.2.cmd.frame = a.frame) then s
  else
    match s.twinNotes.find? (fun n => n.1 = c.partner && n.2.1 = ctx && n.2.2.cmd.frame = a.frame && n.2.2.cmd.idx = a.idx) with
    | some n =>
      let s := { s with twinNotes := s.twinNotes.erase n }
      modCtx s c.partner ctx (fun p => match p.run with
        | some r => if r.cmd.idx = a.idx && r.cmd.frame = a.frame then { p with run := some (r.takes st) } else p
        | none => p)
    | none => { s with twinNotes := s.twinNotes ++ [(u, ctx, { cmd := a, status := some st })] }

/-- Remove one armed command that has not issued, with VOID tokens and a completion record of status `st` (R68, R69). -/
def endUnrun (s : State) (u ctx : Nat) (a : Armed) (st : VoidReason) : State :=
  match ctxOf s u ctx with
  | none => s
  | some c =>
    let (_, c1) := takeTokens c a
    let s := modUnit (putCtx s u ctx { c1 with queue := c.queue.erase a }) u (fun x => { x with starving := x.starving.filter (· ≠ ctx) })
    let s := record s u ctx a (some st) 0 0
    let s := sendOutputs s u a (some st) []
    let s := if isWalker (dOp a.desc) then (listedSeqs s u a.desc).foldl xiuthClose s else s
    let s := twinEnded s u ctx c a st
    taskEnd s u ctx a

/-- Lapse one armed command: VOID LAPSED tokens, an Almanac warning that names plan, task and CMD_INDEX (`cause` 1 for a
budget stop), and the frame report's count (R68, R306). -/
def lapseOne (s : State) (u ctx : Nat) (a : Armed) (cause : Nat) : State :=
  let s := endUnrun s u ctx a .lapsed
  let s := alm s (srcOf u) (if cause = 1 then .budget else .lapse) 2 [a.planId, a.task, a.idx, a.frame, cause]
  modStats s (fun f => { f with lapses := f.lapses + 1,
                                clu := if isClu u then tmod f.clu (gOf u) (0, 0, 0) (fun x => (x.1, x.2.1 + 1, x.2.2)) else f.clu })

/-- The armed commands of a context that have not issued. -/
def unissued (c : Ctx) : List Armed := if c.run.isSome then c.queue.tail else c.queue

/-- Stop a task over budget: every armed command of the current or an earlier frame lapses (R306). -/
def stopTask (s : State) (u ctx : Nat) : State :=
  match ctxOf s u ctx with
  | none => s
  | some c =>
    let s := putCtx s u ctx { c with stopPending := false, stopped := some s.cal.frame }
    let s := { s with vg := { s.vg with stops := sat 0xFFF (s.vg.stops + 1) } }
    let s := match c.queue.head? with
      | some a => cmdEvent s .budget u ctx a 0
      | none => vgPush s { stamp := s.now, kind := .budget, unit := u, planId := c.planId, task := c.task, ctx := ctx, frame := s.cal.frame }
    let s := alm s (srcOf u) .budget 2 [c.planId, c.task, 2, s.cal.frame]
    ((unissued c).filter (fun a => a.frame ≤ s.cal.frame)).foldl (fun s a => lapseOne s u ctx a 1) s

/-- Arithmetic counters of a completed command of the current frame (CLU_ARITH_COUNT, R94). -/
def countArith (s : State) (u frame arith : Nat) : State :=
  if !isClu u || frame ≠ s.cal.frame then s
  else modClu s (gOf u) (fun c => { c with
                                    arithNanLost := sat 255 (c.arithNanLost + b2n (bit arith 2)), arithInexact := sat 255 (c.arithInexact + b2n (bit arith 3)),
                                    arithNan := sat 255 (c.arithNan + b2n (bit arith 1)), arithSat := sat 255 (c.arithSat + b2n (bit arith 0)) })

/-- Clear the busy flag of the unit's status register when its command ends. -/
def clearBusy (s : State) (u op : Nat) : State :=
  if isWalker op then modClu s (gOf u) (fun c => { c with wlkBusy := false })
  else match rType u with
    | 7 => modNle s (rQ u) (fun n => { n with busy := false })
    | 5 => { s with fus := { s.fus with busy := false } }
    | 6 => if op = 0x70 then { s with pln := { s.pln with gridBusy := false } }
           else { s with pln := { s.pln with checkBusy := false, latched := none } }
    | _ => s

/-- A PLN_GRID completes: GRID_GEN rises by 1 and the buffer it wrote holds the newest generation (R257). -/
def publishGrid (s : State) (r : Run) : State :=
  if dOp r.cmd.desc = 0x70 && r.status.isNone then
    { s with pln := { s.pln with gridGen := (s.pln.gridGen + 1) % 2 ^ 32, newest := 1 - s.pln.newest } }
  else s

/-- A running command ends: it leaves the queue, reports, sends its tokens, returns or holds the credits of its inputs, and
its cycles count toward its task (R58, R61, R65, R113, R305). -/
def finish (s : State) (u ctx : Nat) (c : Ctx) (r : Run) : State :=
  let a := r.cmd
  let owed := creditFlights s u a (dIns a.desc)
  let quiet := r.quiet || hubDrops s u || !planRuns s a.planId
  let c1 := { c with run := none, queue := c.queue.erase a, throttled := false,
                     held := if r.failed && !quiet then c.held ++ owed else c.held,
                     count := tmod c.count a.frame 0 (· + r.cycles), slowRan := true, slowX := c.slowX + (r.cycles - r.stall - r.chX),
                     slowS := c.slowS + (r.stall - r.chS),
                     slowBy := r.stallBy.foldl (fun t p => tmod t p.1 0 (· + p.2)) c.slowBy, slowFlags := c.slowFlags ||| r.stallFlags }
  let s := putCtx s u ctx c1
  let s := publishGrid (clearBusy (countArith s u a.frame r.arith) u (dOp a.desc)) r
  let s := if r.status.isSome && isWalker (dOp a.desc) then r.seqIds.foldl breakSeq s
           else writeSeqs s r.seqWr
  let s := record s u ctx a r.status r.arith r.unitStatus
  let s := if quiet then s else sendOutputs s u a r.status r.outs
  let s := if quiet || r.failed then s else owed.foldl send s
  let s := match r.status with
    | some st => if r.status = some .twinMismatch || r.noted then s else twinEnded s u ctx c a st
    | none => s
  let s := taskEnd s u ctx a
  if c.stopPending then stopTask s u ctx else s

/-- A head command with a VOID input completes at once without running (R66). It counts as an issue (R73). -/
def inputVoid (s : State) (u ctx : Nat) (c : Ctx) (a : Armed) : State :=
  let owed := creditFlights s u a (readySlots c a)
  let (_, c1) := takeTokens c a
  let n := (unitOf s u).issueSeq + 1
  let s := modUnit s u (fun x => { x with issueSeq := n, rr := tput x.rr c.part ctx })
  let s := putCtx s u ctx { c1 with queue := c.queue.erase a, lastIssue := n, issuedSinceIn := true }
  let s := record s u ctx a (some .inputVoid) 0 0
  let s := sendOutputs s u a (some .inputVoid) []
  let s := owed.foldl send s
  let s := if isWalker (dOp a.desc) then (listedSeqs s u a.desc).foldl breakSeq s else s
  let s := twinEnded s u ctx c a .inputVoid
  taskEnd s u ctx a

/-- The context of a command that issues: its tokens taken, the credits of its outputs spent, its units claimed (R65–R67). -/
def startedCtx (s : State) (u : Nat) (c : Ctx) (a : Armed) (op : Nat) : Ctx :=
  let (_, c1) := takeTokens c a
  { c1 with credits := (dOuts a.desc).foldl (fun t k => tput t k (tget t k 0 - 1)) c1.credits,
            lastIssue := (unitOf s u).issueSeq + 1, issuedSinceIn := true, started := some a.frame,
            run := some { cmd := a, unitsClaimed := opUnits op, issuedAt := s.now } }

/-- The state in which the head command `a` of context `c` starts: the unit's issue order, the context, the event of a task's first command
(R292), the stalls of conflicting accesses. -/
def startCmd (s : State) (u ctx : Nat) (c : Ctx) (a : Armed) (op : Nat) (ph : Phys) : State :=
  let c2 := startedCtx s u c a op
  let s := modUnit s u (fun x => { x with issueSeq := x.issueSeq + 1, rr := tput x.rr c.part ctx })
  let s := putCtx s u ctx c2
  let s := if c.started ≠ some a.frame then cmdEvent s .taskStart u ctx a 0 else s
  if isClu u then modClu s (gOf u) (fun x => { x with sramStall := sat 0xFFFFFFFF (x.sramStall + ph.conflicts) }) else s

/-- What the meaning of a command that issues is told. -/
def cmdrOf (s : State) (u ctx : Nat) (c : Ctx) (a : Armed) (ph : Phys) : Cmdr :=
  { u := u, ctx := ctx, a := a, toks := (takeTokens c a).1, part := c.part, twin := c.twin,
    img := match planOf s a.planId with | some p => p.image | none => [], ph := ph }

/-- The running command: what its completion will report, and the cycles it takes. One that failed a check holds its input credits (R65,
Table 14.1). A twin's waits for the comparator (R120). -/
def runIssued (s : State) (c : Ctx) (a : Armed) (op : Nat) (ph : Phys) (e : Eff) : Run :=
  { cmd := a, unitsClaimed := opUnits op, issuedAt := s.now, status := e.status, arith := e.arith, unitStatus := e.unitStatus,
    outs := e.outs, failed := e.status.isSome, cycles := e.cycles + ph.stall, stall := ph.stall, stallBy := ph.stallBy,
    stallFlags := ph.stallFlags % 8 / 2 * 2, notes := e.notes, defer := e.defer, seqWr := e.seqWr, seqIds := e.seqIds,
    released := !dTwin a.desc || c.twin = 0 || e.status.isSome }

/-- The state once the head command `a` has issued and its meaning `body` has acted. -/
def issueNow (op : Nat) (body : Cmdr → State → Eff) (u ctx : Nat) (ph : Phys) (s : State) (c : Ctx) (a : Armed) : State :=
  let e := body (cmdrOf s u ctx c a ph) (startCmd s u ctx c a op ph)
  modCtx e.s u ctx (fun x => { x with run := some (runIssued s c a op ph e) })

/-- Issue the head command of a context if the sequencer chooses it and it has this opcode (R65–R67). -/
def issueWith (op : Nat) (body : Cmdr → State → Eff) (u ctx : Nat) (ph : Phys) (s : State) : State :=
  if nextIssue s u ≠ some ctx then s
  else match ctxOf s u ctx with
    | none => s
    | some c =>
      match c.queue with
      | [] => s
      | a :: _ => if dOp a.desc ≠ op then s else issueNow op body u ctx ph s c a

/-! ## Fences and retirement (R69, R70) -/

/-- Void the armed work of a cluster with FENCED: commands that have not issued end, running ones keep running but their own
tokens and credits are discarded (R69). -/
def fenceWork (s : State) (u : Nat) : State :=
  (unitOf s u).ctxs.foldl (fun s p =>
    let s := (unissued p.2).foldl (fun s a => endUnrun s u p.1 a .fenced) s
    match p.2.run with
    | some r =>
      if r.quiet then s
      else
        let s := sendOutputs s u r.cmd (some .fenced) []
        let s := twinEnded s u p.1 p.2 r.cmd .fenced
        -- one that has sent no note will be compared with none
        modCtx s u p.1 (fun c => { c with run := c.run.map (fun r => { r with quiet := true, released := r.released || !r.noted }), held := [] })
    | none => modCtx s u p.1 (fun c => { c with held := [] })) s

/-- Close the starvation episodes of contexts that no longer wait: resident, without commands, or gone (R75). -/
def endEpisodes (u : SeqUnit) : SeqUnit :=
  { u with starving := u.starving.filter (fun k => match tfind u.ctxs k with
    | some c => !c.resident && !c.queue.isEmpty
    | none => false) }

/-- Release the running twins of a plan whose partners' commands left with the plan: no note will come for them. -/
def releaseOrphans (s : State) (id : Nat) : State :=
  let has (c : Ctx) (ctx : Nat) (a : Armed) : Bool :=
    (match ctxOf s c.partner ctx with | some p => p.queue.any (fun b => b.frame = a.frame && b.idx = a.idx) | none => false) ||
      s.twinNotes.any (fun n => n.1 = c.partner && n.2.1 = ctx && n.2.2.cmd.frame = a.frame && n.2.2.cmd.idx = a.idx)
  { s with units := tmap s.units (fun u => { u with ctxs := u.ctxs.map (fun p =>
      (p.1, if p.2.planId = id && p.2.twin ≠ 0 then
              { p.2 with run := p.2.run.map (fun r => if has p.2 p.1 r.cmd then r else { r with released := true }) }
            else p.2)) }) }

/-- Retire a plan: its unissued commands leave without tokens or records, its sequences' open rounds close, and its running
commands finish unheard (R70, R156). -/
def retirePlan (s : State) (id : Nat) : State :=
  let s := modPlan s id (fun p => { p with retired := true, retiring := false })
  let s := s.units.foldl (fun s pu =>
    pu.2.ctxs.foldl (fun s p =>
      if p.2.planId ≠ id then s
      else
        let gone := (unissued p.2).filter (fun a => isWalker (dOp a.desc))
        let s := gone.foldl (fun s a => (listedSeqs s pu.1 a.desc).foldl xiuthClose s) s
        modCtx s pu.1 p.1 (fun c => { c with queue := c.queue.filter (fun a => (c.run.map (·.cmd)) = some a),
                                             run := c.run.map (fun r => { r with quiet := true }), held := [] })) s) s
  let s := releaseOrphans { s with units := tmap s.units endEpisodes } id
  s.seqs.foldl (fun s p => if p.2.boundPlan = some id then xiuthClose s p.1 else s) s

/-! ## Arming (R57, R72) -/

/-- The armed commands of a task for frame `n` under variant `v`. -/
def armedOf (p : Plan) (t : Task) (n : Nat) : List Armed :=
  ((descsOf p.image t).zipIdx).map (fun d => { frame := n, planId := p.planId, task := t.id, idx := d.2, variant := p.variant, desc := d.1 })

/-- The context a task defines on one of its units. -/
def newCtx (p : Plan) (t : Task) (u : Nat) : Ctx :=
  let us := taskUnits p.image p.variant t
  { planId := p.planId, task := t.id, part := t.part, pinned := t.pinned || !isClu u,
    twin := if !t.isTwin then 0 else if us.head? = some u then 1 else 2,
    partner := if !t.isTwin then 0 else if us.head? = some u then us.getLast?.getD 0 else us.head?.getD 0,
    safety := (descsOf p.image t).any dSafety,
    credits := (List.range 32).map (fun k => (k, bits t.creditInit (2 * k + 1) (2 * k) + 1)),
    creditInit := (List.range 32).map (fun k => (k, bits t.creditInit (2 * k + 1) (2 * k) + 1)),
    budget := t.budget, stallRef := t.stallRef }

/-- How many of a unit's 8 places residents take: the resident contexts, and the one a running swap brings in (R73). -/
def residents (u : SeqUnit) : Nat :=
  (u.ctxs.filter (fun p => p.2.resident || (match u.swap with | some (k, _) => p.1 = k | none => false))).length

/-- Must a context stay resident: pinned, and on the cluster where its plan's active variant places it (R72)? -/
def Ctx.stays (c : Ctx) : Bool := c.pinned && !c.leaving

/-- Make a context resident. -/
def reside (u : SeqUnit) (k : Nat) : SeqUnit := endEpisodes { u with ctxs := tmod u.ctxs k {} (fun c => { c with resident := true }) }

/-- Make a pinned context resident, evicting the least recently issued resident context that need not stay and does not run
where 8 are resident (R72). -/
def residePinned (u : SeqUnit) (k : Nat) : SeqUnit :=
  if residents u < 8 then reside u k
  else
    match u.ctxs.filter (fun p => p.2.resident && !p.2.stays && p.2.run.isNone) with
    | [] => u
    | x :: xs =>
      let v := xs.foldl (fun b y => if y.2.lastIssue < b.2.lastIssue then y else b) x
      reside { u with ctxs := tput u.ctxs v.1 { v.2 with resident := false }, outCtx := v.1, inCtx := k } k

/-- Is a context of a unit still held by a retired plan whose last command has not completed (R70)? No other plan's context takes its place. -/
def heldByRetired (s : State) (id u k : Nat) : Bool :=
  match ctxOf s u k with
  | some c => c.planId ≠ id && (match planOf s c.planId with | some q => q.retired | none => false)
  | none => false

/-- The context a task has on a unit once its plan's variant runs there: the one it has (R47), else a new one, in whose queue the commands
stay that the unit still holds of the plan's old task. -/
def placedCtx (s : State) (p : Plan) (t : Task) (lu : Nat) : Ctx :=
  let fresh : Ctx := { newCtx p t lu with partner := physOf s (newCtx p t lu).partner }
  match ctxOf s (physOf s lu) t.ctx with
  | some o => if o.planId = p.planId && o.task = t.id then { o with leaving := false }
              else { fresh with queue := o.queue, run := o.run, held := o.held, lastArmed := o.lastArmed }
  | none => fresh

/-- A context takes its place among the residents: a pinned one as R72 says; an unpinned one, as it is defined, where a place is free. The
tasks come in the order of the task table, with no swap (the spec does not say whether a new context is resident; DESIGN CHOICE, log 45). -/
def placeResident (x : SeqUnit) (k : Nat) (isNew : Bool) : SeqUnit :=
  match tfind x.ctxs k with
  | none => x
  | some c => if c.resident then x
              else if c.pinned then residePinned x k
              else if isNew && residents x < 8 then reside x k else x

/-- Define the contexts of a plan's active variant where they are missing, and make them resident (R47, R70–R72). -/
def placePlan (s : State) (p : Plan) : State :=
  (tasksOf p.image).foldl (fun s t =>
    (taskUnits p.image p.variant t).foldl (fun s lu =>
      let u := physOf s lu
      if heldByRetired s p.planId u t.ctx then s
      else
        let isNew := match ctxOf s u t.ctx with | some c => !(c.planId = p.planId && c.task = t.id) | none => true
        modUnit (putCtx s u t.ctx (placedCtx s p t lu)) u (fun x => placeResident x t.ctx isNew)) s) s

/-- Does the hub end the commands of a task on a unit at once with FENCED: the unit is a cluster that is excluded for the task's slot (R69, R322,
R324)? -/
def placedOut (s : State) (p : Plan) (t : Task) (u : Nat) : Bool :=
  hubDrops s u || (isClu u && excludedClu s (gOf u) (t.isTwin || strictSlot p.image t.slot))

/-- Arm every command of a plan's active variant for frame `n` (R57); the commands on an excluded cluster end
at once with FENCED (R69, R322). A task whose context a retired plan still holds is armed from the Calend on at which that is freed (R70; DEDUCED,
log 45). -/
def armPlan (s : State) (p : Plan) (n : Nat) : State :=
  (tasksOf p.image).foldl (fun s t =>
    (taskUnits p.image p.variant t).foldl (fun s lu =>
      let u := physOf s lu
      if heldByRetired s p.planId u t.ctx then s else
      let s := modCtx s u t.ctx (fun c => { c with queue := c.queue ++ armedOf p t n, lastArmed := n,
                                                   stopPending := c.stopPending && c.run.isSome, throttled := c.throttled && c.run.isSome })
      if placedOut s p t u then (armedOf p t n).foldl (fun s a => endUnrun s u t.ctx a .fenced) s else s) s) s

/-- Is a context still wanted: its plan runs and its active variant places the task on this unit? -/
def ctxWanted (s : State) (u k : Nat) (c : Ctx) : Bool :=
  match planOf s c.planId with
  | none => false
  | some p =>
    p.admitted && !p.retired &&
      (let t := taskAt p.image c.task
       t.ctx = k && c.task < taskCount p.image && (taskUnits p.image p.variant t).contains (logiOf s u) && physOf s (logiOf s u) = u)

/-- Does a plan have an armed or running command anywhere? -/
def planBusy (s : State) (id : Nat) : Bool :=
  s.units.any (fun pu => pu.2.ctxs.any (fun p => p.2.queue.any (fun a => a.planId = id)))

/-- Free the contexts no plan wants any more: a retired plan's after its last command has completed, a switched plan's once
their queue is empty (R47, R70). One that is not free yet need not stay resident (R72). -/
def freeContexts (s : State) : State :=
  let kept (u : Nat) (p : Nat × Ctx) : Bool :=
    ctxWanted s u p.1 p.2 || !p.2.queue.isEmpty ||
      (match planOf s p.2.planId with | some q => q.retired && planBusy s p.2.planId | none => false)
  { s with units := s.units.map (fun pu =>
           (pu.1, endEpisodes { pu.2 with ctxs := (pu.2.ctxs.filter (kept pu.1)).map (fun p =>
                                (p.1, { p.2 with leaving := !ctxWanted s pu.1 p.1 p.2 })) })) }

/-! ## Swaps (R73–R75) -/

/-- The context R73 would bring in: the chosen ready context that is not resident. -/
def swapIn (u : SeqUnit) : Option Nat := choose u (u.ctxs.filter (fun p => !p.2.resident && ctxReady u p.2))

/-- The context R73 would evict: the least recently issued blocked resident context that need not stay and has issued since
it was swapped in. One that is resident from its definition and has never issued was never swapped in: it may be evicted, and counts as
issued before every other; of several such the lowest-numbered goes (DEDUCED, log 45). -/
def swapOut (u : SeqUnit) : Option Nat :=
  match u.ctxs.filter (fun p => p.2.resident && !p.2.stays && ctxBlocked u p.2 && p.2.issuedSinceIn) with
  | [] => none
  | x :: xs => some (xs.foldl (fun b y => if y.2.lastIssue < b.2.lastIssue then y else b) x).1

/-- Are all resident contexts blocked? -/
def allBlocked (u : SeqUnit) : Bool := u.ctxs.all (fun p => !p.2.resident || ctxBlocked u p.2)

/-- Open a starvation episode of a waiting context, unless one is open (R75): one warning record, counted in the frame. -/
def starve (s : State) (r ctx : Nat) : State :=
  if (unitOf s r).starving.contains ctx then s
  else
    let s := modUnit s r (fun u => { u with starving := u.starving ++ [ctx], starve := sat 0xFFFF (u.starve + 1) })
    let s := modStats s (fun f => { f with starves := f.starves + 1,
                                           clu := if isClu r then tmod f.clu (gOf r) (0, 0, 0) (fun x => (x.1 + 1, x.2.1, x.2.2)) else f.clu })
    alm s (srcOf r) .swapStarve 2 [ctx]

/-- Start the swap that R73 asks for, or open a starvation episode. -/
def startSwap (s : State) (r ctx : Nat) : State :=
  let u := unitOf s r
  if u.swap.isSome || swapIn u ≠ some ctx then s
  else if residents u < 8 then
    putUnit s r { u with swap := some (ctx, none), inCtx := ctx }
  else if !allBlocked u then s
  else match swapOut u with
    | none => starve s r ctx
    | some o => putUnit s r { u with swap := some (ctx, some o), inCtx := ctx, outCtx := o,
                                     ctxs := tmod u.ctxs o {} (fun c => { c with resident := false }) }

/-- A swap ends: the incoming context becomes resident and a candidate (R74). -/
def endSwap (s : State) (r : Nat) : State :=
  let u := unitOf s r
  match u.swap with
  | none => s
  | some (k, _) =>
    putUnit s r (endEpisodes { u with swap := none,
                                      ctxs := match tfind u.ctxs k with
                                      | some c => tput u.ctxs k { c with resident := true, issuedSinceIn := false }
                                      | none => u.ctxs })

end Sys2Proof.Machine
end

