-- ==== Sys2Proof/Machine/TileIO.lean ====
section
/-!
DEFINITION. Verification at use (R180–R186), the tiles a command reads and writes, and the fault events of a command (R107,
R138, R166, R169, R312).
-/

namespace Sys2Proof.Machine

/-! ## Health events (R311, R314) -/

/-- Note an event Xiuth has yet to evaluate: a row of Table 14.2, the unit charged, and the command it came from. -/
def healthEvent (s : State) (row unit kind : Nat) (a : Armed) (ctx : Nat) : State :=
  { s with hEvents := s.hEvents ++ [{ atT := s.now, row := row, unit := unit, frame := a.frame, kind := kind, opcode := dOp a.desc,
                                      planId := a.planId, ctx := ctx, idx := a.idx, almSeq := s.alm.head }] }

/-! ## Byte counters (R278, R284) -/

/-- Traffic class of a partition's commands: 0 RT, 1 SAF, 2 STD, 3 BKG (Table 12.5). -/
def clsOfPart (p : Nat) : Nat := match p with | 0 => 1 | 1 => 2 | _ => 3

/-- Switch port of a unit (Table 12.1). -/
def swPortOf (u : Nat) : Nat := match rType u with | 1 => rQ u | 7 => rQ u | 5 => 7 | 6 => 8 | _ => 9

/-- `n` more bytes in a 48-bit counter that saturates. -/
def addBytes (t : Tbl Nat) (k n : Nat) : Tbl Nat := tmod t k 0 (fun x => sat (2 ^ 48 - 1) (x + n))

/-- `n` bytes of a class cross the switch from one port to another. -/
def crossSwitch (s : State) (src dst cls n : Nat) : State :=
  { s with swIn := addBytes s.swIn (src * 4 + cls) n, swOut := addBytes s.swOut (dst * 4 + cls) n }

/-- Count `n` bytes that switch port `port` reads or writes at `a`, in the commons, in hub SRAM or in cluster SRAM. Bytes of a store die count
where its controller serves them. -/
def countBytes (s : State) (port cls a n : Nat) (w : Bool) : State :=
  match memLevel a with
  | some 1 =>
    let q := (a - 0x100000000000) / 0x1000000
    let s := { s with stc := tmod s.stc q {} (fun c =>
               if w then { c with comWr := addBytes c.comWr cls n } else { c with comRd := addBytes c.comRd cls n }) }
    if port = q then s else if w then crossSwitch s port q cls n else crossSwitch s q port cls n
  | some 2 => if w then crossSwitch s port 4 cls n else crossSwitch s 4 port cls n
  | some 0 =>
    let q := (a - 0x120000000000) / 0x200000 / 72
    if port = q then s else if w then crossSwitch s port q cls n else crossSwitch s q port cls n
  | _ => s

/-- Count the bytes a command reads or writes. -/
def countCmd (s : State) (c : Cmdr) (a n : Nat) (w : Bool) : State := countBytes s (swPortOf c.u) (clsOfPart c.part) a n w

/-! ## Reading -/

/-- Checks made while a command reads: the state, whether every check passed, the re-fetches. -/
structure Rd where
  s : State
  ok : Bool := true
  refetch : Nat := 0
  /-- Tiles whose re-fetch has run: each stage runs at most once per tile (R183). -/
  again : List Nat := []
  /-- Tiles that have failed. -/
  dead : List Nat := []

/-- Number of the memory level in the frame report's stage-3 counts: 0 cluster SRAM, 1 commons, 2 hub SRAM, 3 store. An unmapped address counts
with the memory in whose window of Table 8.1 it lies, else with the store (the spec names no level for it; DESIGN CHOICE, log 47). -/
def levelNo (a : Nat) : Nat :=
  match memLevel a with
  | some l => l
  | none => if a < 0x100000000000 then 3 else if a < 0x110000000000 then 1 else if a < 0x120000000000 then 2 else 0

/-- The event, record and counts of a failed tile check: stage 1 passed on re-fetch, 2 passed from the reserve, 3 failed
(R183, R184). -/
def checkEvent (s : State) (c : Cmdr) (a k gen stage : Nat) : State :=
  let s := cmdEvent s .checksum c.u c.ctx c.a stage (.tile (levelNo a) a gen stage (stage ≠ 3))
  let s := alm s (srcOf c.u) .tileCheck (if stage = 1 then 2 else 3) [levelNo a, a, gen, c.u, c.ctx, c.a.idx, c.a.frame, stage]
  let s := modStats s (fun f =>
    match stage with
    | 1 => f
    | 2 => { f with reserves := f.reserves + 1 }
    | _ => { f with stage3 := tmod f.stage3 (levelNo a) 0 (· + 1) })
  let fail : TileFail :=
    { loc := a, log2 := k, gen := gen, unit := c.u, opcode := dOp c.a.desc, frame := c.a.frame, valid := (tileEntry s a).valid }
  let s := if stage = 3 then { s with tileFails := s.tileFails ++ [fail] } else s
  if isClu c.u && (dOp c.a.desc = 1 || dOp c.a.desc = 2) then
    modClu s (gOf c.u) (fun x => { x with
                                   ldeFail := if stage = 3 then sat 255 (x.ldeFail + 1) else x.ldeFail,
                                   ldeReserve := if stage = 2 then sat 255 (x.ldeReserve + 1) else x.ldeReserve,
                                   ldeLastStage := stage, ldeLastAddr := a })
  else s

/-- Count one re-fetch that ran (R184). -/
def countRefetch (s : State) (c : Cmdr) : State :=
  let s := modStats s (fun f => { f with refetches := f.refetches + 1 })
  if isClu c.u && (dOp c.a.desc = 1 || dOp c.a.desc = 2) then
    modClu s (gOf c.u) (fun x => { x with ldeRefetch := sat 0xFFFF (x.ldeRefetch + 1) })
  else s

/-- A run-time access to an unmapped address: an Almanac error record naming it (R166). -/
def unmappedEvent (s : State) (c : Cmdr) (a : Nat) : State := alm s (srcOf c.u) .unmapped 3 [a, c.ctx, c.a.idx, c.a.frame]

/-- A write is dropped at `a`: an address that is not mapped (R166), or a unit of another owner, where the record names the address and both
owners (R169). -/
def dropEvent (s : State) (c : Cmdr) (a : Nat) : State :=
  if mapped a 1 then alm s (srcOf c.u) .unmapped 3 [a, c.part, tagOf s a] else unmappedEvent s c a

/-- The first address of `[a, a + n)` that `who` may not write. -/
def firstForeign (s : State) (who a n : Nat) : Option Nat :=
  ((unitsOf a n).find? (fun u => !mayWrite s who (u * 65536) 1)).map (fun u => max a (u * 65536))

/-- Xiuth will copy the good copy of a tile over the failed one (R185). -/
def owesRepair (s : State) (bad good k gen part : Nat) : State :=
  if s.repairs.any (fun r => r.1 = bad) then s else { s with repairs := s.repairs ++ [(bad, good, k, gen, part)] }

/-- A tile of a weight region failed for good: when no copy passes, Xiuth marks it invalid and asks the host to reload it, once for each
time the host has written it (R186). -/
def weightFail (s : State) (a : Nat) : State :=
  match regionAt s a with
  | none => s
  | some (id, r) =>
    let k := r.log2Tile
    let t := (a - r.base) / 2 ^ k
    if tilePass s (r.base + t * 2 ^ k) k r.gen || (r.reserve ≠ 0 && tilePass s (r.reserve + t * 2 ^ k) k r.gen) || r.asked.contains t then s
    else
      let s := dropCheck s (r.base + t * 2 ^ k) k
      let s := alm { s with regions := tput s.regions id { r with asked := r.asked ++ [t] } } 0x0000 .weightReload 3 [id, t, 1]
      notify s 5 id s.alm.head

/-- A reader fails a tile at stage 3: an SRAM tile loses its VALID, a weight tile is reported (R183, R186). -/
def stage3 (s : State) (c : Cmdr) (a k gen : Nat) : State :=
  let s := checkEvent s c a k gen 3
  weightFail (if levelNo a = 3 || !mapped a 1 then s else dropCheck s a k) a

/-- A tile fails for good in a read. -/
def Rd.fail (r : Rd) (c : Cmdr) (a k gen : Nat) : Rd := { r with s := stage3 r.s c a k gen, ok := false, dead := a :: r.dead }

/-- A read of an unmapped address: a record naming it, and data that fail their check and the check of a re-fetch (R166, R183). -/
def Rd.unmapped (r : Rd) (c : Cmdr) (a k gen : Nat) : Rd :=
  { r with s := countRefetch (unmappedEvent r.s c a) c, refetch := r.refetch + 1 }.fail c a k gen

/-- Check one whole tile with a generation, with its re-fetch but no reserve (R182, R183). Every read is checked, a repeated one too; a tile
that has failed stays failed, each stage having run. -/
def checkTile (r : Rd) (c : Cmdr) (a k gen : Nat) : Rd :=
  if r.dead.contains a then { r with ok := false }
  else if !mapped a (2 ^ k) then r.unmapped c a k gen
  else if !(tileEntry r.s a).valid then r.fail c a k gen
  else if tilePass r.s a k gen && !c.ph.lost.contains a then
    if c.ph.flaky.contains a && !r.again.contains a then
      { r with s := checkEvent (countRefetch r.s c) c a k gen 1, refetch := r.refetch + 1, again := a :: r.again }
    else r
  else if r.again.contains a then r.fail c a k gen
  else { r with s := countRefetch r.s c, refetch := r.refetch + 1 }.fail c a k gen

/-- Address of the head of the valid SRAM tile that holds `a`, looking back at most `fuel` units (R174). -/
def headBack (s : State) (a0 : Nat) : Nat → Nat → Option (Nat × Nat)
  | 0, _ => none
  | fuel + 1, u =>
    let w := tget s.side u 0
    if bit w 62 then
      let k := bits w 61 58 + 8
      if a0 < u * 256 + 2 ^ k then some (u * 256, k) else none
    else if u = 0 then none else headBack s a0 fuel (u - 1)

/-- The tile that holds an SRAM address. -/
def headOfSram (s : State) (a : Nat) : Option (Nat × Nat) := headBack s a 256 (a / 256)

/-- Check every tile that `[a, e)` of SRAM touches, each with the generation of its own head word (R181, R182). -/
def checkSram (c : Cmdr) : Nat → Rd → Nat → Nat → Rd
  | 0, r, _, _ => r
  | fuel + 1, r, a, e =>
    if e ≤ a then r
    else match headOfSram r.s a with
      | none => if r.dead.contains (a / 256 * 256) then { r with ok := false } else r.fail c (a / 256 * 256) 8 0
      | some (h, k) => checkSram c fuel (checkTile r c h k (tileEntry r.s h).gen) (h + 2 ^ k) e

/-- Read an operand of `n` bytes at LOCAL_ADDR of the command's cluster, checked at use. -/
def readLocal (r : Rd) (c : Cmdr) (laddr n : Nat) : Rd × List Byte :=
  let a := cluBase (gOf c.u) + laddr
  if n = 0 then (r, [])
  else
    let r := checkSram c (n / 256 + 2) r a (a + n)
    (r, rd r.s a n)

/-! ## Tokens that name tiles (R117, R231, R232) -/

/-- The snapshot token of a command, if it carries one. -/
def snapToken (c : Cmdr) : Option Token := c.toks.find? (fun t => t.snap)

/-- Where the source of a command's snapshot token lies at `k = 0`, how long that is, and what the token adds to addresses in it: k times the stream's
SLOT_STRIDE, or 2,048 for the table (R232). -/
def snapSource (s : State) (c : Cmdr) : Option (Nat × Nat × Nat) :=
  match snapToken c with
  | none => none
  | some t =>
    let k := bits t.tileId 31 28
    match (bindsOf c.img).find? (fun b => b.task = c.a.task && b.inSlot = t.slot) with
    | some b =>
      if b.kind = 2 then some (s.season.cfg.tableBase, 2048, k * 2048)
      else let x := tget s.streams b.source {}; some (x.ringBase, x.stride, k * x.stride)
    | none => none

/-- What a snapshot token adds to the addresses of its source. -/
def snapOffset (s : State) (c : Cmdr) : Nat := match snapSource s c with | some x => x.2.2 | none => 0

/-- The generation for tile `k` of a command whose first tile identifier is `tid`: from the token that names it, else `gen`. -/
def genFor (c : Cmdr) (tid k gen : Nat) : Nat :=
  match snapToken c with
  | some t => t.gen
  | none =>
    match c.toks.find? (fun t => t.tileId = (tid + k) % 2 ^ 32) with
    | some t => t.gen
    | none => gen

/-! ## Reading by logical address (R140, R181) -/

/-- Does a token name no tile: one bound to a PLN_GRID command (R250)? -/
def depToken (c : Cmdr) (t : Token) : Bool := (bindsOf c.img).any (fun b => b.kind = 3 && b.task = c.a.task && b.inSlot = t.slot)

/-- The generations that the input tokens or the descriptor of a command give a tile that no TILE_ID names, outside a snapshot source: those of the
tokens that name tiles, and the descriptor's GEN (DESIGN CHOICE, log 16). -/
def inputGens (c : Cmdr) (gen : Nat) : List Nat := ((c.toks.filter (fun t => !t.snap && !depToken c t)).map (·.gen)) ++ [gen]

/-- Where a command reads what its descriptor places at `a`, and with which generations: a tile of its snapshot source is moved and named by the
token (R232). -/
def inputAt (s : State) (c : Cmdr) (gen a : Nat) : Nat × List Nat :=
  match snapToken c, snapSource s c with
  | some t, some (b, n, o) => if b ≤ a && a < b + n then (a + o, [t.gen]) else (a, inputGens c gen)
  | _, _ => (a, inputGens c gen)

/-- The tile of another memory that holds an address, with its size and generation: in SRAM the head word's; on a store die the
largest whose check passes (DESIGN CHOICE, log 16). -/
def tileOver (s : State) (a : Nat) (gens : List Nat) : Nat × Nat × Nat :=
  let g0 := gens.headD 0
  if memLevel a = some 3 then
    match [16, 15, 14, 13, 12, 11, 10, 9, 8].findSome? (fun k =>
      gens.findSome? (fun g => if tilePass s (a / 2 ^ k * 2 ^ k) k g then some (a / 2 ^ k * 2 ^ k, k, g) else none)) with
    | some t => t
    | none => (a / 4096 * 4096, 12, g0)
  else
    match headOfSram s a with
    | some (h, k) => (h, k, ((gens.find? (fun g => tilePass s h k g)).getD g0))
    | none => (a / 256 * 256, 8, g0)

/-- Check every tile that `[a, e)` touches. -/
def checkLogical (c : Cmdr) (gens : List Nat) : Nat → Rd → Nat → Nat → Rd
  | 0, r, _, _ => r
  | fuel + 1, r, a, e =>
    if e ≤ a then r
    else if !mapped a 1 then r.unmapped c a 8 (gens.headD 0)
    else
      let (h, k, g) := tileOver r.s a gens
      checkLogical c gens fuel (checkTile r c h k g) (h + 2 ^ k) e

/-- Read `n` bytes at a logical address, every tile checked. -/
def readLogical (r : Rd) (c : Cmdr) (gens : List Nat) (a n : Nat) : Rd × List Byte :=
  if n = 0 then (r, [])
  else
    let r := checkLogical c gens (n / 256 + 2) r a (a + n)
    ({ r with s := countCmd r.s c a n false }, rd r.s a n)

/-- Read `n` bytes that a descriptor places at `a`. -/
def readInput (r : Rd) (c : Cmdr) (gen a n : Nat) : Rd × List Byte :=
  let (a, gens) := inputAt r.s c gen a
  readLogical r c gens a n

/-! ## Writing -/

/-- Write `bs` at `a` as whole tiles of generation `gen`: the bytes, then each tile's check (R171, R177). -/
def putRegion (s : State) (a gen : Nat) (bs : List Byte) : State × List OutTile :=
  let ts := outTilesAt a bs.length
  let s := wr s a bs
  let s := ts.foldl (fun s t => putCheck s t.1 t.2 gen (tileCrc t.1 gen (rd s t.1 (2 ^ t.2)))) s
  (s, ts.map (fun t => { gen := gen, crc := (tileEntry s t.1).crc, addr := t.1, size := 2 ^ t.2 }))

/-- Write the tiles of a region that lie in units of the writer; the others are dropped (R169). -/
def putPart (s : State) (who a gen : Nat) (bs : List Byte) : State :=
  (outTilesAt a bs.length).foldl (fun s t =>
    let lo := max a t.1
    if mayWrite s who t.1 (2 ^ t.2) then (putRegion s lo gen (slice bs (lo - a) (min (a + bs.length) (t.1 + 2 ^ t.2) - lo))).1 else s) s

/-- A command writes an output region at a logical address, if its partition owns the units (R169); otherwise what lies in other units is
dropped, a record names the first such address (one record for a region; DESIGN CHOICE, log 47), and the command will report CHECK_FAIL. -/
def putOutput (s : State) (c : Cmdr) (a gen : Nat) (bs : List Byte) : State × List OutTile × Bool :=
  match firstForeign s c.part a bs.length with
  | some x => (dropEvent (putPart s c.part a gen bs) c x, [], false)
  | none => let (s, os) := putRegion s a gen bs; (countCmd s c a bs.length true, os, true)

/-- What a twin note carries for tiles of cluster SRAM: each tile's generation and its checksum, moved to its LOCAL_ADDR, which
is the same on both twins (R118, R120, R178; DEDUCED, log 12). -/
def localNotes (c : Cmdr) (os : List OutTile) : List Nat :=
  os.flatMap (fun o => [o.gen, movedCrc o.crc o.addr o.gen (o.addr - cluBase (gOf c.u)) o.gen o.size])

/-- FRAME[15:0] of a command: the generation of what a cluster command writes to its SRAM (Table 8.3). -/
def frameGen (a : Armed) : Nat := a.frame % 65536

/-- A command that failed a check of a tile it read: CHECK_FAIL, nothing written. -/
def effFail (s : State) (cycles : Nat) : Eff := { s := s, status := some .checkFail, cycles := cycles }

/-- The array fault event of a command (R107): counters, Vigil A, the Almanac, and the health event. -/
def arrayFaultEvent (s : State) (c : Cmdr) (f : ArrayFault) : State :=
  let g := gOf c.u
  let s := modClu s g (fun x => { x with
                                  drain := if f.kind = 3 then sat 255 (x.drain + 1) else x.drain,
                                  tol := if f.kind = 2 then sat 255 (x.tol + 1) else x.tol,
                                  row := if f.kind = 1 then sat 255 (x.row + 1) else x.row,
                                  col := if f.kind = 0 then sat 255 (x.col + 1) else x.col,
                                  lastArray := f.array % 16, lastKind := f.kind % 4,
                                  lastRow := if f.kind = 1 then 0 else f.row % 1024, lastCol := if f.kind = 1 then f.col % 32 else 0,
                                  lastCtx := c.ctx, lastCmd := c.a.idx, lastFrame := c.a.frame % 2 ^ 32 })
  let s := cmdEvent s .array c.u c.ctx c.a 2 (.array f.array f.kind f.row f.col)
  let s := alm s (srcOf c.u) .arrayFault 3 [g, f.array, f.kind, f.row, f.col, c.ctx, c.a.idx, c.a.frame]
  let kind := match f.kind with | 0 => 0 | 1 => 1 | 2 => 2 | _ => 3
  healthEvent s 0 c.u kind c.a c.ctx

/-- A command abandoned by array faults, one event for each: ABFT_FAIL, its input credits held (R107). -/
def effAbft (s : State) (c : Cmdr) (fs : List ArrayFault) (cycles : Nat) : Eff :=
  { s := fs.foldl (fun s f => arrayFaultEvent s c f) s, status := some .abftFail, cycles := cycles }

end Sys2Proof.Machine
end

