-- ==== Sys2Proof/Machine/HubMem.lean ====
section
/-!
DEFINITION. Memory as an access that bypasses tile checks finds it: the Almanac's ring in its units of hub SRAM (R343, R345), the SECDED
words (R170, R289), and writes that stay within a writer's units (R169).
-/

namespace Sys2Proof.Machine

/-! ## Record images (Table 16.1) -/

/-- The 24 bytes of a record's payload: those the spec lays out, or the image's (log 9). -/
def payloadBytes (c : AlmCode) (p : List Nat) : List Byte :=
  padTo 24 (match c, p with
    | .summary, [a, b, d, e, f, j, k] => natLe 4 a ++ natLe 4 b ++ natLe 4 d ++ natLe 4 e ++ natLe 4 f ++ natLe 2 j ++ natLe 2 k
    | .clear, h :: g :: r => natLe 6 h ++ natLe 2 g ++ r.map (BitVec.ofNat 8)
    | c, p => Config.almPayload c.ctorIdx p)

/-- The 64 bytes of a record. -/
def recBytes (r : AlmRec) : List Byte :=
  natLe 6 r.seq ++ natLe 2 r.source ++ natLe 8 r.time ++ natLe 8 r.lastTime ++ natLe 2 (Config.almCode r.code.ctorIdx) ++
    natLe 1 r.severity ++ natLe 1 r.flags ++ natLe 4 r.repeats ++ payloadBytes r.code r.payload ++ natLe 4 r.commit ++
    natLe 2 r.seq ++ natLe 2 0x414D

/-- The 64 bytes of a ring slot: its record, or a free slot's COMMIT alone. -/
def slotBytes (a : Alm) (k : Nat) : List Byte :=
  match tfind a.ring k with
  | some r => recBytes r
  | none => List.replicate 56 0 ++ natLe 4 (tget a.commits k 0) ++ List.replicate 4 0

/-! ## SECDED (R170, R289)

A word carries check bits beside its data. State holds, for each word that no longer stands as it was written, which of the stored bits are
wrong: the data bits from bit 0 on, the check bits above them. The spec names no code, and none is needed to say what a SECDED code does. -/

/-- How many of the lowest `n` bits of a number are 1. -/
def ones : Nat → Nat → Nat
  | 0, _ => 0
  | n + 1, v => v % 2 + ones n (v / 2)

/-- What reading a stored word finds. -/
inductive Secded where
  /-- No stored bit is wrong. -/
  | clean
  /-- One stored bit is wrong: the word is delivered as it was written. -/
  | corrected
  /-- Two stored bits are wrong: the error is detected and not corrected. -/
  | detected
  /-- More are wrong: the code promises nothing. -/
  | open'
deriving DecidableEq, Repr

/-- What reading a word finds whose wrong bits, of up to 72, are these. -/
def secded (wrong : Nat) : Secded :=
  match ones 72 wrong with
  | 0 => .clean
  | 1 => .corrected
  | 2 => .detected
  | _ => .open'

/-- Is a word with these wrong bits delivered as it was written? -/
def secdedOk (wrong : Nat) : Bool := secded wrong = .clean || secded wrong = .corrected

/-- A byte of a SECDED word: as written, or, where the code cannot correct the word, a value the spec does not state. -/
def secdedByte (wrong a : Nat) (b : Byte) : Byte := if secdedOk wrong then b else BitVec.ofNat 8 (Config.wrongByte wrong a)

/-! ## Hub SRAM -/

/-- First address of the Almanac's units. -/
def ringBase : Nat := 0x110000400000

/-- Does an address lie in Xiuth's or the Almanac's units of hub SRAM (Table 8.2)? -/
def inSecded (a : Nat) : Bool := 0x110000000000 ≤ a && a < 0x110000500000

/-- Does an address lie in the Almanac's units? -/
def inRing (a : Nat) : Bool := ringBase ≤ a && a < 0x110000500000

/-- A byte as an unchecked access finds it. -/
def hubByte (s : State) (a : Nat) : Byte :=
  if inSecded a then
    secdedByte (tget s.host.wrongBits (a / 8) 0) a
      (if inRing a then (slotBytes s.alm ((a - ringBase) / 64)).getD (a % 64) 0 else mget s.mem a)
  else mget s.mem a

/-- Bytes as an unchecked access finds them. -/
def hubRead (s : State) (a n : Nat) : List Byte :=
  if a + n ≤ 0x110000000000 || 0x110000500000 ≤ a then rd s a n else (List.range n).map (fun i => hubByte s (a + i))

/-- May `who` write a unit? The ring has one writer, Xiuth (R345). -/
def mayWriteUnit (s : State) (who unit : Nat) : Bool := mayWrite s who (unit * 65536) 1 && !inRing (unit * 65536)

/-- The first address of `[a, a + n)` in a unit that `who` may not write. -/
def firstBarred (s : State) (who a n : Nat) : Option Nat :=
  ((unitsOf a n).find? (fun u => !mayWriteUnit s who u)).map (fun u => max a (u * 65536))

/-- Write bytes as they are, no check beside them, into the units that `who` may write: what lies in others is dropped (R169). A SECDED word
that is written stands as written. -/
def hubWrite (s : State) (who a : Nat) (bs : List Byte) : State :=
  (unitsOf a bs.length).foldl (fun s u =>
    let lo := max a (u * 65536)
    let hi := min (a + bs.length) ((u + 1) * 65536)
    if mayWriteUnit s who u then
      let s := wr s lo (slice bs (lo - a) (hi - lo))
      { s with host := { s.host with wrongBits := s.host.wrongBits.filter (fun p => p.1 < lo / 8 || (hi - 1) / 8 < p.1) } }
    else s) s

end Sys2Proof.Machine
end

