-- ==== Sys2Proof/Machine/Operands.lean ====
section
/-!
DEFINITION. Operand forms of cluster commands: tensors in cluster SRAM with their MX scales, conversion into an output format
(R81, R89–R92), and the writing of an output with its scales.
-/

namespace Sys2Proof.Machine

/-- A tensor of `n` elements of format `f` at LOCAL_ADDR `laddr` (R78), checked at use. -/
def readTensor (r : Rd) (c : Cmdr) (laddr f n : Nat) : Rd × List Nat :=
  let (r, bs) := readLocal r c laddr (fmtBytes f n)
  (r, unpackBits (fmtBits f) n bs)

/-- `rows` tensors of `n` elements at a row pitch in bytes. -/
def readRows (c : Cmdr) (laddr pitch f n : Nat) : Nat → Rd → Rd × List (List Nat)
  | 0, r => (r, [])
  | rows + 1, r =>
    let (r, x) := readTensor r c laddr f n
    let (r, xs) := readRows c (laddr + pitch) pitch f n rows r
    (r, x :: xs)

/-- `n` scale bytes at `laddr`, or none where the operand carries no scale (R80). -/
def readScales (r : Rd) (c : Cmdr) (present : Bool) (laddr n : Nat) : Rd × List (Option Nat) :=
  if !present then (r, [])
  else
    let (r, bs) := readLocal r c laddr n
    (r, bs.map (fun b => some b.toNat))

/-- Elements with their scales, one scale per 32 (R80). -/
def scaledElems (f : Nat) (raws : List Nat) (scales : List (Option Nat)) : List Num :=
  (raws.zipIdx).map (fun p => scaledNum f p.1 ((scales[p.2 / 32]?).getD none))

/-- The rounding of element `n` of a command's output: mode, overflow mode, and the draw of R90 where it is stochastic. -/
def elemMode (round ovf seed frame n : Nat) : RMode :=
  { mode := round, draw := if round = 2 then stochDraw seed (frame % 2 ^ 32) n else 0, naninf := ovf = 1 }

/-- Convert one row of values into a format: element bits, scale bytes (none without MX), flags. `n0` is the linear index of
the row's first element. -/
def encodeRow (f : Nat) (scaled : Bool) (rm : Nat → RMode) (n0 : Nat) (xs : List Num) : List Nat × List Nat × Flags :=
  if scaled then
    let bs := ((chunks 32 (xs.length + 1) xs).zipIdx).map (fun b => encodeBlock f rm (n0 + 32 * b.2) b.1)
    (bs.flatMap (fun b => b.2.1), bs.map (fun b => b.1), bs.foldl (fun (a : Flags) b => a.or b.2.2) {})
  else
    let es := (xs.zipIdx n0).map (fun p => encodeNum f (rm p.2) false p.1)
    (es.map (·.1), [], es.foldl (fun (a : Flags) e => a.or e.2) {})

/-- ReLU: a negative value becomes +0, NaN stays NaN (R79). −0 stays −0: it is a zero and not negative in value (the spec does not say which zero
results; DESIGN CHOICE, log 46). -/
def relu (x : Num) : Num :=
  match x with
  | .nan => .nan
  | .inf n => if n then Num.zero else .inf false
  | .fin n m e => if n && m ≠ 0 then Num.zero else .fin n m e

/-- An epilogue on one value: 0 none, 1 bias, 2 bias then ReLU, 3 multiplier then bias, each step one FP32 operation (R116). -/
def epilogue (kind : Nat) (mult bias : Num) (x : Num) : Num :=
  match kind with
  | 0 => x
  | 1 => add32 (rnd32 x) bias
  | 2 => relu (add32 (rnd32 x) bias)
  | _ => add32 (mul32 mult (rnd32 x)) bias

/-- Bytes of a region of rows at a pitch, over what the region holds now (padding between rows is left as it is). -/
def rowBytes (s : State) (a pitch : Nat) (rows : List (List Byte)) : List Byte :=
  let n := match rows.getLast? with | some l => (rows.length - 1) * pitch + l.length | none => 0
  if rows.all (fun l => l.length = pitch) then rows.flatten
  else (rows.zipIdx).foldl (fun acc p => splice acc (p.2 * pitch) p.1) (rd s a n)

/-- The bytes as they leave the unit. -/
def upsetBytes (xs : List (Nat × Nat)) (bs : List Byte) : List Byte :=
  xs.foldl (fun bs x => if x.1 < bs.length then bs.set x.1 (bs.getD x.1 0 ^^^ BitVec.ofNat 8 x.2) else bs) bs

/-- The first address of a command's output regions in its cluster that it may not write. -/
def foreignOut (s : State) (c : Cmdr) (regions : List (Nat × List Byte)) : Option Nat :=
  regions.findSome? (fun p => firstForeign s c.part (cluBase (gOf c.u) + p.1) p.2.length)

/-- End a command whose output is `bs` at LOCAL_ADDR `laddr`, with further regions (scales, copies) written beside it that no
token announces. What lies in units of another owner is dropped (R169). -/
def effLocalWith (s : State) (c : Cmdr) (extra : List (Nat × List Byte)) (laddr : Nat) (bs : List Byte) (arith cycles us : Nat) : Eff :=
  let B := cluBase (gOf c.u)
  match foreignOut s c ((laddr, bs) :: extra) with
  | some x =>
    let s := (extra ++ [(laddr, bs)]).foldl (fun s p => putPart s c.part (B + p.1) (frameGen c.a) p.2) s
    { s := dropEvent s c x, status := some .checkFail, unitStatus := us, cycles := cycles }
  | none =>
    let (s, ex) := extra.foldl (fun x p => let (s, os) := putRegion x.1 (B + p.1) (frameGen c.a) p.2; (s, x.2 ++ os)) (s, [])
    let (s, os) := putRegion s (B + laddr) (frameGen c.a) (upsetBytes c.ph.upset bs)
    { s := s, outs := os, arith := arith, unitStatus := us, cycles := cycles, notes := localNotes c (os ++ ex) }

end Sys2Proof.Machine
end

