-- ==== Sys2Proof/Machine/Arrays.lean ====
section
/-!
DEFINITION. The matrix arrays: accumulation (R83–R88), the arrangement of Table 5.2, the end-of-reduction tolerance check (R105)
and the cycles of a command (R101).
-/

namespace Sys2Proof.Machine

/-- One vector along the reduction: its values, and per block of 32 the exponent of its scale (`none` is the NaN scale). An
unscaled vector has no exponents. -/
structure RedVec where
  vals : List Num
  exps : List (Option Int)
deriving DecidableEq, Repr

/-- A vector from its element bits and scale bytes. -/
def redVec (f : Nat) (raws : List Nat) (scales : List (Option Nat)) : RedVec :=
  { vals := raws.map (fun x => (decodeNum f x).scale (if f = 9 && !scales.isEmpty then -6 else 0)),
    exps := scales.map (fun x => match x with | some b => scaleExp b | none => some 0) }

/-- The exponent of a block. -/
def RedVec.exp (v : RedVec) (b : Nat) : Option Int := (v.exps[b]?).getD (some 0)

/-- How a pairing accumulates: 0 INT16 in 48 bits (R86), 1 INT8 and INT4 exactly (R85), 2 block-exact into FP32 (R83, R85),
3 one FP32 addition per product (R87). -/
def accClass (fa fb : Nat) (scaled : Bool) : Nat :=
  if fa = 8 then 0
  else if isIntFmt fa && isIntFmt fb && !scaled then 1
  else if fa ≤ 2 then 3
  else 2

/-- Both operands of 4 bits (R99). -/
def fourBit (fa fb : Nat) : Bool := (fa = 7 && fb = 7) || (fa = 10 && fb = 10)
/-- Does the pairing run on array pairs (Table 5.2)? -/
def onPairs (fa fb : Nat) : Bool := fa > 2 && !fourBit fa fb
/-- Lanes of a pre-blocked block: the K lanes per array of Table 5.2. -/
def kLanes (fa fb : Nat) : Nat := if fourBit fa fb then 32 else 16
/-- Arrays or pairs that N-blocks are dealt to (R100). -/
def arrUnits (fa fb : Nat) : Nat := if onPairs fa fb then 8 else 16
/-- Rows of one pass at most (R100). -/
def passRows (fa fb : Nat) : Nat := if onPairs fa fb then 1024 else 512
/-- Cycles per activation row and weight-load cycles (Table 5.2). -/
def arrRates (fa : Nat) : Nat × Nat :=
  if fa = 0 then (16, 64) else if fa ≤ 2 || fa = 8 then (4, 32) else (1, 16)

/-- A finite value rounded to a multiple of `2^q`, ties to even, and whether that changed it (R83). -/
def roundBit (x : Num) (q : Int) : Num × Bool :=
  match x with
  | .fin n m e =>
    let r := roundTo rne m e q
    (.fin n r q, !((Num.fin n r q).le x && x.le (.fin n r q)))
  | y => (y, false)

/-- Zero without a sign (R79: a block-exact or integer stage holds none). -/
def plusZero (x : Num) : Num := if x.isZero then Num.zero else x

/-- The block-exact sum of one block's products, and whether the block is inexact (R83). -/
def blockSum (e5 : Bool) (xs ys : List Num) : Num × Bool :=
  let ps := List.zipWith Num.mul xs ys
  let tops := ps.filterMap (fun p => match p with | .fin _ m e => if m = 0 then none else some (flog2 m e) | _ => none)
  match tops with
  | [] => (plusZero (ps.foldl Num.add Num.zero), false)
  | t :: ts =>
    let E := ts.foldl (fun a b => if a < b then b else a) t
    let rs := if e5 then ps.map (fun p => roundBit p (E - 40)) else ps.map (fun p => (p, false))
    (plusZero ((rs.map (·.1)).foldl Num.add Num.zero), rs.any (·.2))

/-- Multiply by the scales of two blocks and round once to FP32 (R85). -/
def scaledBlock (x : Num) (a b : Option Int) : Num :=
  match a, b with
  | some p, some q => rnd32 (x.scale (p + q))
  | _, _ => .nan

/-- The accumulated sum of one output, and its inexact blocks along the reduction. -/
def dotVec (cls : Nat) (e5 : Bool) (a b : RedVec) : Num × List Nat :=
  match cls with
  | 0 | 1 => (plusZero ((List.zipWith Num.mul a.vals b.vals).foldl Num.add Num.zero), [])
  | 3 => ((List.zip a.vals b.vals).foldl (fun acc p => fma32 p.1 p.2 acc) Num.zero, [])
  | _ =>
    let xs := chunks 32 (a.vals.length + 1) a.vals
    let ys := chunks 32 (b.vals.length + 1) b.vals
    ((List.zip xs ys).zipIdx).foldl (fun acc p =>
      let (s, i) := blockSum e5 p.1.1 p.1.2
      (add32 acc.1 (scaledBlock s (a.exp p.2) (b.exp p.2)), if i then acc.2 ++ [p.2] else acc.2)) (Num.zero, [])

/-- A column with its scales applied. R105 sums the weights as they stand, R85 gives each column a block scale of its own: the model applies
the column's scale to each weight before `w_k` and `u_k` are summed (DESIGN CHOICE, log 46). -/
def RedVec.applied (v : RedVec) : List Num :=
  (v.vals.zipIdx).map (fun p => match v.exp (p.2 / 32) with | some k => p.1.scale k | none => .nan)

/-- Lane by lane over the columns of an N-block: the exact sum of the columns' weights, or of their magnitudes (R102). -/
def laneSums (f : Num → Num) (cols : List RedVec) : List Num :=
  match cols.map RedVec.applied with
  | [] => []
  | c :: cs => cs.foldl (fun acc x => List.zipWith (fun p q => p.add (f q)) acc x) (c.map f)

/-- The end-of-reduction tolerance check of one output row and one N-block (R105). `R` is the reduced length. -/
def toleranceOk (cls R : Nat) (a : RedVec) (cols : List RedVec) (accs : List Num) : Bool :=
  if cls = 0 || cls = 1 then true
  else
    let w := laneSums (fun x => x) cols
    let u := laneSums Num.abs cols
    let lane (x : List Num) (y : List Num) : Num :=
      if cls = 3 then (List.zip x y).foldl (fun acc p => fma32 p.1 p.2 acc) Num.zero
      else
        ((List.zip (chunks 32 (x.length + 1) x) (chunks 32 (y.length + 1) y)).zipIdx).foldl (fun acc p =>
          add32 acc (scaledBlock ((List.zipWith Num.mul p.1.1 p.1.2).foldl Num.add Num.zero) (a.exp p.2) (some 0))) Num.zero
    let Z := lane a.vals w
    let S := lane (a.vals.map Num.abs) u
    let C := accs.foldl Num.add Num.zero
    let finite (x : Num) : Bool := match x with | .fin _ _ _ => true | _ => false
    if !finite Z || !finite S then true
    else if !finite C then false
    else ((C.sub Z).abs).le ((S.mul (Num.ofNat (cdiv R 32))).scale (-22))

/-- A block of a command's reductions: its layer and group where it has several, activation row, output column, block of 32 (R83). -/
structure BlockAt where
  layer : Nat := 0
  group : Nat := 0
  row : Nat
  col : Nat
  kblock : Nat
deriving DecidableEq, Repr

/-- What a reduction answers. -/
structure RedOut where
  accs : List (List Num)
  inexact : List BlockAt
  fault : Option ArrayFault

/-- Reduce every activation row against every column, N-block by N-block, with the tolerance check (R85, R105). A command is abandoned at
its first failing row; of several, the event names the lowest row and there the lowest N-block, and for a pair the even array (the spec
names neither; DESIGN CHOICE, log 46). -/
def reduceAll (fa fb : Nat) (scaled : Bool) (R : Nat) (rows cols : List RedVec) : RedOut :=
  let cls := accClass fa fb scaled
  let e5 := fa = 4 || fb = 4
  let nbs := chunks 16 (cols.length + 1) cols
  let res := rows.map (fun a => nbs.map (fun cs => (cs.map (dotVec cls e5 a), cs)))
  let bad := ((List.zip rows res).zipIdx).findSome? (fun p =>
    (p.1.2.zipIdx).findSome? (fun q =>
      if toleranceOk cls R p.1.1 q.1.2 (q.1.1.map (·.1)) then none
      else
        let unit := q.2 % arrUnits fa fb
        some { array := if onPairs fa fb then 2 * unit else unit, kind := 2, row := p.2 % passRows fa fb, col := 0 }))
  { accs := res.map (fun r => r.flatMap (fun b => b.1.map (·.1))),
    inexact := (res.zipIdx).flatMap (fun r => ((r.1.flatMap (·.1)).zipIdx).flatMap (fun x =>
      x.1.2.map (fun k => { row := r.2, col := x.2, kblock := k }))),
    fault := bad }

/-- The exact comparisons that a difference of SUM_COLUMN or SUM_ROW belongs to are skipped where a block they take in is inexact (R84,
R104): the 16 columns' blocks of the row, or the column's blocks of the pass. `cap` is the rows of a pass. -/
def skipsExact (cap : Nat) (f : ArrayFault) (b : BlockAt) : Bool :=
  b.layer = f.layer && b.group = f.group && b.kblock = f.kblock && b.col / 16 = f.nblock &&
    (if f.kind = 0 then b.row = f.range * cap + f.row else b.row / cap = f.range && (f.col = 16 || b.col % 16 = f.col))

/-- The kind an array fault is reported as: SUM_COLUMN and SUM_ROW only where the comparison is made (R104). -/
def reportedFault (cls cap : Nat) (inexact : List BlockAt) (f : ArrayFault) : ArrayFault :=
  if f.kind ≤ 1 && (cls = 3 || inexact.any (skipsExact cap f)) then { f with kind := 2 } else f

/-- The array faults of a command: what the checks meet, each event once, else what the tolerance check finds in the data. -/
def abftFaults (report : ArrayFault → ArrayFault) (met : List ArrayFault) (data : Option ArrayFault) : List ArrayFault :=
  if met.isEmpty then data.toList else (met.map report).eraseDups

/-- Cycles of a matrix command over row ranges of given rows and reduced length, for `N` columns (R101): the fill, every pass, and the
drains that no later pass hides, that of the last range among them. -/
def rangeCycles (fa fb N : Nat) (ranges : List (Nat × Nat)) : Nat :=
  let (c, L) := arrRates fa
  let passes (r : Nat × Nat) : Nat :=
    cdiv (cdiv N 16) (arrUnits fa fb) * cdiv r.2 (if onPairs fa fb then 32 else kLanes fa fb) * (max (r.1 * c) L + c)
  let drains := ranges.dropLast.filter (fun r => passRows fa fb < 2 * r.1) ++ ranges.drop (ranges.length - 1)
  34 + ranges.foldl (fun n r => n + passes r) 0 + drains.foldl (fun n r => n + r.1) 0

/-- The rows of each range of `M`: as many as a pass may take (the microcode's split, log 14). -/
def rowSplit (cap M : Nat) : List Nat := List.replicate (M / cap) cap ++ (if M % cap = 0 then [] else [M % cap])

/-- Cycles of a matrix command of `M` rows, `N` columns and reduced length `R` (R101). -/
def arrCycles (fa fb M N R : Nat) : Nat := rangeCycles fa fb N ((rowSplit (passRows fa fb) M).map (fun m => (m, R)))

/-- The element bits of the output columns of a pre-blocked operand: per column, its `R` values (R115). `bs` are the bytes from
the operand's address. -/
def preBlocked (f lanes R N : Nat) (bs : List Byte) : List (List Nat) :=
  let w := fmtBits f
  let kbs := cdiv R lanes
  let vs := unpackBits w (cdiv N 16 * kbs * lanes * 16) bs
  let arr := vs.toArray
  (List.range N).map (fun n => (List.range R).map (fun k =>
    arr.getD ((((n / 16) * kbs + k / lanes) * lanes + k % lanes) * 16 + n % 16) 0))

end Sys2Proof.Machine
end

