-- ==== Sys2Proof/Machine/Special.lean ====
section
/-!
DEFINITION. The special functions of Table 4.6: their exactly rounded FP32 values, computed in fixed point of 256 fraction bits,
and what the SFU may answer within its error bounds.
-/

namespace Sys2Proof.Machine

/-- Fraction bits of the fixed-point evaluation. -/
def fixF : Nat := 256

/-- The fixed-point integer of a finite value (exact for every FP32 value). -/
def toFix (x : Num) : Int :=
  match x with
  | .fin n m e => signedAt n (m * 2 ^ fixF) e (if e < 0 then e else 0) / (2 ^ (if e < 0 then -e else 0).toNat : Nat)
  | _ => 0

/-- The value of a fixed-point integer. -/
def ofFix (x : Int) : Num := .fin (x < 0) x.natAbs (-(fixF : Int))

/-- `2·atanh(p/q)` in fixed point by `n` terms of its series. -/
def atanh2 (z : Int) (n : Nat) : Int :=
  let z2 := z * z / 2 ^ fixF
  let (_, s) := (List.range n).foldl (fun (t, s) k => (t * z2 / 2 ^ fixF, s + t / (2 * k + 1 : Nat))) (z, 0)
  2 * s

/-- `ln 2`. -/
def fixLn2 : Int := atanh2 (2 ^ fixF / 3) 90

/-- `e^x` of a fixed-point `x`: a sum of 70 terms after reduction by `ln 2`. -/
def expNum (x : Int) : Num :=
  let l := fixLn2
  let k := (2 * x + l) / (2 * l)
  let r := x - k * l
  let (_, s) := (List.range 70).foldl (fun (t, s) i => (t * r / (2 ^ fixF * (i + 1 : Nat)), s + t)) ((2 ^ fixF : Int), 0)
  (ofFix s).scale k

/-- `ln x` of a positive finite value. -/
def logNum (m : Nat) (e : Int) : Num :=
  let k := flog2 m e
  let f : Int := m * 2 ^ fixF / 2 ^ Nat.log2 m
  let z := (f - 2 ^ fixF) * 2 ^ fixF / (f + 2 ^ fixF)
  ofFix (k * fixLn2 + atanh2 z 90)

/-- `atan(1/q)` in fixed point. -/
def atanInv (q n : Nat) : Int :=
  let t0 : Int := 2 ^ fixF / (q : Int)
  ((List.range n).foldl (fun (p : Int × Int) k =>
    (p.1 / (q * q : Nat), if k % 2 = 0 then p.2 + p.1 / (2 * k + 1 : Nat) else p.2 - p.1 / (2 * k + 1 : Nat))) (t0, 0)).2

/-- `π` by Machin's formula. -/
def fixPi : Int := 16 * atanInv 5 120 - 4 * atanInv 239 40

/-- The normal distribution `Φ(x)` of a fixed-point `x` with `|x| < 10`. -/
def normalCdf (x : Int) : Int :=
  let x2 := x * x / 2 ^ fixF
  let (_, s) := (List.range 400).foldl (fun (t, s) n =>
    (-(t * x2 / (2 ^ fixF * (2 * (n + 1) : Nat))), s + t / (2 * n + 1 : Nat))) (x, (0 : Int))
  let r : Int := isqrt ((2 * fixPi).toNat * 2 ^ fixF)
  2 ^ (fixF - 1) + s * 2 ^ fixF / r

/-- The number of a decimal fraction `n/d` is below `x`. -/
def above (x : Num) (n d : Nat) : Bool := (Num.ofNat n).lt (x.mul (Num.ofNat d))

/-- What a function of Table 4.6 answers exactly, where the table names a special case: 0 EXP, 1 LOG, 2 RECIP, 3 RSQRT,
4 SIGMOID, 5 TANH, 6 GELU. -/
def sfuSpecial (fn : Nat) (x : Num) : Option Num :=
  match fn, x with
  | _, .nan => some .nan
  | 0, .inf n => some (if n then Num.zero else .inf false)
  | 0, _ => if above x 887228 10000 then some (.inf false) else none
  | 1, .inf n => some (if n then .nan else .inf false)
  | 1, .fin n m _ => if m = 0 then some (.inf true) else if n then some .nan else none
  | 2, .inf n => some (.fin n 0 0)
  | 2, .fin n m _ => if m = 0 then some (.inf n) else none
  | 3, .inf n => some (if n then .nan else Num.zero)
  | 3, .fin n m _ => if m = 0 then some (.inf n) else if n then some .nan else none
  | 4, .inf n => some (if n then Num.zero else Num.one)
  | 5, .inf n => some (.fin n 1 0)
  | 5, .fin _ m e => if m = 0 || flog2 m e < -12 then some x else none
  | 6, .inf n => some (if n then .fin true 0 0 else .inf false)
  | 6, .fin n m _ => if m = 0 then some x
                     else if (Num.ofNat 10).le x.abs then some (if n then .fin true 0 0 else x) else none
  | _, _ => none

/-- The value of a function where no special case holds, to far more bits than FP32 has. -/
def sfuExact (fn : Nat) (x : Num) : Num :=
  match x with
  | .fin n m e =>
    let far := flog2 m e ≥ 8
    match fn with
    | 0 => if far then .fin false 1 (-400) else expNum (toFix x)
    | 1 => logNum m e
    | 2 => Num.one.div x
    | 3 => Num.one.div x.sqrt
    | 4 => if far then (if n then .fin false 1 (-400) else Num.one) else Num.one.div (Num.one.add (expNum (-(toFix x))))
    | 5 => if far then .fin n 1 0
           else
             let t := expNum (2 * toFix x)
             (t.sub Num.one).div (t.add Num.one)
    | _ => x.mul (ofFix (normalCdf (toFix x)))
  | y => y

/-- Units in the last place an answer may be off (Table 4.6). -/
def sfuUlps (fn : Nat) : Nat := if fn = 2 then 1 else if fn = 6 then 4 else 2

/-- Does an answer lie within the bound of Table 4.6 around the exactly rounded `ref`? -/
def sfuWithin (fn : Nat) (x ref cand : Num) : Bool :=
  let d := (cand.sub ref).abs
  match ref with
  | .fin _ m e =>
    let E := if m = 0 then -126 else flog2 m e
    let ulp := (if E < -126 then (-126 : Int) else E) - 23
    let bound : Num := if fn = 6 && x.abs.le (Num.ofNat 4) then .fin false 1 (-22) else .fin false (sfuUlps fn) ulp
    d.le bound
  | _ => false

/-- The smallest normal FP32 magnitude is above this one. -/
def belowNormal (x : Num) : Bool :=
  match x with
  | .fin _ m e => m ≠ 0 && flog2 m e < -126
  | _ => false

/-- One SFU evaluation: the FP32 value and whether a result was flushed to zero (R93, R95). The SFU's own answer is taken where
it meets the bound; where it does not, the exactly rounded value stands, so every value the bound allows is possible and no
other is. -/
def sfuEval (fn : Nat) (x : Num) : Num × Bool :=
  let flush (y : Num) : Num × Bool :=
    match y with
    | .fin n _ _ => if belowNormal y then (.fin n 0 0, true) else (y, false)
    | y => (y, false)
  match sfuSpecial fn x with
  | some y => flush y
  | none =>
    let v := sfuExact fn x
    if belowNormal v then flush v
    else
      let ref := rnd32 v
      let cand := ofFp32 (Config.sfu fn (fp32 x))
      flush (if sfuWithin fn x ref cand then cand else ref)

/-- `cos x` or `sin x` in fixed point: reduced by `2π`, then its series. -/
def fixTrig (sine : Bool) (x : Int) : Int :=
  let p2 := 2 * fixPi
  let r := x - (2 * x + p2) / (2 * p2) * p2
  let r2 := r * r / 2 ^ fixF
  let k0 := if sine then 1 else 0
  let t0 : Int := if sine then r else 2 ^ fixF
  ((List.range 60).foldl (fun (p : Int × Int) i =>
    (-(p.1 * r2 / (2 ^ fixF * ((2 * i + 1 + k0) * (2 * i + 2 + k0) : Nat))), p.2 + p.1)) (t0, 0)).2

/-- The walker's cosine or sine of an FP32 angle: its own value where that lies within 2⁻²² of the exact one, else the exact
one rounded to FP32 (R159). -/
def walkTrig (sine : Bool) (angle : Num) : Num :=
  let v := ofFix (fixTrig sine (toFix angle))
  let cand := ofFp32 (Config.walkerTrig sine (fp32 angle))
  if ((cand.sub v).abs).le (.fin false 1 (-22)) then cand else rnd32 v

/-- The rotary angle `q·θ^(−2j/dim)`, formed in FP32 with one rounding (R159). -/
def ropeAngle (q theta j dim : Nat) : Num :=
  match ofFp32 theta with
  | .fin _ m e => rnd32 ((expNum (-(2 * j : Nat) * toFix (logNum m e) / (dim : Nat))).mul (Num.ofNat q))
  | x => x.mul Num.zero

/-- The walker's exponential: exactly 1 of a zero (R161), else as the SFU's (R160). -/
def walkExp (x : Num) : Num × Bool := if x.isZero then (Num.one, false) else sfuEval 0 x

/-- The logarithm of a row's sum: exactly 0 of 1 (R161). -/
def walkLog (x : Num) : Num × Bool := if x.le Num.one && Num.one.le x then (Num.zero, false) else sfuEval 1 x

end Sys2Proof.Machine
end

