-- ==== Sys2Proof/Machine/Cluster.lean ====
section
/-!
DEFINITION. The commands of a cluster's load engine, arrays, vector unit and SFU (chapter 5): LOAD, STORE, SYNC, MATMUL,
MATMUL_DX, MATMUL_DW, VEC, SFU and OPT_STEP.
-/

namespace Sys2Proof.Machine

/-! ## LOAD and STORE (R117, R178–R183) -/

/-- Tiles moved so far. -/
structure Move where
  r : Rd
  outs : List OutTile

/-- Does the check entry of a destination make a LOAD skip the transfer (R179)? -/
def skipLoad (s : State) (src dst k gen : Nat) : Bool :=
  let e := tileEntry s src
  let d := tileEntry s dst
  e.valid && d.valid && d.gen = gen % 65536 && d.crc = movedCrc e.crc src gen dst gen (2 ^ k)

/-- Write a copy with the checksum derived from a source's stored one (R178). -/
def putCopy (s : State) (src dst k gs gd : Nat) : State × OutTile :=
  let n := 2 ^ k
  let crc := movedCrc (tileEntry s src).crc src gs dst gd n
  (putTile s dst k gd crc (rd s src n), { gen := gd % 65536, crc := crc, addr := dst, size := n })

/-- A LOAD reads one tile: its place, then the reserve (Table 8.5), and writes the copy. -/
def loadTile (c : Cmdr) (k gen src rsv dst : Nat) (m : Move) : Move :=
  let r := m.r
  if !r.ok then m
  else if !mapped src (2 ^ k) then { m with r := r.unmapped c src k gen }
  else if skipLoad r.s src dst k gen then
    { m with outs := m.outs ++ [{ gen := gen % 65536, crc := (tileEntry r.s dst).crc, addr := dst, size := 2 ^ k }] }
  else if !mayWrite r.s c.part dst (2 ^ k) then { m with r := { r with s := dropEvent r.s c dst, ok := false } }
  else
    let copy (r : Rd) (from' : Nat) : Move :=
      let (s, o) := putCopy r.s from' dst k gen gen
      { r := { r with s := countCmd s c from' (2 ^ k) false }, outs := m.outs ++ [o] }
    let again (s : State) : State := countCmd (countRefetch s c) c src (2 ^ k) false
    let valid := (tileEntry r.s src).valid
    if valid && tilePass r.s src k gen && !c.ph.lost.contains src then
      if c.ph.flaky.contains src then
        copy { r with s := checkEvent (again r.s) c src k gen 1, refetch := r.refetch + 1 } src
      else copy r src
    else
      let r := if valid then { r with s := countCmd (again r.s) c src (2 ^ k) false, refetch := r.refetch + 1 } else r
      if rsv ≠ 0 && mapped rsv (2 ^ k) && tilePass r.s rsv k gen && !c.ph.lost.contains rsv then
        copy { r with s := owesRepair (checkEvent r.s c src k gen 2) src rsv k gen (match regionAt r.s src with | some p => p.2.part | none => c.part) } rsv
      else { m with r := { r with s := stage3 r.s c src k gen, ok := false } }

/-- LOAD (R117, R178–R184). UNIT_STATUS is the number of re-fetches. -/
def loadBody (c : Cmdr) (s : State) : Eff :=
  let d := c.a.desc
  let k := fld d 0x1C 1
  let tid := fld d 0x20 4
  let src := fld d 0x10 6 + snapOffset s c
  let rsv := if (snapToken c).isSome then 0 else fld d 0x28 6
  let m := (List.range (fld d 0x1D 1)).foldl (fun m i =>
    loadTile c k (genFor c tid i (fld d 0x1E 2)) (src + i * 2 ^ k) (if rsv = 0 then 0 else rsv + i * 2 ^ k)
      (cluBase (gOf c.u) + fld d 0x18 4 + i * 2 ^ k) m) { r := { s := s }, outs := [] }
  if m.r.ok then { s := m.r.s, outs := m.outs, unitStatus := m.r.refetch, cycles := c.ph.cycles, notes := localNotes c m.outs }
  else { s := m.r.s, status := some .checkFail, unitStatus := m.r.refetch, cycles := c.ph.cycles }

/-- The generation a STORE checks a source tile with: the token's that names it, else the head word's (R117). -/
def storeGen (s : State) (c : Cmdr) (tid i src : Nat) : Nat :=
  genFor c tid i (tileEntry s src).gen

/-- A STORE moves one tile. The secondary of a twin pair writes nothing outside its cluster (R120). -/
def storeTile (c : Cmdr) (k tid i src dst gd : Nat) (m : Move) : Move :=
  let r := m.r
  if !r.ok then m
  else if !mayWrite r.s c.part dst (2 ^ k) then { m with r := { r with s := dropEvent r.s c dst, ok := false } }
  else
    let gs := storeGen r.s c tid i src
    let r := checkTile r c src k gs
    if !r.ok then { m with r := r }
    else if c.twin = 2 then
      let crc := movedCrc (tileEntry r.s src).crc src gs dst gd (2 ^ k)
      { r := r, outs := m.outs ++ [{ gen := gd, crc := crc, addr := dst, size := 2 ^ k }] }
    else
      let (s, o) := putCopy r.s src dst k gs gd
      { r := { r with s := countCmd s c dst (2 ^ k) true }, outs := m.outs ++ [o] }

/-- STORE (R117, R178, R181). -/
def storeBody (c : Cmdr) (s : State) : Eff :=
  let d := c.a.desc
  let k := fld d 0x1C 1
  let tid := fld d 0x20 4
  let gd := (fld d 0x1E 2 + c.a.frame) % 65536
  let m := (List.range (fld d 0x1D 1)).foldl (fun m i =>
    storeTile c k tid i (cluBase (gOf c.u) + fld d 0x18 4 + i * 2 ^ k) (fld d 0x10 6 + i * 2 ^ k) gd m)
    { r := { s := s }, outs := [] }
  if m.r.ok then { s := m.r.s, outs := m.outs, cycles := c.ph.cycles, notes := m.outs.flatMap (fun o => [o.gen, o.crc]) }
  else { s := m.r.s, status := some .checkFail, cycles := c.ph.cycles }

/-- SYNC moves no data (R114). -/
def syncBody (c : Cmdr) (s : State) : Eff := { s := s, cycles := c.ph.cycles }

/-! ## The matrix opcodes (R115, R116) -/

/-- A list of rows turned into a list of its first `n` columns. -/
def transposeRows (n : Nat) (rows : List (List Nat)) : List (List Nat) :=
  let arrs := rows.map List.toArray
  (List.range n).map (fun i => arrs.map (fun a => a.getD i 0))

/-- Bytes of scales from `xs` for vector `m`. -/
def scalesOf (xs : List (Option Nat)) (R m : Nat) : List (Option Nat) :=
  if xs.isEmpty then [] else (xs.drop (m * cdiv R 32)).take (cdiv R 32)

/-- The FP32 words of an epilogue table: multipliers and biases by column (Table 5.7). -/
def epiTables (kind N : Nat) (ws : List Nat) : List Num × List Num :=
  let ns := ws.map ofFp32
  if kind = 3 then (ns.take N, ns.drop N) else ([], ns)

/-- How many FP32 words an epilogue reads for `N` columns. -/
def epiWords (kind N : Nat) : Nat := if kind = 0 then 0 else if kind = 3 then 2 * N else N

/-- Apply an epilogue along a row of columns. -/
def epiRow (kind : Nat) (t : List Num × List Num) (xs : List Num) : List Num :=
  (xs.zipIdx).map (fun p => epilogue kind ((t.1[p.2]?).getD Num.one) ((t.2[p.2]?).getD Num.zero) p.1)

/-- The blocked FP32 buffer of MATMUL_DW as rows of `K` and columns of `N`: byte offset of element (k, n) (R115). -/
def dwOffset (K k n : Nat) : Nat := (((n / 16) * cdiv K 16 + k / 16) * 256 + (k % 16) * 16 + n % 16) * 4

/-- MATMUL and its backward forms (R83–R92, R102–R107, R115, R116). With ACCUMULATE the old C is added to the finished sum by one FP32
addition to nearest even, whatever the command's ROUND: the sum is then an FP32 value and its output rounding is exact (the spec does not say
how this sum rounds; DESIGN CHOICE, log 46). -/
def matBody (op : Nat) (c : Cmdr) (s : State) : Eff :=
  let d := c.a.desc
  let (Mo, No, R) := matDims op d
  let M := fld d 0x20 2
  let fa := fld d 0x2C 1 % 16
  let fb := fld d 0x2C 1 / 16
  let fc := fld d 0x2D 1 % 16
  let mode := fld d 0x2E 1
  let epi := bits mode 3 2
  let sc := fld d 0x2F 1
  let lanes := kLanes fa fb
  let ldc := fld d 0x2A 2 * 64
  let cyc := arrCycles fa fb Mo No R
  -- operands
  let rowLen := if op = 0x12 then fld d 0x24 4 else R
  let (r, aRaw) := readRows c (fld d 0x10 4) (fld d 0x28 2 * 64) fa rowLen M { s := s }
  let aRaw := if op = 0x12 then transposeRows Mo aRaw else aRaw
  let (r, bBytes) := readLocal r c (fld d 0x14 4) (cdiv No 16 * cdiv R lanes * lanes * fmtBytes fb 16)
  let (r, aS) := readScales r c (bit sc 0) (fld d 0x30 4) (Mo * cdiv R 32)
  let (r, bS) := readScales r c (bit sc 1) (fld d 0x34 4) (No * cdiv R 32)
  let (r, ep) := if epi = 0 then (r, []) else readTensor r c (fld d 0x1C 4) 0 (epiWords epi No)
  let accum := bit mode 7
  let (r, old) : Rd × List (List Nat) :=
    if !accum then (r, [])
    else if op = 0x12 then
      let (r, x) := readTensor r c (fld d 0x18 4) 0 (cdiv Mo 16 * cdiv No 16 * 256)
      let arr := x.toArray
      (r, (List.range Mo).map (fun k => (List.range No).map (fun n => arr.getD (dwOffset Mo k n / 4) 0)))
    else readRows c (fld d 0x18 4) ldc 0 No Mo r
  if !r.ok then effFail r.s cyc
  else
    let scaled := bit sc 0 || bit sc 1
    let rows := (aRaw.zipIdx).map (fun p => redVec fa p.1 (scalesOf aS R p.2))
    let cols := ((preBlocked fb lanes R No bBytes).zipIdx).map (fun p => redVec fb p.1 (scalesOf bS R p.2))
    let o := reduceAll fa fb scaled R rows cols
    match abftFaults (reportedFault (accClass fa fb scaled) (passRows fa fb) o.inexact) c.ph.faults o.fault with
    | f :: fs => effAbft r.s c (f :: fs) cyc
    | [] =>
      let t := epiTables epi No ep
      let vals := (o.accs.zipIdx).map (fun p =>
        if accum then
          ((List.zip p.1 ((old[p.2]?).getD [])).map (fun x => add32 (ofFp32 x.2) (rnd32 x.1)))
        else epiRow epi t p.1)
      let rm := elemMode (bits mode 5 4) (bits mode 6 6) (fld d 0x3C 4) c.a.frame
      let enc := (vals.zipIdx).map (fun p => encodeRow fc (bit sc 2) rm (p.2 * No) p.1)
      let fl : Flags := enc.foldl (fun (a : Flags) e => a.or e.2.2) { inexact := !o.inexact.isEmpty }
      if op = 0x12 then
        let buf := rd r.s (cluBase (gOf c.u) + fld d 0x18 4) (cdiv Mo 16 * cdiv No 16 * 1024)
        let bs := (enc.zipIdx).foldl (fun acc p => (p.1.1.zipIdx).foldl (fun acc q => splice acc (dwOffset Mo p.2 q.2) (natLe 4 q.1)) acc) buf
        effLocalWith r.s c [] (fld d 0x18 4) bs fl.byte cyc 0
      else
        let a := cluBase (gOf c.u) + fld d 0x18 4
        let bs := rowBytes r.s a ldc (enc.map (fun e => packBits (fmtBits fc) e.1))
        let scb := if bit sc 2 then [(fld d 0x38 4, (enc.flatMap (fun e => e.2.1)).map (BitVec.ofNat 8))] else []
        effLocalWith r.s c scb (fld d 0x18 4) bs fl.byte cyc 0

/-! ## The vector unit and the SFU (R108) -/

/-- An elementwise operation of Table 5.4 on exact values. -/
def vecOp (op : Nat) (s0 s1 x y : Num) : Num :=
  match op with
  | 0x00 => x.add y
  | 0x01 => x.sub y
  | 0x02 => x.mul y
  | 0x03 => x.max y
  | 0x04 => x.min y
  | 0x05 => (s0.mul x).add s1
  | 0x06 => relu x
  | _ => x

/-- A reduction of Table 5.4 over one group: SUM, MAXRED, SUMSQ. `exact` for integer operands. The accumulator starts at +0, so that a sum of
nothing but −0 is +0 (the spec gives the accumulator no starting value; DESIGN CHOICE, log 46). -/
def vecReduce (op : Nat) (exact : Bool) (xs : List Num) : Num :=
  match op with
  | 0x08 => if exact then xs.foldl Num.add Num.zero else xs.foldl add32 Num.zero
  | 0x09 => match xs with | [] => Num.zero | y :: ys => ys.foldl Num.max y
  | _ => if exact then xs.foldl (fun a x => a.add (x.mul x)) Num.zero else xs.foldl (fun a x => fma32 x x a) Num.zero

/-- Does an OP of VEC take a second operand? -/
def vecBinary (op : Nat) : Bool := op ≤ 4
/-- Is an OP of VEC a reduction? -/
def vecReduces (op : Nat) : Bool := op = 8 || op = 9 || op = 10

/-- Cycles of the vector unit (R108). -/
def vecCycles (n : Nat) (fmts : List Nat) : Nat := cdiv n (if fmts.contains 0 then 64 else 128)

/-- Write the output of an elementwise command, with its scales at DST_SCALE_ADDR. -/
def elemOut (c : Cmdr) (s : State) (xs : List Num) (fl : Flags) (cyc : Nat) : Eff :=
  let d := c.a.desc
  let m := fld d 0x22 1
  let f := m % 16
  let mx := bit (fld d 0x23 1) 2
  let (es, scs, g) := encodeRow f mx (elemMode (bits m 5 4) (bits m 6 6) (fld d 0x3C 4) c.a.frame) 0 xs
  effLocalWith s c (if mx then [(fld d 0x34 4, scs.map (BitVec.ofNat 8))] else []) (fld d 0x18 4)
    (packBits (fmtBits f) es) (g.or fl).byte cyc 0

/-- VEC (R108, Table 5.4). -/
def vecBody (c : Cmdr) (s : State) : Eff :=
  let d := c.a.desc
  let n := fld d 0x1C 4
  let op := fld d 0x20 1
  let f0 := fld d 0x21 1 % 16
  let f1 := fld d 0x21 1 / 16
  let fd := fld d 0x22 1 % 16
  let sc := fld d 0x23 1
  let two := vecBinary op
  let cyc := vecCycles n (if two then [f0, f1, fd] else [f0, fd])
  let (r, x) := readTensor { s := s } c (fld d 0x10 4) f0 n
  let (r, xs) := readScales r c (bit sc 0) (fld d 0x2C 4) (cdiv n 32)
  let (r, y) := if two then readTensor r c (fld d 0x14 4) f1 n else (r, [])
  let (r, ys) := if two then readScales r c (bit sc 1) (fld d 0x30 4) (cdiv n 32) else (r, [])
  if !r.ok then effFail r.s cyc
  else
    let X := scaledElems f0 x xs
    let Y := scaledElems f1 y ys
    let s0 := ofFp32 (fld d 0x24 4)
    let s1 := ofFp32 (fld d 0x28 4)
    let out :=
      if vecReduces op then
        (chunks (fld d 0x38 4) (n + 1) X).map (vecReduce op (isIntFmt f0 && !bit sc 0))
      else if two then
        -- an integer operation holds no sign of zero (R79)
        (List.zipWith (vecOp op s0 s1) X Y).map (fun v => if isIntFmt f0 && isIntFmt f1 && !bit sc 0 && !bit sc 1 then plusZero v else v)
      else X.map (fun v => vecOp op s0 s1 v Num.zero)
    elemOut c r.s out {} cyc

/-- SFU: `f(SCALAR0·x + SCALAR1)`, the prescale rounded once to FP32 (R95, R108). -/
def sfuBody (c : Cmdr) (s : State) : Eff :=
  let d := c.a.desc
  let n := fld d 0x1C 4
  let f0 := fld d 0x21 1 % 16
  let cyc := cdiv n 16 + 12
  let (r, x) := readTensor { s := s } c (fld d 0x10 4) f0 n
  let (r, xs) := readScales r c (bit (fld d 0x23 1) 0) (fld d 0x2C 4) (cdiv n 32)
  if !r.ok then effFail r.s cyc
  else
    let s0 := ofFp32 (fld d 0x24 4)
    let s1 := ofFp32 (fld d 0x28 4)
    let ys := (scaledElems f0 x xs).map (fun v => sfuEval (fld d 0x20 1) (fma32 s0 v s1))
    elemOut c r.s (ys.map (·.1)) { flush := ys.any (·.2) } cyc

/-- OPT_STEP: momentum and master weights updated in place, and a working copy (R108). -/
def optBody (c : Cmdr) (s : State) : Eff :=
  let d := c.a.desc
  let n := fld d 0x1C 4
  let f0 := fld d 0x21 1 % 16
  let m := fld d 0x22 1
  let f := m % 16
  let cyc := vecCycles n [0]
  let (r, g) := readTensor { s := s } c (fld d 0x10 4) f0 n
  let (r, gs) := readScales r c (bit (fld d 0x23 1) 0) (fld d 0x2C 4) (cdiv n 32)
  let (r, mo) := readTensor r c (fld d 0x14 4) 0 n
  let (r, w) := readTensor r c (fld d 0x18 4) 0 n
  if !r.ok then effFail r.s cyc
  else
    let lr := (ofFp32 (fld d 0x24 4)).neg
    let mu := ofFp32 (fld d 0x28 4)
    let m' := (List.zip (scaledElems f0 g gs) mo).map (fun p => fma32 mu (ofFp32 p.2) p.1)
    let w' := (List.zip m' w).map (fun p => fma32 lr p.1 (ofFp32 p.2))
    let em := m'.map (encodeNum 0 rne false)
    let ew := w'.map (encodeNum 0 rne false)
    let copy := fld d 0x34 4
    let (es, _, fl) := encodeRow f false (elemMode (bits m 5 4) (bits m 6 6) (fld d 0x3C 4) c.a.frame) 0 w'
    let fl : Flags := (em ++ ew).foldl (fun (a : Flags) e => a.or e.2) (if copy = 0 then {} else fl)
    let words (xs : List (Nat × Flags)) : List Byte := xs.flatMap (fun e => natLe 4 e.1)
    effLocalWith r.s c ((fld d 0x14 4, words em) :: (if copy = 0 then [] else [(copy, packBits (fmtBits f) es)]))
      (fld d 0x18 4) (words ew) fl.byte cyc 0

/-! ## The commands -/

/-- LOAD (R179). -/
def execLoad (u ctx : Nat) (ph : Phys) (s : State) : Out := done s (issueWith 0x01 loadBody u ctx ph s)
/-- STORE (R117). -/
def execStore (u ctx : Nat) (ph : Phys) (s : State) : Out := done s (issueWith 0x02 storeBody u ctx ph s)
/-- SYNC (R114). -/
def execSync (u ctx : Nat) (ph : Phys) (s : State) : Out := done s (issueWith 0x03 syncBody u ctx ph s)
/-- MATMUL (R115). -/
def execMatmul (u ctx : Nat) (ph : Phys) (s : State) : Out := done s (issueWith 0x10 (matBody 0x10) u ctx ph s)
/-- MATMUL_DX (R115). -/
def execMatmulDx (u ctx : Nat) (ph : Phys) (s : State) : Out := done s (issueWith 0x11 (matBody 0x11) u ctx ph s)
/-- MATMUL_DW (R115). -/
def execMatmulDw (u ctx : Nat) (ph : Phys) (s : State) : Out := done s (issueWith 0x12 (matBody 0x12) u ctx ph s)
/-- VEC (R108). -/
def execVec (u ctx : Nat) (ph : Phys) (s : State) : Out := done s (issueWith 0x20 vecBody u ctx ph s)
/-- SFU (R95, R108). -/
def execSfu (u ctx : Nat) (ph : Phys) (s : State) : Out := done s (issueWith 0x21 sfuBody u ctx ph s)
/-- OPT_STEP (R108). -/
def execOptStep (u ctx : Nat) (ph : Phys) (s : State) : Out := done s (issueWith 0x22 optBody u ctx ph s)

end Sys2Proof.Machine
end

