-- ==== Sys2Proof/Machine/Maps.lean ====
section
/-!
DEFINITION. Feature maps (R122–R124, R127), the geometry of convolution and pooling (R128–R132), and their arithmetic
(R129, R130, R133).
-/

namespace Sys2Proof.Machine

/-- A feature map: element bits at `(c·H + y)·W + x`, and the scale bytes of a C32 map at `(b·H + y)·W + x`. -/
structure FMap where
  f : Nat
  C : Nat
  H : Nat
  W : Nat
  raw : Array Nat
  sc : Array Nat := #[]

/-- Bits of one element of a byte array, lowest bits first. -/
def bitsAt (bs : Array Nat) (pos w : Nat) : Nat :=
  let o := pos / 8
  let v := (List.range 5).foldl (fun a i => a + bs.getD (o + i) 0 * 256 ^ i) 0
  (v >>> (pos % 8)) % 2 ^ w

/-- Bit position of element (c, y, x) of a map in a layout: 0 C16, 1 C32, 2 HWC with `stride` elements a pixel, 3 CHW (R122). -/
def elemPos (lay f H W stride c y x : Nat) : Nat :=
  let w := fmtBits f
  let blk (B : Nat) : Nat := ((c / B) * (rowPitch B f W * H) + y * rowPitch B f W + x * (B * w / 8)) * 8 + (c % B) * w
  match lay with
  | 0 => blk 16
  | 1 => blk 32
  | 2 => ((y * W + x) * stride + c) * w
  | _ => ((c * H + y) * W + x) * w

/-- A map from its bytes. -/
def mapOfBytes (lay f C H W stride : Nat) (bs : List Byte) (sc : List Byte) : FMap :=
  let arr := (bs.map (·.toNat)).toArray
  { f := f, C := C, H := H, W := W, sc := (sc.map (·.toNat)).toArray,
    raw := ((List.range C).flatMap (fun c => (List.range H).flatMap (fun y => (List.range W).map (fun x =>
      bitsAt arr (elemPos lay f H W stride c y x) (fmtBits f))))).toArray }

/-- Bytes read for a map. -/
def mapReadBytes (lay f C H W stride : Nat) : Nat :=
  if lay = 2 then fmtBytes f (H * W * stride) else if lay = 3 then fmtBytes f (C * H * W) else mapBytes lay f C H W

/-- Element bits of a map. -/
def FMap.at (m : FMap) (c y x : Nat) : Nat := m.raw.getD ((c * m.H + y) * m.W + x) 0

/-- The scale byte of an element, where the map has scales. -/
def FMap.scaleAt (m : FMap) (c y x : Nat) : Option Nat :=
  if m.sc.isEmpty then none else some (m.sc.getD (((c / 32) * m.H + y) * m.W + x) 0)

/-- The value of an element, scale applied. -/
def FMap.num (m : FMap) (c y x : Nat) : Num := scaledNum m.f (m.at c y x) (m.scaleAt c y x)

/-- The bytes of a map of `C × H × W` element bits in a layout, padding channels and row padding zero (R123). -/
def bytesOfMap (lay f C H W : Nat) (el : Nat → Nat → Nat → Nat) : List Byte :=
  let w := fmtBits f
  let blocked (B : Nat) : List Byte :=
    (List.range (cdiv C B)).flatMap (fun b => (List.range H).flatMap (fun y =>
      padTo (rowPitch B f W) (packBits w ((List.range W).flatMap (fun x =>
        (List.range B).map (fun j => if b * B + j < C then el (b * B + j) y x else 0))))))
  match lay with
  | 0 => blocked 16
  | 1 => blocked 32
  | 2 => padTo (mapBytes 2 f C H W) (packBits w ((List.range H).flatMap (fun y => (List.range W).flatMap (fun x =>
      (List.range C).map (fun c => el c y x)))))
  | _ => padTo (mapBytes 3 f C H W) (packBits w ((List.range C).flatMap (fun c => (List.range H).flatMap (fun y =>
      (List.range W).map (fun x => el c y x)))))

/-- Geometry of a convolution or pooling. -/
structure Geom where
  H : Nat
  W : Nat
  kh : Nat
  kw : Nat
  sh : Nat
  sw : Nat
  dh : Nat
  dw : Nat
  pt : Nat
  pl : Nat
  mode : Nat
  Ho : Nat
  Wo : Nat
deriving DecidableEq, Repr

/-- The input coordinate a tap reads along one dimension: none in zero padding; reflect mirrors about the edge element,
replicate repeats it (R132). -/
def tapPos (mode n o stride pad dil t : Nat) : Option Nat :=
  let p : Int := (o * stride + t * dil : Nat) - (pad : Int)
  if 0 ≤ p && p < n then some p.toNat
  else match mode with
    | 0 => none
    | 1 =>
      let m := if p < 0 then -p else 2 * ((n : Int) - 1) - p
      if 0 ≤ m && m < n then some m.toNat else none
    | _ => some (if p < 0 then 0 else n - 1)

/-- The input position of tap (ty, tx) at output (oy, ox). -/
def Geom.tap (g : Geom) (mode oy ox ty tx : Nat) : Option (Nat × Nat) :=
  match tapPos mode g.H oy g.sh g.pt g.dh ty, tapPos mode g.W ox g.sw g.pl g.dw tx with
  | some y, some x => some (y, x)
  | _, _ => none

/-- The taps in row-major order. -/
def Geom.taps (g : Geom) : List (Nat × Nat) := (List.range g.kh).flatMap (fun y => (List.range g.kw).map (fun x => (y, x)))

/-- The output positions in row-major order. -/
def Geom.outs (g : Geom) : List (Nat × Nat) := (List.range g.Ho).flatMap (fun y => (List.range g.Wo).map (fun x => (y, x)))

/-- Does a tap read inside the input at some output position of a list? -/
def Geom.tapRuns (g : Geom) (os : List (Nat × Nat)) (t : Nat × Nat) : Bool :=
  g.mode ≠ 0 || os.any (fun o => (g.tap 0 o.1 o.2 t.1 t.2).isSome)

/-- CENTRE_ONLY: with zero padding every tap but the centre lies in padding at every output position, and the kernel is not
1×1 (R131). -/
def Geom.centreOnly (g : Geom) : Bool :=
  g.mode = 0 && !(g.kh = 1 && g.kw = 1) &&
    g.taps.all (fun t => t = ((g.kh - 1) / 2, (g.kw - 1) / 2) || !g.tapRuns g.outs t)

/-- The activation row of one output position for channels `c0 ..  c0 + n`: taps in row-major order, channels innermost. A tap
that its pass does not run enters as exact zero (R129, R130). -/
def convRow (m : FMap) (g : Geom) (run : List Bool) (c0 n : Nat) (o : Nat × Nat) : RedVec :=
  let mx := !m.sc.isEmpty
  let ts := List.zip g.taps run
  { vals := ts.flatMap (fun t =>
      match (if t.2 then g.tap g.mode o.1 o.2 t.1.1 t.1.2 else none) with
      | some (y, x) => (List.range n).map (fun i => (decodeNum m.f (m.at (c0 + i) y x)).scale (if mx && m.f = 9 then -6 else 0))
      | none => List.replicate n Num.zero),
    exps := if !mx then [] else ts.flatMap (fun t =>
      match (if t.2 then g.tap g.mode o.1 o.2 t.1.1 t.1.2 else none) with
      | some (y, x) => (List.range (n / 32)).map (fun b => scaleExp ((m.scaleAt (c0 + 32 * b) y x).getD 127))
      | none => List.replicate (n / 32) (some 0)) }

/-- A weight column with the taps a pass leaves out set to zero. -/
def maskTaps (run : List Bool) (n : Nat) (v : RedVec) : RedVec :=
  if run.all id then v
  else { v with vals := (v.vals.zipIdx).map (fun p => if (run[p.2 / n]?).getD true then p.1 else Num.zero) }

/-- What a convolution computes: accumulators by output position and output channel, inexact blocks, fault. -/
structure ConvOut where
  /-- At `(oy·Wo + ox)`: one value per output channel. -/
  accs : List (List Num)
  inexact : List BlockAt := []
  fault : Option ArrayFault := none

/-- The positions of the passes: at most `cap` rows each (R100). -/
def rowRanges (cap : Nat) (os : List (Nat × Nat)) : List (List (Nat × Nat)) := chunks cap (os.length + 1) os

/-- A convolution on the arrays: one matrix reduction per group (R129). `cols` are the weight columns by output channel. -/
def convArrays (m : FMap) (g : Geom) (fb groups OC : Nat) (scaled : Bool) (cols : List RedVec) : ConvOut :=
  let n := m.C / groups
  let per := OC / groups
  let parts := (List.range groups).map (fun q =>
    let cs := (cols.drop (q * per)).take per
    let rs := (rowRanges (passRows m.f fb) g.outs).map (fun os =>
      let run := g.taps.map (g.tapRuns os)
      reduceAll m.f fb scaled (n * (run.filter id).length) (os.map (convRow m g run (q * n) n)) (cs.map (maskTaps run n)))
    (rs.flatMap (·.accs),
     (rs.zipIdx).flatMap (fun r => r.1.inexact.map (fun b => { b with group := q, row := r.2 * passRows m.f fb + b.row })),
     (rs.zipIdx).findSome? (fun r => r.1.fault.map (fun f => { f with group := q, range := r.2 }))))
  { accs := (g.outs.zipIdx).map (fun p => parts.flatMap (fun q => (q.1[p.2]?).getD [])),
    inexact := parts.flatMap (fun q => q.2.1), fault := parts.findSome? (fun q => q.2.2) }

/-- Cycles of a convolution on the arrays: each group's passes take in the taps that run for their rows (R101, R129, R130). -/
def convCycles (fa fb C OC groups : Nat) (g : Geom) : Nat :=
  groups * rangeCycles fa fb (OC / groups) ((rowRanges (passRows fa fb) g.outs).map (fun os =>
    (os.length, C / groups * (g.taps.filter (g.tapRuns os)).length)))

/-- A depthwise convolution on the vector unit: the taps of each output in row-major order, those in zero padding left out, one
FP32 addition per exact product, integers exactly (R108, R133). -/
def convDepth (m : FMap) (g : Geom) (fb : Nat) (cols : List RedVec) : List (List Num) :=
  let exact := isIntFmt m.f && isIntFmt fb
  g.outs.map (fun o => (List.range m.C).map (fun c =>
    let w := ((cols[c]?).map (·.vals)).getD []
    (List.zip g.taps w).foldl (fun acc t =>
      match g.tap g.mode o.1 o.2 t.1.1 t.1.2 with
      | none => acc
      | some (y, x) =>
        let a := m.num c y x
        if exact then acc.add (a.mul t.2) else fma32 a t.2 acc) Num.zero))

/-- Pooling: the maximum, or the mean of the taps inside the input (R133). The mean is the sum (exact for integers, FP32
additions otherwise) divided once. -/
def poolMap (m : FMap) (g : Geom) (avg : Bool) : List (List Num) :=
  g.outs.map (fun o => (List.range m.C).map (fun c =>
    let xs := g.taps.filterMap (fun t => (g.tap 0 o.1 o.2 t.1 t.2).map (fun p => m.num c p.1 p.2))
    match xs with
    | [] => Num.zero
    | x :: r =>
      if avg then
        (if isIntFmt m.f && m.sc.isEmpty then r.foldl Num.add x else r.foldl add32 (rnd32 x)).div (Num.ofNat xs.length)
      else r.foldl Num.max x))

/-- Convert a map of values into an output format: rows by output position, one value per channel; with MX, one scale per 32
channels of a pixel (R124). Gives the element bits by channel, the scale bytes in the order of R124, and the flags. The linear
index of an element is `n0 + (position)·C + channel` (log 15). -/
def encodeMap (f : Nat) (mx : Bool) (rm : Nat → RMode) (C n0 : Nat) (vals : List (List Num)) : List (Array Nat) × List Nat × Flags :=
  let es := (vals.zipIdx).map (fun p => encodeRow f mx rm (n0 + p.2 * C) p.1)
  let fl : Flags := es.foldl (fun (a : Flags) e => a.or e.2.2) {}
  let sc := (List.range (cdiv C 32)).flatMap (fun b => es.map (fun e => (e.2.1[b]?).getD 0))
  (es.map (fun e => e.1.toArray), if mx then sc else [], fl)

/-- The bytes of an encoded map in a layout. -/
def mapOut (lay f C H W : Nat) (el : List (Array Nat)) : List Byte :=
  let arr := el.toArray
  bytesOfMap lay f C H W (fun c y x => (arr.getD (y * W + x) #[]).getD c 0)

end Sys2Proof.Machine
end

