-- ==== Sys2Proof/Machine/Conv.lean ====
section
/-!
DEFINITION. CONV, CONV_FUSED, DWCONV, POOL and LAYOUT on a cluster (chapter 6).
-/

namespace Sys2Proof.Machine

/-- Read a feature map in cluster SRAM, with its scales. -/
def readMap (r : Rd) (c : Cmdr) (laddr lay f C H W : Nat) (scAddr : Option Nat) : Rd × FMap :=
  let (r, bs) := readLocal r c laddr (mapReadBytes lay f C H W C)
  let (r, sc) := match scAddr with
    | some a => readLocal r c a (cdiv C 32 * H * W)
    | none => (r, [])
  (r, mapOfBytes lay f C H W C bs sc)

/-- Bytes of a group's pre-blocked weights: `per` columns of `R` lanes. -/
def groupBytes (fa fb R per : Nat) : Nat := cdiv per 16 * cdiv R (kLanes fa fb) * kLanes fa fb * fmtBytes fb 16

/-- The weight columns of a convolution by output channel (Table 6.3). -/
def weightCols (fa fb groups OC R : Nat) (bs : List Byte) (sc : List (Option Nat)) : List RedVec :=
  let per := OC / groups
  let n := groupBytes fa fb R per
  let raws := (List.range groups).flatMap (fun q => preBlocked fb (kLanes fa fb) R per ((bs.drop (q * n)).take n))
  (raws.zipIdx).map (fun p => redVec fb p.1 (scalesOf sc R p.2))

/-- The geometry of a descriptor of Table 6.3. -/
def convGeom (d : List Byte) : Geom :=
  let (ho, wo) := convOut d
  { H := fld d 0x20 2, W := fld d 0x22 2, kh := fld d 0x28 1 / 16 + 1, kw := fld d 0x28 1 % 16 + 1, sh := fld d 0x29 1 / 16 + 1,
    sw := fld d 0x29 1 % 16 + 1, dh := fld d 0x2A 1, dw := fld d 0x2B 1, pt := fld d 0x2C 1, pl := fld d 0x2E 1,
    mode := bits (fld d 0x32 1) 1 0, Ho := ho, Wo := wo }

/-- What every opcode of Table 6.3 does with its accumulators: epilogue, rounding, map and scales written. -/
def convFinish (r : Rd) (c : Cmdr) (g : Geom) (epi : Nat) (ep : List Nat) (accs : List (List Num)) (fl : Flags) (scOut : Option Nat)
    (cyc us : Nat) : Eff :=
  let d := c.a.desc
  let OC := fld d 0x26 2
  let fc := fld d 0x31 1 % 16
  let mode := fld d 0x32 1
  let t := epiTables epi OC ep
  let vals := accs.map (epiRow epi t)
  let (el, sc, gl) := encodeMap fc scOut.isSome (elemMode (bits mode 5 4) (bits mode 6 6) (fld d 0x3C 4) c.a.frame) OC 0 vals
  let bs := mapOut (fld d 0x33 1 / 16) fc OC g.Ho g.Wo el
  effLocalWith r.s c (match scOut with | some a => [(a, sc.map (BitVec.ofNat 8))] | none => []) (fld d 0x18 4) bs (gl.or fl).byte cyc us

/-- CONV (R129–R131) and DWCONV (R133). -/
def convBody (depth : Bool) (c : Cmdr) (s : State) : Eff :=
  let d := c.a.desc
  let g := convGeom d
  let C := fld d 0x24 2
  let OC := fld d 0x26 2
  let groups := fld d 0x36 2
  let fa := fld d 0x30 1 % 16
  let fb := fld d 0x30 1 / 16
  let sc := fld d 0x34 1
  let epi := bits (fld d 0x32 1) 3 2
  let R := C / groups * g.kh * g.kw
  let A := fld d 0x38 4
  let wAt := A + (if bit sc 0 then alignUp (cdiv C 32 * g.H * g.W) 64 else 0)
  let oAt := wAt + (if bit sc 1 then alignUp (OC * cdiv R 32) 64 else 0)
  let us := b2n g.centreOnly
  let cyc := if depth then 48 + cdiv (g.Ho * g.Wo * C * g.kh * g.kw) (if fa = 0 || fb = 0 || fld d 0x31 1 % 16 = 0 then 64 else 128)
             else convCycles fa fb C OC groups g
  let (r, m) := readMap { s := s } c (fld d 0x10 4) (fld d 0x33 1 % 16) fa C g.H g.W (if bit sc 0 then some A else none)
  let (r, wb) := readLocal r c (fld d 0x14 4) (groups * groupBytes fa fb R (OC / groups))
  let (r, ws) := readScales r c (bit sc 1) wAt (OC * cdiv R 32)
  let (r, ep) := if epi = 0 then (r, []) else readTensor r c (fld d 0x1C 4) 0 (epiWords epi OC)
  if !r.ok then { effFail r.s cyc with unitStatus := us }
  else
    let cols := weightCols fa fb groups OC R wb ws
    let o : ConvOut := if depth then { accs := convDepth m g fb cols }
      else convArrays m g fb groups OC (bit sc 0 || bit sc 1) cols
    match (if depth then []
           else abftFaults (reportedFault (accClass fa fb (bit sc 0 || bit sc 1)) (passRows fa fb) o.inexact) c.ph.faults o.fault) with
    | f :: fs => { effAbft r.s c (f :: fs) cyc with unitStatus := us }
    | [] => convFinish r c g epi ep o.accs { inexact := !o.inexact.isEmpty } (if bit sc 2 then some oAt else none) cyc us

/-- POOL (R133). -/
def poolBody (c : Cmdr) (s : State) : Eff :=
  let d := c.a.desc
  let g := convGeom d
  let C := fld d 0x24 2
  let fa := fld d 0x30 1 % 16
  let sc := fld d 0x34 1
  let A := fld d 0x38 4
  let cyc := 48 + cdiv (g.Ho * g.Wo * C * g.kh * g.kw) (if fa = 0 || fld d 0x31 1 % 16 = 0 then 64 else 128)
  let (r, m) := readMap { s := s } c (fld d 0x10 4) (fld d 0x33 1 % 16) fa C g.H g.W (if bit sc 0 then some A else none)
  if !r.ok then { effFail r.s cyc with unitStatus := b2n g.centreOnly }
  else
    let oAt := A + (if bit sc 0 then alignUp (cdiv C 32 * g.H * g.W) 64 else 0)
    convFinish r c g 0 [] (poolMap m g (bits (fld d 0x32 1) 3 2 = 1)) {} (if bit sc 2 then some oAt else none) cyc (b2n g.centreOnly)

/-- An element that keeps its format: a NaN becomes the format's own (R79), every other element stays as it is. -/
def sameElem (f raw : Nat) : Nat := match decodeNum f raw with | .nan => nanRaw f | _ => raw

/-- Is an element NaN or infinity (Table 4.5)? -/
def isSpecial (f raw : Nat) : Bool := match decodeNum f raw with | .fin _ _ _ => false | _ => true

/-- LAYOUT (R125, R127). -/
def layoutBody (c : Cmdr) (s : State) : Eff :=
  let d := c.a.desc
  let (W, H, C) := layoutGeom d
  let src := fld d 0x20 1 % 16
  let dst := fld d 0x20 1 / 16
  let f0 := fld d 0x21 1 % 16
  let m := fld d 0x22 1
  let fd := m % 16
  let sc := fld d 0x23 1
  let mxIn := bit sc 0 && src = 1
  let mxOut := bit sc 2 && dst = 1
  let E := match dst with | 0 => alignUp C 16 * H * W | 1 => alignUp C 32 * H * W | _ => C * H * W
  let cyc := 48 + cdiv E (if f0 = 0 || fd = 0 then 32 else 64)
  let (r, mp) := readMap { s := s } c (fld d 0x10 4) src f0 C H W (if mxIn then some (fld d 0x2C 4) else none)
  if !r.ok then effFail r.s cyc
  else if f0 = fd && !mxIn && !mxOut then
    let fl : Flags := { nan := mp.raw.any (isSpecial f0) }
    effLocalWith r.s c [] (fld d 0x18 4) (bytesOfMap dst fd C H W (fun ch y x => sameElem fd (mp.at ch y x))) fl.byte cyc 0
  else
    let vals := (List.range H).flatMap (fun y => (List.range W).map (fun x => (List.range C).map (fun ch => mp.num ch y x)))
    let (el, so, fl) := encodeMap fd mxOut (elemMode (bits m 5 4) (bits m 6 6) (fld d 0x3C 4) c.a.frame) C 0 vals
    effLocalWith r.s c (if mxOut then [(fld d 0x34 4, so.map (BitVec.ofNat 8))] else []) (fld d 0x18 4) (mapOut dst fd C H W el) fl.byte cyc 0

/-! ## CONV_FUSED (R135–R137, R460) -/

/-- A fused chain as far as it has run. -/
structure Fused where
  r : Rd
  /-- Extents and channels of the tensor the next layer reads, its address and the bytes written there (none: it is the input). -/
  H : Nat
  W : Nat
  C : Nat
  src : Nat
  bytes : List Byte := []
  writes : List (Nat × List Byte) := []
  flags : Flags := {}
  inexact : List BlockAt := []
  fault : Option ArrayFault := none
  us : Nat := 0
  cycles : Nat := 0

/-- The geometry of fused layer `l` over an input of `H × W`. -/
def fusedGeom (d l : List Byte) (H W : Nat) : Geom :=
  let (pt, pb, pl, pr) := fusedPad d l
  let kh := fld l 0xC 1 / 16 + 1
  let kw := fld l 0xC 1 % 16 + 1
  let sh := fld l 0xD 1 / 16 + 1
  let sw := fld l 0xD 1 % 16 + 1
  { H := H, W := W, kh := kh, kw := kw, sh := sh, sw := sw, dh := fld l 0xE 1, dw := fld l 0xF 1, pt := pt, pl := pl,
    mode := bits (fld l 0x12 1) 1 0, Ho := convExtent H pt pb kh (fld l 0xE 1) sh, Wo := convExtent W pl pr kw (fld l 0xF 1) sw }

/-- The map a fused layer reads, in the format its own record names (R137, R460): what the layer before it wrote, and beyond that what the
buffer holds. -/
def fusedInput (c : Cmdr) (lay fa : Nat) (x : Fused) : Rd × FMap :=
  let n := mapReadBytes lay fa x.C x.H x.W x.C
  let (r, rest) := readLocal x.r c (x.src + x.bytes.length) (n - x.bytes.length)
  (r, mapOfBytes lay fa x.C x.H x.W x.C (x.bytes ++ rest) [])

/-- One fused layer: layer `i` (from 0) of `L`. -/
def fusedLayer (c : Cmdr) (L i : Nat) (x : Fused) : Fused :=
  let d := c.a.desc
  let l := layerAt c.img d i
  let lay := fld d 0x28 1
  let g := fusedGeom d l x.H x.W
  let OC := fld l 8 2
  let groups := fld l 0xA 2
  let fa := fld l 0x10 1 % 16
  let fb := fld l 0x10 1 / 16
  let fc := fld l 0x11 1 % 16
  let mode := fld l 0x12 1
  let epi := bits mode 3 2
  let R := x.C / groups * g.kh * g.kw
  let (r, m) := fusedInput c lay fa x
  let (r, wb) := readLocal r c (fld l 0 4) (groups * groupBytes fa fb R (OC / groups))
  let (r, ep) := if epi = 0 then (r, []) else readTensor r c (fld l 4 4) 0 (epiWords epi OC)
  let o := convArrays m g fb groups OC false (weightCols fa fb groups OC R wb [])
  let (el, _, fl) := encodeMap fc false (elemMode (bits mode 5 4) (bits mode 6 6) (fld d 0x2C 4) c.a.frame) OC 0 (o.accs.map (epiRow epi (epiTables epi OC ep)))
  let at' := if i + 1 = L then fld d 0x18 4 else if i % 2 = 0 then fld d 0x14 4 else fld d 0x10 4
  let bs := mapOut lay fc OC g.Ho g.Wo el
  { r := r, H := g.Ho, W := g.Wo, C := OC, src := at', bytes := bs, writes := x.writes ++ [(at', bs)],
    flags := (x.flags.or fl).or { inexact := !o.inexact.isEmpty },
    inexact := x.inexact ++ o.inexact.map (fun b => { b with layer := i }),
    fault := match x.fault with | some f => some f | none => o.fault.map (fun f => { f with layer := i }),
    us := x.us + b2n g.centreOnly * 2 ^ i,
    cycles := x.cycles + convCycles fa fb x.C OC groups g }

/-- CONV_FUSED. The intermediate maps pass through buffers B and A in turn (R136). -/
def fusedBody (c : Cmdr) (s : State) : Eff :=
  let d := c.a.desc
  let L := fld d 0x26 1
  let x := (List.range L).foldl (fun x i => fusedLayer c L i x)
    { r := { s := s }, H := fld d 0x20 2, W := fld d 0x22 2, C := fld d 0x24 2, src := fld d 0x10 4 }
  let fmts (f : ArrayFault) : Nat := fld (layerAt c.img d f.layer) 0x10 1
  let report (f : ArrayFault) : ArrayFault :=
    reportedFault (accClass (fmts f % 16) (fmts f / 16) false) (passRows (fmts f % 16) (fmts f / 16)) x.inexact f
  if !x.r.ok then { effFail x.r.s x.cycles with unitStatus := x.us }
  else match abftFaults report c.ph.faults x.fault with
    | f :: fs => { effAbft x.r.s c (f :: fs) x.cycles with unitStatus := x.us }
    | [] =>
      match x.writes.getLast? with
      | some w => effLocalWith x.r.s c x.writes.dropLast w.1 w.2 x.flags.byte x.cycles x.us
      | none => { s := x.r.s, cycles := x.cycles }

/-! ## The commands -/

/-- CONV (R129). -/
def execConv (u ctx : Nat) (ph : Phys) (s : State) : Out := done s (issueWith 0x30 (convBody false) u ctx ph s)
/-- CONV_FUSED (R136). -/
def execConvFused (u ctx : Nat) (ph : Phys) (s : State) : Out := done s (issueWith 0x31 fusedBody u ctx ph s)
/-- DWCONV (R133). -/
def execDwconv (u ctx : Nat) (ph : Phys) (s : State) : Out := done s (issueWith 0x32 (convBody true) u ctx ph s)
/-- POOL (R133). -/
def execPool (u ctx : Nat) (ph : Phys) (s : State) : Out := done s (issueWith 0x33 poolBody u ctx ph s)
/-- LAYOUT (R127). -/
def execLayout (u ctx : Nat) (ph : Phys) (s : State) : Out := done s (issueWith 0x34 layoutBody u ctx ph s)

end Sys2Proof.Machine
end

