-- ==== Sys2Proof/Machine/NleOps.lean ====
section
/-!
DEFINITION. The narrow-layer engine of each Quarter: NLE_CONV_IN, NLE_CONV_OUT, NLE_CROP, NLE_POOL and NLE_RESAMPLE
(R138–R143).
-/

namespace Sys2Proof.Machine

/-- Mark the NLE busy with a command (NLE_STATUS). -/
def nleStart (c : Cmdr) (s : State) : State :=
  modNle s (rQ c.u) (fun n => { n with busy := true, ctx := c.ctx % 8, cmd := c.a.idx, opcode := dOp c.a.desc })

/-- Count a command's cycles (NLE_BUSY_CYCLES). -/
def nleBusy (c : Cmdr) (cyc : Nat) (s : State) : State :=
  modNle s (rQ c.u) (fun n => { n with busyCycles := sat 0xFFFFFFFF (n.busyCycles + cyc + c.ph.stall) })

/-- A datapath mismatch of an engine: the event to Vigil A, the Almanac error record and the health event (R138, R235, R251). -/
def engineMismatch (s : State) (c : Cmdr) (kind : VgKind) (code : AlmCode) : State :=
  let s := cmdEvent s kind c.u c.ctx c.a 2 .plain
  let s := alm s (srcOf c.u) code 3 [c.u, c.ctx, c.a.idx, c.a.frame]
  healthEvent s 4 c.u 0 c.a c.ctx

/-- End an NLE command: abandoned on a mismatch (R138), else its output is written and announced (R140). -/
def nleEnd (c : Cmdr) (r : Rd) (bs : List Byte) (fl : Flags) (cyc us : Nat) : Eff :=
  let s := nleBusy c cyc r.s
  if !r.ok then effFail s cyc
  else if c.ph.mismatch then
    let s := modNle s (rQ c.u) (fun n => { n with dup := sat 255 (n.dup + 1) })
    { s := engineMismatch s c .nle .nleFault, status := some .abftFail, cycles := cyc }
  else
    let d := c.a.desc
    let (s, os, ok) := putOutput s c (fld d 0x18 6) ((fld d 0x36 2 + c.a.frame) % 65536) bs
    if ok then { s := s, outs := os, arith := fl.byte, unitStatus := us, cycles := cyc }
    else { s := s, status := some .checkFail, cycles := cyc }

/-- HWC pixel stride in elements (Table 6.6). -/
def nleStride (d : List Byte) : Nat := 2 ^ bits (fld d 0x35 1) 1 0

/-- Read the input map of an NLE command. -/
def nleInput (c : Cmdr) (s : State) : Rd × FMap :=
  let d := c.a.desc
  let f := fld d 0x33 1 % 16
  let lay := bits (fld d 0x35 1) 3 2
  let C := fld d 0x2C 2
  let H := fld d 0x28 2
  let W := fld d 0x2A 2
  let st := if lay = 2 then nleStride d else C
  let (r, bs) := readInput { s := s } c (fld d 0x36 2) (fld d 0x10 6) (mapReadBytes lay f C H W st)
  (r, mapOfBytes lay f C H W st bs [])

/-- The rounding of an NLE output. -/
def nleMode (c : Cmdr) : Nat → RMode :=
  elemMode (bits (fld c.a.desc 0x34 1) 5 4) (bits (fld c.a.desc 0x34 1) 6 6) (fld c.a.desc 0x3C 4) c.a.frame

/-- Encode a map of values (by position, then channel) as the NLE's output, or as the part of it that begins with element `n0`. -/
def nleEncode (c : Cmdr) (C H W n0 : Nat) (vals : List (List Num)) : List Byte × Flags :=
  let d := c.a.desc
  let f := fld d 0x34 1 % 16
  let (el, _, fl) := encodeMap f false (nleMode c) C n0 vals
  (mapOut (bits (fld d 0x35 1) 5 4) f C H W el, fl)

/-- The geometry of an NLE convolution or pooling. -/
def nleGeom (d : List Byte) : Geom :=
  let (ho, wo) := nleOut d
  { H := fld d 0x28 2, W := fld d 0x2A 2, kh := fld d 0x30 1 / 16 + 1, kw := fld d 0x30 1 % 16 + 1, sh := fld d 0x31 1 / 16 + 1,
    sw := fld d 0x31 1 % 16 + 1, dh := 1, dw := 1, pt := fld d 0x32 1 / 16, pl := fld d 0x32 1 % 16, mode := bits (fld d 0x35 1) 7 6,
    Ho := ho, Wo := wo }

/-- NLE_CONV_IN and NLE_CONV_OUT (R141). The weights at AUX_ADDR run output channel by output channel, tap-major and then by
input channel, as one tensor; the FP32 biases follow it (log 17). -/
def nleConvBody (c : Cmdr) (s : State) : Eff :=
  let d := c.a.desc
  let s := nleStart c s
  let g := nleGeom d
  let C := fld d 0x2C 2
  let OC := fld d 0x2E 2
  let fa := fld d 0x33 1 % 16
  let fb := fld d 0x33 1 / 16
  let K := g.kh * g.kw * C
  let wn := fmtBytes fb (OC * K)
  let rate := if fmtBits fa = 8 && fmtBits fb = 8 then 2048 else 512
  let cyc := 64 + (if dOp d = 0x38
    then cdiv (g.Ho * g.Wo * alignUp OC 16 * g.kh * g.kw * (if bits (fld d 0x35 1) 3 2 = 2 then nleStride d else 1)) rate
    else cdiv (g.Ho * g.Wo * 8 * g.kh * g.kw * alignUp C (if bits (fld d 0x35 1) 3 2 = 0 then 16 else 32)) rate)
  let (r, m) := nleInput c s
  let (r, ab) := readInput r c (fld d 0x36 2) (fld d 0x20 6) (wn + 4 * OC)
  let ws := unpackBits (fmtBits fb) (OC * K) (ab.take wn)
  let bias := (unpackBits 32 OC (ab.drop wn)).map ofFp32
  let cols := (chunks K (ws.length + 1) ws).map (fun w => redVec fb w [])
  let cls := accClass fa fb false
  let run := g.taps.map (g.tapRuns g.outs)
  let epi := if bit (fld d 0x34 1) 7 then 2 else 1
  let e5 := fa = 4 || fb = 4
  let sums := g.outs.map (fun o =>
    let row := convRow m g run 0 C o
    cols.map (fun w => dotVec cls e5 row (maskTaps run C w)))
  let (bs, fl) := nleEncode c OC g.Ho g.Wo 0 (sums.map (fun x => epiRow epi ([], bias) (x.map (·.1))))
  nleEnd c r bs (fl.or { inexact := sums.any (fun x => x.any (fun y => !y.2.isEmpty)) }) cyc 0

/-- NLE_POOL (R133, R141). -/
def nlePoolBody (c : Cmdr) (s : State) : Eff :=
  let d := c.a.desc
  let s := nleStart c s
  let C := fld d 0x2C 2
  let (r, m) := nleInput c s
  if fld d 0x30 1 = 0xFF then
    let n := m.H * m.W
    let inv := rnd32 (Num.one.div (Num.ofNat n))
    let vals := [(List.range C).map (fun ch =>
      mul32 (((List.range m.H).flatMap (fun y => (List.range m.W).map (fun x => m.num ch y x))).foldl add32 Num.zero) inv)]
    let (bs, fl) := nleEncode c C 1 1 0 vals
    nleEnd c r bs fl (64 + cdiv (n * C) 256) 0
  else
    let g := nleGeom d
    let (bs, fl) := nleEncode c C g.Ho g.Wo 0 (poolMap m g (bit (fld d 0x34 1) 7))
    nleEnd c r bs fl (64 + cdiv (g.Ho * g.Wo * C * g.kh * g.kw) 256) 0

/-- The value between four pixels at a position in 1/256 pixel, neighbours beyond an edge taking the edge pixel; exact, rounded
once by the output (R142, log 18). A neighbour of weight zero is multiplied too, as R79 has infinity and NaN times zero. -/
def bilinear (m : FMap) (ch : Nat) (y x : Int) : Num :=
  let cl (v : Int) (n : Nat) : Nat := if v < 0 then 0 else if v ≥ n then n - 1 else v.toNat
  let y0 := y / 256
  let x0 := x / 256
  let fy := (y % 256).toNat
  let fx := (x % 256).toNat
  let p (dy dx : Int) : Num := m.num ch (cl (y0 + dy) m.H) (cl (x0 + dx) m.W)
  let w (a : Num) (k : Nat) : Num := (a.mul (Num.ofNat k)).scale (-16)
  (((w (p 0 0) ((256 - fy) * (256 - fx))).add (w (p 0 1) ((256 - fy) * fx))).add (w (p 1 0) (fy * (256 - fx)))).add (w (p 1 1) (fy * fx))

/-- ReLU where FMT_OUT asks for it. -/
def nleRelu (d : List Byte) (x : Num) : Num := if bit (fld d 0x34 1) 7 then relu x else x

/-- NLE_RESAMPLE: 2× up-sampling, nearest or bilinear (R141). -/
def nleResampleBody (c : Cmdr) (s : State) : Eff :=
  let d := c.a.desc
  let s := nleStart c s
  let (r, m) := nleInput c s
  let at2 (o : Nat) : Int := (o * 128 : Nat) - 64
  let vals := (List.range (2 * m.H)).flatMap (fun y => (List.range (2 * m.W)).map (fun x => (List.range m.C).map (fun ch =>
    nleRelu d (if fld d 0x30 1 = 0 then m.num ch (y / 2) (x / 2) else bilinear m ch (at2 y) (at2 x)))))
  let (bs, fl) := nleEncode c m.C (2 * m.H) (2 * m.W) 0 vals
  nleEnd c r bs fl (64 + cdiv (4 * m.H * m.W * m.C) 256) 0

/-- One box of the list: X0, Y0, X1, Y1. -/
structure Box where
  x0 : Int
  y0 : Int
  x1 : Int
  y1 : Int
deriving DecidableEq, Repr

/-- A box clipped to the input (R142). -/
def Box.clip (b : Box) (H W : Nat) : Box :=
  let cl (v : Int) (n : Nat) : Int := if v < 0 then 0 else if v > 256 * n then 256 * n else v
  { x0 := cl b.x0 W, y0 := cl b.y0 H, x1 := cl b.x1 W, y1 := cl b.y1 H }

/-- An empty box. -/
def Box.empty (b : Box) : Bool := b.x1 ≤ b.x0 || b.y1 ≤ b.y0

/-- The sample position of cell `j` of `S` between two edges, to the nearest 1/256 pixel, ties upward (R142). -/
def cropPos (lo hi : Int) (S j : Nat) : Int := lo - 128 + ((2 * j + 1 : Nat) * (hi - lo) + S) / (2 * S : Nat)

/-- NLE_CROP (R142, R143). -/
def nleCropBody (c : Cmdr) (s : State) : Eff :=
  let d := c.a.desc
  let s := nleStart c s
  let (r, m) := nleInput c s
  let S := cropSize (fld d 0x30 1)
  let maxB := fld d 0x2E 2
  let aux := fld d 0x20 6
  let (r, hd) := readInput r c (fld d 0x36 2) aux 16
  let count := fld hd 0 4
  let n := min count maxB
  let (r, bl) := readInput r c (fld d 0x36 2) (aux + 16) (16 * n)
  let boxes : List Box := (List.range n).map (fun i =>
    { x0 := sext 32 (fld bl (16 * i) 4), y0 := sext 32 (fld bl (16 * i + 4) 4), x1 := sext 32 (fld bl (16 * i + 8) 4),
      y1 := sext 32 (fld bl (16 * i + 12) 4) })
  let clipped := boxes.map (fun b => b.clip m.H m.W)
  let nClip := ((List.zip boxes clipped).filter (fun p => p.1 ≠ p.2)).length
  let nEmpty := (clipped.filter Box.empty).length
  let outs := (clipped.zipIdx).map (fun p =>
    let b := p.1
    if b.empty then (List.replicate (mapBytes (bits (fld d 0x35 1) 5 4) (fld d 0x34 1 % 16) m.C S S) (0 : Byte), ({} : Flags))
    else nleEncode c m.C S S (p.2 * (S * S * m.C)) ((List.range S).flatMap (fun i => (List.range S).map (fun j => (List.range m.C).map (fun ch =>
      nleRelu d (bilinear m ch (cropPos b.y0 b.y1 S i) (cropPos b.x0 b.x1 S j)))))))
  let fl : Flags := outs.foldl (fun (a : Flags) o => a.or o.2) {}
  let bs := padTo (nleBytes d) (outs.flatMap (·.1))
  let cyc := 48 + (n - nEmpty) * (S * S * cdiv m.C 32 + 24) + 4 * (nEmpty + (maxB - n))
  let e := nleEnd c r bs fl cyc ((nClip % 65536) * 65536 + nEmpty % 65536)
  if e.status.isSome then e
  else
    let s := modNle e.s (rQ c.u) (fun x => { x with clipped := sat 0xFFF (x.clipped + nClip), empty := sat 0xFFF (x.empty + nEmpty) })
    { e with s := if count > maxB then alm s (srcOf c.u) .boxClip 2 [count, c.ctx, c.a.idx, c.a.frame] else s }

/-- NLE_CONV_IN (R141). -/
def execNleConvIn (u ctx : Nat) (ph : Phys) (s : State) : Out := done s (issueWith 0x38 nleConvBody u ctx ph s)
/-- NLE_CONV_OUT (R141). -/
def execNleConvOut (u ctx : Nat) (ph : Phys) (s : State) : Out := done s (issueWith 0x39 nleConvBody u ctx ph s)
/-- NLE_CROP (R142). -/
def execNleCrop (u ctx : Nat) (ph : Phys) (s : State) : Out := done s (issueWith 0x3A nleCropBody u ctx ph s)
/-- NLE_POOL (R141). -/
def execNlePool (u ctx : Nat) (ph : Phys) (s : State) : Out := done s (issueWith 0x3B nlePoolBody u ctx ph s)
/-- NLE_RESAMPLE (R141). -/
def execNleResample (u ctx : Nat) (ph : Phys) (s : State) : Out := done s (issueWith 0x3C nleResampleBody u ctx ph s)

end Sys2Proof.Machine
end

