-- ==== Sys2Proof/Machine/Desc.lean ====
section
/-!
DEFINITION. What a command descriptor names and what Xiuth checks of it at admission (R59, R76–R92, R110, R114–R118, R124–R132, R141,
R142, R151, R231, R232, R234, R249, R250, R460): operand ranges in cluster SRAM, ranges by logical address, and field ranges.
-/

namespace Sys2Proof.Machine

/-! ## Reason codes (Table 2.5) -/

/-- FORMAT. -/
def rsFormat : Nat := 0x09
/-- PARTITION. -/
def rsPartition : Nat := 0x0C
/-- VARIANT_CLUSTER. -/
def rsVariant : Nat := 0x0D
/-- CONTEXT_LIMIT. -/
def rsContext : Nat := 0x0E
/-- REVISION_FEATURE. -/
def rsFeature : Nat := 0x0F
/-- DILATION_EXTENT. -/
def rsDilation : Nat := 0x10

/-- The reason of the first check of a list that fails, 0 where none does. -/
def firstBad : List (Bool × Nat) → Nat
  | [] => 0
  | (ok, c) :: r => if ok then firstBad r else c

/-- A list of checks. -/
def checks (l : List (Bool × Nat)) : List (Bool × Nat) := l

/-- The first of two reasons, in order. -/
def orReason (a b : Nat) : Nat := if a = 0 then b else a

/-! ## Operand ranges in cluster SRAM -/

/-- A range of bytes and the alignment its address must have. -/
structure Span where
  addr : Nat
  size : Nat
  align : Nat := 64
deriving DecidableEq, Repr

/-- Bytes of the pre-blocked weights of a matrix or convolution: `N` columns of `R` lanes (Tables 5.2, 5.7). -/
def weightBytes (fa fb R N : Nat) : Nat := cdiv N 16 * (cdiv R (kLanes fa fb) * kLanes fa fb) * fmtBytes fb 16

/-- Bytes of an epilogue's table for `N` columns (Table 5.7). -/
def epiBytes (kind N : Nat) : Nat := 4 * epiWords kind N

/-- The operands of a matrix command (Table 5.7, R115). -/
def matSpans (d : List Byte) : List Span :=
  let op := dOp d
  let (Mo, No, R) := matDims op d
  let M := fld d 0x20 2
  let fa := fld d 0x2C 1 % 16
  let fb := fld d 0x2C 1 / 16
  let sc := fld d 0x2F 1
  let row := if op = 0x12 then fld d 0x24 4 else R
  [{ addr := fld d 0x10 4, size := (M - 1) * (fld d 0x28 2 * 64) + fmtBytes fa row },
   { addr := fld d 0x14 4, size := weightBytes fa fb R No },
   { addr := fld d 0x18 4, size := ((outRegion [] d).getD (0, 0)).2 },
   { addr := fld d 0x1C 4, size := epiBytes (bits (fld d 0x2E 1) 3 2) No },
   { addr := fld d 0x30 4, size := if bit sc 0 then Mo * cdiv R 32 else 0 },
   { addr := fld d 0x34 4, size := if bit sc 1 then No * cdiv R 32 else 0 },
   { addr := fld d 0x38 4, size := if bit sc 2 then Mo * cdiv No 32 else 0 }]

/-- Does an elementwise command take two operands? -/
def elemBinary (d : List Byte) : Bool := dOp d = 0x22 || (dOp d = 0x20 && vecBinary (fld d 0x20 1))

/-- Results of an elementwise command. -/
def elemOutCount (d : List Byte) : Nat :=
  if dOp d = 0x20 && vecReduces (fld d 0x20 1) then fld d 0x1C 4 / fld d 0x38 4 else fld d 0x1C 4

/-- The operands of an elementwise command (Table 5.8). -/
def elemSpans (d : List Byte) : List Span :=
  let opt := dOp d = 0x22
  let n := fld d 0x1C 4
  let m := elemOutCount d
  let sc := fld d 0x23 1
  let fd := fld d 0x22 1 % 16
  [{ addr := fld d 0x10 4, size := fmtBytes (fld d 0x21 1 % 16) n },
   { addr := fld d 0x14 4, size := if opt then 4 * n else if elemBinary d then fmtBytes (fld d 0x21 1 / 16) n else 0 },
   { addr := fld d 0x18 4, size := if opt then 4 * n else fmtBytes fd m },
   { addr := fld d 0x2C 4, size := if bit sc 0 then cdiv n 32 else 0 },
   { addr := fld d 0x30 4, size := if bit sc 1 && elemBinary d && !opt then cdiv n 32 else 0 },
   { addr := fld d 0x34 4, size := if opt then (if fld d 0x34 4 = 0 then 0 else fmtBytes fd n) else if bit sc 2 then cdiv m 32 else 0 }]

/-- The operands of a LAYOUT (R127). -/
def layoutSpans (d : List Byte) : List Span :=
  let (W, H, C) := layoutGeom d
  let sc := fld d 0x23 1
  [{ addr := fld d 0x10 4, size := mapBytes (fld d 0x20 1 % 16) (fld d 0x21 1 % 16) C H W },
   { addr := fld d 0x18 4, size := mapBytes (fld d 0x20 1 / 16) (fld d 0x22 1 % 16) C H W },
   { addr := fld d 0x2C 4, size := if bit sc 0 then cdiv C 32 * H * W else 0 },
   { addr := fld d 0x34 4, size := if bit sc 2 then cdiv C 32 * H * W else 0 }]

/-- The operands of CONV, DWCONV and POOL (Table 6.3). -/
def convSpans (d : List Byte) : List Span :=
  let (ho, wo) := convOut d
  let H := fld d 0x20 2
  let W := fld d 0x22 2
  let C := fld d 0x24 2
  let OC := fld d 0x26 2
  let g := fld d 0x36 2
  let fa := fld d 0x30 1 % 16
  let fb := fld d 0x30 1 / 16
  let sc := fld d 0x34 1
  let R := C / g * (fld d 0x28 1 / 16 + 1) * (fld d 0x28 1 % 16 + 1)
  let pool := dOp d = 0x33
  let a := if bit sc 0 then alignUp (cdiv C 32 * H * W) 64 else 0
  let b := if bit sc 1 && !pool then alignUp (OC * cdiv R 32) 64 else 0
  let o := if bit sc 2 then cdiv OC 32 * ho * wo else 0
  [{ addr := fld d 0x10 4, size := mapBytes (fld d 0x33 1 % 16) fa C H W },
   { addr := fld d 0x14 4, size := if pool then 0 else g * weightBytes fa fb R (OC / g) },
   { addr := fld d 0x18 4, size := mapBytes (fld d 0x33 1 / 16) (fld d 0x31 1 % 16) OC ho wo },
   { addr := fld d 0x1C 4, size := if pool then 0 else epiBytes (bits (fld d 0x32 1) 3 2) OC },
   { addr := fld d 0x38 4, size := a + b + o }]

/-- Sizes of the tensors 0 to L of a fused chain (R122, R136): each in the wider of the format its layer writes and the one the next layer's
record names for it (the rule has one size; DEDUCED, log 46). -/
def fusedSizes (img d : List Byte) : List Nat :=
  let lay := fld d 0x28 1
  let reads (i : Nat) (x : Nat × Nat × Nat) : Nat :=
    if i < fld d 0x26 1 then mapBytes lay (fld (layerAt img d i) 0x10 1 % 16) x.2.2 x.1 x.2.1 else 0
  reads 0 (fld d 0x20 2, fld d 0x22 2, fld d 0x24 2) ::
    ((fusedShapes img d).zipIdx).map (fun p =>
      max (mapBytes lay p.1.2.2.2 p.1.2.2.1 p.1.1 p.1.2.1) (reads (p.2 + 1) (p.1.1, p.1.2.1, p.1.2.2.1)))

/-- The largest of the sizes at even or at odd places. -/
def maxAt (odd : Bool) (xs : List Nat) : Nat :=
  (xs.zipIdx).foldl (fun m p => if (p.2 % 2 = 1) = odd then max m p.1 else m) 0

/-- The buffers of a fused chain: A, B, and OUT where it is neither the buffer the last layer does not read (R136). -/
def fusedBufs (img d : List Byte) : List Span :=
  let xs := fusedSizes img d
  let L := fld d 0x26 1
  let free := if L % 2 = 1 then fld d 0x14 4 else fld d 0x10 4
  [{ addr := fld d 0x10 4, size := maxAt false xs }, { addr := fld d 0x14 4, size := maxAt true xs }] ++
    (if fld d 0x18 4 = free then [] else [{ addr := fld d 0x18 4, size := xs.getLastD 0 }])

/-- Input channels of fused layer `i`. -/
def fusedInC (img d : List Byte) (i : Nat) : Nat := if i = 0 then fld d 0x24 2 else fld (layerAt img d (i - 1)) 8 2

/-- Reduction length of fused layer `i`. -/
def fusedRed (img d : List Byte) (i : Nat) : Nat :=
  let l := layerAt img d i
  fusedInC img d i / fld l 0xA 2 * (fld l 0xC 1 / 16 + 1) * (fld l 0xC 1 % 16 + 1)

/-- The weights and biases of a fused chain. -/
def fusedWeights (img d : List Byte) : List Span :=
  (List.range (fld d 0x26 1)).flatMap (fun i =>
    let l := layerAt img d i
    [{ addr := fld l 0 4, size := fld l 0xA 2 * weightBytes (fld l 0x10 1 % 16) (fld l 0x10 1 / 16) (fusedRed img d i) (fld l 8 2 / fld l 0xA 2) },
     { addr := fld l 4 4, size := epiBytes (bits (fld l 0x12 1) 3 2) (fld l 8 2) }])

/-- The ranges of cluster SRAM that a command's descriptor names (R110). -/
def localSpans (img d : List Byte) : List Span :=
  let xs : List Span := match dOp d with
   | 0x01 | 0x02 => [{ addr := fld d 0x18 4, size := fld d 0x1D 1 * 2 ^ fld d 0x1C 1, align := 2 ^ fld d 0x1C 1 }]
   | 0x10 | 0x11 | 0x12 => matSpans d
   | 0x20 | 0x21 | 0x22 => elemSpans d
   | 0x30 | 0x32 | 0x33 => convSpans d
   | 0x31 => fusedBufs img d ++ fusedWeights img d
   | 0x34 => layoutSpans d
   | 0x40 | 0x41 | 0x42 => [{ addr := fld d 0x10 4, size := 32 * fld d 0x18 1 }, { addr := fld d 0x14 4, size := 16 * fld d 0x18 1 }]
   | _ => []
  xs.filter (fun x => x.size ≠ 0)

/-! ## Ranges by logical address -/

/-- Bytes of weights and biases, or of the box list, that an NLE command reads at AUX_ADDR. -/
def nleAuxBytes (d : List Byte) : Nat :=
  let K := (fld d 0x30 1 / 16 + 1) * (fld d 0x30 1 % 16 + 1) * fld d 0x2C 2
  match dOp d with
  | 0x38 | 0x39 => fmtBytes (fld d 0x33 1 / 16) (fld d 0x2E 2 * K) + 4 * fld d 0x2E 2
  | 0x3A => 16 + 16 * fld d 0x2E 2
  | _ => 0

/-- Bytes an NLE command reads of its input map. -/
def nleInBytes (d : List Byte) : Nat :=
  let lay := bits (fld d 0x35 1) 3 2
  mapReadBytes lay (fld d 0x33 1 % 16) (fld d 0x2C 2) (fld d 0x28 2) (fld d 0x2A 2) (if lay = 2 then nleStride d else fld d 0x2C 2)

/-- What a command reads by logical address, as its descriptor says it. -/
def extReads (d : List Byte) : List Span :=
  let xs : List Span := match dOp d with
   | 0x01 =>
     let n := fld d 0x1D 1 * 2 ^ fld d 0x1C 1
     [{ addr := fld d 0x10 6, size := n, align := 2 ^ fld d 0x1C 1 }] ++
       (if fld d 0x28 6 = 0 then [] else [{ addr := fld d 0x28 6, size := n, align := 2 ^ fld d 0x1C 1 }])
   | 0x38 | 0x39 | 0x3A | 0x3B | 0x3C =>
     [{ addr := fld d 0x10 6, size := nleInBytes d, align := 1 }, { addr := fld d 0x20 6, size := nleAuxBytes d, align := 1 }]
   | 0x60 => [{ addr := fld d 0x10 6, size := 64 + 16 * fld d 0x28 4, align := 1 }]
   | 0x61 => [{ addr := fld d 0x10 6, size := 8 * fld d 7 1, align := 1 }]
   | 0x70 => [{ addr := fld d 0x10 6, size := 65536 + 1048576 + 524288, align := 1 }] ++
       (if fld d 0x18 6 = 0 then [] else [{ addr := fld d 0x18 6, size := 64, align := 1 }])
   | 0x71 => [{ addr := fld d 0x10 6, size := 64, align := 1 }]
   | 0x72 => [{ addr := fld d 0x10 6, size := 256, align := 1 }]
   | _ => []
  xs.filter (fun x => x.size ≠ 0)

/-- What a command writes by logical address. -/
def extWrites (d : List Byte) : List Span :=
  match dOp d with
  | 0x02 => [{ addr := fld d 0x10 6, size := fld d 0x1D 1 * 2 ^ fld d 0x1C 1, align := 2 ^ fld d 0x1C 1 }]
  | _ =>
    if onCluster (dOp d) then []
    else match outRegion [] d with
      | some (a, n) => if n = 0 then [] else [{ addr := a, size := n, align := 1 }]
      | none => []

/-- Is a logical range mapped, in memory the package has (R166, R271)? -/
def extOk (s : State) (x : Span) : Bool :=
  let q (a : Nat) : Option Nat :=
    match memLevel a with
    | some 3 => some (storeAt a).1
    | some 1 => some ((a - 0x100000000000) / 0x1000000)
    | some 0 => some ((a - 0x120000000000) / 0x200000 / 72)
    | _ => none
  let on (a : Nat) : Bool := match q a with | some q => bit s.ident.present q | none => true
  x.addr % x.align = 0 && x.size ≤ 0x800000000 && mapped x.addr x.size && on x.addr && on (x.addr + x.size - 1)

/-! ## Field ranges -/

/-- A format code of Table 4.1. -/
def fmtOk (f : Nat) : Bool := f ≤ 10

/-- The checks of one format: its code, its scale (R76, R80). -/
def fmtChecks (f : Nat) (scaled : Bool) : List (Bool × Nat) := [(fmtOk f, rsFormat), (!scaled || mayScale f, rsFormat)]

/-- FP6 E2M3 needs its FEATURES bit (R76). -/
def fmtFeature (img : List Byte) (fs : List Nat) : Bool × Nat := (!fs.contains 6 || bit (ph img 0x44 4) 0, rsFeature)

/-- The checks of an output mode: ROUND, and NANINF with an FP4 output or an FP6 output without a scale (R89, R92). -/
def outModeOk (f round : Nat) (nan scaled : Bool) : Bool :=
  round ≠ 3 && !(nan && (f = 7 || ((f = 5 || f = 6) && !scaled)))

/-- Is it an FP6 format? -/
def isFp6 (f : Nat) : Bool := f = 5 || f = 6

/-- The operand pairings of R82. -/
def pairOk (a b : Nat) : Bool :=
  (3 ≤ a && a ≤ 7 && 3 ≤ b && b ≤ 7) || ((a = 9 || a = 10) && (b = 9 || b = 10)) || (a = b && (a ≤ 2 || a = 8))

/-- LOAD and STORE (Table 5.9). -/
def moveChecks (d : List Byte) : List (Bool × Nat) :=
  checks [(fld d 0x16 2 = 0 && 8 ≤ fld d 0x1C 1 && fld d 0x1C 1 ≤ 16 && 1 ≤ fld d 0x1D 1 && fld d 0x1D 1 ≤ 64, rsFormat),
   (fld d 0x24 4 = 0 && fld d 0x30 16 = 0 && fld d 0x2E 2 = 0, rsFormat)]

/-- The matrix opcodes (Table 5.7, R78, R82, R88, R115, R116). -/
def matChecks (img d : List Byte) : List (Bool × Nat) :=
  let op := dOp d
  let (_, No, R) := matDims op d
  let K := fld d 0x24 4
  let fa := fld d 0x2C 1 % 16
  let fb := fld d 0x2C 1 / 16
  let fc := fld d 0x2D 1 % 16
  let mode := fld d 0x2E 1
  let sc := fld d 0x2F 1
  let row := if op = 0x12 then K else R
  checks [(1 ≤ fld d 0x20 2 && 1 ≤ fld d 0x22 2 && 1 ≤ K && K ≤ 1048575, rsFormat)] ++
  fmtChecks fa (bit sc 0) ++ fmtChecks fb (bit sc 1) ++ fmtChecks fc (bit sc 2) ++
  checks [(fld d 0x2D 1 < 16 && mode % 4 = 0 && sc < 8, rsFormat),
   (pairOk fa fb, rsFormat),
   (!isIntFmt fa || R ≤ 131071, rsFormat),
   (outModeOk fc (bits mode 5 4) (bit mode 6) (bit sc 2), rsFormat),
   (!bit mode 7 || (fc = 0 && bits mode 3 2 = 0), rsFormat),
   (op ≠ 0x12 || bit mode 7, rsFormat),
   (!(isFp6 fa && row % 4 ≠ 0) && !(isFp6 fc && No % 4 ≠ 0), rsFormat),
   (fmtBytes fa row ≤ fld d 0x28 2 * 64 && (op = 0x12 || fmtBytes fc No ≤ fld d 0x2A 2 * 64), rsFormat),
   fmtFeature img [fa, fb, fc]]

/-- VEC, SFU and OPT_STEP (Tables 5.4, 5.8). -/
def elemChecks (img d : List Byte) : List (Bool × Nat) :=
  let op := fld d 0x20 1
  let n := fld d 0x1C 4
  let rl := fld d 0x38 4
  let f0 := fld d 0x21 1 % 16
  let f1 := fld d 0x21 1 / 16
  let m := fld d 0x22 1
  let fd := m % 16
  let sc := fld d 0x23 1
  let two := elemBinary d
  checks [(op ≤ (match dOp d with | 0x20 => 10 | 0x21 => 6 | _ => 0), rsFormat)] ++
  fmtChecks f0 (bit sc 0) ++ fmtChecks f1 (bit sc 1) ++ fmtChecks fd (bit sc 2) ++
  checks [(m < 128 && sc < 8 && 1 ≤ n && n ≤ 16777215 && 1 ≤ rl && rl ≤ 65536 && n % rl = 0, rsFormat),
   (two || fld d 0x14 4 = 0, rsFormat),
   -- SRC1 and DST of OPT_STEP are FP32, which carries no scale; its working copy has none either (R80, R92)
   (dOp d ≠ 0x22 || sc < 2, rsFormat),
   (outModeOk fd (bits m 5 4) (bit m 6) (bit sc 2), rsFormat),
   (!(isFp6 f0 || (two && dOp d = 0x20 && isFp6 f1)) || n % 4 = 0, rsFormat),
   (!isFp6 fd || elemOutCount d % 4 = 0, rsFormat),
   fmtFeature img [f0, f1, fd]]

/-- LAYOUT (R124, R127). -/
def layoutChecks (img d : List Byte) : List (Bool × Nat) :=
  let W := fld d 0x38 2
  let H := fld d 0x3A 2
  let n := fld d 0x1C 4
  let lf := fld d 0x20 1 % 16
  let lt := fld d 0x20 1 / 16
  let f0 := fld d 0x21 1 % 16
  let m := fld d 0x22 1
  let fd := m % 16
  let sc := fld d 0x23 1
  checks [(lf ≤ 3 && lt ≤ 3 && m < 128 && sc < 8, rsFormat),
   (1 ≤ W && W ≤ 8192 && 1 ≤ H && H ≤ 8192 && 1 ≤ n && n ≤ 16777215 && n % (H * W) = 0 && n / (H * W) ≤ 4096, rsFormat)] ++
  fmtChecks f0 (bit sc 0) ++ fmtChecks (fld d 0x21 1 / 16) (bit sc 1) ++ fmtChecks fd (bit sc 2) ++
  checks [(fld d 0x14 4 = 0, rsFormat),
   ((!bit sc 0 || lf = 1) && (!bit sc 2 || lt = 1), rsFormat),
   (outModeOk fd (bits m 5 4) (bit m 6) (bit sc 2), rsFormat),
   (!(2 ≤ lf && isFp6 f0 && n % 4 ≠ 0) && !(2 ≤ lt && isFp6 fd && n % 4 ≠ 0), rsFormat),
   fmtFeature img [f0, fd]]

/-- The ranges of a kernel, stride and dilation (Table 6.3, R128). -/
def kernelOk (k st dh dw : Nat) : Bool :=
  k / 16 < 11 && k % 16 < 11 && st / 16 < 4 && st % 16 < 4 && 1 ≤ dh && dh ≤ 64 && 1 ≤ dw && dw ≤ 64 &&
  !((k / 16) % 2 = 1 && 1 < dh) && !((k % 16) % 2 = 1 && 1 < dw)

/-- CONV, DWCONV and POOL (Table 6.3, R124, R128). -/
def convChecks (img d : List Byte) : List (Bool × Nat) :=
  let op := dOp d
  let H := fld d 0x20 2
  let W := fld d 0x22 2
  let C := fld d 0x24 2
  let OC := fld d 0x26 2
  let k := fld d 0x28 1
  let g := fld d 0x36 2
  let fa := fld d 0x30 1 % 16
  let fb := fld d 0x30 1 / 16
  let fc := fld d 0x31 1 % 16
  let mode := fld d 0x32 1
  let lay := fld d 0x33 1
  let sc := fld d 0x34 1
  let (ho, wo) := convOut d
  let R := C / g * (k / 16 + 1) * (k % 16 + 1)
  checks [(1 ≤ H && H ≤ 8192 && 1 ≤ W && W ≤ 8192 && 1 ≤ C && C ≤ 4096 && 1 ≤ OC && OC ≤ 4096, rsFormat),
   (k / 16 < 11 && k % 16 < 11 && fld d 0x29 1 / 16 < 4 && fld d 0x29 1 % 16 < 4 && 1 ≤ fld d 0x2A 1 && fld d 0x2A 1 ≤ 64 &&
      1 ≤ fld d 0x2B 1 && fld d 0x2B 1 ≤ 64, rsFormat),
   (fld d 0x31 1 < 16 && mode < 128 && lay / 16 ≤ 1 && lay % 16 ≤ 1 && sc < 8 && fld d 0x35 1 = 0, rsFormat),
   (1 ≤ g && g ≤ 4096 && C % g = 0 && OC % g = 0, rsFormat),
   (op = 0x30 || (OC = C && g = C), rsFormat)] ++
  fmtChecks fa (bit sc 0) ++ fmtChecks fb (bit sc 1) ++ fmtChecks fc (bit sc 2) ++
  checks [(op ≠ 0x30 || pairOk fa fb, rsFormat),
   (op ≠ 0x30 || !isIntFmt fa || R ≤ 131071, rsFormat),
   (outModeOk fc (bits mode 5 4) (bit mode 6) (bit sc 2), rsFormat),
   (!(bit sc 0 && lay % 16 = 0) && !(bit sc 2 && lay / 16 = 0), rsFormat),
   (1 ≤ ho && 1 ≤ wo && kernelOk k (fld d 0x29 1) (fld d 0x2A 1) (fld d 0x2B 1), rsFormat),
   (sc = 0 || (C / g) % 32 = 0, rsFormat),
   (mode % 4 ≠ 3, rsFormat),
   (op ≠ 0x33 || (bits mode 3 2 ≤ 1 && fld d 0x14 4 = 0 && fld d 0x2C 1 ≤ k / 16 && fld d 0x2D 1 ≤ k / 16 &&
      fld d 0x2E 1 ≤ k % 16 && fld d 0x2F 1 ≤ k % 16), rsFormat),
   fmtFeature img [fa, fb, fc]]

/-- One layer record of a fused chain, with `C` input channels and output extents `ho × wo` (R460). -/
def layerChecks (img l : List Byte) (C ho wo R : Nat) : List (Bool × Nat) :=
  let OC := fld l 8 2
  let g := fld l 0xA 2
  let k := fld l 0xC 1
  let fa := fld l 0x10 1 % 16
  let fb := fld l 0x10 1 / 16
  let fc := fld l 0x11 1 % 16
  let mode := fld l 0x12 1
  checks [(fld l 0x11 1 < 16 && mode < 128 && mode % 4 ≠ 3 && fld l 0x13 13 = 0, rsFormat),
   (1 ≤ OC && OC ≤ 4096 && 1 ≤ g && g ≤ 4096 && C % g = 0 && OC % g = 0, rsFormat),
   ((k / 16) % 2 = 0 && (k % 16) % 2 = 0 && kernelOk k (fld l 0xD 1) (fld l 0xE 1) (fld l 0xF 1), rsFormat),
   (fmtOk fa && fmtOk fb && fmtOk fc && pairOk fa fb, rsFormat),
   (!isIntFmt fa || R ≤ 131071, rsFormat),
   (outModeOk fc (bits mode 5 4) (bit mode 6) false, rsFormat),
   (1 ≤ ho && 1 ≤ wo, rsFormat),
   fmtFeature img [fa, fb, fc]]

/-- Do two ranges overlap? -/
def Span.meets (x y : Span) : Bool := x.addr < y.addr + y.size && y.addr < x.addr + x.size

/-- Does no range of a list meet a later one? -/
def apart : List Span → Bool
  | [] => true
  | x :: r => r.all (fun y => !x.meets y) && apart r

/-- CONV_FUSED (Table 6.4, R136, R460). -/
def fusedChecks (img d : List Byte) : List (Bool × Nat) :=
  let L := fld d 0x26 1
  let shapes := fusedShapes img d
  let bufs := fusedBufs img d
  let ws := (fusedWeights img d).filter (fun x => x.size ≠ 0)
  checks [(1 ≤ fld d 0x20 2 && fld d 0x20 2 ≤ 8192 && 1 ≤ fld d 0x22 2 && fld d 0x22 2 ≤ 8192 && 1 ≤ fld d 0x24 2 && fld d 0x24 2 ≤ 4096, rsFormat),
   (2 ≤ L && L ≤ 4 && fld d 0x27 1 < 16 && fld d 0x28 1 ≤ 1 && fld d 0x29 3 = 0 && fld d 0x30 16 = 0 && fld d 0x1C 4 % 32 = 0, rsFormat)] ++
  (List.range L).flatMap (fun i =>
    layerChecks img (layerAt img d i) (fusedInC img d i) (shapes.getD i (0, 0, 0, 0)).1 (shapes.getD i (0, 0, 0, 0)).2.1 (fusedRed img d i)) ++
  checks [(apart bufs && bufs.all (fun x => ws.all (fun y => !x.meets y)), rsFormat)]

/-- Formats the NLE takes in (R141). -/
def nleInFmt (f : Nat) : Bool := f = 9 || f = 8 || f = 3 || f = 4 || f = 2 || f = 1
/-- Weight formats of the NLE against an input format. -/
def nleWeightFmt (fa fb : Nat) : Bool := if fa = 1 || fa = 2 then fb = fa else fb = 9 || fb = 3 || fb = 4
/-- Output formats of the NLE. -/
def nleOutFmt (f : Nat) : Bool := f = 0 || f = 1 || f = 2 || f = 3 || f = 4 || f = 9 || f = 8

/-- The NLE opcodes (Tables 6.6, 6.7, R128, R141, R142). -/
def nleChecks (img d : List Byte) : List (Bool × Nat) :=
  let op := dOp d
  let H := fld d 0x28 2
  let W := fld d 0x2A 2
  let C := fld d 0x2C 2
  let OC := fld d 0x2E 2
  let k := fld d 0x30 1
  let st := fld d 0x31 1
  let pr := fld d 0x32 1 / 16
  let pc := fld d 0x32 1 % 16
  let fa := fld d 0x33 1 % 16
  let fb := fld d 0x33 1 / 16
  let m := fld d 0x34 1
  let li := bits (fld d 0x35 1) 3 2
  let lo := bits (fld d 0x35 1) 5 4
  let (ho, wo) := nleOut d
  let slides := op = 0x38 || op = 0x39 || (op = 0x3B && k ≠ 0xFF)
  let conv := op = 0x38 || op = 0x39
  checks [(fld d 0x1E 2 = 0 && fld d 0x26 2 = 0, rsFormat),
   (1 ≤ H && H ≤ 8192 && 1 ≤ W && W ≤ 8192 && 1 ≤ C, rsFormat),
   (nleInFmt fa && fmtOk fb && (!conv || nleWeightFmt fa fb) && nleOutFmt (m % 16), rsFormat),
   (outModeOk (m % 16) (bits m 5 4) (bit m 6) false, rsFormat),
   (conv || op = 0x3A || fld d 0x20 8 = 0, rsFormat),
   (li ≠ 2 || C ≤ nleStride d, rsFormat),
   (!slides || (pr ≤ 7 && pc ≤ 7 && bits (fld d 0x35 1) 7 6 ≠ 3 && 1 ≤ ho && 1 ≤ wo), rsFormat),
   (op ≠ 0x38 || (C ≤ 8 && 2 ≤ li && 1 ≤ OC && OC ≤ 256), rsFormat),
   (op ≠ 0x39 || (C ≤ 4096 && li ≤ 1 && 1 ≤ OC && OC ≤ 8 && 2 ≤ lo), rsFormat),
   (!conv || (k / 16 < 7 && k % 16 < 7 && st / 16 < 4 && st % 16 < 4), rsFormat),
   (!(op = 0x3B && k ≠ 0xFF) || (k / 16 < 8 && k % 16 < 8 && st / 16 < 8 && st % 16 < 8 && pr ≤ k / 16 && pc ≤ k % 16), rsFormat),
   (op ≠ 0x3C || k ≤ 1, rsFormat),
   (op ≠ 0x3A || (k ≤ 2 && 1 ≤ OC && OC ≤ 4096 && li ≤ 1 && lo ≤ 1), rsFormat),
   fmtFeature img [fb]]

/-- The walker opcodes (Table 7.3, R151). -/
def walkChecks (img d : List Byte) : List (Bool × Nat) :=
  let op := dOp d
  let f := fld d 0x1A 1
  let m := fld d 0x1B 1
  checks [(1 ≤ fld d 0x18 1 && fld d 0x18 1 ≤ 64 && f < 128 && f % 16 ≤ 2 && m < 8, rsFormat),
   (fld d 0x19 1 ≤ 254 && (op ≠ 0x42 || fld d 0x19 1 = 0), rsFormat),
   (!bit m 2 || op = 0x42, rsFormat),
   (outModeOk (f % 16) (bits f 5 4) (bit f 6) false, rsFormat),
   (fld d 0x24 28 = 0, rsFormat),
   (!bit m 0 || bit (ph img 0x44 4) 1, rsFeature)]

/-- The fusion opcodes (Table 10.7). -/
def fusChecks (d : List Byte) : List (Bool × Nat) :=
  let op := dOp d
  let n := fld d 0x28 4
  checks [(fld d 0x16 2 = 0 && fld d 0x1E 2 = 0 && fld d 0x22 2 = 0 && fld d 0x2C 20 = 0, rsFormat),
   (op ≠ 0x60 || (1 ≤ n && n ≤ 65536), rsFormat),
   (op ≠ 0x61 || (1 ≤ n && n ≤ 8192 && fld d 0x18 6 = 0 && 1 ≤ fld d 7 1), rsFormat),
   (op ≠ 0x62 || fld d 0x10 6 = 0, rsFormat)]

/-- The planning opcodes (Table 11.2). -/
def plnChecks (d : List Byte) : List (Bool × Nat) :=
  let grid := dOp d = 0x70
  checks [(fld d 0x1E 2 = 0 && fld d 0x26 2 = 0 && fld d 0x30 16 = 0, rsFormat),
   (if grid then fld d 0x20 6 = 0 && fld d 9 1 = 0 && fld d 0x2A 2 ≤ 1024 else fld d 0x18 6 = 0 && fld d 0x2A 2 = 0, rsFormat)]

/-- The opcodes a slot of a type may run (R114, R126, R151, R234, R249): 1 cluster, 7 NLE, 5 fusion, 6 planning. -/
def opsOfType (ty op : Nat) : Bool :=
  match ty with
  | 1 => [0x01, 0x02, 0x03, 0x10, 0x11, 0x12, 0x20, 0x21, 0x22, 0x30, 0x31, 0x32, 0x33, 0x34, 0x40, 0x41, 0x42].contains op
  | 7 => 0x38 ≤ op && op ≤ 0x3C
  | 5 => 0x60 ≤ op && op ≤ 0x62
  | 6 => 0x70 ≤ op && op ≤ 0x72
  | _ => false

/-- The opcodes marked "Yes" under "Twin in P0" (Tables 5.6, 6.2, 7.2). -/
def twinInP0 (op : Nat) : Bool := [0x20, 0x21, 0x32, 0x33, 0x34, 0x40, 0x41, 0x42].contains op

/-- The backward opcodes (R96). -/
def backward (op : Nat) : Bool := op = 0x11 || op = 0x12 || op = 0x22

/-- The common header (Table 3.1, R59, R114, R118) of descriptor `i` of a task whose slot has type `ty`. -/
def headChecks (t : Task) (ty : Nat) (d : List Byte) (i : Nat) : List (Bool × Nat) :=
  checks [(fld d 1 1 < 8 && fld d 2 1 = t.ctx && fld d 3 1 = t.part && fld d 4 2 = t.id && dIdx d = i && fld d 0xE 2 = 0, rsFormat),
   (fld d 6 1 ≤ 63 && fld d 7 1 ≤ 8 && fld d 6 1 + fld d 7 1 ≤ 64 && fld d 8 1 ≤ 31 && fld d 9 1 ≤ 4 && fld d 8 1 + fld d 9 1 ≤ 32 &&
      dDest d ≤ 4095, rsFormat),
   (opsOfType ty (dOp d), rsFormat),
   (dSync d = (dOp d = 0x03), rsFormat),
   (dTwin d = t.isTwin, rsFormat)]

/-- The fields of a descriptor beyond the common header. Bytes 0x10–0x3F of a SYNC and bits [63:48] of the IN_ADDR of an NLE or planning
command are reserved and ignored (R6). -/
def bodyChecks (img d : List Byte) : List (Bool × Nat) :=
  match dOp d with
  | 0x01 | 0x02 => moveChecks d
  | 0x03 => []
  | 0x10 | 0x11 | 0x12 => matChecks img d
  | 0x20 | 0x21 | 0x22 => elemChecks img d
  | 0x30 | 0x32 | 0x33 => convChecks img d
  | 0x31 => fusedChecks img d
  | 0x34 => layoutChecks img d
  | 0x38 | 0x39 | 0x3A | 0x3B | 0x3C => nleChecks img d
  | 0x40 | 0x41 | 0x42 => walkChecks img d
  | 0x60 | 0x61 | 0x62 => fusChecks d
  | _ => plnChecks d

/-- R110: alignment, and the end of cluster SRAM. -/
def spanOk (x : Span) : Bool := x.addr % max 64 x.align = 0 && x.addr + x.size ≤ 0x180000

/-! ## Padding against the input (R132) -/

/-- Do reflect or replicate pads stay inside an input of `H × W`? -/
def padsInside (mode H W t b l r : Nat) : Bool := !(mode = 1 || mode = 2) || (t < H && b < H && l < W && r < W)

/-- The check of R132 for one descriptor. -/
def dilationOk (img d : List Byte) : Bool :=
  match dOp d with
  | 0x30 | 0x32 | 0x33 =>
    padsInside (fld d 0x32 1 % 4) (fld d 0x20 2) (fld d 0x22 2) (fld d 0x2C 1) (fld d 0x2D 1) (fld d 0x2E 1) (fld d 0x2F 1)
  | 0x31 =>
    let ext := (fld d 0x20 2, fld d 0x22 2) :: (fusedShapes img d).map (fun x => (x.1, x.2.1))
    (List.range (fld d 0x26 1)).all (fun i =>
      let l := layerAt img d i
      let (t, b, lf, r) := fusedPad d l
      let (H, W) := ext.getD i (0, 0)
      padsInside (fld l 0x12 1 % 4) H W t b lf r)
  | 0x38 | 0x39 =>
    let pr := fld d 0x32 1 / 16
    let pc := fld d 0x32 1 % 16
    padsInside (bits (fld d 0x35 1) 7 6) (fld d 0x28 2) (fld d 0x2A 2) pr pr pc pc
  | 0x3B =>
    let pr := fld d 0x32 1 / 16
    let pc := fld d 0x32 1 % 16
    fld d 0x30 1 = 0xFF || padsInside (bits (fld d 0x35 1) 7 6) (fld d 0x28 2) (fld d 0x2A 2) pr pr pc pc
  | _ => true

/-- Every command descriptor of a plan image. -/
def allDescs (img : List Byte) : List (List Byte) := (tasksOf img).flatMap (descsOf img)

/-- Does a region's primary or reserve share a byte with `[a, a + n)`? -/
def Region.meets (r : Region) (a n : Nat) : Bool :=
  (r.base < a + n && a < r.base + r.size) || (r.reserve ≠ 0 && r.reserve < a + n && a < r.reserve + r.size)

end Sys2Proof.Machine
end

