-- ==== Sys2Proof/Machine/Store.lean ====
section
/-!
DEFINITION. The store controllers (R194–R216) and traffic regulation (R278–R288): channel queues, refresh, leap refresh, ingest
panic, interface delays, queue levels, outstanding limits and the forerunner buckets.
-/

namespace Sys2Proof.Machine

/-- Change a store controller. -/
def modStc (s : State) (q : Nat) (f : Stc → Stc) : State := { s with stc := tmod s.stc q {} f }
/-- A store controller. -/
def stcOf (s : State) (q : Nat) : Stc := tget s.stc q {}
/-- Almanac SOURCE of a store controller's channel. -/
def srcStc (q ch : Nat) : Nat := 0x5000 + q * 32 + ch

/-! ## The address map (R194, R195) -/

/-- Parity of the bits of a number, over its lowest `n`. -/
def parity : Nat → Nat → Bool
  | 0, _ => false
  | n + 1, v => xor (v % 2 = 1) (parity n (v / 2))

/-- The number whose bit `i` is the parity of the address under mask `i`. -/
def hashBits (a : Nat) (masks : List Nat) : Nat :=
  (masks.zipIdx).foldl (fun x m => x + b2n (parity 33 (a &&& m.1)) * 2 ^ m.2) 0

/-- Decoded channel of a per-Quarter address. -/
def decCh (c : Stc) (a : Nat) : Nat := hashBits a c.xorCh
/-- Decoded bank. -/
def decBank (c : Stc) (a : Nat) : Nat := hashBits a c.xorBank
/-- Bank group of a decoded bank number: bits [4:2] (R194). -/
def bankGroup (b : Nat) : Nat := bits b 4 2
/-- Bank within its group: bits [1:0] (R194). -/
def bankInGroup (b : Nat) : Nat := bits b 1 0
/-- Row: 11 bits above the bank and the column, so the two test rows of a bank, 2,048 and 2,049, have no address (R194). -/
def rowOf (a : Nat) : Nat := bits a 32 22

/-! ## Requester ports (R279)

Port numbers are the model's: load engines 0–287 and walkers 288–575 by cluster, NLEs 576–579, ingest 580, fusion 581, planning 582,
result DMA 583, Xiuth 585, hub CVUs 586–601, DMA channels 1–7 602–608. -/

/-- Is there a requester port with this number? -/
def isPort (p : Nat) : Bool := p < 609 && p ≠ 584

/-- The RGL instance that serves a port. -/
def rglOfPort (p : Nat) : Nat := if p < 288 then p / 72 else if p < 576 then (p - 288) / 72 else if p < 580 then p - 576 else 4
/-- The switch port behind which a requester port stands. -/
def swOfPort (p : Nat) : Nat :=
  if p < 580 then rglOfPort p else if p = 580 then 6 else if p = 581 then 7 else if p = 582 then 8 else if p = 585 then 9
  else if 586 ≤ p && p < 602 then 10 else 5
/-- The class of a transaction at its source (Table 12.5): scrub runs on CVUs 0–3. -/
def clsOfTx (p part : Nat) : Nat :=
  if p < 580 || p = 581 || p = 582 then clsOfPart part
  else if p = 580 || p = 583 then 0
  else if 586 ≤ p && p < 590 then 1 else 3

/-- Place of a port's outstanding count. -/
def portKey (p die cls : Nat) : Nat := (p * 4 + die) * 4 + cls

/-- Place of a port's mark that it has heard nothing of a die. -/
def staleKey (p die : Nat) : Nat := p * 4 + die
/-- Does a port treat a die as red for want of broadcasts (R282)? -/
def isStale (r : Rgl) (p die : Nat) : Bool := thas r.stale (staleKey p die)
/-- STALE of a die: some port of the instance treats it as red (R282). -/
def anyStale (r : Rgl) (die : Nat) : Bool := r.stale.any (fun x => x.1 % 4 = die)
/-- The level of a die that a port goes by: red while stale (R282). -/
def levelOf (r : Rgl) (p die : Nat) : Nat := if isStale r p die then 2 else tget r.level die 0

/-- The effective limit of Table 12.6. -/
def otLimit (r : Rgl) (cls level : Nat) (panic : Bool) : Nat :=
  let at' (base mn : Nat) : Nat :=
    let l := match level with | 0 => base | 1 => max mn (base / 2) | _ => mn
    if panic then min l mn else l
  match cls with
  | 0 => r.baseRT
  | 1 => r.baseSAF
  | 2 => at' r.baseSTD r.stdMin
  | _ => at' r.baseBKG r.bkgMin

/-- An RGL instance. -/
def rglOf (s : State) (i : Nat) : Rgl := tget s.rgl i {}

/-- The cluster or engine whose requester port a port is. -/
def unitOfPort (p : Nat) : Option Nat :=
  if p < 288 then some (rClu p) else if p < 576 then some (rClu (p - 288)) else if p < 580 then some (rNle (p - 576))
  else if p = 581 then some rFus else if p = 582 then some rPln else none

/-- Does a task over its budget hold the unit's limit of a class at its minimum (R306)? -/
def budgetHeld (s : State) (p cls : Nat) : Bool :=
  match unitOfPort p with
  | none => false
  | some u => (unitOf s u).ctxs.any (fun x => x.2.throttled && x.2.run.isSome && x.2.part ≠ 0 && clsOfPart x.2.part = cls)

/-- Does the holiday segment in progress hold what a transaction of port `p` toward a die crosses (R338): the mesh row of a cluster's port, a switch
port or Quarter link, hub CVUs 0–3, or the die whose P0 weights scrub reads? -/
def segmentHolds (s : State) (p die : Nat) : Bool :=
  match s.st.seg with
  | none => false
  | some g => match g.kind with
    | 1 => p < 576 && g.item % 17 < 8 && p % 288 / 72 = g.item / 17 && p % 288 % 72 / 9 = g.item % 17
    | 2 => swOfPort p ≠ die && (g.item = swOfPort p || g.item = die)
    | 5 => g.die = some die || 586 ≤ p && p < 590
    | _ => false

/-- Does the segment in progress hold a store channel: kind 3 its own, scrub every channel of its source (R338)? -/
def segmentHoldsCh (s : State) (die ch : Nat) : Bool :=
  match s.st.seg with
  | none => false
  | some g => g.kind = 3 && g.item = die * 32 + ch || g.kind = 5 && g.die = some die

/-- May a port issue one more transaction of partition `part` toward a die (R279, R281, R287)? -/
def mayIssueTx (s : State) (p die part : Nat) : Bool :=
  let r := rglOf s (rglOfPort p)
  let cls := clsOfTx p part
  isPort p && tget s.ports (portKey p die cls) 0 < otLimit r cls (levelOf r p die) ((stcOf s die).panic || budgetHeld s p cls) &&
    (part = 0 || 580 ≤ p && p ≠ 581 && p ≠ 582 || !tget r.tbEn part false || tget r.tbLevel part 0 ≥ 128) && !segmentHolds s p die

/-- Does a bucket count this transaction: its partition's requesters in the instance, where the bucket is enabled (R287)? -/
def bucketed (s : State) (p part : Nat) : Bool :=
  part ≠ 0 && (p < 580 || p = 581 || p = 582) && tget (rglOf s (rglOfPort p)).tbEn part false

/-! ## BUSY (R201)

A channel is busy while its queue holds a request or one of its banks runs an operation. The operations take the cycles of Table 9.3: 7 to precharge,
7 to activate, 2 for a granule and 13 to refresh a row, each from the later of now and the end of its bank's last (DESIGN CHOICE, log 20). -/

/-- A time in cycles of the 900 MHz interface clock. -/
def cycOf (t : Nat) : Nat := t * 9 / 10

/-- Count a channel's busy cycles up to now. -/
def Chan.settle (now : Nat) (c : Chan) : Chan :=
  { c with busy := if c.queue.isEmpty then c.busy else c.busy + (cycOf now - c.busyTo), busyTo := max c.busyTo (cycOf now) }

/-- Bank `b` runs an operation of `k` cycles. -/
def Chan.occupy (now b k : Nat) (c : Chan) : Chan :=
  let c := c.settle now
  let e := max (cycOf now) (tget c.banks b {}).freeAt + k
  { c with busy := c.busy + (e - c.busyTo), busyTo := max c.busyTo e, banks := tmod c.banks b {} (fun x => { x with freeAt := e }) }

/-- A channel whose banks have been at work since `t`. -/
def Chan.busySince (t now : Nat) (c : Chan) : Chan :=
  if c.queue.isEmpty then
    { c with busy := c.busy + (cycOf now - max c.busyTo (cycOf t)), busyTo := max c.busyTo (cycOf now) }
  else c.settle now

/-- BUSY as of now: what is counted, less the part of it that is still to come. -/
def Chan.busyNow (now : Nat) (c : Chan) : Nat :=
  let c := c.settle now
  sat 0xFFFFFFFF (c.busy - (c.busyTo - cycOf now))

/-- A frame's counts of a channel end: of BUSY, what is still to come counts in the next. -/
def Chan.newFrame (now : Nat) (c : Chan) : Chan :=
  let c := c.settle now
  { c with busy := c.busyTo - cycOf now, data := 0, act := 0 }

/-- Device time has moved by `d` ns against the clock: the marks in cycles move with it. -/
def Chan.shift (d : Int) (c : Chan) : Chan :=
  let go (x : Nat) : Nat := ((x : Int) + d * 9 / 10).toNat
  { c with busyTo := go c.busyTo, banks := tmap c.banks (fun b => { b with freeAt := go b.freeAt }) }

/-! ## Issue (R269, R279–R283, R287) -/

/-- A request enters its channel's queue of 64; the controller keeps the peak occupancy of the window (R280). -/
def enqueue (now : Nat) (c : Stc) (q : Req) : Stc :=
  let k := decCh c q.addr
  let ch := (tget c.chans k {}).settle now
  let ch := { ch with queue := ch.queue ++ [q] }
  { c with chans := tput c.chans k ch, peak := max c.peak ch.queue.length }

/-- Has the channel of a request room in its queue? -/
def channelRoom (c : Stc) (q : Req) : Bool := (tget c.chans (decCh c q.addr) {}).queue.length < 64

/-- The oldest of two requests. -/
def olderReq (x y : Req) : Req := if x.atT ≤ y.atT then x else y

/-- The first of a list under a choice between two. -/
def pick (f : Req → Req → Req) : List Req → Option Req
  | [] => none
  | x :: xs => some (xs.foldl f x)

/-- The request an output port serves next (R269): one that has waited 8 µs, oldest first; then RT, then SAF; then STD and BKG, `turn` granules of
STD having gone since the last of BKG: three to one. -/
def switchNext (now turn : Nat) (w : List Req) : Option Req :=
  let of (k : Nat) : Option Req := pick olderReq (w.filter (fun q => q.cls = k))
  match pick olderReq (w.filter (fun q => q.atT + 8000 ≤ now)), of 0, of 1 with
  | some q, _, _ => some q
  | none, some q, _ => some q
  | none, none, some q => some q
  | none, none, none =>
    match of 2, of 3 with
    | some x, some y => some (if turn < 3 then x else y)
    | some x, none => some x
    | none, y => y

/-- The output port toward a die hands requests to the controller, in the order of R269, while one that waits finds room in its channel. A request
whose channel is full lets those behind it pass (DESIGN CHOICE, log 48). -/
def drainSwitch : Nat → Nat → State → State
  | 0, _, s => s
  | fuel + 1, die, s =>
    let c := stcOf s die
    let w := tget s.swWait die []
    let turn := tget s.swTurn die 0
    match switchNext s.now turn (w.filter (fun q => channelRoom c q && !segmentHolds s q.port die)) with
    | none => s
    | some q =>
      let both := w.any (fun x => x.cls = 2) && w.any (fun x => x.cls = 3)
      let turn := if both && q.cls = 2 then turn + 1 else if both && q.cls = 3 || !both then 0 else turn
      drainSwitch fuel die { s with stc := tput s.stc die (enqueue s.now c q), swWait := tput s.swWait die (w.erase q), swTurn := tput s.swTurn die turn }

/-- A request leaves its port: through the switch where the port stands behind another switch port than the die's own link, else straight into its
channel. -/
def sendReq (s : State) (die : Nat) (q : Req) : State :=
  if swOfPort q.port = die then modStc s die (fun c => enqueue s.now c q)
  else
    let w := tget s.swWait die [] ++ [q]
    drainSwitch w.length die { s with swWait := tput s.swWait die w }

/-- The request a port issues for one granule of a store die. -/
def reqOf (s : State) (port : Nat) (r : StoreTx) : Req :=
  { port := port, cls := clsOfTx port r.part, addr := r.addr, wr := r.wr, ingest := port = 580 && r.wr, atT := s.now }

/-- TRANSACTION_ISSUE: a port issues while its count is below the limit and its bucket holds 128 B; a port of the die's own Quarter waits for
room in the channel, any other request may wait in the switch (R269, R279–R283, R287). Otherwise the transaction waits. -/
def execTransactionIssue (port : Nat) (r : StoreTx) (s : State) : Out :=
  let c := stcOf s r.die
  let q := reqOf s port r
  if !mayIssueTx s port r.die r.part || (swOfPort port = r.die && !channelRoom c q) || c.retaining then done s s
  else
    let i := rglOfPort port
    let s1 := if bucketed s port r.part then
        { s with rgl := tmod s.rgl i {} (fun g => { g with tbLevel := tmod g.tbLevel r.part 0 (· - 128) }) }
      else s
    let s1 := { s1 with ports := tmod s1.ports (portKey port r.die q.cls) 0 (· + 1) }
    done s (sendReq s1 r.die q)

/-- TRANSACTION_COMPLETE: the port's count falls (R279, R283). -/
def execTransactionComplete (port die cls : Nat) (s : State) : Out :=
  done s { s with ports := tmod s.ports (portKey port die cls) 0 (· - 1) }

/-- BUCKET_REFILL: every enabled bucket gains RATE_64B × 64 bytes, up to BURST_KIB KiB (R287). -/
def execBucketRefill (s : State) : Out :=
  let fill (g : Rgl) : Rgl := [1, 2, 3].foldl (fun g p =>
    if tget g.tbEn p false then
      { g with tbLevel := tmod g.tbLevel p 0 (fun x => min (x + tget g.tbRate p 0 * 64) (tget g.tbBurst p 0 * 1024)) }
    else g) g
  done s { s with rgl := [0, 1, 2, 3, 4].foldl (fun t i => tmod t i {} fill) s.rgl }

/-- The level of a peak occupancy (R280): 0 green, 1 amber, 2 red. -/
def levelFor (c : Stc) : Nat := if c.redOn ≤ c.peak then 2 else if c.amberOn ≤ c.peak then 1 else 0

/-- LEVEL_BROADCAST: the window ends and every RGL instance takes the die's level; a stale die is stale no longer (R280–R282). -/
def execLevelBroadcast (die : Nat) (s : State) : Out :=
  let c := stcOf s die
  let hear (g : Rgl) : Rgl := { g with level := tput g.level die (levelFor c), lastLevel := tput g.lastLevel die s.now,
                                       stale := g.stale.filter (fun x => x.1 % 4 ≠ die) }
  let s1 := { s with rgl := [0, 1, 2, 3, 4].foldl (fun t i => tmod t i {} hear) s.rgl }
  done s (modStc s1 die (fun c => { c with peak := c.chans.foldl (fun m ch => max m ch.2.queue.length) 0 }))

/-- LEVEL_STALE: a port has had no broadcast from a die for 32 windows of 256 cycles at 900 MHz, 9,103 ns. The record repeats while that lasts, once
for every such time again (R282; the pace of the repeats is a DESIGN CHOICE, log 48). -/
def execLevelStale (port die : Nat) (s : State) : Out :=
  let i := rglOfPort port
  let g := rglOf s i
  if s.now < max (tget g.lastLevel die 0) (tget g.stale (staleKey port die) 0) + 9103 then done s s
  else
    let s1 := { s with rgl := tput s.rgl i { g with stale := tput g.stale (staleKey port die) s.now } }
    done s (alm s1 (0x7000 + swOfPort port) .levelStale 2 [port, die])

/-! ## Refresh (R203–R208) -/

/-- One of a channel's 32 new LFSR bits: polynomial x³² + x²² + x² + x + 1, shifted left (log 20). -/
def lfsrStep (v : Nat) : Nat :=
  (v * 2) % 2 ^ 32 + b2n (xor (xor (bit v 31) (bit v 21)) (xor (bit v 1) (bit v 0)))

/-- `n` steps of the LFSR. -/
def lfsrSteps : Nat → Nat → Nat
  | 0, v => v
  | n + 1, v => lfsrSteps n (lfsrStep v)

/-- The neighbour rows an activate of `row` refreshes, by the bits drawn (R206). -/
def leapRows (n draw row : Nat) : List Nat :=
  let near := if draw % 2 ^ n = 0 then [(row : Int) - 1, row + 1] else []
  let far := if draw % 2 ^ (n + 2) = 0 then [(row : Int) - 2, row + 2] else []
  ((near ++ far).filter (fun r => 0 ≤ r && r < 2048)).map Int.toNat

/-- Issue the neighbour refreshes a bank owes: they come before its next activate (R206). -/
def issueLeaps (now : Nat) (c : Stc) (k b : Nat) : Stc :=
  let ch := tget c.chans k {}
  let ch := if (tget ch.banks b {}).pending.isEmpty then ch else ch.occupy now b (13 * (tget ch.banks b {}).pending.length)
  let bk := tget ch.banks b {}
  { c with leapRows := sat 0xFFFFFFFF (c.leapRows + bk.pending.length),
           chans := tput c.chans k { ch with banks := tput ch.banks b { bk with pending := [] } } }

/-- Issue every periodic refresh a bank owes: `n` rows, and the bank's row is closed (R204). -/
def issueRefresh (now : Nat) (c : Stc) (k b n : Nat) : Stc :=
  let c := issueLeaps now c k b
  let ch := (tget c.chans k {}).occupy now b (13 * n + if (tget (tget c.chans k {}).banks b {}).openRow.isSome then 7 else 0)
  let bk := tget ch.banks b {}
  let bk := { bk with openRow := none, postponed := 0, refRow := (bk.refRow + n) % 2048 }
  { c with chans := tput c.chans k { ch with banks := tput ch.banks b bk } }

/-- REFRESH_DUE: a bank's interval ends. The refresh is postponed while a request for the bank waits, by at most 4 intervals. -/
def execRefreshDue (die ch bank : Nat) (s : State) : Out :=
  let c := stcOf s die
  let k := tget c.chans ch {}
  let bk := tget k.banks bank {}
  if c.retaining then done s s
  else if k.queue.any (fun q => decBank c q.addr = bank) && bk.postponed < 4 then
    let c := { c with chans := tput c.chans ch { k with banks := tput k.banks bank { bk with postponed := bk.postponed + 1 } },
                      postMax := max c.postMax (bk.postponed + 1) }
    done s { s with stc := tput s.stc die c }
  else done s { s with stc := tput s.stc die (issueRefresh s.now c ch bank (bk.postponed + 1)) }

/-- The return point of a refresh window, in half degrees (Table 9.4). -/
def returnBelow (window : Nat) : Int := if window = 2 then 198 else 158

/-- A store die's temperature changes: the window shortens at once at a switch point, OVERTEMP follows 115 °C, and the time
below the return point is kept (R203, R205). -/
def storeTemp (s : State) (die : Nat) (t : Int) : State :=
  let c := stcOf s die
  let w := if t ≥ 204 then 2 else if t ≥ 164 then max c.window 1 else c.window
  let overs := t > 230
  let c1 := { c with window := w, overtemp := overs, tempHalf := t,
                     belowSince := if w ≠ 0 && t < returnBelow w then (if c.belowSince.isSome && w = c.window then c.belowSince else some s.now) else none }
  let s := { s with stc := tput s.stc die c1 }
  let s := if overs then breach s else s
  if overs && !c.overtemp then alm s (srcStc die 0) .storeOvertemp 3 [die, (t % 65536).toNat] else s

/-- REFRESH_WINDOW_RETURN: the temperature has stayed below the return point for 1 s (R203). -/
def execRefreshWindowReturn (die : Nat) (s : State) : Out :=
  let c := stcOf s die
  match c.belowSince with
  | some t =>
    if s.now < t + 1000000000 || c.window = 0 then done s s
    else
      let w := c.window - 1
      done s (modStc s die (fun c => { c with window := w, belowSince := if w ≠ 0 && c.tempHalf < returnBelow w then some s.now else none }))
  | none => done s s

/-! ## Scheduling (R199–R201, R206) -/

/-- The better of two requests within one step of R199: a row hit, then the older. -/
def betterReq (c : Stc) (ch : Chan) (x y : Req) : Req :=
  let hit (q : Req) : Bool := (tget ch.banks (decBank c q.addr) {}).openRow = some (rowOf q.addr)
  if hit x = hit y then (if x.atT ≤ y.atT then x else y) else if hit x then x else y

/-- The request the channel scheduler serves next (R199). -/
def chooseReq (c : Stc) (ch : Chan) (now : Nat) : Option Req :=
  let ing := if c.panic then ch.queue.filter (·.ingest) else []
  let old := ch.queue.filter (fun q => q.atT + 8000 ≤ now)
  match pick (betterReq c ch) ing, pick olderReq old with
  | some q, _ => some q
  | none, some q => some q
  | none, none => [0, 1, 2, 3].findSome? (fun k => pick (betterReq c ch) (ch.queue.filter (fun q => q.cls = k)))

/-- Panic ends below PANIC_OFF sixteenths (R209), its time counted. -/
def drainPanic (now : Nat) (c : Stc) : Stc :=
  if c.panic && c.level < c.panicOff * 8192 then { c with panic := false, panicNs := c.panicNs + (now - c.panicSince) } else c

/-- Activate a row: the leap refreshes the bank owes first, then the LFSR draw (R206). -/
def activate (now : Nat) (c : Stc) (k b row : Nat) : Stc :=
  let c := issueLeaps now c k b
  let ch := (tget c.chans k {}).occupy now b (if (tget (tget c.chans k {}).banks b {}).openRow.isSome then 14 else 7)
  let d := lfsrSteps 32 ch.lfsr
  let bk := tget ch.banks b {}
  let bk := { bk with openRow := some row, pending := bk.pending ++ leapRows c.log2InvP d row }
  { c with chans := tput c.chans k { ch with lfsr := d, act := sat 0xFFFFFFFF (ch.act + 1), banks := tput ch.banks b bk } }

/-- Refreshes of a channel at their limit (R204). -/
def refreshFirst (now : Nat) (c : Stc) (ch : Nat) : Stc :=
  (tget c.chans ch {}).banks.foldl (fun c b => if b.2.postponed ≥ 4 then issueRefresh now c ch b.1 b.2.postponed else c) c

/-- Serve a request: an activate if its row is not open, a burst of two data cycles, its bytes counted in its class (R201, R284). -/
def serveReq (s : State) (die ch : Nat) (c : Stc) (q : Req) : State :=
      let b := decBank c q.addr
      let row := rowOf q.addr
      let c := if (tget (tget c.chans ch {}).banks b {}).openRow = some row then c else activate s.now c ch b row
      let k := (tget c.chans ch {}).occupy s.now b 2
      let k := { k with queue := k.queue.erase q, data := sat 0xFFFFFFFF (k.data + 2), banks := tmod k.banks b {} (fun x => { x with lastUse := s.now }) }
      let c := { c with chans := tput c.chans ch k,
                        bytesRd := if q.wr then c.bytesRd else addBytes c.bytesRd q.cls 128,
                        bytesWr := if q.wr then addBytes c.bytesWr q.cls 128 else c.bytesWr,
                        level := if q.ingest then c.level - 128 else c.level }
      let s1 := { s with stc := tput s.stc die (drainPanic s.now c) }
      let p := swOfPort q.port
      if p = die then s1 else if q.wr then crossSwitch s1 p die q.cls 128 else crossSwitch s1 die p q.cls 128

/-- STORE_REQUEST: refreshes at their limit first, then the request R199 chooses; the room it leaves takes one that waits in the switch. A channel
that a holiday segment holds serves none (R338). -/
def execStoreRequest (die ch : Nat) (s : State) : Out :=
  if (stcOf s die).retaining then done s s
  else
    let c := refreshFirst s.now (stcOf s die) ch
    match if segmentHoldsCh s die ch then none else chooseReq c (tget c.chans ch {}) s.now with
    | none => done s { s with stc := tput s.stc die c }
    | some q =>
      let s1 := serveReq s die ch c q
      done s (drainSwitch (tget s1.swWait die []).length die s1)

/-- ROW_CLOSE: a row idle for 64 cycles of the 900 MHz clock closes (R199). -/
def execRowClose (die ch bank : Nat) (s : State) : Out :=
  let c := stcOf s die
  let k := tget c.chans ch {}
  let bk := tget k.banks bank {}
  if bk.openRow.isNone || s.now < bk.lastUse + 72 then done s s
  else
    let c := issueLeaps s.now c ch bank
    let k := (tget c.chans ch {}).occupy s.now bank 7
    done s { s with stc := tput s.stc die { c with chans := tput c.chans ch { k with banks := tmod k.banks bank {} (fun b => { b with openRow := none }) } } }

/-! ## Ingest panic (R209–R212) -/

/-- Bytes enter a controller's ingest write buffer of 128 KiB; a buffer without room, or a die in self-refresh, takes none. -/
def ingestIn (s : State) (die n : Nat) : State :=
  let c := stcOf s die
  if c.retaining || c.level + n > 131072 then s
  else
    let lv := c.level + n
    if !c.panic && lv ≥ c.panicOn * 8192 then
      alm (modStc s die (fun c => { c with level := lv, panic := true, panicSince := s.now, entries := sat 255 (c.entries + 1) }))
        (srcStc die 0) .ingestPanic 2 [die]
    else modStc s die (fun c => { c with level := lv })

/-- The store dies begin to retain: the samples on their way are dropped, one open and those not yet complete (R214, R226). -/
def Stream.dropForRetain (t : Stream) : Stream :=
  let n := t.closing.length + (match t.cur with | some x => if x.fail = 0 then 1 else 0 | none => 0)
  { t with closing := [], dropRetain := sat 255 (t.dropRetain + n),
           cur := t.cur.map (fun x => if x.fail = 0 then { x with fail := 7, data := [], moved := 0, placed := false } else x) }

/-- INGEST_WRITE (R209, R210, R212). -/
def execIngestWrite (die bytes : Nat) (s : State) : Out := if segmentHolds s 580 die then done s s else done s (ingestIn s die bytes)

/-! ## Interface delays (R215) -/

/-- Temperature band of a temperature in half degrees: band b covers −40 + 5b to −35 + 5b °C, b = 0–32. -/
def bandOf (t : Int) : Nat := min 32 ((t + 80) / 10).toNat

/-- The band in use moves when the temperature is 1 K beyond the band's edge. -/
def nextBand (band : Nat) (t : Int) : Nat :=
  let lo : Int := -80 + 10 * band
  if t < lo - 2 || lo + 12 ≤ t then bandOf t else band

/-- A delay kept in its 8-bit field. -/
def clamp8 (x : Int) : Nat := if x < 0 then 0 else if x > 255 then 255 else x.toNat

/-- Is the flash calibration bound to the package serial number, and does its digest match (R215)? -/
def flashCalOk (s : State) : Bool :=
  s.flash.calDigest.length = 48 && s.flash.calSerial = s.ident.serial && sha384 s.flash.calRecord == s.flash.calDigest

/-- Set every channel's delays of a die: the base value, the offset of the band and the Season's trim (R215, Table 18.5). -/
def setDelays (s : State) (die band : Nat) : State :=
  let c := stcOf s die
  let base := if c.dlySource then s.flash.calBase else s.ident.dlyBase
  let tab := if c.dlySource then s.flash.calTable else s.ident.dlyTable
  modStc s die (fun c => (List.range 32).foldl (fun c k =>
    let (r, w, a) := tget base (die * 32 + k) (0, 0, 0)
    let o := tget (tget tab (die * 32 + k) []) band 0 + c.dlyTrim
    { c with chans := tmod c.chans k {} (fun h => { h with rd := clamp8 (r + o), wr := clamp8 (w + o), ca := clamp8 (a + o) }) })
    { c with band := band })

/-- DELAY_UPDATE: Xiuth writes the delays of the band that the store-die temperature has entered. -/
def execDelayUpdate (die : Nat) (s : State) : Out :=
  let c := stcOf s die
  let b := nextBand c.band c.tempHalf
  if b = c.band then done s s else done s (setDelays s die b)

end Sys2Proof.Machine
end

