-- ==== Sys2Proof/Machine/Cvu.lean ====
section
/-!
DEFINITION. The check-value units of the hub (R190–R193), the repair of weight tiles (R185), and what an expert access may do
(R381).
-/

namespace Sys2Proof.Machine

/-! ## Expert access (R8, R381) -/

/-- An expert access without expert access open: refused, counted, with an Almanac warning record. -/
def expertRefuse (s : State) (ofs : Nat) : State :=
  alm { s with host := { s.host with refused := sat 0xFFFFFFFF (s.host.refused + 1) } } 0x0000 .expert 2 [0, ofs]

/-- The owner an expert write acts for: P3, or any in SERVICE scope. -/
def expertOwner (s : State) : Nat := if s.host.expertScope then anyOwner else 3

/-! ## The polynomials (Table 8.6) -/

/-- Width of polynomial `p` in bits. -/
def cvuWidth (p : Nat) : Nat := match p with | 0 => 32 | 1 => 32 | 2 => 16 | _ => 64
/-- Initial value. -/
def cvuInit (p : Nat) : Nat := match p with | 0 => 0xFFFFFFFF | 1 => 0xFFFFFFFF | 2 => 0xFFFF | _ => 0
/-- Final XOR. -/
def cvuXor (p : Nat) : Nat := match p with | 0 => 0xFFFFFFFF | 1 => 0xFFFFFFFF | _ => 0

/-- One CRC-64 step per bit, most significant bit first. -/
def crc64Bits : Nat → Nat → Nat
  | 0, c => c
  | n + 1, c => crc64Bits n (if c ≥ 2 ^ 63 then ((c * 2) % 2 ^ 64) ^^^ 0x42F0E1EBA9EA3693 else c * 2)

/-- The register after hashing bytes from a running value. -/
def cvuHash (p c : Nat) (bs : List Byte) : Nat :=
  match p with
  | 0 => crc32cRun c bs
  | 1 => crcRun 0xEDB88320 c bs
  | 2 => bs.foldl (fun c b => crc16Bits 8 (c ^^^ (b.toNat * 256))) c
  | _ => bs.foldl (fun c b => crc64Bits 8 (c ^^^ (b.toNat * 2 ^ 56))) c

/-- A complete check value. -/
def cvuSum (p : Nat) (bs : List Byte) : Nat := cvuHash p (cvuInit p) bs ^^^ cvuXor p

/-! ## A run (R191) -/

/-- POLY. -/
def Cvu.poly (v : Cvu) : Nat := v.ctrl % 4
/-- FOLD_ADDR. -/
def Cvu.foldAddr (v : Cvu) : Bool := bit v.ctrl 3
/-- FOLD_SEQ. -/
def Cvu.foldSeq (v : Cvu) : Bool := bit v.ctrl 4
/-- SEQ4. -/
def Cvu.seq4 (v : Cvu) : Bool := bit v.ctrl 5
/-- SRC: the data port. -/
def Cvu.port (v : Cvu) : Bool := bit v.ctrl 6
/-- CONT. -/
def Cvu.cont (v : Cvu) : Bool := bit v.ctrl 7
/-- FINAL. -/
def Cvu.final (v : Cvu) : Bool := bit v.ctrl 8
/-- COMPARE. -/
def Cvu.compare (v : Cvu) : Bool := bit v.ctrl 9

/-- The fold prefix. -/
def Cvu.pre (v : Cvu) : List Byte :=
  (if v.foldAddr then natLe 6 v.addr else []) ++ (if v.foldSeq then natLe (if v.seq4 then 4 else 2) v.seq else [])

/-- Start a run with the fields that `ctrl` holds: the running register takes its first value and the prefix. -/
def Cvu.begin (v : Cvu) (ctrl : Nat) : Cvu :=
  let v := { v with ctrl := ctrl &&& 0x3FB, busy := true, done := false, mismatch := false, fault := false }
  { v with run := if v.cont then v.run % 2 ^ cvuWidth v.poly else cvuHash v.poly (cvuInit v.poly) v.pre, left := if v.port then v.len else 0 }

/-- Take bytes from the data port. -/
def Cvu.feed (v : Cvu) (bs : List Byte) : Cvu :=
  if v.busy && v.port then
    let b := bs.take v.left
    { v with run := cvuHash v.poly v.run b, left := v.left - b.length }
  else v

/-- End a run: RESULT from RUN, the comparison over the polynomial's width, or FAULT without a comparison. -/
def Cvu.finish (v : Cvu) (fault : Bool) : Cvu :=
  let res := if v.final then v.run ^^^ cvuXor v.poly else v.run
  { v with busy := false, done := true, fault := fault, result := res,
           mismatch := !fault && v.compare && res % 2 ^ cvuWidth v.poly ≠ v.expect % 2 ^ cvuWidth v.poly }

/-- How many bytes of `[a, a + n)` lie before the first unit that `ok` refuses. -/
def readableLen (ok : Nat → Bool) (a n : Nat) : Nat :=
  match (unitsOf a n).find? (fun u => !ok u) with
  | none => n
  | some u => u * 65536 - a

/-- May a run that the expert window started read a unit (R192)? -/
def cvuMayRead (s : State) (k unit : Nat) : Bool :=
  (memLevel (unit * 65536)).isSome && (k < 8 || s.host.expertScope || tagOf s (unit * 65536) = 3)

/-- A run of a unit comes to its end, hashing its memory bytes first. -/
def Cvu.run' (s : State) (ok : Nat → Bool) (v : Cvu) : Cvu :=
  if v.port then v.finish false
  else
    let n := readableLen ok v.addr v.len
    { v with run := cvuHash v.poly v.run (hubRead s v.addr n) }.finish (n ≠ v.len)

/-- Count the bytes that a run of a unit reads, at port 10 (Table 12.1, Table 12.5, R284; log 44). -/
def countRun (s : State) (ok : Nat → Bool) (v : Cvu) : State :=
  if v.port then s else countBytes s 10 3 v.addr (readableLen ok v.addr v.len) false

/-- The unit `k`. -/
def cvuOf (s : State) (k : Nat) : Cvu := tget s.cvu k {}
/-- Store the unit `k`. -/
def putCvu (s : State) (k : Nat) (v : Cvu) : State := { s with cvu := tput s.cvu k v }

/-- A write of HUB_CVU_CTRL: W1C bits, then the other fields and START unless a run is in progress (R191, R193). -/
def Cvu.writeCtrl (v : Cvu) (x : Nat) : Cvu :=
  let v := { v with done := v.done && !bit x 30, mismatch := v.mismatch && !bit x 29, fault := v.fault && !bit x 28 }
  if v.busy then v
  else if bit x 10 then v.begin x
  else { v with ctrl := x &&& 0x3FB }

/-- CVU_START: a write of HUB_CVU_CTRL with START. Units 8–15 are written through the expert window; units 0–7 by Xiuth (R192). -/
def execCvuStart (k ctrl : Nat) (s : State) : Out :=
  if 8 ≤ k && !s.host.expertOn then done s (expertRefuse s (0x10B0000 + 0x40 * k))
  else done s (putCvu s k ((cvuOf s k).writeCtrl (ctrl ||| 0x400)))

/-- CVU_DATA_WRITE: up to four bytes through the data port (R193). -/
def execCvuDataWrite (k len value : Nat) (s : State) : Out :=
  if 8 ≤ k && !s.host.expertOn then done s (expertRefuse s (0x10B000C + 0x40 * k))
  else done s (putCvu s k ((cvuOf s k).feed (natLe (min len 4) value)))

/-- Does the holiday segment in progress hold what a run needs (R338): scrub units 0–3 and the die it reads, a test of switch port 10 the way to
memory? -/
def cvuHeld (s : State) (k : Nat) (v : Cvu) : Bool :=
  match s.st.seg with
  | none => false
  | some g => g.kind = 5 && (k < 4 || !v.port && memLevel v.addr = some 3 && g.die = some (storeAt v.addr).1) || g.kind = 2 && g.item = 10 && !v.port

/-- CVU_RUN_DONE: a run ends, a run from the data port once its bytes have arrived, one that a holiday segment holds once it has ended (R191, R193,
R338). -/
def execCvuRunDone (k : Nat) (s : State) : Out :=
  let v := cvuOf s k
  if !v.busy || (v.port && v.left ≠ 0) || cvuHeld s k v then done s s
  else done s (putCvu (countRun s (cvuMayRead s k) v) k (v.run' s (cvuMayRead s k)))

/-! ## Repair (R185) -/

/-- Copy the good copy of a tile over the failed one, as the partition that owns it: data, then checksum and validity, with an
Almanac info record. A write outside the partition's units is dropped and recorded (R169). -/
def repairTile (s : State) (bad good k gen part : Nat) : State :=
  if !mapped bad (2 ^ k) then alm s 0x0000 .unmapped 3 [bad, part, 0]
  else if !mayWrite s part bad (2 ^ k) then alm s 0x0000 .unmapped 3 [bad, part, tagOf s bad]
  else if !tilePass s good k gen then s
  else
    let bs := rd s good (2 ^ k)
    let s := countBytes (countBytes s 9 3 good (2 ^ k) false) 9 3 bad (2 ^ k) true
    alm (putTile s bad k gen (tileCrc bad gen bs) bs) 0x0000 .weightRepair 1 [bad, good]

/-- WEIGHT_REPAIR: the repair of the tile at `addr` that a stage-2 pass or a scrub asked for (R185, R189). -/
def execWeightRepair (addr : Nat) (s : State) : Out :=
  match s.repairs.find? (fun r => r.1 = addr) with
  | none => done s s
  | some (bad, good, k, gen, part) =>
    done s (repairTile { s with repairs := s.repairs.filter (fun r => r.1 ≠ addr) } bad good k gen part)

end Sys2Proof.Machine
end

