-- ==== Sys2Proof/Machine/Health.lean ====
section
/-!
DEFINITION. Cluster health (R310–R327): charges, disputed frames, quarantine and its rate limit, hard faults, heartbeats, common
cause, deep self-test, and the attribution of checksum failures.
-/

namespace Sys2Proof.Machine

/-- Quarter of a cluster's global number. -/
def quarterOf (g : Nat) : Nat := g / 72
/-- Is a Quarter activated by the running Season? -/
def quarterOn (s : State) (q : Nat) : Bool := s.host.ready && bit s.season.cfg.quarters q && bit s.ident.present q
/-- Health of a Quarter. -/
def hltQOf (s : State) (q : Nat) : HltQ := tget s.hltQ q {}
/-- Change the health of a Quarter. -/
def modHltQ (s : State) (q : Nat) (f : HltQ → HltQ) : State := { s with hltQ := tmod s.hltQ q {} f }
/-- Almanac SOURCE of a cluster. -/
def srcClu (g : Nat) : Nat := 0x1000 + g

/-- Code of a health state (Table 14.1 of HUB_HLT_CLU). -/
def stateCode : CluState → Nat
  | .inService => 0 | .inTest => 1 | .probation => 2 | .quarantined => 3 | .fenced => 4 | .restricted => 5 | .retired => 6

/-- Set a bit of a cluster's EVENTS in the frame report (Table 17.18). -/
def cluFlag (s : State) (g b : Nat) : State :=
  modStats s (fun f => { f with clu := tmod f.clu g (0, 0, 0) (fun x => (x.1, x.2.1, x.2.2 ||| 2 ^ b)) })

/-! ## Leaving work (R69, R316, R318) -/

/-- A cluster becomes QUARANTINED: its outstanding work is voided (R69), R49 will move its plans, and deep self-test may start. -/
def quarantineNow (s : State) (g : Nat) (hard : Bool) : State :=
  let s := modHealth s g (fun h => { h with
                                     state := .quarantined, deferred := false, decided := none, passes := 0, fails := 0, disputed := [],
                                     cleanRun := 0, testing := false, lastTest := none, fenceFail := false, hardQ := hard })
  let s := fenceWork s (rClu g)
  let s := { s with moved := if s.moved.contains g then s.moved else s.moved ++ [g] }
  alm (cluFlag s g 4) (srcClu g) .health 2 [3, b2n hard]

/-- One more quarantine in HUB_HLT_COUNT. -/
def countQuarantine (s : State) : State := { s with quarantines := sat 255 (s.quarantines + 1) }

/-- A hard fault (R318): the score falls to 0 (Table 14.2), Vigil A gets a hard-fault event, the Almanac a safety record, and a
cluster in work is QUARANTINED at once. A FENCED one becomes so when it is released (R314, R325; DEDUCED, log 23). -/
def hardFault (s : State) (g cause : Nat) : State :=
  let h := healthOf s g
  let s := modHealth s g (fun h => { h with score := 0, clean := 0, cleanRun := 0, charged := true })
  let s := { s with hards := sat 255 (s.hards + 1) }
  let s := alm s (srcClu g) .hardFault 4 [cause, s.cal.frame]
  let s := vgPush s { stamp := s.now, kind := .hardFault, unit := rClu g, frame := s.cal.frame, status := cause }
  match h.state with
  | .inService | .inTest | .probation | .restricted => countQuarantine (quarantineNow s g true)
  | .fenced => modHealth s g (fun h => { h with fenceFail := true, hardQ := true })
  | _ => s

/-- HARD_FAULT: one of the events of Table 14.3 (0 lockstep, 1 bus timeout, 2 router, 3 stopped task, 4 DEAD, 5 LBIST). -/
def execHardFault (g cause : Nat) (s : State) : Out := done s (hardFault s g cause)

/-- BUS_TIMEOUT (Table 14.3). -/
def execBusTimeout (g : Nat) (s : State) : Out := done s (hardFault s g 1)

/-! ## Quarantine decisions (R316, R317) -/

/-- The order number of a new decision: after every one that waits. -/
def nextDecision (s : State) : Nat := s.health.foldl (fun n p => max n (p.2.decidedAt + 1)) 1

/-- Does another decided expulsion of the Quarter wait? -/
def expelWaiting (s : State) (g : Nat) : Bool :=
  s.health.any (fun p => p.1 ≠ g && quarterOf p.1 = quarterOf g && p.2.decided.isSome && p.2.state ≠ .inTest)

/-- Has a Quarter expelled nothing in the 10 s before `t`? -/
def expelFree (s : State) (q t : Nat) : Bool :=
  match (hltQOf s q).lastExpel with
  | some e => e + 10000000000 ≤ t
  | none => true

/-- Decide to quarantine a cluster in work: at the next Calend, or DEFERRED where the limit of one expulsion per Quarter in 10 s
holds it back. -/
def decideQuarantine (s : State) (g : Nat) : State :=
  let h := healthOf s g
  if h.decided.isSome then s
  else
    let hold := h.state ≠ .inTest && (expelWaiting s g || !expelFree s (quarterOf g) s.cal.next)
    let n := nextDecision s
    let s := modHealth s g (fun h => { h with decided := some s.cal.frame, decidedAt := n, deferred := hold })
    if hold then alm (cluFlag s g 6) (srcClu g) .expulsion 2 [(healthOf s g).score] else s

/-- Carry out a decided quarantine at a Calend. That of a cluster IN_TEST is no expulsion (R317). -/
def carryOut (s : State) (g : Nat) : State :=
  if (healthOf s g).state = .inTest then quarantineNow s g false
  else countQuarantine (modHltQ (quarantineNow s g false) (quarterOf g) (fun q => { q with lastExpel := some s.now }))

/-- Is a quarantine of `g` decided in an earlier frame than `n` and due at Calend `n`, at time `t`? -/
def quarantineDue (s : State) (g n t : Nat) : Bool :=
  let h := healthOf s g
  (match h.decided with | some f => f < n | none => false) && !h.deferred &&
    (h.state = .inTest || (expelFree s (quarterOf g) t && !(hltQOf s (quarterOf g)).suspended))

/-- Device time reaches the coming Calend, where a change that takes effect at it happens. -/
def atCalend (s : State) : State := { s with now := max s.now s.cal.next }

/-- QUARANTINE: a decided expulsion takes effect at the coming Calend (R316). -/
def execQuarantine (g : Nat) (s : State) : Out :=
  if quarantineDue s g (s.cal.frame + 1) (max s.now s.cal.next) then done s (carryOut (atCalend s) g) else done s s

/-- The deferred cluster of a Quarter decided first. -/
def firstDeferred (s : State) (q : Nat) : Option Nat :=
  (s.health.foldl (fun (b : Option (Nat × Nat)) p =>
    if quarterOf p.1 = q && p.2.deferred && p.2.decided.isSome then
      match b with
      | none => some (p.1, p.2.decidedAt)
      | some x => if p.2.decidedAt < x.2 then some (p.1, p.2.decidedAt) else b
    else b) none).map (·.1)

/-- Is a deferred expulsion of a Quarter due at time `t`, and whose? -/
def deferredDue (s : State) (q t : Nat) : Option Nat :=
  if (hltQOf s q).suspended || !expelFree s q t then none else firstDeferred s q

/-- Is an expulsion of a Quarter decided for the coming Calend? -/
def expelDecided (s : State) (q : Nat) : Bool :=
  s.health.any (fun p => quarterOf p.1 = q && p.2.decided.isSome && !p.2.deferred && p.2.state ≠ .inTest)

/-- DEFERRED_EXPULSION: the first Calend at which 10 s have passed since the Quarter's previous expulsion (R317). -/
def execDeferredExpulsion (q : Nat) (s : State) : Out :=
  match deferredDue s q (max s.now s.cal.next) with
  | some g => done s (carryOut (atCalend s) g)
  | none => done s s

/-! ## Clean frames (R313, R324) -/

/-- 1,000 consecutive clean frames raise the score by 10. -/
def cleanCredit (s : State) (g : Nat) : State :=
  if (healthOf s g).clean ≥ 1000 then modHealth s g (fun h => { h with clean := 0, score := min 1000 (h.score + 10) }) else s

/-- CLEAN_RUN_CREDIT (R313). -/
def execCleanRunCredit (g : Nat) (s : State) : Out := done s (cleanCredit s g)

/-- 10,000 consecutive clean frames end PROBATION. -/
def probationEnd (s : State) (g : Nat) : State :=
  let h := healthOf s g
  if h.state = .probation && h.cleanRun ≥ 10000 then
    alm (modHealth s g (fun h => { h with state := .inService, cleanRun := 0 })) (srcClu g) .health 1 [0, h.score]
  else s

/-- PROBATION_END (R324). -/
def execProbationEnd (g : Nat) (s : State) : Out := done s (probationEnd s g)

/-- Count a frame toward a cluster's clean runs, what the last frame earned paid first. -/
def countClean (h : Health) : Health :=
  let h := if h.clean ≥ 1000 then { h with clean := 0, score := min 1000 (h.score + 10) } else h
  match h.state with
  | .inService | .inTest | .restricted => if h.charged then { h with charged := false } else { h with clean := h.clean + 1 }
  | .probation => if h.charged then { h with charged := false } else { h with clean := h.clean + 1, cleanRun := h.cleanRun + 1 }
  | _ => { h with clean := 0, cleanRun := 0, charged := false }

/-! ## Charges (R311–R321) -/

/-- Two disputed frames at most 7 apart (R316, R321). -/
def closePair (ns : List Nat) : Bool := ns.any (fun a => ns.any (fun b => a < b && b ≤ a + 7))

/-- The score change of a row of Table 14.2. -/
def rowCharge (row : Nat) : Nat := match row with | 0 => 150 | 1 => 200 | 2 => 100 | 3 => 50 | _ => 0

/-- Three clusters of one Quarter charged events of one signature within 1 s suspend its expulsions (R320): pending ones are
cancelled. The quarantine of a cluster IN_TEST is no expulsion (R317) and stands. -/
def commonCause (s : State) (q : Nat) (e : HEvent) : State :=
  let s := { s with commons := sat 255 (s.commons + 1) }
  let s := modHltQ s q (fun x => { x with suspended := true })
  let s := { s with health := s.health.map (fun p => if quarterOf p.1 = q && p.2.state ≠ .inTest then (p.1, { p.2 with deferred := false, decided := none }) else p) }
  let s := alm s 0x0000 .commonCause 4 [q, e.kind, e.opcode]
  notify s 2 q s.alm.head

/-- The clusters of the event's Quarter charged its signature within the second before it. -/
def sameSignature (s : State) (e : HEvent) : List Nat :=
  ((s.hRecent.filter (fun x => quarterOf (gOf x.unit) = quarterOf (gOf e.unit) && x.kind = e.kind && x.opcode = e.opcode
      && e.atT ≤ x.atT + 1000000000)).map (fun x => gOf x.unit)).eraseDups

/-- Charge a cluster for one event. Every disputed event is classified later, a second one of its row and frame too (R315); it is charged once
(R311). The frame that is not clean is the one whose number the event carries (R313, R314): a charge to an earlier one ends the clean run. -/
def chargeCluster (s : State) (e : HEvent) : State :=
  let g := gOf e.unit
  let q := quarterOf g
  let disp := e.row = 0 || e.row = 1
  let key := e.frame * 8 + e.row
  let s := modHealth s g (fun h => { h with
                                     dispEvents := if disp then h.dispEvents ++ [(e.frame, e.planId, e.ctx, e.idx, e.almSeq)] else h.dispEvents })
  if (healthOf s g).chargedRows.contains key then s
  else
    let s := modHealth s g (fun h => { h with chargedRows := key :: h.chargedRows })
    let s := if e.row < 3 then cluFlag s g e.row else s
    if (hltQOf s q).suspended then alm s (srcClu g) .disputed 2 [e.row, e.frame, 1]
    else
      let s := modHealth s g (fun h => { h with
                                         score := h.score - rowCharge e.row, clean := 0, cleanRun := 0, charged := h.charged || e.frame = s.cal.frame,
                                         disputed := if disp && !h.disputed.contains e.frame then (e.frame :: h.disputed).take 16 else h.disputed })
      let s := if disp then cluFlag s g 3 else s
      let s := if e.row = 3 then s else { s with hRecent := s.hRecent ++ [e] }
      if e.row ≠ 3 && (sameSignature s e).length ≥ 3 then commonCause s q e
      else
        let h := healthOf s g
        let work := h.state = .inService || h.state = .inTest || h.state = .probation
        if work && (h.state = .probation || h.score < 400 || closePair h.disputed) then decideQuarantine s g else s

/-- Take note of an event of an engine: disputed frames (R321). -/
def chargeEngine (s : State) (e : HEvent) : State :=
  if e.row ≠ 4 then s
  else
    let ns := tget s.engDisp e.unit []
    if ns.contains e.frame then s
    else
      let ns := (e.frame :: ns).take 16
      let s := { s with engDisp := tput s.engDisp e.unit ns }
      if ns.tail.any (fun a => a < e.frame && e.frame ≤ a + 7 || e.frame < a && a ≤ e.frame + 7) then
        let s := alm s (srcOf e.unit) .engineFault 4 [e.unit, e.frame]
        notify s 4 (rType e.unit) s.alm.head
      else s

/-- Apply one event's rule. -/
def chargeEvent (s : State) (e : HEvent) : State := if isClu e.unit then chargeCluster s e else chargeEngine s e

/-- What became of a disputed command in the following frame (R315): 0 TRANSIENT, 1 REPEATED, 2 UNRESOLVED. -/
def classOf (s : State) (g n planId ctx idx : Nat) : Nat :=
  match (healthOf s g).ran.find? (fun r => r.frame = n + 1 && r.planId = planId && r.ctx = ctx && r.idx = idx) with
  | some r => if r.failed then 1 else 0
  | none => 2

/-- Write the classification of a disputed event into its Almanac record (R315): its payload gains the class. -/
def classify (s : State) (g : Nat) (e : Nat × Nat × Nat × Nat × Nat) : State :=
  let c := classOf s g e.1 e.2.1 e.2.2.1 e.2.2.2.1
  match s.alm.ring.find? (fun p => p.2.seq = e.2.2.2.2) with
  | some (k, r) =>
    let com := commitUp (tget s.alm.commits k 0)
    let r' := { r with payload := r.payload ++ [c], commit := com }
    { s with alm := { s.alm with ring := tput s.alm.ring k r', commits := tput s.alm.commits k com,
                                 due := dueEntry s.alm.due r' (journalDue s.now r.severity false) } }
  | none => s

/-- Classify a cluster's disputed events of frames before `n`. -/
def classifyAll (s : State) (n : Nat) : State :=
  s.health.foldl (fun s p =>
    let due := p.2.dispEvents.filter (fun e => e.1 < n)
    if due.isEmpty then s
    else modHealth (due.foldl (fun s e => classify s p.1 e) s) p.1 (fun h => { h with dispEvents := h.dispEvents.filter (fun e => n ≤ e.1) })) s

/-- The oldest stamp among events, or `t`. -/
def oldestStamp (es : List HEvent) (t : Nat) : Nat := es.foldl (fun m e => min m e.atT) t

/-- The rules of this chapter at Eve + 150 µs of the current frame (R314): events stamped before the instant `t`, the classification
of the previous frame's disputed events, and the clean runs. -/
def evaluateHealth (s : State) (t : Nat) : State :=
  let n := s.cal.frame
  let due := s.hEvents.filter (fun e => e.atT < t)
  let s := { s with hEvents := s.hEvents.filter (fun e => t ≤ e.atT),
                    hRecent := s.hRecent.filter (fun e => oldestStamp due t ≤ e.atT + 1000000000) }
  let s := due.foldl chargeEvent s
  let s := classifyAll s n
  let s := (List.range 288).foldl probationEnd s
  { s with health := (List.range 288).foldl (fun t g => tmod t g {} (fun h =>
           { countClean h with chargedRows := h.chargedRows.filter (fun k => n ≤ k / 8 + 8), ran := h.ran.filter (fun r => n ≤ r.frame + 1) })) s.health }

/-! ## Heartbeats (R319) -/

/-- SEQ_HEARTBEAT: a unit's heartbeat arrives, with the clusters that spoke to it in the previous frame; a cluster's own clears
SUSPECT (R319). -/
def execSeqHeartbeat (u : Nat) (s : State) : Out :=
  match (unitOf s u).hbOut with
  | none => done s s
  | some heard =>
    let s1 := modUnit s u (fun x => { x with hbOut := none })
    let s1 := heard.foldl (fun s g => modHealth s g (fun h => { h with active := max h.active (s.cal.frame - 1) })) s1
    done s (if isClu u then modHealth s1 (gOf u) (fun h => { h with hbSeen := true, suspect := false, dead := false }) else s1)

/-- The verdict on a cluster whose heartbeat has been missing in three consecutive frames. -/
def verdict (s : State) (g : Nat) : State :=
  let h := healthOf s g
  if h.dead then s
  else if h.active + 2 < s.cal.frame then hardFault (modHealth s g (fun h => { h with dead := true })) g 4
  else if h.suspect then s
  else
    let s := modHealth s g (fun h => { h with suspect := true })
    let s := { s with suspects := sat 255 (s.suspects + 1) }
    let s := alm (cluFlag s g 5) (srcClu g) .suspect 2 [g, s.cal.frame]
    notify s 3 g s.alm.head

/-- The heartbeat of one cluster is judged: a missing one is counted, and the third in a row brings the verdict. A cluster of a Quarter that is
not activated, and one that did not answer at discovery, sends none. -/
def judgeHeartbeat (s : State) (g : Nat) : State :=
  let h := healthOf s g
  if !quarterOn s (quarterOf g) || !h.answers then s
  else if h.hbSeen then modHealth s g (fun h => { h with hbMissing := 0 })
  else
    let s := modHealth s g (fun h => { h with hbMissing := min 3 (h.hbMissing + 1) })
    if h.hbMissing ≥ 2 then verdict s g else s

/-- The heartbeats of every cluster. -/
def judgeHeartbeats (s : State) : State := (List.range 288).foldl judgeHeartbeat s

/-- HEARTBEAT_DEADLINE: at Calend + 100 µs, once a frame. -/
def execHeartbeatDeadline (s : State) : Out :=
  if s.cal.frame = 0 || s.hbJudged = s.cal.frame then done s s
  else done s (judgeHeartbeats { s with now := max s.now (s.cal.calend + 100000), hbJudged := s.cal.frame })

/-! ## Attribution (R312) -/

/-- Does the stored tile pass its re-check? One whose reader cleared its VALID is judged as the reader met it. -/
def recheck (s : State) (f : TileFail) : Bool := f.valid && (tileEntry s f.loc).crc = tileCrc f.loc f.gen (rd s f.loc (2 ^ f.log2))

/-- CHECK_ATTRIBUTION: Xiuth re-checks the tile of the oldest stage-3 failure with its CVU `k` (4–7) and attributes the failure. -/
def execCheckAttribution (k : Nat) (s : State) : Out :=
  match s.tileFails with
  | [] => done s s
  | f :: rest =>
    if k < 4 || 7 < k || (cvuOf s k).busy then done s s
    else
      let v : Cvu := { cvuOf s k with addr := f.loc, seq := f.gen, len := 2 ^ f.log2, expect := (tileEntry s f.loc).crc }
      let ok := cvuMayRead s k
      let s1 := putCvu (countRun { s with tileFails := rest } ok (v.begin 0x318)) k ((v.begin 0x318).run' s ok)
      let charge (g : Nat) : State :=
        { s1 with hEvents := s1.hEvents ++ [{ atT := s.now, row := 2, unit := rClu g, frame := f.frame, kind := 5, opcode := f.opcode }] }
      if recheck s f then done s (if isClu f.unit then charge (gOf f.unit) else s1)
      else if memLevel f.loc = some 0 then done s (charge ((f.loc - 0x120000000000) / 0x200000))
      else done s (modStats s1 (fun x => { x with unattributed := x.unattributed + 1 }))

/-! ## Deep self-test (R323) -/

/-- May a cluster start a run: QUARANTINED or FENCED, its Quarter activated, an answer at discovery, 10 s after the previous start? -/
def mayTest (s : State) (g : Nat) : Bool :=
  let h := healthOf s g
  (h.state = .quarantined || h.state = .fenced) && quarterOn s (quarterOf g) && h.answers && !h.testing && (h.passes < 3 || h.state = .fenced) &&
    (match h.lastTest with | some t => t + 10000000000 ≤ s.now | none => true)

/-- DEEP_SELF_TEST_START (R323). -/
def execDeepSelfTestStart (g : Nat) (s : State) : Out :=
  if mayTest s g then done s (modHealth s g (fun h => { h with testing := true, lastTest := some s.now })) else done s s

/-- Has the last relay into the active microcode bank of a cluster matched its DIGEST? Its deep self-test fails until one does (R411). -/
def relayGood (s : State) (g : Nat) : Bool := let u := unitOf s (rClu g); tget u.relayOk u.ucBank true

/-- DEEP_SELF_TEST_DONE: a run ends. The third pass in a row lets a quarantined cluster enter PROBATION at the next Calend (Table
14.4; DEDUCED, log 23); the eighth failure in a row retires it. A failed LBIST is a hard fault besides (R318). -/
def execDeepSelfTestDone (g : Nat) (pass lbist : Bool) (s : State) : Out :=
  let h := healthOf s g
  let pass := pass && relayGood s g
  if !h.testing then done s s
  else
    let h1 : Health := { h with testing := false, passes := if pass then min 3 (h.passes + 1) else 0, fails := if pass then 0 else min 8 (h.fails + 1) }
    let h1 := if h.state = .fenced then { h1 with fenceFail := h.fenceFail || !pass }
      else if h1.fails = 8 then { h1 with state := .retired } else h1
    let s1 := alm (modHealth s g (fun _ => h1)) (srcClu g) .health (if pass then 1 else 2) [7, b2n pass, h1.passes, h1.fails]
    done s (if !pass && lbist then hardFault s1 g 5 else s1)

/-- A quarantined cluster with three passes enters PROBATION with score 600. -/
def promote (s : State) (g : Nat) : State :=
  let h := healthOf s g
  if h.state = .quarantined && h.passes = 3 then
    alm (modHealth s g (fun h => { h with state := .probation, score := 600, clean := 0, cleanRun := 0, hardQ := false, lastTest := none }))
      (srcClu g) .health 1 [2, 600]
  else s

/-! ## The rotation of operations on a cluster that the mailbox asks for (R325, R326) -/

/-- FENCE: a cluster in work is FENCED at once, its work voided (R69); others stay as they are. -/
def fenceClu (s : State) (g : Nat) : State :=
  let h := healthOf s g
  match h.state with
  | .inService | .probation | .restricted | .inTest =>
    let s := modHealth s g (fun h => { h with
                                       state := .fenced, prior := if h.state = .inTest then h.prior else h.state, fenceFail := false, passes := 0, fails := 0,
                                       testing := false, lastTest := none, deferred := false, decided := none })
    let s := fenceWork s (rClu g)
    let s := { s with moved := if s.moved.contains g then s.moved else s.moved ++ [g] }
    alm s (srcClu g) .fence 2 [0, 4]
  | _ => s

/-- RELEASE: back to the state before the fence, or QUARANTINED after a failed test. -/
def releaseClu (s : State) (g : Nat) : State :=
  let h := healthOf s g
  let st := if h.fenceFail then .quarantined else h.prior
  let s := modHealth s g (fun h => { h with state := st, fenceFail := false, passes := 0, fails := 0, testing := false, lastTest := none })
  alm s (srcClu g) .fence 2 [1, stateCode st]

/-! ## Registers -/

/-- HUB_HLT_CLUg. -/
def regHltClu (s : State) (g : Nat) : Nat :=
  let h := healthOf s g
  stateCode h.state * 2 ^ 29 + b2n h.deferred * 2 ^ 28 + b2n h.suspect * 2 ^ 27 + min 3 h.passes * 2 ^ 25 + min 8 h.fails * 2 ^ 21 +
    min 1000 h.score * 1024 + min 999 h.clean

/-- The clusters that the active variants of the admitted plans use. -/
def usedClusters (s : State) : List Nat :=
  s.plans.flatMap (fun p =>
    if p.admitted && !p.retired then
      ((tasksOf p.image).flatMap (taskUnits p.image p.variant)).filterMap (fun u => if isClu u then some (gOf u) else none)
    else [])

/-- SPARES_FREE of a Quarter: clusters IN_SERVICE, or IN_TEST, that no plan uses. -/
def sparesFree (s : State) (q : Nat) : Nat :=
  if !quarterOn s q then 0
  else
    let used := usedClusters s
    ((List.range 72).filter (fun c => !used.contains (72 * q + c) &&
      (match (healthOf s (72 * q + c)).state with | .inService | .inTest => true | _ => false))).length

/-- HUB_HLT_Qq. A Quarter that has expelled nothing counts from the reset. -/
def regHltQ (s : State) (q : Nat) : Nat :=
  let h := hltQOf s q
  b2n h.suspended * 2 ^ 31 + b2n h.exhausted * 2 ^ 30 + sparesFree s q * 65536 +
    sat 0xFFFF ((s.now - h.lastExpel.getD 0) / 1000000000)

/-- HUB_HLT_COUNT. -/
def regHltCount (s : State) : Nat := s.quarantines * 2 ^ 24 + s.hards * 65536 + s.commons * 256 + s.suspects

end Sys2Proof.Machine
end

