-- ==== Sys2Proof/Machine/Vigil.lean ====
section
/-!
DEFINITION. The Vigil islands (R289–R309): heartbeats and loss, restarts, holds and SAFE edges, the Eve check and the frame outcome, the
SPI link, debug, and the supervision of task budgets.
-/

namespace Sys2Proof.Machine

/-- An island. -/
def islOf (s : State) (i : Isl) : Island := match i with | .a => s.islA | .b => s.islB
/-- Change an island. -/
def modIsl (s : State) (i : Isl) (f : Island → Island) : State :=
  match i with
  | .a => { s with islA := f s.islA }
  | .b => { s with islB := f s.islB }
/-- The other island. -/
def peer (i : Isl) : Isl := match i with | .a => .b | .b => .a
/-- Almanac SOURCE of an island. -/
def srcIsl (i : Isl) : Nat := match i with | .a => 0x8000 | .b => 0x9000

/-- Is a hold cause of Table 13.3 other than RESET present? -/
def Island.heldHard (x : Island) : Bool := x.hDebug || x.hCmpFail || x.hPeerLost || x.hBoard || x.hRestartFail
/-- Is any hold cause present (R295)? -/
def Island.held (x : Island) : Bool := x.heldHard || x.hReset
/-- HUB_VG_STATUS.HOLD. -/
def Island.holdBits (x : Island) : Nat :=
  b2n x.hReset + 2 * b2n x.hRestartFail + 4 * b2n x.hBoard + 8 * b2n x.hPeerLost + 16 * b2n x.hCmpFail + 32 * b2n x.hDebug

/-- Hold an island: its SAFE output goes to 0 (R295). -/
def holdIsl (s : State) (i : Isl) (f : Island → Island) : State := modIsl s i (fun x => { f x with safe := false })

/-! ## The status frame (R302, Table 13.5) -/

/-- The first 30 bytes of a status frame with its CRC. -/
def sealFrame (bs : List Byte) : List Byte := let b := padTo 30 bs; b ++ natLe 2 (crc16 b)

/-- The frame Vigil B writes when it starts. -/
def initialFrame (s : State) : List Byte :=
  sealFrame ([0xA5, 1] ++ natLe 6 0 ++ [7, 0] ++ natLe 1 s.islA.holdBits ++ natLe 1 s.islB.holdBits ++ natLe 2 0 ++
    natLe 1 (s.islB.inp * 8 + s.islA.inp) ++ natLe 1 s.vg.badCmds)

/-- The frame Vigil B writes when it has judged a frame. -/
def statusFrameOf (s : State) (goodB : Bool) : List Byte :=
  sealFrame ([0xA5, 1] ++ natLe 6 s.cal.frame ++ natLe 1 s.cal.outcome ++
    natLe 1 (b2n s.islA.good + 2 * b2n s.islB.good + 4 * b2n goodB + 8 * b2n s.cal.firstOfSeason) ++
    natLe 1 s.islA.holdBits ++ natLe 1 s.islB.holdBits ++ natLe 2 s.vg.rail ++ natLe 1 (s.islB.inp * 8 + s.islA.inp) ++
    natLe 1 s.vg.badCmds ++ natLe 2 (twos 16 s.vg.tjMaxFrame) ++ natLe 2 (sat 255 s.stats.restartsB * 256 + sat 255 s.stats.restartsA) ++
    natLe 8 s.cal.eve ++ natLe 2 s.cal.periodReg)

/-! ## The Eve check (R34, R308) -/

/-- Precedence of an outcome of Table 2.2. -/
def outcomeRank : Nat → Nat
  | 0 => 6 | 1 => 4 | 2 => 1 | 3 => 3 | 4 => 2 | _ => 5

/-- The outcome that is reported of several. -/
def worstOutcome (xs : List Nat) (d : Nat) : Nat := xs.foldl (fun a b => if outcomeRank b < outcomeRank a then b else a) d

/-- Does an admitted plan run in the current frame? -/
def runsNow (s : State) (p : Plan) : Bool := p.admitted && !p.retired && p.startFrame ≤ s.cal.frame

/-- The command whose output token goes to output `o` of a plan: its task and CMD_INDEX. -/
def outputCmd (img : List Byte) (o : Nat) : Option (Nat × Nat) :=
  (tasksOf img).findSome? (fun t =>
    ((descsOf img t).zipIdx).findSome? (fun d =>
      match cmdDests img t d.1 with
      | some gs => if gs.any (fun g => g.any (fun e => e.result && e.target = o)) then some (t.id, d.2) else none
      | none => none))

/-- The state that a completion STATUS contributes, but for INPUT_VOID (Table 13.7). -/
def statusState (st : Nat) : Nat := match st with | 0 => 0 | 2 => 4 | 3 => 4 | 5 => 3 | _ => 2

/-- The state INPUT_VOID contributes: that of the earliest-stamped P0 completion in the frame that explains it. -/
def voidState (es : List VgEvent) : Nat :=
  match es.filter (fun e => e.kind = .completion && e.p0 && e.status ≠ 0 && e.status ≠ 4) with
  | [] => 2
  | x :: xs => statusState (xs.foldl (fun b e => if e.stamp < b.stamp then e else b) x).status

/-- Is a command of a plan armed or running anywhere for frame `n`? -/
def cmdPending (s : State) (id task idx n : Nat) : Bool :=
  s.units.any (fun pu => pu.2.ctxs.any (fun p => p.2.queue.any (fun a => a.planId = id && a.task = task && a.idx = idx && a.frame = n)))

/-- The units on which the active variant of a plan places P0 work. -/
def p0Units (s : State) (p : Plan) : List Nat :=
  ((tasksOf p.image).filter (fun t => t.part = 0)).flatMap (fun t => (taskUnits p.image p.variant t).map (physOf s))

/-- The state of listed output `o` of a plan at Eve (Table 13.7). Table 2.2 asks of PASS that the output is published with all checks passed, and
Table 13.7 counts a completion DONE before Eve: where the result unit has not published by Eve, or finds a tile bad, the model follows Table 13.7
(DESIGN CHOICE, log 45). -/
def outputState (s : State) (p : Plan) (o : Nat) : Nat :=
  let n := s.cal.frame
  let hard := s.vg.events.any (fun e => e.kind = .hardFault && s.cal.calend ≤ e.stamp && e.stamp < s.cal.eve && (p0Units s p).contains e.unit)
  let own := match outputCmd p.image o with
    | none => 3
    | some (t, i) =>
      let es := s.vg.events.filter (fun e => e.kind = .completion && e.frame = n)
      let mine := es.filter (fun e => e.planId = p.planId && e.task = t && e.idx = i)
      let before := mine.filter (fun e => e.stamp < s.cal.eve)
      let early := es.filter (fun e => e.stamp < s.cal.eve)
      if before.isEmpty then (if !mine.isEmpty || cmdPending s p.planId t i n then 1 else 3)
      else worstOutcome (before.map (fun e => if e.status = 4 then voidState early else statusState e.status)) 0
  worstOutcome (own :: (if hard then [2] else [])) 0

/-- The states of all listed outputs of the P0 plans of the frame: plan, output, state. -/
def outputStates (s : State) : List (Nat × Nat × Nat) :=
  s.plans.flatMap (fun p =>
    if runsNow s p && usesP0 p.image then
      ((List.range (outputCount p.image)).filter (fun o => (outAt p.image o).safety)).map (fun o => (p.planId, o, outputState s p o))
    else [])

/-- The frame outcome from the output states (Table 2.2, R308, R341). -/
def frameOutcome (s : State) (states : List (Nat × Nat × Nat)) : Nat :=
  let base := if s.plans.any (fun p => runsNow s p && usesP0 p.image) then 0 else 5
  worstOutcome ((states.map (fun x => x.2.2)) ++ (if s.vg.queueOvf || s.vg.holidayFailed then [2] else [])) base

/-- May an island make an edge for a qualifying frame, its own RESET hold aside (R294)? -/
def mayEdge (s : State) (i : Isl) : Bool :=
  let x := islOf s i
  let y := islOf s (peer i)
  !x.heldHard && !y.hCmpFail && !y.hRestartFail && !x.lostSinceEve

/-- Fix an island's judgement: whether the frame qualifies for an edge, which ends its RESET hold. -/
def judgeIsl (s : State) (i : Isl) (ok : Bool) : State :=
  let q := ok && mayEdge s i
  modIsl s i (fun x => { x with judged := true, good := q, hReset := x.hReset && !q, lostSinceEve := x.hPeerLost })

/-- Vigil A fixes the outcome of the frame. -/
def judgeA (s : State) : State :=
  let st := outputStates s
  let o := frameOutcome s st
  let s := { s with cal := { s.cal with outcome := o, lastOutcome := o }, vg := { s.vg with outStates := st } }
  judgeIsl s .a (o = 0)

/-- Is the frame good for SAFE_B: nothing of Table 13.2 breached since the previous Eve, and none of the conditions that stay breached, a lost
Vigil A or THERMTRIP_N, present (R293)? -/
def goodForB (s : State) : Bool := !s.vg.breached && !s.islB.hPeerLost && !s.vg.tripped

/-- Vigil B fixes SAFE_B and writes the status frame (R293, R302). -/
def fixB (s : State) (good : Bool) : State :=
  let s := judgeIsl s .b good
  let s := { s with vg := { s.vg with breached := s.vg.breachedNext, breachedNext := false } }
  { s with vg := { s.vg with statusFrame := statusFrameOf s good } }

/-- Vigil B's judgement. -/
def judgeB (s : State) : State := fixB s (goodForB s)

/-- EVE_CHECK: between Eve + 5 µs and Eve + 150 µs the islands whose cores run fix their judgements (R308, R309), Vigil A first. -/
def execEveCheck (s : State) : Out :=
  let t := max s.now (s.cal.eve + 5000)
  if s.cal.frame = 0 || t > s.cal.eve + 150000 then done s s
  else
    let s1 := { s with now := t }
    let s1 := if s1.islA.works && !s1.islA.judged then judgeA s1 else s1
    done s (if s1.islB.works && !s1.islB.judged && s1.islA.judged then judgeB s1 else s1)

/-- What Eve + 150 µs brings: a judgement not fixed by then makes no edge and Vigil A's outcome is FAILED (R309); and the health rules are
applied (R314). Once a frame. Vigil B fixes its own up to that instant, whether or not Vigil A has; after it the frame is not good. -/
def eveDeadline (s : State) : State :=
  let s := if s.islA.judged then s
    else
      let s := modIsl s .a (fun x => { x with judged := true, good := false, lostSinceEve := x.hPeerLost })
      { s with cal := { s.cal with outcome := 2, lastOutcome := 2 }, vg := { s.vg with outStates := outputStates s } }
  let s := if s.islB.judged then s
    else if s.islB.works then fixB s (s.now ≤ s.cal.eve + 150000 && goodForB s)
    else
      let s := modIsl s .b (fun x => { x with judged := true, good := false, lostSinceEve := x.hPeerLost })
      { s with vg := { s.vg with breached := s.vg.breachedNext, breachedNext := false } }
  if s.cal.evalDone then s else evaluateHealth { s with cal := { s.cal with evalDone := true } } (s.cal.eve + 150000)

/-- EVE_DEADLINE (R309, R314). -/
def execEveDeadline (s : State) : Out :=
  if s.cal.frame = 0 then done s s else done s (eveDeadline { s with now := max s.now (s.cal.eve + 150000) })

/-- SAFE_EDGE: an island toggles its output for a frame that qualifies, once, after its judgement and between Eve + 10 µs and
Eve + 200 µs, if what R294 asks of it and of its partner still holds then (R294, R296). -/
def execSafeEdge (isl : Isl) (s : State) : Out :=
  let x := islOf s isl
  let t := max s.now (s.cal.eve + 10000)
  if s.cal.frame = 0 || !x.judged || !x.good || !mayEdge s isl || x.edged || x.held || !x.works || t > s.cal.eve + 200000 then done s s
  else done s (modIsl { s with now := t } isl (fun x => { x with edged := true, safe := !x.safe, toggles := (x.toggles + 1) % 65536 }))

/-! ## Restarts (R297–R299) -/

/-- Count one island restart of the frame. -/
def countRestart (s : State) (i : Isl) : State :=
  modStats s (fun f => match i with | .a => { f with restartsA := sat 255 (f.restartsA + 1) } | .b => { f with restartsB := sat 255 (f.restartsB + 1) })

/-- Both cores of an island get new contents that the spec does not state: their reset, or what the firmware has done to them since a debug
write. They stay equal (R289). -/
def freshCores (s : State) (i : Isl) : State :=
  let (n, s) := draw s
  modIsl s i (fun x => { x with regSeed := n, regsMain := [], regsChk := [] })

/-- Begin a pair restart of a cause (0 mismatch, 1 asynchronous mismatch, 2 watchdog or brown-out, 3 debug detach): both cores are reset at once,
or once the partner's restart has ended (R298). A restart that a detach is owed is under way with it (R304). -/
def beginRestart (s : State) (i : Isl) (cause : Nat) (retry : Bool) : State :=
  let y := islOf s (peer i)
  if y.restarting || y.waiting then modIsl s i (fun x => { x with deferred := true, cause := cause, waiting := false })
  else
    let s := modIsl (freshCores s i) i (fun x =>
      let x := { x with restarting := true, deferred := false, waiting := false, cause := cause, halted := false, replay := [],
                        detach := if x.detach = 1 then 2 else x.detach }
      if cause = 1 then { x with rAsync := sat 255 (x.rAsync + 1) }
      else if cause = 2 && !retry then { x with rWdog := sat 255 (x.rWdog + 1) }
      else { x with rOther := sat 255 (x.rOther + 1) })
    alm (countRestart s i) (srcIsl i) .islandRestart (if cause = 1 then 1 else 3) [cause]

/-- Start a restart on an island whose cores run or are halted. -/
def restartIsl (s : State) (i : Isl) (cause : Nat) : State :=
  let x := islOf s i
  if !x.running || x.restarting || x.waiting || x.deferred then s else beginRestart s i cause false

/-- Does a comparator test pass: every group flagged its injection, and nothing else was flagged (R299)? -/
def cmpPass (flagged : Nat) (clean : Bool) : Bool := flagged = 2 ^ 64 - 1 && clean

/-- COMPARATOR_MISMATCH: both cores halt and the pair restarts (R297, R300). -/
def execComparatorMismatch (isl : Isl) (group : Nat) (async : Bool) (s : State) : Out :=
  if !(islOf s isl).works then done s s
  else done s (restartIsl (modIsl s isl (fun x => { x with lastGroup := group % 64 })) isl (if async then 1 else 0))

/-- VIGIL_WATCHDOG_EXPIRY: the window watchdog resets both cores where the firmware services it earlier than 80 µs or later than 120 µs after the
previous service, or (`serviced` false) has not serviced it by then. A service in the window opens the next one (R290, R298). -/
def execVigilWatchdogExpiry (w : WdogService) (s : State) : Out :=
  let isl := w.isl
  let x := islOf s isl
  if !w.serviced then done s (restartIsl { s with now := max s.now (x.lastWdog + 120000) } isl 2)
  else if !x.works then done s s
  else if x.lastWdog + 80000 ≤ s.now && s.now ≤ x.lastWdog + 120000 then done s (modIsl s isl (fun x => { x with lastWdog := s.now }))
  else done s (restartIsl s isl 2)

/-- ISLAND_BROWN_OUT (R298). -/
def execIslandBrownOut (isl : Isl) (s : State) : Out := done s (restartIsl s isl 2)

/-- RESTART_RETRY: 1 ms after a failed restart (R298). -/
def execRestartRetry (isl : Isl) (s : State) : Out :=
  let x := islOf s isl
  if !x.waiting then done s s
  else done s (beginRestart { s with now := max s.now (x.failedAt + 1000000) } isl x.cause true)

/-- A restart of an island that waited for its partner's begins. -/
def startDeferred (s : State) (i : Isl) : State :=
  let x := islOf s i
  if x.deferred && x.running then beginRestart s i x.cause false else s

/-- Vigil A's or Vigil B's persistent state becomes what a snapshot holds; Vigil A then processes every queue entry that the snapshot does not
cover, which are those the queue still holds (R292, R298). -/
def restoreFrom (s : State) (i : Isl) (p : IslSnap) : State :=
  match i with
  | .a => { s with vg := (Vg.process { s.vg with events := p.events.filter (fun e => s.cal.frame ≤ e.frame + 1), processed := 0 }) }
  | .b => { s with vg := { s.vg with breached := p.breached, breachedNext := p.breachedNext } }

/-- A restart ends well: the state comes from the partner's snapshot, the island resumes, a debug hold clears where the restart followed the
detach, and a deferred restart of the partner begins. A detach during the restart is followed by another (R298, R304). -/
def resumeIsl (s : State) (i : Isl) : State :=
  let x := islOf s i
  let s := restoreFrom s i ((islOf s (peer i)).snapshot.getD {})
  let s := modIsl s i (fun x => { x with restarting := false, fails := 0, lastWdog := s.now, lastHb := s.now,
                                         hDebug := x.hDebug && x.detach ≠ 2, detach := if x.detach = 2 then 0 else x.detach })
  let s := modIsl s (peer i) (fun y => { y with peerCmpOk := true, lastHb := s.now })
  let s := startDeferred s (peer i)
  if x.detach = 1 && !x.attached then restartIsl s i 3 else s

/-- A restart fails: again in 1 ms, or after the third in a row the island holds with RESTART_FAIL, and the partner waits no longer for it. -/
def failRestart (s : State) (i : Isl) : State :=
  let x := islOf s i
  if x.fails ≥ 2 then
    let s := holdIsl s i (fun x => { x with restarting := false, fails := 3, running := false, hRestartFail := true })
    startDeferred (alm s (srcIsl i) .restartFail 4 []) (peer i)
  else modIsl s i (fun x => { x with restarting := false, waiting := true, fails := x.fails + 1, failedAt := s.now })

/-- Does a pair restart end well: its comparator test passed, and the partner supplies a snapshot, being neither lost nor restarting (R298, R299)? -/
def restartOk (s : State) (i : Isl) (flagged : Nat) (clean : Bool) : Bool :=
  let y := islOf s (peer i)
  cmpPass flagged clean && y.running && !y.restarting && !y.waiting && !(islOf s i).hPeerLost

/-- PAIR_RESTART_DONE: the restart ends (R298, R299). -/
def execPairRestartDone (isl : Isl) (flagged : Nat) (clean : Bool) (s : State) : Out :=
  if !(islOf s isl).restarting then done s s
  else
    let s1 := modIsl s isl (fun x => { x with flagged := flagged % 2 ^ 64 })
    done s (if restartOk s isl flagged clean then resumeIsl s1 isl else failRestart s1 isl)

/-! ## Reset of an island (R295, R299) -/

/-- ISLAND_RESET_RELEASE: the island starts with a comparator test; the first of its test decides CMP_FAIL (R299). Vigil A processes what the
queue holds. A detach while it was in reset is followed by its pair restart (R304). -/
def execIslandResetRelease (isl : Isl) (flagged : Nat) (clean : Bool) (s : State) : Out :=
  let x := islOf s isl
  if x.running then done s s
  else
    let ok := cmpPass flagged clean
    let s1 := holdIsl s isl (fun x => { x with running := true, hReset := true, flagged := flagged % 2 ^ 64, hCmpFail := !ok,
                                               cmpTestDone := true, lastWdog := s.now, lastHb := s.now, judged := false, good := false, edged := false })
    let s1 := if ok then modIsl s1 (peer isl) (fun y => { y with peerCmpOk := true, lastHb := s.now })
      else alm s1 (srcIsl isl) .cmpFail 4 [flagged % 2 ^ 32, flagged / 2 ^ 32]
    let s1 := freshCores s1 isl
    let s1 := match isl with
      | .a => { s1 with vg := s1.vg.process }
      | .b => { s1 with vg := { s1.vg with statusFrame := initialFrame s1 } }
    done s (if x.detach = 0 then s1 else restartIsl s1 isl 3)

/-- ISLAND_RESET_ASSERT: the island stops and holds under RESET; what it kept of its partner and its own persistent state are gone. Its counters
count from the device's reset and stay; the other holds clear only as Table 13.3 says. A partner that waited for its restart begins its own. -/
def execIslandResetAssert (isl : Isl) (s : State) : Out :=
  let s1 := holdIsl s isl (fun x => { x with running := false, hReset := true, restarting := false, waiting := false, deferred := false,
                                             fails := 0, halted := false, replay := [], hbOut := none, noticeIn := false, good := false,
                                             snapshot := none, detach := if x.detach = 0 then 0 else 1 })
  let s1 := match isl with
    | .a => { s1 with vg := { s1.vg with events := [], processed := 0 } }
    | .b => { s1 with vg := { s1.vg with breached := false, breachedNext := false } }
  done s (startDeferred s1 (peer isl))

/-! ## Heartbeats and loss (R291) -/

/-- The persistent state an island sends: the frame it works on, and Vigil A's events with the queue entries they cover, or Vigil B's breaches. -/
def snapshotOf (s : State) (i : Isl) : IslSnap :=
  match i with
  | .a => { frame := s.cal.frame, events := s.vg.events, covers := s.vg.processed }
  | .b => { frame := s.cal.frame, breached := s.vg.breached, breachedNext := s.vg.breachedNext }

/-- VIGIL_HEARTBEAT_SEND: an island whose cores run puts a heartbeat with its snapshot on the link (R291). -/
def execVigilHeartbeatSend (isl : Isl) (s : State) : Out :=
  if (islOf s isl).works then done s (modIsl s isl (fun x => { x with hbOut := some (snapshotOf s isl) })) else done s s

/-- What arriving heartbeats do to PEER_LOST: they must have come for 10 ms, none more than 300 µs after the last, and the partner's
comparator test must have passed since the loss. -/
def hearBeat (x : Island) (now : Nat) (snap : IslSnap) : Island :=
  let since := match x.hbSince with
    | some t => if x.lastHb + 300000 < now then now else t
    | none => now
  { x with lastHb := now, hbSince := some since, snapshot := some snap,
           hPeerLost := x.hPeerLost && !(since + 10000000 ≤ now && x.peerCmpOk) }

/-- Queue entries that Vigil B's copy of Vigil A's state covers leave the queue (R292). -/
def Vg.cover (v : Vg) (n : Nat) : Vg := { v with queue := v.queue.drop n, processed := v.processed - n }

/-- VIGIL_HEARTBEAT: the partner's heartbeat reaches `isl`, which keeps its snapshot (R291, R292). -/
def execVigilHeartbeat (isl : Isl) (s : State) : Out :=
  let y := islOf s (peer isl)
  if !(islOf s isl).works || !(y.works || y.hbOut.isSome) then done s s
  else
    let snap := y.hbOut.getD (snapshotOf s (peer isl))
    let s1 := modIsl s (peer isl) (fun y => { y with hbOut := none })
    let s1 := modIsl s1 isl (fun x => hearBeat x s.now snap)
    done s (match isl with
      | .a => s1
      | .b => { s1 with vg := s1.vg.cover snap.covers })

/-- A rail of Table 13.2 breached in the frame. -/
def railBit (s : State) (k : Nat) : State := { s with vg := { s.vg with rail := s.vg.rail ||| 2 ^ k } }

/-- An island takes its partner for lost: it holds with PEER_LOST, and Vigil B's frame is breached (R291, R293). `cause` 3 is the partner's
notice. -/
def takeLoss (s : State) (i : Isl) (cause : Nat) : State :=
  let s := holdIsl s i (fun x => { x with hPeerLost := true, lostSinceEve := true, hbSince := none, peerCmpOk := false })
  match i with
  | .a => s
  | .b => alm (breach s) 0x9000 .vigilBreach 3 [22, cause]

/-- An island declares its partner lost and sends a loss notice over the heartbeat link (R291). -/
def declareLost (s : State) (i : Isl) (cause : Nat) : State :=
  let s := if cause = 2 then railBit s (match i with | .a => 9 | .b => 8) else s
  modIsl (takeLoss s i cause) (peer i) (fun y => { y with noticeIn := y.running })

/-- PEER_LOSS_TIMEOUT: no heartbeat for 300 µs (cause 0; not counted of a partner under debug, R303), the partner's clock differs by
more than 2 % (1), or its rail is out of range (2). -/
def execPeerLossTimeout (isl : Isl) (cause : Nat) (s : State) : Out :=
  let x := islOf s isl
  if !x.works || x.hPeerLost || (cause = 0 && (x.peerDebug || s.now < x.lastHb + 300000)) then done s s
  else done s (declareLost s isl cause)

/-- LOSS_NOTICE: the partner's loss notice makes the island hold as if it had declared the loss itself (R291). -/
def execLossNotice (isl : Isl) (s : State) : Out :=
  let x := islOf s isl
  if !x.works || !x.noticeIn then done s s
  else done s (takeLoss (modIsl s isl (fun x => { x with noticeIn := false })) isl 3)

/-! ## What the islands watch (R293, Table 13.2) -/

/-- Nominal voltage in mV of rails 4–12 of HUB_VG_RAIL (Table 20.4). -/
def railNominal (item : Nat) : Nat := [750, 750, 1050, 1800, 800, 800, 1800, 900, 1200].getD (item - 4) 0

/-- Is a voltage in mV off its nominal by more than 5 %? -/
def railOff (item : Nat) (v : Int) : Bool := 20 * (v - railNominal item).natAbs > railNominal item

/-- Is a clock, read in kHz, off by more than 2 %? -/
def clockOff (mhz : Nat) (v : Int) : Bool := 50 * (v - 1000 * (mhz : Int)).natAbs > 1000 * mhz

/-- Has a span of `ns` passed since an instant, if there was one? -/
def passed (s : State) (t : Option Nat) (ns : Nat) : Bool := match t with | some t => t + ns ≤ s.now | none => true

/-- The Quarter whose rail or clock an item is. -/
def itemQuarter (item : Nat) : Option Nat :=
  if item < 4 then some item else if 13 ≤ item && item ≤ 16 then some (item - 13) else none

/-- Does a reading breach an item's condition of Table 13.2? Items 0–3 are VDD_QC0–3 and 4–12 the other rails of HUB_VG_RAIL, in mV; 13–16 the
cluster clocks of Q0–Q3, 17 the hub clock and 18 the store-die clock, in kHz; 19 Tj and 20 a store-die temperature, in 0.5 °C; 21 THERMTRIP_N. -/
def itemBreached (s : State) (item : Nat) (v : Int) : Bool :=
  let x (q : Nat) : PmQ := tget s.pm.q q {}
  match itemQuarter item with
  | some q =>
    if item < 4 then (v - (x q).vqc).natAbs > 40 && passed s (x q).avsAt 50000
    else clockOff (stepMhz (x q).step) v && passed s (x q).stepAt 20000
  | none =>
    if item < 13 then railOff item v
    else match item with
      | 17 => clockOff 1200 v
      | 18 => clockOff 900 v
      | 19 => 250 ≤ v
      | 20 => 230 < v
      | 21 => s.vg.tripped
      | _ => false

/-- The island that watches an item: VDD_VB is Vigil A's to watch (R291). -/
def itemWatcher (item : Nat) : Isl := if item = 9 then .a else .b

/-- VIGIL_B_BREACH: a reading that has lasted its stated time breaches its condition. Watched from Ready by an island whose cores run; of a Quarter,
while it is activated. The loss of Vigil A, item 22, comes from PEER_LOSS_TIMEOUT. -/
def execVigilBBreach (item : Nat) (reading : Int) (s : State) : Out :=
  let on := match itemQuarter item with | some q => quarterOn s q | none => true
  if !s.host.ready || !on || !(islOf s (itemWatcher item)).works || !itemBreached s item reading then done s s
  else
    let s1 := if item < 13 then railBit s item else s
    let s1 := if item = 9 then s1 else breach s1
    done s (alm s1 (srcIsl (itemWatcher item)) .vigilBreach 3 [item, twos 16 reading])

/-- VIGIL_INPUT_CHANGE (R300). -/
def execVigilInputChange (isl : Isl) (level : Nat) (s : State) : Out :=
  let x := islOf s isl
  if !x.works || x.inp = level % 8 then done s s
  else done s (alm (modIsl s isl (fun x => { x with inp := level % 8 })) (srcIsl isl) .vigilInput 1 [level % 8])

/-! ## The board safety link (R302) -/

/-- READ_STATUS: the latest complete status frame goes out on VB_SPI_MISO. -/
def execReadStatus (s : State) : Out :=
  if s.islB.running then done s { s with vg := { s.vg with spiOut := s.vg.statusFrame } } else done s s

/-- HOLD: both islands hold with BOARD_HOLD. -/
def execHold (s : State) : Out :=
  if s.islB.running then
    let f (x : Island) : Island := { x with hBoard := true }
    done s (alm (holdIsl (holdIsl s .a f) .b f) 0x9000 .boardHold 4 [])
  else done s s

/-- RELEASE: BOARD_HOLD clears. -/
def execRelease (s : State) : Out :=
  if s.islB.running then
    let f (x : Island) : Island := { x with hBoard := false }
    done s (modIsl (modIsl s .a f) .b f)
  else done s s

/-- Is an SPI command one Vigil B ignores: an unknown opcode or a wrong CRC? -/
def spiBad (cmd arg crc : Nat) : Bool :=
  cmd = 0 || 3 < cmd || crc16 [BitVec.ofNat 8 cmd, BitVec.ofNat 8 arg] ≠ crc

/-- SPI_BAD_COMMAND: ignored and counted. -/
def execSpiBadCommand (cmd arg crc : Nat) (s : State) : Out :=
  if s.islB.running && spiBad cmd arg crc then done s { s with vg := { s.vg with badCmds := sat 255 (s.vg.badCmds + 1) } }
  else done s s

/-! ## Debug (R303, R304) -/

/-- DEBUG_ATTACH: only while debug is enabled for the island. -/
def execDebugAttach (isl : Isl) (s : State) : Out :=
  let x := islOf s isl
  if !x.debugEn || !x.running || x.attached then done s s
  else done s (modIsl (holdIsl s isl (fun x => { x with attached := true, hDebug := true })) (peer isl) (fun y => { y with peerDebug := true }))

/-- Does the debug module answer a debugger that has attached? Only while debug is enabled (R303). -/
def Island.dbg (x : Island) : Bool := x.attached && x.debugEn

/-- DEBUG_HALT: both cores halt on the same cycle, with what the firmware has left in them. -/
def execDebugHalt (isl : Isl) (s : State) : Out :=
  let x := islOf s isl
  if !x.dbg || x.halted then done s s else done s (modIsl (freshCores s isl) isl (fun x => { x with halted := true }))

/-- A register of a core, by its number in the debug specification: x0 (0x1000) is 0, others hold what a debug write set, or a value the spec does
not state. -/
def coreReg (regs : Tbl Nat) (seed reg : Nat) : Nat := if reg = 0x1000 then 0 else tget regs reg (Config.coreReg seed reg)

/-- DEBUG_REGISTER_WRITE: to the main core, and recorded for the checker core; a write that would need a 257th entry ends busy. -/
def execDebugRegisterWrite (isl : Isl) (reg value : Nat) (s : State) : Out :=
  if !(islOf s isl).dbg then done s s
  else done s (modIsl s isl (fun x =>
    if x.replay.length ≥ 256 then { x with abstractBusy := true }
    else { x with abstractBusy := false, replay := x.replay ++ [(reg, value % 2 ^ 32)], regsMain := tput x.regsMain reg (value % 2 ^ 32) }))

/-- The replay buffer applied to the checker core in order. -/
def Island.replayed (x : Island) : Island :=
  { x with regsChk := x.replay.foldl (fun t p => tput t p.1 p.2) x.regsChk, replay := [] }

/-- DEBUG_RESUME: both cores run on. Vigil A processes what the queue gained meanwhile. -/
def execDebugResume (isl : Isl) (s : State) : Out :=
  let x := islOf s isl
  if !(x.dbg && x.halted) then done s s
  else
    let s1 := modIsl s isl (fun x => { x.replayed with halted := false })
    done s (match isl with
      | .a => if s1.islA.works then { s1 with vg := s1.vg.process } else s1
      | .b => s1)

/-- DEBUG_SINGLE_STEP: one step of both cores, the recorded writes applied first as at every resume. What the step does to a register rests on the
firmware and is free; it is the same in both cores where they agree. -/
def execDebugSingleStep (isl : Isl) (s : State) : Out :=
  let x := islOf s isl
  if !(x.dbg && x.halted) then done s s
  else
    let (n, s1) := draw s
    let go (t : Tbl Nat) : Tbl Nat := t.map (fun p => (p.1, Config.coreStep n p.1 p.2))
    done s (modIsl s1 isl (fun x => { x.replayed with regSeed := n, regsMain := go x.replayed.regsMain, regsChk := go x.replayed.regsChk, steps := x.steps + 1 }))

/-- What a write of `n` bytes at `a` leaves of the wrong bits of an island's SRAM words: a word that is wholly written, or whose one wrong bit the
write's read corrects, stands as written (R289). -/
def leftWrong (t : Tbl Nat) (a n : Nat) : Tbl Nat :=
  t.filter (fun p => p.1 * 4 + 4 ≤ a || a + n ≤ p.1 * 4 || !((a ≤ p.1 * 4 && p.1 * 4 + 4 ≤ a + n) || secdedOk p.2))

/-- A byte of an island's SRAM as a read through the SECDED code finds it (R289). -/
def Island.byteAt (x : Island) (a : Nat) : Byte := secdedByte (tget x.wrongBits (a / 4) 0) a (tget x.sram a 0)

/-- DEBUG_MEMORY_WRITE: once, to the shared SRAM of 512 KiB. -/
def execDebugMemoryWrite (isl : Isl) (addr : Nat) (bytes : List Byte) (s : State) : Out :=
  if !(islOf s isl).dbg || 0x80000 < addr + bytes.length then done s s
  else done s (modIsl s isl (fun x => { x with sram := (bytes.zipIdx addr).foldl (fun t p => tput t p.2 p.1) x.sram,
                                               wrongBits := leftWrong x.wrongBits addr bytes.length }))

/-- DEBUG_DETACH: the island restarts its pair before it clears DEBUG: at once, after a restart that runs or waits, or when it leaves reset. -/
def execDebugDetach (isl : Isl) (s : State) : Out :=
  if !(islOf s isl).attached then done s s
  else
    let s1 := modIsl s isl (fun x => { x with attached := false, halted := false, detach := 1 })
    let s1 := modIsl s1 (peer isl) (fun y => { y with peerDebug := false, lastHb := s.now })
    done s (restartIsl s1 isl 3)

/-! ## Events and budgets (R292, R305–R307) -/

/-- A hard fault of a unit: a cluster's under R318; an engine has no spare and only the event and the record (R321). -/
def hardFaultUnit (s : State) (u cause : Nat) : State :=
  if isClu u then hardFault s (gOf u) cause
  else alm (vgPush s { stamp := s.now, kind := .hardFault, unit := u, frame := s.cal.frame, status := cause }) (srcOf u) .hardFault 4 [cause]

/-- Does the filter pass an event (R292)? -/
def vgPasses (e : VgEvent) : Bool := e.kind ≠ .completion || e.safetyOut || e.status ≠ 0

/-- Was the task of a start event stopped in that frame (R307)? -/
def startsStopped (s : State) (e : VgEvent) : Bool :=
  e.kind = .taskStart && (unitOf s e.unit).ctxs.any (fun p => p.2.planId = e.planId && p.2.task = e.task && p.2.stopped = some e.frame)

/-- VIGIL_EVENT: an event reaches the filter and the queue; the start of a stopped task is a hard fault of its unit (R292, R307). -/
def execVigilEvent (e : VgEvent) (s : State) : Out :=
  if !vgPasses e then done s s
  else
    let s1 := vgPush s e
    done s (if startsStopped s e then hardFaultUnit s1 e.unit 3 else s1)

/-- Stop a task at its next command boundary (R306). -/
def stopAtBoundary (s : State) (u ctx : Nat) : State :=
  match ctxOf s u ctx with
  | none => s
  | some c => if c.run.isSome then putCtx s u ctx { c with stopPending := true } else stopTask s u ctx

/-- The instant at which a running command's task reaches a count above its budget, if it reaches that count (R305, R306). -/
def budgetAt (s : State) (u : Nat) (c : Ctx) (r : Run) (count : Nat) : Option Nat :=
  let base := tget c.count r.cmd.frame 0
  if c.budget < count && count ≤ base + r.cycles then some (r.issuedAt + cdiv ((count - base) * 1000) (clockMhz s u)) else none

/-- BUDGET_EXCEEDED: the cycles counted for the task of a running command stand at `count`, which passes its budget (R305, R306). Raised once per
task and frame, and at no count the task does not reach. -/
def execBudgetExceeded (u ctx count : Nat) (s : State) : Out :=
  match ctxOf s u ctx with
  | none => done s s
  | some c =>
    match c.run with
    | none => done s s
    | some r =>
      match budgetAt s u c r count with
      | none => done s s
      | some t =>
        if c.overrun = some r.cmd.frame then done s s
        else
          let s0 := { s with now := max s.now t }
          let s1 := putCtx s0 u ctx { c with overrun := some r.cmd.frame, throttled := c.part ≠ 0, stopPending := c.part ≠ 0 }
          let s1 := cmdEvent s1 .budget u ctx r.cmd 0
          let s1 := alm s1 (srcOf u) .budget 2 [c.planId, c.task, b2n (c.part ≠ 0), count]
          if c.part = 0 then done s { s1 with vg := { s1.vg with p0Overrun := sat 255 (s1.vg.p0Overrun + 1) } }
          else
            let s1 := { s1 with vg := { s1.vg with throttles := sat 0xFFF (s1.vg.throttles + 1) } }
            done s (if c.twin = 0 then s1 else stopAtBoundary s1 c.partner ctx)

/-! ## Registers -/

/-- HUB_VG_STATUS. -/
def regVgStatus (x : Island) : Nat :=
  b2n x.safe * 2 ^ 31 + b2n (x.running && !x.held) * 2 ^ 30 + x.holdBits * 2 ^ 24 + b2n x.restarting * 2 ^ 23 + b2n x.peerDebug * 2 ^ 22 +
    x.inp * 2 ^ 19 + x.toggles

/-- HUB_VG_RESTART. -/
def regVgRestart (x : Island) : Nat := x.rAsync * 2 ^ 24 + x.rOther * 65536 + x.rWdog * 256 + x.lastGroup

/-- HUB_VG_BUDGET. -/
def regVgBudget (v : Vg) : Nat := v.p0Overrun * 2 ^ 24 + v.throttles * 4096 + v.stops

end Sys2Proof.Machine
end

