-- ==== Sys2Proof/Machine/SafetyTest.lean ====
section
/-!
DEFINITION. Safety evidence in operation (R328–R342): rotation LBIST with its substitutes, holiday segments with the scrub of P0 weights
(R188, R189), and test debt.
-/

namespace Sys2Proof.Machine

/-! ## Rotation (R334–R337) -/

/-- Change the rotation of a Quarter. -/
def modRot (s : State) (q : Nat) (f : Rot → Rot) : State := { s with st := { s.st with rot := tmod s.st.rot q {} f } }

/-- Exchange what two clusters run: their contexts, and whatever is on its way to or compared for them. -/
def exchangeUnits (s : State) (u v : Nat) : State :=
  let a := unitOf s u
  let b := unitOf s v
  let re (x : Nat) : Nat := if x = u then v else if x = v then u else x
  let give (x y : SeqUnit) : SeqUnit := { x with ctxs := y.ctxs, rr := y.rr, swap := y.swap, inCtx := y.inCtx, outCtx := y.outCtx, starving := y.starving }
  let s := putUnit (putUnit s u (give a b)) v (give b a)
  { s with flights := s.flights.map (fun f => { f with src := re f.src, dst := re f.dst }),
           twinNotes := s.twinNotes.map (fun n => (re n.1, n.2)),
           units := s.units.map (fun p => (p.1, { p.2 with ctxs := tmap p.2.ctxs (fun c => if c.twin = 0 then c else { c with partner := re c.partner }) })) }

/-- Clear the VALID bit of every side-band word of a cluster's SRAM. -/
def clearCluSide (s : State) (g : Nat) : State :=
  let lo := cluBase g / 256
  { s with side := s.side.map (fun p => if lo ≤ p.1 && p.1 < lo + 6144 then (p.1, p.2 % 2 ^ 63) else p) }

/-- Manhattan distance of two clusters of a Quarter in the 9 × 8 mesh. -/
def meshDist (a b : Nat) : Nat :=
  let d (x y : Nat) : Nat := if x ≤ y then y - x else x - y
  d (a % 9) (b % 9) + d (a / 9) (b / 9)

/-- How many Quarters the Season activates. -/
def activeQuarters (s : State) : Nat := ((List.range 4).filter (fun q => bit s.season.cfg.quarters q)).length

/-- The partners, in the plans' active variants, of twin slots on a cluster. -/
def twinPartners (s : State) (g : Nat) : List Nat :=
  s.plans.flatMap (fun p =>
    if p.admitted && !p.retired then
      (tasksOf p.image).flatMap (fun t =>
        let us := taskUnits p.image p.variant t
        if t.isTwin && us.contains (rClu g) then us.filterMap (fun u => if u = rClu g then none else some (gOf u)) else [])
    else [])

/-- The substitute of a cluster: the lowest-numbered one of its Quarter that is IN_SERVICE, carries no slot and keeps the twin pairs
within R118 (R335). -/
def substituteFor (s : State) (g : Nat) : Option Nat :=
  let q := quarterOf g
  let used := usedClusters s
  let ps := twinPartners s g
  (List.range 72).find? (fun c =>
    let h := 72 * q + c
    h ≠ g && (healthOf s h).state = .inService && !used.contains h &&
      ps.all (fun p => p ≠ h && (activeQuarters s ≠ 1 || meshDist (p % 72) c ≥ 2)))

/-- The next place of the pointer; a new cycle starts its count of skipped steps again. -/
def nextPointer (r : Rot) : Rot := { r with pointer := (r.pointer + 1) % 72, skipped := if r.pointer ≥ 71 then 0 else r.skipped }

/-- A step is skipped: it counts in the cycle it belongs to (R335, R337). -/
def skipStep (r : Rot) : Rot := nextPointer { r with skipped := sat 255 (r.skipped + 1) }

/-- Put the cluster at the pointer in test from Calend `n` on, its slots on a substitute where it carries any. -/
def beginStep (s : State) (q n : Nat) : State :=
  let r := rotOf s q
  let g := 72 * q + r.pointer
  let test (s : State) : State := modHealth s g (fun h => { h with prior := h.state, state := .inTest })
  if !(usedClusters s).contains g then
    clearCluSide (modRot (test s) q (fun r => { r with active := true, substituted := false, substitute := 0, startFrame := n, passed := none })) g
  else match substituteFor s g with
    | none => modRot s q skipStep
    | some h =>
      let s := exchangeUnits s (rClu g) (rClu (72 * q + h))
      clearCluSide (modRot (test s) q (fun r => { r with active := true, substituted := true, substitute := h, startFrame := n, passed := none })) g

/-- May the cluster at a pointer be tested? Others are passed over without a step. -/
def testable (s : State) (q c : Nat) : Bool :=
  match (healthOf s (72 * q + c)).state with
  | .inService | .probation | .restricted => true
  | _ => false

/-- Pass over clusters that cannot be tested. -/
def passOver (s : State) (q : Nat) : Nat → State
  | 0 => s
  | fuel + 1 => if testable s q (rotOf s q).pointer then s else passOver (modRot s q nextPointer) q fuel

/-- ROTATION_STEP_START: at the coming Calend (R334, R335). -/
def execRotationStepStart (q : Nat) (s : State) : Out :=
  if !quarterOn s q || (rotOf s q).active then done s s
  else
    let s1 := passOver (atCalend s) q 72
    if testable s1 q (rotOf s1 q).pointer then done s (beginStep s1 q (s.cal.frame + 1)) else done s s1

/-- End a step: the slots return from the substitute, whose SRAM loses the tiles of the borrowed allocation, the cluster returns to its state,
the pointer advances. -/
def endStep (s : State) (q : Nat) (skip : Bool) : State :=
  let r := rotOf s q
  let g := 72 * q + r.pointer
  let s := if r.substituted then clearCluSide (exchangeUnits s (rClu g) (rClu (72 * q + r.substitute))) (72 * q + r.substitute) else s
  let s := modHealth s g (fun h => if h.state = .inTest then { h with state := h.prior } else h)
  modRot s q (fun r =>
    let r := { r with active := false, substituted := false, substitute := 0 }
    if skip then skipStep r else nextPointer r)

/-- The state of a kind's debt, from its age and interval: 1 at 75 %, 2 at 100 % (R342). -/
def debtLevel (age interval : Nat) : Nat := if age ≥ interval then 2 else if age * 4 ≥ interval * 3 then 1 else 0

/-- Is a Quarter's step over at Calend `n`: four frames on, with the test's result? -/
def stepOver (s : State) (q n : Nat) : Bool :=
  let r := rotOf s q
  r.active && r.startFrame + 4 ≤ n && (r.passed.isSome || (healthOf s (72 * q + r.pointer)).state ≠ .inTest)

/-- ROTATION_STEP_END: at Calend n + 4 (R334). -/
def execRotationStepEnd (q : Nat) (s : State) : Out :=
  if stepOver s q s.cal.frame then done s (endStep s q false)
  else if stepOver s q (s.cal.frame + 1) then done s (endStep (atCalend s) q false)
  else done s s

/-- A fence on the cluster under test abandons its step, and the next spare of the Quarter enters test (R325, R337). -/
def abandonTest (s : State) (g : Nat) : State :=
  let q := quarterOf g
  let r := rotOf s q
  if !r.active || r.pointer ≠ g % 72 then s
  else
    let s := endStep s q true
    let used := usedClusters s
    match (List.range 72).find? (fun i =>
      let c := ((rotOf s q).pointer + i) % 72
      72 * q + c ≠ g && (healthOf s (72 * q + c)).state = .inService && !used.contains (72 * q + c)) with
    | none => s
    | some i => beginStep (modRot s q (fun r => { r with pointer := (r.pointer + i) % 72 })) q s.cal.frame

/-! ## Test items and debt (R342) -/

/-- The bytes that scrub covers, in order: every P0 region, then every reserve (R188). -/
def scrubAreas (s : State) : List (Nat × Region × Nat × Nat) :=
  let rs := s.regions.filter (fun p => p.2.valid && p.2.part = 0)
  (rs.map (fun p => (p.1, p.2, p.2.base, p.2.reserve))) ++
    ((rs.filter (fun p => p.2.reserve ≠ 0)).map (fun p => (p.1, p.2, p.2.reserve, p.2.base)))

/-- T: the total bytes of all P0 weight regions and their reserves. -/
def scrubTotal (s : State) : Nat := (scrubAreas s).foldl (fun n a => n + a.2.1.size) 0

/-- Q of a frame: ⌈T·P / 600 s⌉ rounded up to a multiple of 64 KiB. -/
def scrubQuotaOf (s : State) : Nat := alignUp (cdiv (scrubTotal s * (s.cal.periodReg * 100000)) 600000000000) 65536

/-- The interval of a kind in ns (Table 15.4, and 60 s of kind 0). -/
def kindInterval (k : Nat) : Nat :=
  match k with | 0 => 60000000000 | 3 => 10000000000 | 5 => 600000000000 | _ => 1000000000

/-- Key of an item's last pass. -/
def itemKey (kind item : Nat) : Nat := kind * 4096 + item

/-- How many items a kind has. Items of kind 1 are numbered 17·q + line. -/
def kindItems (s : State) (k : Nat) : List Nat :=
  match k with
  | 1 => ((List.range 4).filter (quarterOn s)).flatMap (fun q => (List.range 17).map (· + 17 * q))
  | 2 => List.range 11
  | 3 => List.range 128
  | 4 => List.range 8
  | 5 => List.range (cdiv (scrubTotal s) (max 1 (scrubQuotaOf s)))
  | _ => []

/-- The time of an item's last pass; every item counts as passed at Ready. -/
def lastPassOf (s : State) (k i : Nat) : Nat := (tfind s.st.lastPass (itemKey k i)).getD s.st.readyAt

/-- The time of an item's last test, passed or not. -/
def lastTestOf (s : State) (k i : Nat) : Nat := (tfind s.st.lastTest (itemKey k i)).getD s.st.readyAt

/-- The oldest last pass of a kind. Of kind 0, among the clusters that rotation tests. -/
def oldestPass (s : State) (k : Nat) : Nat :=
  if k = 0 then
    ((List.range 4).filter (quarterOn s)).foldl (fun m q =>
      (List.range 72).foldl (fun m c =>
        if testable s q c || (healthOf s (72 * q + c)).state = .inTest then min m ((tfind (rotOf s q).lastPass c).getD s.st.readyAt) else m) m) s.now
  else (kindItems s k).foldl (fun m i => min m (lastPassOf s k i)) s.now

/-- The debt of a kind in ns. -/
def debtOf (s : State) (k : Nat) : Nat := if s.host.ready then s.now - oldestPass s k else 0

/-- The debt state falls when an item has passed. -/
def settleDebt (s : State) (k : Nat) : State :=
  { s with st := { s.st with debtState := tput s.st.debtState k (min (tget s.st.debtState k 0) (debtLevel (debtOf s k) (kindInterval k))) } }

/-- ROTATION_TEST_DONE: a pass is noted and lowers the debt of kind 0 (R342); a failure is a hard fault (R318, R334). -/
def execRotationTestDone (q : Nat) (pass : Bool) (s : State) : Out :=
  let r := rotOf s q
  let g := 72 * q + r.pointer
  if !r.active || (healthOf s g).state ≠ .inTest || r.passed.isSome then done s s
  else if pass then done s (settleDebt (modRot s q (fun r => { r with passed := some s.now, lastPass := tput r.lastPass r.pointer s.now })) 0)
  else done s (hardFault s g 5)

/-- TEST_DEBT_WARNING: at 75 % of the interval, once. -/
def execTestDebtWarning (kind : Nat) (s : State) : Out :=
  if debtLevel (debtOf s kind) (kindInterval kind) = 0 || tget s.st.debtState kind 0 ≠ 0 then done s s
  else
    let s1 := { s with st := { s.st with debtState := tput s.st.debtState kind 1 } }
    let s1 := alm s1 0x0000 .testDebt 2 [kind]
    done s (notify s1 6 kind s1.alm.head)

/-- TEST_OVERDUE: at 100 %, once. -/
def execTestOverdue (kind : Nat) (s : State) : Out :=
  if debtLevel (debtOf s kind) (kindInterval kind) ≠ 2 || tget s.st.debtState kind 0 = 2 then done s s
  else
    let s1 := { s with st := { s.st with debtState := tput s.st.debtState kind 2 } }
    let s1 := alm s1 0x0000 .testOverdue 4 [kind]
    done s (notify s1 7 kind s1.alm.head)

/-! ## Holiday segments (R338–R341) -/

/-- Does a context still owe work of P0 for the current frame? -/
def p0Unfinished (s : State) (c : Ctx) : Bool := c.part = 0 && c.queue.any (fun a => a.frame = s.cal.frame)

/-- The remaining budget of a context's task in the frame, in ns: its budget less its count under R305. -/
def remainingNs (s : State) (u : Nat) (c : Ctx) : Nat :=
  cdiv ((c.budget - countSoFar s u c s.cal.frame) * 1000) (clockMhz s u)

/-- The largest remaining budget of an unfinished P0 task. -/
def largestRemaining (s : State) : Nat :=
  s.units.foldl (fun m pu => pu.2.ctxs.foldl (fun m p => if p0Unfinished s p.2 then max m (remainingNs s pu.1 p.2) else m) m) 0

/-- Where scrub stands: the area under its cursor and the offset in it. -/
def scrubPlace (s : State) : Option ((Nat × Region × Nat × Nat) × Nat) :=
  ((scrubAreas s).foldl (fun (x : Option ((Nat × Region × Nat × Nat) × Nat) × Nat) a =>
    match x.1 with
    | some _ => x
    | none => if x.2 < a.2.1.size then (some (a, x.2), 0) else (none, x.2 - a.2.1.size)) (none, s.st.scrubDone)).1

/-- The segment of a scrub cycle under the cursor: item `i` of kind 5 covers bytes `i·Q` to `(i + 1)·Q` of the areas. -/
def scrubItem (s : State) : Nat := s.st.scrubDone / max 1 (scrubQuotaOf s)

/-- The store die a segment uses, if it uses one: kind 3 its channel's, kind 5 its source's. -/
def segmentDie (s : State) (kind item : Nat) : Option Nat :=
  if kind = 3 then some (item / 32)
  else if kind = 5 then
    match scrubPlace s with
    | some (a, _) => if memLevel a.2.2.1 = some 3 then some (storeAt a.2.2.1).1 else none
    | none => none
  else none

/-- The declared length of a segment (Table 15.4, R188). -/
def segmentLenOk (kind len : Nat) : Bool :=
  match kind with | 1 => len = 20000 | 2 => len = 15000 | 3 => len = 25000 | 4 => len = 10000 | _ => 4000 ≤ len && len ≤ 31307

/-- The start conditions of R339 and R39; scrub stops at its quota of the frame (R188); an item that the watchdog aborted waits for a later
frame (R340). -/
def segmentMayStart (s : State) (kind item len : Nat) : Bool :=
  s.st.seg.isNone && s.cal.frame ≠ 0 && (kindItems s kind).contains item && segmentLenOk kind len && (kind ≠ 5 || s.stats.scrubBytes < s.st.scrubQuota) &&
    tfind s.st.abortFrame (itemKey kind item) ≠ some s.cal.frame &&
    s.cal.calend + 20000 ≤ s.now && s.now + len ≤ s.cal.eve && s.now + largestRemaining s + len + 20000 ≤ s.cal.eve &&
    !s.units.any (fun pu => pu.2.ctxs.any (fun p => p.2.delayedBy && p0Unfinished s p.2)) &&
    (match segmentDie s kind item with | some d => !(stcOf s d).panic && !(stcOf s d).retaining | none => true)

/-- The declared length of a kind's segment (Table 15.4, R188); of scrub, the longest, which verifies what is left of the quota up to 1 MiB. -/
def segmentLen (s : State) (kind : Nat) : Nat :=
  match kind with
  | 1 => 20000 | 2 => 15000 | 3 => 25000 | 4 => 10000
  | _ => 4000 + cdiv (min 1048576 (s.st.scrubQuota - s.stats.scrubBytes) * 10) 384

/-- The item of a kind that the scheduler takes: the one that has gone longest since its last test, the lowest-numbered of several; scrub goes on
at its cursor (R339; the order of equals is a DESIGN CHOICE, log 49). One aborted in this frame waits (R340). -/
def nextItem (s : State) (kind : Nat) : Option Nat :=
  if kind = 5 then (if scrubTotal s = 0 then none else some (scrubItem s))
  else
    ((kindItems s kind).filter (fun i => tfind s.st.abortFrame (itemKey kind i) ≠ some s.cal.frame)).foldl (fun (b : Option Nat) i =>
      match b with
      | none => some i
      | some j => if lastTestOf s kind i < lastTestOf s kind j then some i else some j) none

/-- Does the debt ratio of kind `a` exceed that of kind `b` (R339)? -/
def moreDebt (s : State) (a b : Nat) : Bool := debtOf s b * kindInterval a < debtOf s a * kindInterval b

/-- Does the scheduler take this kind and item: no kind with a higher debt ratio could start, and the item is its kind's next (R339)? Between
kinds of equal ratio either may go (DESIGN CHOICE, log 49). -/
def scheduled (s : State) (kind item : Nat) : Bool :=
  nextItem s kind = some item &&
    [1, 2, 3, 4, 5].all (fun k => !moreDebt s k kind ||
      (match nextItem s k with | some i => !segmentMayStart s k i (segmentLen s k) | none => true))

/-- HOLIDAY_SEGMENT_START (R338, R339). -/
def execHolidaySegmentStart (kind item len : Nat) (s : State) : Out :=
  if segmentMayStart s kind item len && scheduled s kind item then
    done s { s with st := { s.st with seg := some { kind := kind, item := item, start := s.now, len := len,
                                                    die := if kind = 5 then segmentDie s kind item else none }, run := sat 255 (s.st.run + 1) } }
  else done s s

/-- A holiday failure (R341): of a mesh line, a hard fault of the cluster whose router serves it (the first of the line; DESIGN CHOICE,
log 24); any other makes every frame FAILED until reset. -/
def holidayFailure (s : State) (kind item : Nat) : State :=
  if kind = 1 then
    let l := item % 17
    hardFault s (72 * (item / 17) + if l < 8 then 9 * l else l - 8) 2
  else
    let s := alm s 0x0000 .holidayFail 4 [kind, item]
    vgPush { s with vg := { s.vg with holidayFailed := true } } { stamp := s.now, kind := .hardFault, unit := 0, frame := s.cal.frame, status := 6 }

/-- Scrub reads one tile through hub CVU `k` of 0–3, folded with its address and generation and compared with its check entry (R188, R192).
Answers whether it passed; `flaky` names tiles whose read goes wrong though the memory holds the right bytes. -/
def scrubRead (s : State) (k a log2 gen : Nat) (flaky : List Nat) : State × Bool :=
  let e := tileEntry s a
  let v := ({ cvuOf s k with addr := a, len := 2 ^ log2, seq := gen, expect := e.crc } : Cvu).begin 0x718
  let v := v.run' s (fun _ => true)
  let wrong := flaky.contains a
  let v := if wrong then { v with run := v.run ^^^ 1, result := v.result ^^^ 1, mismatch := true } else v
  (countBytes (putCvu s k v) 10 1 a (2 ^ log2) false, e.valid && !v.mismatch)

/-- Scrub one tile of a copy, the other copy at `other` (or 0). One that fails is read once more; if it fails again it is repaired from a good
copy, or both fail (R189, R186). -/
def scrubTile (s : State) (id : Nat) (r : Region) (k a other : Nat) (flaky : List Nat) : State :=
  let (s, ok) := scrubRead s k a r.log2Tile r.gen flaky
  if ok then s
  else
  let (s, ok) := scrubRead s k a r.log2Tile r.gen []
  if ok then s
  else
  let (s, good) := if other = 0 then (s, false) else scrubRead s k other r.log2Tile r.gen []
  let s := { s with st := { s.st with scrubFails := sat 255 (s.st.scrubFails + 1) } }
  if good then owesRepair (alm s 0x0000 .scrubRepair 2 [id, a]) a other r.log2Tile r.gen r.part
  else weightFail s (if a < r.base + r.size && r.base ≤ a then a else r.base + (a - r.reserve))

/-- The scrub items that end as the cursor moves from `d` to `e` pass at time `t` (R342). -/
def scrubPassed (s : State) (d e t : Nat) : State :=
  let q := max 1 (scrubQuotaOf s)
  let is := (List.range (cdiv (scrubTotal s) q)).filter (fun i => d < min ((i + 1) * q) (scrubTotal s) && min ((i + 1) * q) (scrubTotal s) ≤ e)
  { s with st := { s.st with lastPass := is.foldl (fun t' i => tput t' (itemKey 5 i) t) s.st.lastPass } }

/-- Scrub up to `n` bytes from the cursor on, whole tiles, within one area, on CVUs 0–3 in turn; a cycle ends at the end of the last area. -/
def scrubRun (s : State) (n : Nat) (flaky : List Nat) : State :=
  match scrubPlace s with
  | none => s
  | some ((id, r, base, other), ofs) =>
    let t := 2 ^ r.log2Tile
    let k := min (n / t) ((r.size - ofs) / t)
    let s := (List.range k).foldl (fun s i =>
      scrubTile s id r (i % 4) (base + ofs + i * t) (if other = 0 then 0 else other + ofs + i * t) flaky) s
    let s := modStats s (fun f => { f with scrubBytes := f.scrubBytes + k * t })
    let d := s.st.scrubDone + k * t
    let s := scrubPassed s s.st.scrubDone d s.now
    if d ≥ scrubTotal s then { s with st := { s.st with scrubDone := 0, scrubStart := s.now, scrubCycleS := sat 0xFFFF ((s.now - s.st.scrubStart) / 1000000000) } }
    else { s with st := { s.st with scrubDone := d } }

/-- The bytes a scrub segment of a declared length verifies: 4 µs + b ÷ 38.4 GB/s, at most 1 MiB. -/
def scrubBytesOf (len : Nat) : Nat := min 1048576 ((len - 4000) * 384 / 10)

/-- The contexts, by unit and number, whose P0 tasks of the frame are unfinished. -/
def p0Waiting (s : State) : List (Nat × Nat) :=
  s.units.flatMap (fun pu => (pu.2.ctxs.filter (fun p => p0Unfinished s p.2)).map (fun p => (pu.1, p.1)))

/-- A segment has delayed unfinished P0 tasks of the frame (R339): which of them the spec does not say how to tell, so it is a free value (log 49). -/
def markDelayed (s : State) : State :=
  let (n, s) := draw s
  ((p0Waiting s).zipIdx.filter (fun p => (Config.freeValue n).testBit p.2)).foldl
    (fun s p => modCtx s p.1.1 p.1.2 (fun c => { c with delayedBy := true })) s

/-- A segment gives its resource back at time `t`. -/
def endSegment (s : State) (g : Seg) (t : Nat) : State :=
  markDelayed { s with now := t, st := { s.st with seg := none, busyNs := s.st.busyNs + (t - g.start) } }

/-- The watchdog aborts a segment: its item is retried in a later frame, and the third abort of an item in a row counts as its failure
(R340). -/
def abortSegment (s : State) (g : Seg) : State :=
  let k := itemKey g.kind g.item
  let n := tget s.st.abortRun k 0 + 1
  let s := endSegment s g (max s.now (g.start + 60000))
  let s := { s with st := { s.st with aborts := sat 255 (s.st.aborts + 1), abortFrame := tput s.st.abortFrame k s.cal.frame,
                                      abortRun := if n ≥ 3 then tdel s.st.abortRun k else tput s.st.abortRun k n } }
  let s := alm s 0x0000 .segmentAbort 3 [g.kind, g.item]
  if n ≥ 3 then holidayFailure s g.kind g.item else s

/-- The item of a segment has been tested: its aborts are no longer in a row. -/
def itemTested (s : State) (g : Seg) : State :=
  let k := itemKey g.kind g.item
  { s with st := { s.st with abortRun := tdel s.st.abortRun k, lastTest := tput s.st.lastTest k s.now } }

/-- The traffic of a segment is SAF (R278). The march of kind 3 takes six passes over the 64 test rows of its channel, in the order of Table 15.4, and
leaves 0 in them; each row is activated once in each of its four steps (DEDUCED, log 49). What a link or loopback test sends is not given. -/
def marchTraffic (s : State) (g : Seg) : State :=
  if g.kind ≠ 3 then s
  else
    let half' := 3 * 64 * 4096
    modStc s (g.item / 32) (fun c => { c with
      bytesRd := addBytes c.bytesRd 1 half', bytesWr := addBytes c.bytesWr 1 half',
      chans := tmod c.chans (g.item % 32) {} (fun h =>
        let h := h.busySince g.start s.now
        { h with testRows := 0, data := sat 0xFFFFFFFF (h.data + 2 * (2 * half') / 128), act := sat 0xFFFFFFFF (h.act + 4 * 64) }) })

/-- The item of a segment has passed. Scrub's items pass as its cursor leaves them (R188). -/
def itemPassed (s : State) (g : Seg) (flaky : List Nat) : State :=
  let s := if g.kind = 5 then scrubRun s (min (scrubBytesOf g.len) (s.st.scrubQuota - s.stats.scrubBytes)) flaky
           else { s with st := { s.st with lastPass := tput s.st.lastPass (itemKey g.kind g.item) s.now } }
  settleDebt s g.kind

/-- HOLIDAY_SEGMENT_END: the segment ends at its declared length or later; past 60 µs the watchdog has aborted it (R340). `flaky` names tiles
whose first read by scrub goes wrong. -/
def execHolidaySegmentEnd (pass : Bool) (flaky : List Nat) (s : State) : Out :=
  match s.st.seg with
  | none => done s s
  | some g =>
    let t := max s.now (g.start + g.len)
    if g.start + 60000 < t then done s (abortSegment s g)
    else
      let s1 := marchTraffic (itemTested (endSegment s g t) g) g
      done s (if pass then itemPassed s1 g flaky else holidayFailure s1 g.kind g.item)

/-- SEGMENT_WATCHDOG: a segment past 60 µs is aborted (R340). -/
def execSegmentWatchdog (s : State) : Out :=
  match s.st.seg with
  | none => done s s
  | some g => done s (abortSegment s g)

/-! ## Registers -/

/-- HUB_ST_INJ. -/
def regStInj (x : St) : Nat := b2n x.injDone * 2 ^ 31 + b2n x.injFail * 2 ^ 30 + x.injPass
/-- HUB_ST_ROTq. -/
def regStRot (r : Rot) : Nat := b2n r.active * 2 ^ 31 + b2n r.substituted * 2 ^ 30 + r.pointer * 65536 + r.substitute * 256 + r.skipped
/-- HUB_ST_SEG. -/
def regStSeg (x : St) : Nat := x.aborts * 2 ^ 24 + x.run * 65536 + sat 0xFFFF (x.busyNs / 1000)
/-- HUB_ST_DEBTk. -/
def regStDebt (s : State) (k : Nat) : Nat := tget s.st.debtState k 0 * 2 ^ 30 + sat 0xFFFFFF (debtOf s k / 1000000)

/-- HUB_ST_INJ, ROT0–3, SEG and DEBT0–5 as 48 bytes (GET_SAFETY_REPORT). -/
def safetyReport (s : State) : List Byte :=
  natLe 4 (regStInj s.st) ++ (List.range 4).flatMap (fun q => natLe 4 (regStRot (rotOf s q))) ++ natLe 4 (regStSeg s.st) ++
    (List.range 6).flatMap (fun k => natLe 4 (regStDebt s k))

end Sys2Proof.Machine
end

