-- ==== Sys2Proof/Machine/Mailbox.lean ====
section
/-!
DEFINITION. The Xiuth mailbox (R361–R367): submission entries, the order of the checks, host buffers, and completions.
-/

namespace Sys2Proof.Machine

/-! ## Status codes (Table 17.6) -/

/-- Done. -/
def stOk : Nat := 0
/-- Accepted and stored for a later instant. -/
def stDeferred : Nat := 1
/-- An object is held. -/
def stBusy : Nat := 2
/-- A field, buffer or image is malformed or out of range. -/
def stRange : Nat := 3
/-- No free table entry or result space. -/
def stNoSlot : Nat := 4
/-- The object is in use. -/
def stInUse : Nat := 5
/-- No such object. -/
def stNotFound : Nat := 6
/-- A plan is refused. -/
def stPlanRefused : Nat := 7
/-- Allowed only through a reset. -/
def stRestart : Nat := 8
/-- Refused on a package restricted to the Service Season. -/
def stUnqualified : Nat := 9
/-- A signature, binding or authorisation check failed. -/
def stAuthFail : Nat := 0xA
/-- A boot-flash operation failed. -/
def stFlashFail : Nat := 0xB
/-- A host transfer failed. -/
def stHostDma : Nat := 0xC
/-- Unknown opcode. -/
def stBadOpcode : Nat := 0xD
/-- Not accepted before Ready. -/
def stNotReady : Nat := 0xE
/-- Not accepted in the current Season. -/
def stWrongSeason : Nat := 0xF
/-- Ended by UPD_CANCEL. -/
def stAborted : Nat := 0x10

/-- Almanac SOURCE of the PCIe endpoint (Table 16.2). -/
def srcHost : Nat := 0xB0FF

/-! ## What a command answers -/

/-- The outcome of a command: the next state, STATUS and RESULT. -/
structure Answer where
  st : State
  status : Nat := 0
  result : List Byte := []

/-- An answer that changes nothing. -/
def refuse (s : State) (status : Nat) (result : List Byte := []) : Answer := { st := s, status := status, result := result }

/-- What the command tables say of a command. -/
structure MbxCmd where
  opcode : Nat
  /-- The PARAM byte that picks one row of several with this opcode, and its value. -/
  pick : Option (Nat × Nat) := none
  /-- The PARAM bytes the command defines, as offset and size; the others are reserved (DEDUCED, log 25). -/
  used : List (Nat × Nat) := []
  /-- Accepted before Ready (R365). -/
  early : Bool := false
  /-- 0 no buffer, 1 in, 2 out. -/
  buf : Nat := 0
  /-- Are the PARAM fields in range? -/
  ranged : List Byte → Bool := fun _ => true
  /-- Is it accepted in the current Season? -/
  season : State → Bool := fun _ => true
  /-- Is an object held or an operation pending? -/
  busy : State → List Byte → Bool := fun _ _ => false

/-- The PARAM of an entry, 40 bytes. -/
def parOf (e : SubEntry) : List Byte := padTo 40 e.param

/-- The byte of PARAM at an offset. -/
def parByte (e : SubEntry) (o : Nat) : Nat := fld (parOf e) o 1

/-- BUF_LEN, where BUF_ADDR names a buffer. -/
def bufLenOf (e : SubEntry) : Nat := if e.bufAddr = 0 then 0 else e.bufLen

/-! ## Host buffers (Table 17.4) -/

/-- The scatter list at a host address, of at most `fuel` entries: each 64 B aligned, of a multiple of 64 B except the last;
none where it is malformed. -/
def sgl (m : Memory) (a : Nat) : Nat → Option (List (Nat × Nat))
  | 0 => some []
  | fuel + 1 =>
    let n := leNat (mread m (a + 8) 4)
    if n = 0 then some []
    else
      let last := fuel = 0 || leNat (mread m (a + 24) 4) = 0
      if leNat (mread m a 8) % 64 ≠ 0 || leNat (mread m (a + 12) 4) ≠ 0 || (n % 64 ≠ 0 && !last) then none
      else (sgl m (a + 16) fuel).map (fun r => (leNat (mread m a 8), n) :: r)

/-- The segments of a command's buffer, or none where its scatter list is malformed or does not describe BUF_LEN bytes. -/
def segments (s : State) (e : SubEntry) : Option (List (Nat × Nat)) :=
  if e.bufAddr = 0 then some []
  else if bit e.flags 1 then
    match sgl s.hostMem e.bufAddr 256 with
    | some l => if (l.map (·.2)).foldl (· + ·) 0 = e.bufLen then some l else none
    | none => none
  else some [(e.bufAddr, e.bufLen)]

/-- The first `n` bytes of the segments. -/
def gather (m : Memory) : List (Nat × Nat) → Nat → List Byte
  | [], _ => []
  | (a, k) :: r, n => if n = 0 then [] else mread m a (min k n) ++ gather m r (n - min k n)

/-- Host memory with bytes laid out over the segments. -/
def scatter (m : Memory) : List (Nat × Nat) → List Byte → Memory
  | [], _ => m
  | (a, k) :: r, bs => if bs.isEmpty then m else scatter (mwrite m a (bs.take k)) r (bs.drop k)

/-- The first `n` bytes of a command's buffer. -/
def bufIn (s : State) (e : SubEntry) (n : Nat) : List Byte := gather s.hostMem ((segments s e).getD []) n

/-- The whole buffer. -/
def bufAll (s : State) (e : SubEntry) : List Byte := bufIn s e (bufLenOf e)

/-- Write an output into a command's buffer, as much of it as the buffer holds (DESIGN CHOICE, log 25). -/
def bufOut (s : State) (e : SubEntry) (bs : List Byte) : State :=
  { s with hostMem := scatter s.hostMem ((segments s e).getD []) (bs.take (bufLenOf e)) }

/-! ## Objects that commands hold (R364) -/

/-- Family of an opcode (Table 17.7). -/
def familyOf (op : Nat) : Nat := op / 256

/-- Does an earlier command of its family, taken and not completed, hold a command back? -/
def waitsTurn (s : State) (e : SubEntry) : Bool :=
  match s.host.taken.find? (fun x => familyOf x.opcode = familyOf e.opcode) with
  | some x => s.host.taken.contains e && x ≠ e
  | none => false

/-- An object of R364. -/
inductive MbxObj where
  | plan (id : Nat)
  | sequence (id : Nat)
  | region (id : Nat)
  | mapSlot (k : Nat)
  | season
  | ring (k : Nat)
  | almanac
  | flash
deriving DecidableEq, Repr

/-- The sequences and weight regions a loaded plan uses. -/
def planObjects (s : State) (id : Nat) : List MbxObj :=
  match planOf s id with
  | none => []
  | some p => ((bindsOf p.image).filter (fun b => b.kind = 4)).map (fun b => MbxObj.sequence b.source) ++
      (s.regions.filter (fun r => r.2.valid && (allDescs p.image).any (fun d => (extReads d).any (fun x => r.2.meets x.addr x.size)))).map (fun r => MbxObj.region r.1)

/-- The objects a state-changing command needs while it is unfinished. -/
def objectsOf (s : State) (e : SubEntry) : List MbxObj :=
  let p := parOf e
  match e.opcode with
  | 0x0102 => [.season]
  | 0x0103 => [.season, .flash]
  | 0x0201 => .plan (fld p 0 8) :: planObjects s (fld p 0 8)
  | 0x0202 => [.plan (fld p 0 8)]
  | 0x0203 => [.plan (fld p 0 8)]
  | 0x0300 => [.region (fld p 0 2)]
  | 0x0305 => [.mapSlot (fld p 0 1)]
  | 0x0306 => [.mapSlot (fld p 0 1)]
  | 0x0401 => [.sequence (fld p 0 1)]
  | 0x0403 => [.sequence (fld p 0 1)]
  | 0x0500 => [.ring (fld p 0 1)]
  | 0x0501 => [.ring (fld p 0 1)]
  | 0x0702 => [.almanac, .flash]
  | 0x0800 => [.flash]
  | 0x0801 => [.season]
  | 0x0802 => [.flash]
  | 0x0804 => [.flash]
  | _ => []

/-- Does a command of another family that started before hold an object the command needs? Which objects a command needs, beside those it names, is
read from its row and rule (DEDUCED, log 25). -/
def objectHeld (s : State) (e : SubEntry) : Bool :=
  (s.host.taken.takeWhile (fun x => x ≠ e)).any (fun x =>
    familyOf x.opcode ≠ familyOf e.opcode && !waitsTurn s x && (objectsOf s x).any (objectsOf s e).contains)

/-! ## The checks of R365 -/

/-- Is a PARAM byte one the command defines? -/
def MbxCmd.defines (k : MbxCmd) (i : Nat) : Bool := k.used.any (fun u => u.1 ≤ i && i < u.1 + u.2)

/-- Reserved bits, bytes and the alignment of the buffer. -/
def MbxCmd.reservedOk (k : MbxCmd) (e : SubEntry) : Bool :=
  e.flags < 4 && e.rsv = 0 && e.bufAddr % 64 = 0 && (List.range 40).all (fun i => k.defines i || parByte e i = 0)

/-- The first failing status of R365 before the command's own checks, or 0. -/
def MbxCmd.check (k : MbxCmd) (e : SubEntry) (s : State) : Nat :=
  if e.opcode ≠ k.opcode then stBadOpcode
  else if !s.host.ready && !k.early then stNotReady
  else if !k.reservedOk e || !k.ranged (parOf e) || (k.buf ≠ 0 && (segments s e).isNone) ||
      (match k.pick with | some (o, v) => parByte e o ≠ v | none => false) then stRange
  else if !k.season s then stWrongSeason
  else if k.busy s (parOf e) || objectHeld s e then stBusy
  else stOk

/-! ## Order and completion (R363, R364) -/

/-! ## Device DMA channels (R373) -/

/-- Does a command's buffer need a channel of its own, 2–7? Channel 1 carries buffers of 4 KiB or less. -/
def needsChannel (e : SubEntry) : Bool := 4096 < bufLenOf e

/-- The channel that carries a taken command's buffer. -/
def channelOf (s : State) (e : SubEntry) : Option Nat :=
  if needsChannel e then (s.host.dmaChan.find? (fun p => p.2 = e.tag)).map (·.1) else some 1

/-- The lowest free channel of 2–7. -/
def freeChannel (s : State) : Option Nat := [2, 3, 4, 5, 6, 7].find? (fun c => (tfind s.host.dmaChan c).isNone)

/-- Commands whose turn it is take channels, in the order in which Xiuth took them; where none is free a command waits. -/
def grantChannels (s : State) : State :=
  s.host.taken.foldl (fun s e =>
    if (channelOf s e).isSome || waitsTurn s e then s
    else match freeChannel s with
      | some c => { s with host := { s.host with dmaChan := tput s.host.dmaChan c e.tag } }
      | none => s) s

/-- A command ends: it leaves the commands taken and its channel, and its completion waits for ring space. -/
def complete (s : State) (e : SubEntry) (status : Nat) (result : List Byte) : State :=
  grantChannels { s with host := { s.host with
    taken := s.host.taken.erase e, dmaDone := s.host.dmaDone.erase e.tag, dmaChan := s.host.dmaChan.filter (fun p => p.2 ≠ e.tag),
    waiting := s.host.waiting ++ [{ tag := e.tag, opcode := e.opcode, status := status, result := padTo 20 result, noIrq := bit e.flags 0 }] } }

/-- The opcodes, the PARAM byte that picks a row and its greatest value, and whether it is accepted before Ready. -/
def mbxTable : List (Nat × Option (Nat × Nat) × Bool) :=
  [(0x0100, none, true), (0x0101, none, true), (0x0102, none, false), (0x0103, none, false), (0x0104, none, true),
   (0x0105, none, true), (0x0B00, none, true), (0x0B01, none, false), (0x0B02, none, false), (0x0200, none, true),
   (0x0201, none, false), (0x0202, none, false), (0x0203, none, false), (0x0204, none, false),
   (0x0300, some (2, 3), false), (0x0301, none, false), (0x0302, none, false), (0x0303, none, false), (0x0304, none, false),
   (0x0305, none, false), (0x0306, none, false), (0x0307, none, false),
   (0x0400, none, false), (0x0401, some (1, 3), false), (0x0402, none, false), (0x0403, none, false),
   (0x0500, some (1, 1), false), (0x0501, none, false), (0x0502, none, false),
   (0x0600, none, false), (0x0601, some (2, 1), false), (0x0602, some (2, 1), false), (0x0603, none, false), (0x0604, none, true),
   (0x0605, some (1, 1), false), (0x0606, none, false),
   (0x0700, none, true), (0x0701, none, true), (0x0702, none, false),
   (0x0800, none, false), (0x0801, none, false), (0x0802, none, false), (0x0803, none, true), (0x0804, none, false),
   (0x0900, none, true), (0x0901, none, false), (0x0A00, some (0, 1), false), (0x0A01, none, false)]

/-- The status with which an entry that no row of the command tables covers ends, or none for one that a row covers. -/
def strayStatus (s : State) (e : SubEntry) : Option Nat :=
  match mbxTable.find? (fun r => r.1 = e.opcode) with
  | none => some stBadOpcode
  | some (_, some (o, m), early) =>
    if parByte e o ≤ m then none else some (if s.host.ready || early then stRange else stNotReady)
  | some (_, none, _) => none

/-- Complete the entries that no row covers, each once no earlier command of its family is unfinished. -/
def settleStray (s : State) : Nat → State
  | 0 => s
  | fuel + 1 =>
    match s.host.taken.find? (fun e => (strayStatus s e).isSome && !waitsTurn s e) with
    | some e => settleStray (complete s e ((strayStatus s e).getD 0) []) fuel
    | none => s

/-- Can the command's buffer not move yet? In D3hot the device issues no DMA (R360), and a large buffer waits for a free channel (R373). -/
def dmaHeld (k : MbxCmd) (e : SubEntry) (s : State) : Bool :=
  k.buf ≠ 0 && bufLenOf e ≠ 0 && (s.host.d3hot || !s.host.dmaOn || (s.host.taken.contains e && (channelOf s e).isNone))

/-- Does a mailbox command start now and pass the checks of R365? -/
def mailboxRuns (k : MbxCmd) (e : SubEntry) (s : State) : Bool :=
  s.host.mbxReady && !waitsTurn s e && k.check e s = 0 && !dmaHeld k e s

/-- A mailbox command. One that Xiuth has taken waits for its family's earlier ones; a command that was handed over without the
ring runs at once. -/
def mailbox (k : MbxCmd) (e : SubEntry) (body : State → Answer) (s : State) : Out :=
  if !s.host.mbxReady || waitsTurn s e || (k.check e s = 0 && dmaHeld k e s) then done s s
  else if k.check e s ≠ 0 then done s (settleStray (complete s e (k.check e s) []) 64)
  else
    let a := body s
    done s (settleStray (complete a.st e a.status a.result) 64)

/-! ## Rings and doorbells (R362, R363) -/

/-- A doorbell write is ignored: DOORBELL_ERR and an Almanac warning record. -/
def doorbellBad (s : State) (reg v : Nat) : State :=
  alm { s with host := { s.host with doorbellErr := true } } srcHost .doorbell 2 [reg, v]

/-- A write of HUB_MBX_SQ_TAIL. -/
def sqTailWrite (s : State) (v : Nat) : State :=
  let n := v % 64
  let h := s.host
  if !h.mbxReady then s
  else if (n + 64 - h.sqTail) % 64 ≤ 63 - (h.sqTail + 64 - h.sqHead) % 64 then { s with host := { h with sqTail := n } }
  else doorbellBad s 0 n

/-- A write of HUB_MBX_CQ_HEAD. -/
def cqHeadWrite (s : State) (v : Nat) : State :=
  let n := v % 64
  let h := s.host
  if !h.mbxReady then s
  else if (n + 64 - h.cqHead) % 64 ≤ (h.cqTail + 64 - h.cqHead) % 64 then { s with host := { h with cqHead := n } }
  else doorbellBad s 1 n

/-- SQ_TAIL_DOORBELL (R362). -/
def execSqTailDoorbell (v : Nat) (s : State) : Out := done s (sqTailWrite s v)

/-- CQ_HEAD_DOORBELL (R362). -/
def execCqHeadDoorbell (v : Nat) (s : State) : Out := done s (cqHeadWrite s v)

/-- Bytes of a ring memory. -/
def ringBytes (t : Tbl Byte) (a n : Nat) : List Byte := (List.range n).map (fun i => tget t (a + i) 0)

/-- A ring memory with bytes written. -/
def ringWrite (t : Tbl Byte) (a : Nat) (bs : List Byte) : Tbl Byte := ((List.range bs.length).zip bs).foldl (fun t p => tput t (a + p.1) p.2) t

/-- The submission entry that 64 bytes hold. -/
def entryOf (b : List Byte) : SubEntry :=
  { opcode := fld b 0 2, flags := fld b 2 1, tag := fld b 4 4, bufAddr := fld b 8 8, bufLen := fld b 0x10 4,
    rsv := fld b 3 1 + fld b 0x14 4 * 256, param := slice b 0x18 40 }

/-- SUBMISSION_FETCH: Xiuth copies the entry at SQ_HEAD and advances the head (R363). -/
def execSubmissionFetch (s : State) : Out :=
  let h := s.host
  if !h.mbxReady || h.sqHead = h.sqTail then done s s
  else
    let e := entryOf (ringBytes h.sq (64 * h.sqHead) 64)
    done s (settleStray (grantChannels { s with host := { h with sqHead := (h.sqHead + 1) % 64, taken := h.taken ++ [e] } }) 64)

/-- Is the completion ring full? -/
def cqFull (h : HostS) : Bool := (h.cqTail + 1) % 64 = h.cqHead

/-- The 32 bytes of a completion (Table 17.5). -/
def completionBytes (h : HostS) (d : MbxDone) : List Byte :=
  natLe 4 d.tag ++ natLe 2 d.opcode ++ natLe 1 d.status ++ [0] ++ natLe 2 h.sqHead ++ [0, 0] ++ padTo 20 d.result

/-- COMPLETION_POST: the oldest waiting completion is written whole into the ring, then CQ_TAIL advances (R363). -/
def execCompletionPost (s : State) : Out :=
  match s.host.waiting with
  | [] => done s s
  | d :: rest =>
    if cqFull s.host then done s s
    else
      let h := s.host
      let s1 := { s with host := { h with cq := ringWrite h.cq (32 * h.cqTail) (completionBytes h d), cqTail := (h.cqTail + 1) % 64, waiting := rest } }
      done s (if d.noIrq then s1 else msix s1 0)

/-- HUB_MBX_STATUS. -/
def regMbxStatus (h : HostS) : Nat :=
  b2n h.doorbellErr * 2 ^ 31 + b2n (!h.waiting.isEmpty && cqFull h) * 2 ^ 30 + sat 255 (h.taken.length + h.waiting.length)

/-! ## System commands (Table 17.7) -/

/-- What the command tables say of NOP. -/
def cmdNop : MbxCmd := { opcode := 0x0100, early := true }

/-- NOP. -/
def execNop (e : SubEntry) (s : State) : Out :=
  mailbox cmdNop e (fun s => { st := s }) s

/-- The 32 bytes of a notification record (R372). -/
def notifBytes (n : Notif) : List Byte :=
  natLe 2 n.kind ++ [0, 0] ++ natLe 6 n.frame ++ [0, 0] ++ natLe 8 n.time ++ natLe 6 n.almSeq ++ [0, 0] ++ natLe 4 n.detail

/-- GET_EVENTS (R370, R372). -/
def getEvents (e : SubEntry) (s : State) : Answer :=
  if bufLenOf e < 32 then refuse s stRange
  else
    let n := min (min (fld (parOf e) 0 2) (bufLenOf e / 32)) s.host.notifs.length
    let s1 := bufOut s e ((s.host.notifs.take n).flatMap notifBytes)
    { st := { s1 with host := { s1.host with notifs := s.host.notifs.drop n, lost := 0 } },
      result := natLe 4 n ++ natLe 4 s.host.lost }

/-- What the command tables say of GET_EVENTS. -/
def cmdGetEvents : MbxCmd :=
  { opcode := 0x0101, used := [(0, 2)], early := true, buf := 2,
    ranged := fun p => 1 ≤ fld p 0 2 && fld p 0 2 ≤ 256 }

/-- GET_EVENTS. -/
def execGetEvents (e : SubEntry) (s : State) : Out :=
  mailbox cmdGetEvents e (getEvents e) s

/-! ## Result rings (R379, Table 17.10) -/

/-- Is a result ring's description in range? RING_BASE aligned to the entry size, TAIL_ADDR to 8 bytes. -/
def ringRanged (p : List Byte) : Bool :=
  fld p 0 1 < 8 && 8 ≤ fld p 2 1 && fld p 2 1 ≤ 20 && 2 ≤ fld p 3 1 && fld p 3 1 ≤ 16 && fld p 4 8 % 2 ^ (fld p 2 1) = 0 && fld p 12 8 % 8 = 0 &&
    fld p 20 2 + fld p 22 2 ≤ 1024

/-- RESULT_RING_SET. -/
def resultRingSet (e : SubEntry) (s : State) : Answer :=
  let p := (parOf e)
  let r : Ring := { isSet := true, log2Entry := fld p 2 1, log2Count := fld p 3 1, base := fld p 4 8, tailAddr := fld p 12 8,
                    outFirst := fld p 20 2, outCount := fld p 22 2 }
  if (tget s.host.rings (fld p 0 1) {}).isSet then refuse s stInUse
  else { st := { s with host := { s.host with rings := tput s.host.rings (fld p 0 1) r } } }

/-- What the command tables say of RESULT_RING_SET. -/
def cmdResultRingSet : MbxCmd := { opcode := 0x0500, pick := some (1, 0), used := [(0, 24)], ranged := ringRanged }

/-- RESULT_RING_SET. -/
def execResultRingSet (e : SubEntry) (s : State) : Out :=
  mailbox cmdResultRingSet e (resultRingSet e) s

/-- RESULT_RING_SET with OP 1 names only the ring: its other fields are not looked at (DEDUCED, log 25). -/
def resultRingRemove (e : SubEntry) (s : State) : Answer :=
  if (tget s.host.rings (parByte e 0) {}).isSet then { st := { s with host := { s.host with rings := tdel s.host.rings (parByte e 0) } } }
  else refuse s stNotFound

/-- What the command tables say of RESULT_RING_REMOVE. -/
def cmdResultRingRemove : MbxCmd := { opcode := 0x0500, pick := some (1, 1), used := [(0, 24)], ranged := fun p => fld p 0 1 < 8 }

/-- RESULT_RING_REMOVE. -/
def execResultRingRemove (e : SubEntry) (s : State) : Out :=
  mailbox cmdResultRingRemove e (resultRingRemove e) s

/-- RESULT_ACK: HEAD moves toward TAIL and not past it. -/
def resultAck (e : SubEntry) (s : State) : Answer :=
  let r := tget s.host.rings (parByte e 0) {}
  let n := 2 ^ r.log2Count
  let h := fld (parOf e) 4 4
  if !r.isSet then refuse s stNotFound
  else if h ≥ n || (h + n - r.head) % n > (r.tail + n - r.head) % n then refuse s stRange
  else { st := { s with host := { s.host with rings := tput s.host.rings (parByte e 0) { r with head := h } } } }

/-- What the command tables say of RESULT_ACK. -/
def cmdResultAck : MbxCmd := { opcode := 0x0501, used := [(0, 1), (4, 4)], ranged := fun p => fld p 0 1 < 8 }

/-- RESULT_ACK. -/
def execResultAck (e : SubEntry) (s : State) : Out :=
  mailbox cmdResultAck e (resultAck e) s

/-- RESULT_RING_STATUS. -/
def resultRingStatus (e : SubEntry) (s : State) : Answer :=
  let r := tget s.host.rings (parByte e 0) {}
  if !r.isSet then refuse s stNotFound
  else { st := s, result := natLe 4 r.tail ++ natLe 4 r.head ++ natLe 4 r.dropped ++ natLe 4 r.tooBig }

/-- What the command tables say of RESULT_RING_STATUS. -/
def cmdResultRingStatus : MbxCmd := { opcode := 0x0502, used := [(0, 1)], ranged := fun p => fld p 0 1 < 8 }

/-- RESULT_RING_STATUS. -/
def execResultRingStatus (e : SubEntry) (s : State) : Out :=
  mailbox cmdResultRingStatus e (resultRingStatus e) s

/-! ## Expert access (R381) -/

/-- Is the Service Season running? -/
def inService (s : State) : Bool := s.host.season = 3

/-- Expert access opens in a scope. -/
def expertOpen (s : State) (service : Bool) : State :=
  alm { s with host := { s.host with expertOn := true, expertScope := service } } srcHost .expert 2 [1, b2n service]

/-- Expert access ends. -/
def expertClose (s : State) (cause : Nat) : State :=
  if s.host.expertOn then alm { s with host := { s.host with expertOn := false, expertScope := false } } srcHost .expert 2 [2, cause] else s

/-- What the command tables say of EXPERT_UNLOCK_P3. -/
def cmdExpertUnlockP3 : MbxCmd := { opcode := 0x0A00, pick := some (0, 0), used := [(0, 1)] }

/-- EXPERT_UNLOCK with SCOPE 0. -/
def execExpertUnlockP3 (e : SubEntry) (s : State) : Out :=
  mailbox cmdExpertUnlockP3 e (fun s => { st := expertOpen s false }) s

/-- What the command tables say of EXPERT_UNLOCK_SERVICE. -/
def cmdExpertUnlockService : MbxCmd := { opcode := 0x0A00, pick := some (0, 1), used := [(0, 1)], season := inService }

/-- EXPERT_UNLOCK with SCOPE 1: in the Service Season only. -/
def execExpertUnlockService (e : SubEntry) (s : State) : Out :=
  mailbox cmdExpertUnlockService e (fun s => { st := expertOpen s true }) s

/-- What the command tables say of EXPERT_LOCK. -/
def cmdExpertLock : MbxCmd := { opcode := 0x0A01 }

/-- EXPERT_LOCK. -/
def execExpertLock (e : SubEntry) (s : State) : Out :=
  mailbox cmdExpertLock e (fun s => { st := alm { s with host := { s.host with expertOn := false, expertScope := false } } srcHost .expert 2 [2, 0] }) s

/-! ## Health, Vigil and safety commands (Table 17.11) -/

/-- HEALTH_STATUS: 1,172 bytes. -/
def healthReport (s : State) : List Byte :=
  (List.range 288).flatMap (fun g => natLe 4 (regHltClu s g)) ++ (List.range 4).flatMap (fun q => natLe 4 (regHltQ s q)) ++ natLe 4 (regHltCount s)

/-- What the command tables say of HEALTH_STATUS. -/
def cmdHealthStatus : MbxCmd := { opcode := 0x0600, buf := 2 }

/-- HEALTH_STATUS. -/
def execHealthStatus (e : SubEntry) (s : State) : Out :=
  mailbox cmdHealthStatus e (fun s => { st := bufOut s e (healthReport s) }) s

/-- FENCE: at once, abandoning a rotation test in progress on the cluster; a cluster QUARANTINED, RETIRED or FENCED stays as it is
(R325, R337). -/
def fenceFence (e : SubEntry) (s : State) : Answer :=
  let g := fld (parOf e) 0 2
  let s1 := fenceClu (if (healthOf s g).state = .inTest then abandonTest s g else s) g
  { st := s1, result := natLe 1 (stateCode (healthOf s1 g).state) }

/-- What the command tables say of FENCE_CLUSTER_FENCE. -/
def cmdFenceClusterFence : MbxCmd := { opcode := 0x0601, pick := some (2, 0), used := [(0, 3)], ranged := fun p => fld p 0 2 < 288 }

/-- FENCE_CLUSTER with OP 0. -/
def execFenceClusterFence (e : SubEntry) (s : State) : Out :=
  mailbox cmdFenceClusterFence e (fenceFence e) s

/-- RELEASE (R325). -/
def fenceRelease (e : SubEntry) (s : State) : Answer :=
  let g := fld (parOf e) 0 2
  if (healthOf s g).state ≠ .fenced then refuse s stRange
  else
    let s1 := releaseClu s g
    { st := s1, result := natLe 1 (stateCode (healthOf s1 g).state) }

/-- What the command tables say of FENCE_CLUSTER_RELEASE. -/
def cmdFenceClusterRelease : MbxCmd := { opcode := 0x0601, pick := some (2, 1), used := [(0, 3)], ranged := fun p => fld p 0 2 < 288 }

/-- FENCE_CLUSTER with OP 1. -/
def execFenceClusterRelease (e : SubEntry) (s : State) : Out :=
  mailbox cmdFenceClusterRelease e (fenceRelease e) s

/-- RESTRICT: a soft quarantine becomes RESTRICTED (R326). -/
def clusterRestrict (e : SubEntry) (s : State) : Answer :=
  let g := fld (parOf e) 0 2
  let h := healthOf s g
  if h.state ≠ .quarantined || h.hardQ then refuse s stRange
  else
    let s1 := alm (modHealth s g (fun h => { h with state := .restricted, testing := false, passes := 0, fails := 0, lastTest := none })) (srcClu g) .health 2 [5, h.score]
    { st := s1, result := natLe 1 5 }

/-- What the command tables say of CLUSTER_RESTRICT_RESTRICT. -/
def cmdClusterRestrictRestrict : MbxCmd := { opcode := 0x0602, pick := some (2, 0), used := [(0, 3)], ranged := fun p => fld p 0 2 < 288 }

/-- CLUSTER_RESTRICT with OP 0. -/
def execClusterRestrictRestrict (e : SubEntry) (s : State) : Out :=
  mailbox cmdClusterRestrictRestrict e (clusterRestrict e) s

/-- UNRESTRICT (R326). -/
def clusterUnrestrict (e : SubEntry) (s : State) : Answer :=
  let g := fld (parOf e) 0 2
  if (healthOf s g).state ≠ .restricted then refuse s stRange
  else { st := quarantineNow s g false, result := natLe 1 3 }

/-- What the command tables say of CLUSTER_RESTRICT_UNRESTRICT. -/
def cmdClusterRestrictUnrestrict : MbxCmd := { opcode := 0x0602, pick := some (2, 1), used := [(0, 3)], ranged := fun p => fld p 0 2 < 288 }

/-- CLUSTER_RESTRICT with OP 1. -/
def execClusterRestrictUnrestrict (e : SubEntry) (s : State) : Out :=
  mailbox cmdClusterRestrictUnrestrict e (clusterUnrestrict e) s

/-- HEALTH_RESUME ends a suspension (R320). -/
def healthResume (e : SubEntry) (s : State) : Answer :=
  let q := parByte e 0
  if !(hltQOf s q).suspended then refuse s stRange else { st := modHltQ s q (fun h => { h with suspended := false }) }

/-- What the command tables say of HEALTH_RESUME. -/
def cmdHealthResume : MbxCmd := { opcode := 0x0603, used := [(0, 1)], ranged := fun p => fld p 0 1 < 4 }

/-- HEALTH_RESUME. -/
def execHealthResume (e : SubEntry) (s : State) : Out :=
  mailbox cmdHealthResume e (healthResume e) s

/-- What the command tables say of VIGIL_STATUS. -/
def cmdVigilStatus : MbxCmd := { opcode := 0x0604, early := true }

/-- VIGIL_STATUS. -/
def execVigilStatus (e : SubEntry) (s : State) : Out :=
  mailbox cmdVigilStatus e (fun s =>
    { st := s, result := natLe 4 (regVgStatus s.islA) ++ natLe 4 (regVgStatus s.islB) ++
                         natLe 4 (regVgRestart s.islA) ++ natLe 4 (regVgRestart s.islB) }) s

/-- The island VIGIL_DEBUG names. -/
def debugIsl (e : SubEntry) : Isl := if parByte e 0 = 0 then .a else .b

/-- What the command tables say of VIGIL_DEBUG_ENABLE. -/
def cmdVigilDebugEnable : MbxCmd :=
  { opcode := 0x0605, pick := some (1, 1), used := [(0, 2)],
    ranged := fun p => fld p 0 1 < 2,
    season := inService }

/-- VIGIL_DEBUG that enables debug: in the Service Season only (R303). -/
def execVigilDebugEnable (e : SubEntry) (s : State) : Out :=
  mailbox cmdVigilDebugEnable e
    (fun s => { st := modIsl s (debugIsl e) (fun x => { x with debugEn := true }) }) s

/-- What the command tables say of VIGIL_DEBUG_DISABLE. -/
def cmdVigilDebugDisable : MbxCmd :=
  { opcode := 0x0605, pick := some (1, 0), used := [(0, 2)],
    ranged := fun p => fld p 0 1 < 2,
    season := inService }

/-- VIGIL_DEBUG that disables debug. -/
def execVigilDebugDisable (e : SubEntry) (s : State) : Out :=
  mailbox cmdVigilDebugDisable e
    (fun s => { st := modIsl s (debugIsl e) (fun x => { x with debugEn := false }) }) s

/-- What the command tables say of GET_SAFETY_REPORT. -/
def cmdGetSafetyReport : MbxCmd := { opcode := 0x0606, buf := 2 }

/-- GET_SAFETY_REPORT. -/
def execGetSafetyReport (e : SubEntry) (s : State) : Out :=
  mailbox cmdGetSafetyReport e (fun s => { st := bufOut s e (safetyReport s) }) s

end Sys2Proof.Machine
end

