-- ==== Sys2Proof/Machine/Almanac.lean ====
section
/-!
DEFINITION. The Almanac's own commands (R343–R356): events, the flash journal and its compaction, the summary record, reading and
clearing.
-/

namespace Sys2Proof.Machine

/-- Almanac SOURCE of the Almanac itself. -/
def srcAlm : Nat := 0xD000

/-! ## Events -/

/-- ALMANAC_EVENT: a unit's message creates, folds or drops a record (R345–R348). -/
def execAlmanacEvent (e : AlmMsg) (s : State) : Out := done s (almAt s e.source e.code e.severity e.payload e.time)

/-! ## The journal (R350, R351) -/

/-- Entries of a journal half: 4 MiB of 64 B. -/
def halfEntries : Nat := 65536

/-- Entries in the active half. -/
def journalFill (a : Alm) : Nat := (tget a.halves a.half []).length

/-- Does a failed journal write await its retry (JOURNAL_FAULT)? -/
def retryWaits (a : Alm) : Bool := a.due.any (·.retry) || (a.compacting && a.compactFailed)

/-- A flash error at the journal: JOURNAL_FAULT, an error record, and the retry at the next whole second (R351). -/
def journalError (s : State) : State :=
  alm { s with alm := { s.alm with journalFault := true, faults := sat 0xFFFF (s.alm.faults + 1) } } srcAlm .journalFail 3 [s.alm.half]

/-- The next whole second of device time. -/
def nextSecond (now : Nat) : Nat := (now / 1000000000 + 1) * 1000000000

/-- The entries that are due are programmed into half `h`; `fail`: the flash fails, and they wait for the next whole second. -/
def programDue (s : State) (h : Nat) (fail : Bool) : State :=
  let due := s.alm.due.filter (fun e => e.due ≤ s.now)
  if due.isEmpty then s
  else if fail then
    journalError { s with alm := { s.alm with
      due := s.alm.due.map (fun e => if e.due ≤ s.now then { e with due := nextSecond s.now, retry := true } else e) } }
  else
    { s with alm := { s.alm with due := s.alm.due.filter (fun e => s.now < e.due),
                                 halves := tput s.alm.halves h (tget s.alm.halves h [] ++ due) } }

/-- A compaction begins once the active half holds 49,152 entries: the other half is erased, and entries that fall due go there (R351). -/
def beginCompaction (s : State) : State :=
  if s.alm.compacting || journalFill s.alm < 49152 then s
  else { s with alm := { s.alm with compacting := true, compactFailed := false, compactAt := s.now,
                                    halves := tput s.alm.halves (1 - s.alm.half) [] } }

/-- A compaction ends: the image of every occupied slot is in the other half, which becomes active, and the old half is erased. `fail`: the
flash fails at one of the steps, and the compaction waits for the next whole second. -/
def endCompaction (s : State) (fail : Bool) : State :=
  if !s.alm.compacting || s.now < s.alm.compactAt then s
  else if fail then journalError { s with alm := { s.alm with compactFailed := true, compactAt := nextSecond s.now } }
  else
    let o := 1 - s.alm.half
    let imgs := s.alm.ring.map (fun p => { img := p.2, due := s.now : JEntry })
    { s with alm := { s.alm with halves := tput (tput s.alm.halves o (tget s.alm.halves o [] ++ imgs)) s.alm.half [], half := o,
                                 compacting := false, compactFailed := false, compactions := sat 0xFFFF (s.alm.compactions + 1) } }

/-! ## The summary (R353) -/

/-- The severity of a summary: info, or the highest severity whose drop counter has changed. -/
def summarySeverity (a : Alm) : Nat :=
  match [4, 3, 2, 1, 0].find? (fun k => tget a.drops k 0 ≠ tget a.lastDrops k 0) with
  | some k => k
  | none => 1

/-- A summary is recorded. Only one that finds a slot becomes the previous summary (DEDUCED, log 27). -/
def recordSummary (s : State) (sev : Nat) (payload : List Nat) (time : Nat) : State :=
  let t := almCreate s srcAlm .summary sev 2 payload time
  if t.alm.head = s.alm.head then t
  else { t with alm := { t.alm with lastDrops := (List.range 5).foldl (fun d k => tput d k (payload.getD k 0)) [] } }

/-- ALMANAC_SUMMARY: every 60 s of device time. During a clear it waits with the events in the buffer (R355). -/
def execAlmanacSummary (s : State) : Out :=
  if !s.alm.ready then done s s
  else
    let s1 := { s with now := max s.now (s.alm.lastSummary + 60000000000) }
    let s1 := { s1 with alm := { s1.alm with lastSummary := s1.now } }
    let payload := (List.range 5).map (fun k => tget s.alm.drops k 0) ++ [s.alm.faults, s.alm.compactions]
    done s (if s.alm.clearing then
              almBuffer s1 { source := srcAlm, code := .summary, severity := summarySeverity s.alm, payload := payload, time := s1.now }
            else recordSummary s1 (summarySeverity s.alm) payload s1.now)

/-! ## Reading (R349, R370) -/

/-- Insert a record by SEQ. -/
def insertRec (r : AlmRec) : List AlmRec → List AlmRec
  | [] => [r]
  | x :: rest => if r.seq ≤ x.seq then r :: x :: rest else x :: insertRec r rest

/-- The records present from a SEQ on, in SEQ order. -/
def recordsFrom (a : Alm) (q : Nat) : List AlmRec := (a.ring.filter (fun p => q ≤ p.2.seq)).foldl (fun l p => insertRec p.2 l) []

/-- ALM_READ. -/
def almRead (e : SubEntry) (s : State) : Answer :=
  if bufLenOf e < 64 then refuse s stRange
  else
    let rs := recordsFrom s.alm (fld (parOf e) 0 6)
    let n := min (bufLenOf e / 64) rs.length
    let next := match rs.drop n with | r :: _ => r.seq | [] => s.alm.head + 1
    { st := bufOut s e ((rs.take n).flatMap recBytes), result := natLe 4 n ++ natLe 6 next }

/-- What the command tables say of ALM_READ. -/
def cmdAlmRead : MbxCmd := { opcode := 0x0700, used := [(0, 6)], early := true, buf := 2 }

/-- ALM_READ. -/
def execAlmRead (e : SubEntry) (s : State) : Out :=
  mailbox cmdAlmRead e (almRead e) s

/-- ALM_INFO: the entries that the buffer holds, and their number (log 9). -/
def almInfo (e : SubEntry) (s : State) : Answer :=
  let t := Config.almInfo (tget s.upd.components 1 [])
  let n := min (t.length / 32) (bufLenOf e / 32)
  { st := bufOut s e (t.take (32 * n)), result := natLe 4 n }

/-- What the command tables say of ALM_INFO. -/
def cmdAlmInfo : MbxCmd := { opcode := 0x0701, early := true, buf := 2 }

/-- ALM_INFO. -/
def execAlmInfo (e : SubEntry) (s : State) : Out :=
  mailbox cmdAlmInfo e (almInfo e) s

/-- ALM_HEAD_LO_READ latches HEAD[47:32]. -/
def execAlmHeadLoRead (s : State) : Out :=
  done s { s with alm := { s.alm with headHi := bits s.alm.head 47 32 }, host := { s.host with readData := natLe 4 s.alm.head } }

/-! ## Clearing (R354–R356) -/

/-- Is a P0 plan admitted? -/
def p0Admitted (s : State) : Bool := s.plans.any (fun p => p.admitted && !p.retired && usesP0 p.image)

/-- The checks of an authorisation token: body, RSA signature, SLH-DSA signature. -/
def tokenOk (s : State) (t : List Byte) : Bool :=
  let b := t.take 64
  let k := Config.almKeys (tget s.upd.components 8 [])
  fld b 0 4 = 0x4C434C41 && fld b 4 2 = 1 && fld b 6 2 = s.alm.clearGen && fld b 8 8 = s.ident.serial &&
    rsaPssOk k.1 b (slice t 64 384) && Config.slhOk k.2 b (slice t 448 16224)

/-- The Almanac erased, with the CLEAR record in slot 0 and as the only journal entry. -/
def cleared (s : State) (body : List Byte) : State :=
  let q := s.alm.head + 1
  let g := (s.alm.clearGen + 1) % 2 ^ 15
  let com := commitUp (tget s.alm.commits 0 0)
  let r : AlmRec := { seq := q, source := srcAlm, time := s.now, lastTime := s.now, code := .clear, severity := 4, flags := 1,
                      payload := s.alm.head :: g :: ((sha384 body).take 16).map BitVec.toNat, commit := com }
  let o := 1 - s.alm.half
  let a := { s.alm with ring := [(0, r)], commits := [(0, com)], lastSlot := 0, head := q,
                        newest := (srcAlm, AlmCode.clear, q) :: s.alm.newest.filter (fun e => !(e.1 = srcAlm ∧ e.2.1 = AlmCode.clear)) }
  let a := { a with drops := [], lastDrops := [], clearPresent := true, clearGen := g, clearSlot := 0, due := [], journalFault := false,
                    halves := [(o, [{ img := r, due := s.now }])], half := o }
  msix { s with alm := a } 2

/-- The status with which ALM_CLEAR is refused, in the order of R354, or OK. -/
def clearStatus (e : SubEntry) (s : State) : Nat :=
  if bufLenOf e ≠ 16672 then stRange
  else if !tokenOk s (bufIn s e 16672) then stAuthFail
  else if p0Admitted s then stInUse
  else stOk

/-- Step 1 of R355: CLEARING is set. The buffer has been read; the flash work, and with it the completion, comes in a later JOURNAL_FLUSH (DESIGN
CHOICE, log 50). -/
def beginClear (s : State) (e : SubEntry) (fails : Bool) : State :=
  { s with alm := { s.alm with clearing := true, clearEntry := some e, clearBody := (bufIn s e 16672).take 64, clearFails := fails,
                               clearBuffer := [], clearDrops := [] }
           host := { s.host with dmaDone := if s.host.dmaDone.contains e.tag then s.host.dmaDone else s.host.dmaDone ++ [e.tag] } }

/-- A buffered event is recorded. -/
def recordBuffered (s : State) (e : AlmMsg) : State :=
  if e.code = .summary then recordSummary s e.severity e.payload e.time else almAt s e.source e.code e.severity e.payload e.time

/-- The clear ends, or is abandoned where the flash fails: then ring and journal keep their contents and an error record is written. The drops beyond
the buffer are counted and the buffered events recorded (step 5 of R355). -/
def closeClear (s : State) (fail : Bool) : State :=
  let t := if fail then s else cleared s s.alm.clearBody
  let drops := [0, 1, 2, 3, 4].foldl (fun d k =>
    if tget s.alm.clearDrops k 0 = 0 then d else tmod d k 0 (fun n => sat 0xFFFFFFFF (n + tget s.alm.clearDrops k 0))) t.alm.drops
  let t := { t with alm := { t.alm with clearing := false, clearEntry := none, clearBody := [], clearFails := false, clearBuffer := [], clearDrops := [],
                                        drops := drops } }
  let t := s.alm.clearBuffer.foldl recordBuffered t
  if fail then alm t srcAlm .clearFail 3 [s.alm.clearGen] else t

/-- The clear ends and its command, unless the interface was reset meanwhile, completes. -/
def endClear (s : State) (fail : Bool) : State :=
  match s.alm.clearEntry with
  | some e => settleStray (complete (closeClear s fail) e (if fail then stFlashFail else stOk) []) 64
  | none => closeClear s fail

/-- What the command tables say of ALM_CLEAR. -/
def cmdAlmClear : MbxCmd := { opcode := 0x0702, buf := 1, busy := fun s _ => s.alm.compacting || s.alm.clearing }

/-- ALM_CLEAR; `flashFail`: the flash fails under it (step 2 or 3 of R355). The one in progress goes on. -/
def execAlmClear (e : SubEntry) (flashFail : Bool) (s : State) : Out :=
  if s.alm.clearing && s.alm.clearEntry = some e then done s s
  else if mailboxRuns cmdAlmClear e s && clearStatus e s = stOk then done s (beginClear s e flashFail)
  else mailbox cmdAlmClear e (fun s => refuse s (clearStatus e s)) s

/-! ## JOURNAL_FLUSH (R350, R351, R355) -/

/-- JOURNAL_FLUSH: the entries that are due are programmed, and a compaction goes on: it begins in the flush that fills the half and ends in a
later one (R350, R351; that it takes two is a DESIGN CHOICE, log 50). -/
def execJournalFlush (fail : FlushFail) (s : State) : Out :=
  if s.alm.clearing then done s (endClear s (s.alm.clearFails || fail.program || fail.compact))
  else
  let s1 := programDue s (if s.alm.compacting then 1 - s.alm.half else s.alm.half) fail.program
  let s2 := if s.alm.compacting then endCompaction s1 fail.compact else beginCompaction s1
  done s (if retryWaits s2.alm then s2 else { s2 with alm := { s2.alm with journalFault := false } })

/-! ## Rebuilding after a reset (R352) -/

/-- The entry of each SEQ with the highest COMMIT, among those whose VALID matches, in SEQ order. -/
def keptEntries (es : List JEntry) : List AlmRec :=
  es.foldl (fun l e =>
    if e.torn then l
    else match l.find? (fun r => r.seq = e.img.seq) with
      | some r => if r.commit < e.img.commit then l.map (fun x => if x.seq = e.img.seq then e.img else x) else l
      | none => insertRec e.img l) []

/-- Place a kept record under R346, its COMMIT as it was. SEQ goes on after the highest one of the journal (R344), whether or not its record finds a
slot. -/
def restoreRec (a : Alm) (r : AlmRec) : Alm :=
  let a := { a with head := max a.head r.seq, newest := (r.source, r.code, r.seq) :: a.newest.filter (fun e => !(e.1 = r.source ∧ e.2.1 = r.code)) }
  match placeSlot a r.severity with
  | none => a
  | some k =>
    let a := { a with ring := tput a.ring k r, commits := tput a.commits k r.commit, lastSlot := k }
    if r.isClear then { a with clearPresent := true, clearSlot := k, clearGen := (r.payload.getD 1 0) % 2 ^ 15 } else a

/-- Xiuth rebuilds the ring from both journal halves, then writes the BOOT record: reset cause, highest SEQ, torn entries, banks
rejected in this boot. -/
def rebuildAlmanac (s : State) (cause rejected : Nat) : State :=
  let es := tget s.alm.halves 0 [] ++ tget s.alm.halves 1 []
  let torn := (es.filter (·.torn)).length
  let kept := keptEntries es
  let half := if (tget s.alm.halves 1 []).length > (tget s.alm.halves 0 []).length then 1 else 0
  let a0 : Alm := { halves := s.alm.halves, half := half }
  let a := kept.foldl restoreRec a0
  let a := match (kept.filter (fun r => r.code = .summary)).getLast? with
    | some r => { a with drops := (List.range 5).foldl (fun t k => tput t k (r.payload.getD k 0)) [],
                         lastDrops := (List.range 5).foldl (fun t k => tput t k (r.payload.getD k 0)) [] }
    | none => a
  let s1 := { s with alm := { a with ready := true } }
  almCreate s1 srcAlm .boot 1 4 [cause, a.head, torn, rejected] s.now

/-! ## Registers -/

/-- HUB_ALM_STATUS. -/
def regAlmStatus (a : Alm) : Nat :=
  b2n a.ready * 2 ^ 31 + b2n a.compacting * 2 ^ 30 + b2n a.clearing * 2 ^ 29 + b2n a.journalFault * 2 ^ 28 + a.ring.length

/-- HUB_ALM_JOURNAL. -/
def regAlmJournal (a : Alm) : Nat := a.half * 2 ^ 24 + min 100 (journalFill a * 100 / halfEntries) * 65536 + a.compactions

/-- HUB_ALM_CLEAR. -/
def regAlmClear (a : Alm) : Nat := b2n a.clearPresent * 2 ^ 31 + a.clearGen * 65536 + a.clearSlot

end Sys2Proof.Machine
end

