-- ==== Sys2Proof/Machine/Attention.lean ====
section
/-!
DEFINITION. The attention walker (chapter 7): ATTN_STEP, ATTN_PREFILL and ATTN_COMMIT over the key-value arena.
-/

namespace Sys2Proof.Machine

/-! ## Checks of the arena (R148) -/

/-- Check the tiles of the positions `ps` in every area of a layer (R148). -/
def checkPositions (c : Cmdr) (d : SeqDesc) (layer : Nat) (ps : List Nat) (r : Rd) : Rd :=
  (areasOf d).foldl (fun r a =>
    ((ps.map (fun p => p / d.tp)).eraseDups).foldl (fun r t =>
      checkTile r c (posAddr d layer (t * d.tp) a) (areaLog d a) d.arenaGen) r) r

/-- The first address of the tiles of these positions of a layer that the command may not write (R169). -/
def foreignArena (s : State) (c : Cmdr) (d : SeqDesc) (layer : Nat) (ps : List Nat) : Option Nat :=
  (areasOf d).findSome? (fun a => ps.findSome? (fun p => firstForeign s c.part (posAddr d layer (p / d.tp * d.tp) a) (2 ^ areaLog d a)))

/-- A walker command that would write a unit of another owner will fail: one record names the address (R169). -/
def Rd.mayWrite (r : Rd) (c : Cmdr) (foreign : Option Nat) : Rd :=
  match foreign with | some x => { r with s := dropEvent r.s c x, ok := false } | none => r

/-! ## List entries, trees and key sets (R153, R158) -/

/-- A list entry of a walker command (Table 7.3). -/
structure ListEntry where
  id : Nat
  t : Nat
  q : Nat
  k : Nat
  v : Nat
  out : Nat
  lse : Nat
  tree : Nat
deriving DecidableEq, Repr

/-- A list entry from its 32 bytes. -/
def listEntry (b : List Byte) : ListEntry :=
  { id := fld b 0 1, t := fld b 2 2, q := fld b 4 4, k := fld b 8 4, v := fld b 0xC 4, out := fld b 0x10 4, lse := fld b 0x14 4,
    tree := fld b 0x18 4 }

/-- Read the list of a walker command. -/
def readList (r : Rd) (c : Cmdr) : Rd × List ListEntry :=
  let n := fld c.a.desc 0x18 1
  let (r, bs) := readLocal r c (fld c.a.desc 0x10 4) (32 * n)
  (r, (List.range n).map (fun i => listEntry (slice bs (32 * i) 32)))

/-- Parents from a tree record. -/
def parentsOf (b : List Byte) (t : Nat) : List Int := (b.take t).map (fun x => sext 8 x.toNat)

/-- The chain a prefill round stands for. -/
def chainParents (t : Nat) : List Int := (List.range t).map (fun (i : Nat) => (i : Int) - 1)

/-- Depth of an entry: 1 after the committed sequence, else one more than its parent's (R158). -/
def depthOf (ps : List Int) : Nat → Nat → Nat
  | 0, _ => 1
  | fuel + 1, i =>
    match ps[i]? with
    | some p => if p < 0 then 1 else 1 + depthOf ps fuel p.toNat
    | none => 1

/-- The ancestors of an entry, nearest first. -/
def ancestors (ps : List Int) : Nat → Nat → List Nat
  | 0, _ => []
  | fuel + 1, i =>
    match ps[i]? with
    | some p => if p < 0 then [] else p.toNat :: ancestors ps fuel p.toNat
    | none => []

/-- The committed global positions. -/
def globals (d : SeqDesc) : List Nat :=
  (d.runs.flatMap (fun w => (List.range (runOf w).2).map (· + (runOf w).1))).filter (· < d.curLen)

/-- The committed positions a query at position `q` attends, ascending, each once (R158). -/
def committedKeys (d : SeqDesc) (q : Nat) : List Nat :=
  let lo := q + 1 - d.window
  let win := (List.range (d.curLen - lo)).map (· + lo)
  ((globals d).filter (· < lo)) ++ win

/-- The round's own entries that entry `i` attends, in ascending position (R158). -/
def roundKeys (d : SeqDesc) (prefill : Bool) (ps : List Int) (i : Nat) : List Nat :=
  if prefill then (List.range (i + 1)).filter (fun j => i < j + d.window)
  else (ancestors ps 16 i).reverse ++ (if d.window ≥ 1 then [i] else [])

/-! ## Numbers (R159–R161) -/

/-- Rotate one head's vector at a position: pairs of ROPE_DIM by ROPE_MODE, the rest unchanged. -/
def rotary (d : SeqDesc) (q : Nat) (x : List Num) : List Num :=
  let arr := x.toArray
  let half := d.ropeDim / 2
  (List.range x.length).map (fun i =>
    if i ≥ d.ropeDim then arr.getD i Num.zero
    else
      let j := if d.ropeMode = 0 then i / 2 else i % half
      let first := if d.ropeMode = 0 then i % 2 = 0 else i < half
      let a := if d.ropeMode = 0 then 2 * j else j
      let b := if d.ropeMode = 0 then 2 * j + 1 else j + half
      let θ := ropeAngle q d.ropeTheta j d.ropeDim
      let co := walkTrig false θ
      let si := walkTrig true θ
      let u := arr.getD a Num.zero
      let v := arr.getD b Num.zero
      if first then (u.mul co).sub (v.mul si) else (u.mul si).add (v.mul co))

/-- BF16 values of one head of a tensor of `n` heads an entry. -/
def headVec (bs : List Byte) (n D i h : Nat) : List Num :=
  (unpackBits 16 D (slice bs ((i * n + h) * D * 2) (D * 2))).map (decodeNum 2)

/-- Convert one head to the stored format: data bytes, scale bytes (R81, R159). -/
def storeHead (d : SeqDesc) (naninf : Bool) (x : List Num) : List Byte × List Byte :=
  let rm : Nat → RMode := fun _ => { naninf := naninf }
  let f := if d.fp8 then 3 else 2
  let (es, sc, _) := encodeRow f d.scaled rm 0 x
  (packBits (fmtBits f) es, sc.map (BitVec.ofNat 8))

/-- One head of a stored position: keys (`area` 0) or values (1), widened with its scales. -/
def loadHead (d : SeqDesc) (ent : List (List Byte)) (area h : Nat) : List Num :=
  let f := if d.fp8 then 3 else 2
  let data := (ent[area]?).getD []
  let raws := unpackBits (fmtBits f) d.dim (slice data (h * d.dim * d.elem) (d.dim * d.elem))
  let sc := if d.scaled then (slice ((ent[area + 2]?).getD []) (h * d.headDim32) d.headDim32).map (fun b => some b.toNat) else []
  scaledElems f raws sc

/-- One softmax row (R160): outputs before rounding, log-sum-exp, whether a result was flushed. -/
def attendRow (scale : Num) (q : List Num) (keys : List (List Num × List Num)) (D : Nat) : List Num × Num × Bool :=
  if keys.isEmpty then (List.replicate D Num.zero, .inf true, false)
  else
    let step (st : Num × Num × List Num × Bool) (kv : List Num × List Num) : Num × Num × List Num × Bool :=
      let (m, l, acc, fl) := st
      let s := mul32 scale ((List.zip q kv.1).foldl (fun a p => fma32 p.1 p.2 a) Num.zero)
      let (m, l, acc, fl) :=
        if m.lt s then
          let (c, f) := walkExp (rnd32 (m.sub s))
          (s, mul32 l c, acc.map (mul32 · c), fl || f)
        else (m, l, acc, fl)
      let (w, f) := walkExp (rnd32 (s.sub m))
      (m, add32 l w, List.zipWith (fun a v => fma32 w v a) acc kv.2, fl || f)
    let (m, l, acc, fl) := keys.foldl step (.inf true, Num.zero, List.replicate D Num.zero, false)
    let (lg, f) := walkLog l
    (acc.map (div32 · l), add32 m lg, fl || f)

/-! ## One sequence of a step or prefill -/

/-- SEQ_STATUS of ATTN_STEP and ATTN_PREFILL (Table 7.5), for the latched descriptor and the tree record as read. -/
def seqStatus (c : Cmdr) (d : SeqDesc) (e : ListEntry) (prefill treeBit : Bool) (ps : List Int) (crc : Nat) : Nat :=
  let layer := fld c.a.desc 0x19 1
  if !d.valid || d.boundPlan ≠ some c.a.planId || d.boundTask ≠ c.a.task then 8
  else if d.broken then 32
  else if (!d.isOpen && layer ≠ 0) || (d.isOpen && layer ≠ d.nextLayer) || layer ≥ d.layers then 4
  else
    let badT := e.t = 0 || e.t > (if prefill then 4096 else 16)
    let badTree := !prefill && (ps.zipIdx).any (fun p => p.1 ≥ (p.2 : Int) || p.1 < -1 || (!treeBit && p.2 ≥ 1 && p.1 ≠ (p.2 : Int) - 1))
    let differs := d.isOpen && (e.t ≠ d.roundT || crc ≠ d.treeCrc || prefill ≠ d.prefill)
    if badT || badTree || differs then 2
    else if d.curLen + e.t > d.maxLen then 1
    else 0

/-- What a walker command has gathered over its sequences. -/
structure Walk where
  r : Rd
  recs : List Byte := []
  outs : List (Nat × List Byte) := []
  flags : Flags := {}
  empty : Nat := 0
  errors : Nat := 0
  gens : List Nat := []
  slotNotes : List Nat := []
  /-- The arena writes, made once the command is known to complete (R154), by a primary on release (R157). -/
  defer : List ArenaWr := []
  seqWr : List (Nat × SeqDesc) := []
  cycles : Nat := 64

/-- A result record (Table 7.4). -/
def resultRec (id st acc empty gen len : Nat) : List Byte :=
  natLe 1 id ++ natLe 1 st ++ natLe 1 acc ++ natLe 1 0 ++ natLe 2 (sat 0xFFFF empty) ++ natLe 2 0 ++ natLe 4 gen ++ natLe 4 len

/-- Output rows and log-sum-exp values of a sequence with non-zero SEQ_STATUS: +0 and −∞. -/
def voidRows (d : SeqDesc) (e : ListEntry) (prefill : Bool) (fo : Nat) : List (Nat × List Byte) :=
  let rows := min e.t (if prefill then 4096 else 16) * d.hq
  [(e.out, List.replicate (rows * d.dim * (fmtBits fo / 8)) 0), (e.lse, (List.replicate rows (0xFF800000 : Nat)).flatMap (natLe 4))]

/-- Process one sequence of an ATTN_STEP or ATTN_PREFILL (R153, R158–R161, R164). -/
def walkSeq (c : Cmdr) (prefill : Bool) (w : Walk) (e : ListEntry) : Walk :=
  let dd := c.a.desc
  let d := seqOf w.r.s e.id
  let layer := fld dd 0x19 1
  let fo := fld dd 0x1A 1 % 16
  let mode := fld dd 0x1B 1
  let w := { w with gens := w.gens ++ [d.gen] }
  let (r, tb) := if prefill then (w.r, []) else readLocal w.r c e.tree 16
  let ps := if prefill then chainParents (min e.t 4096) else parentsOf tb (min e.t 16)
  let crc := if prefill then 0 else crc32c tb
  let st := seqStatus c d e prefill (bit mode 0) ps crc
  if st ≠ 0 then
    let wr : List (Nat × SeqDesc) := if st = 8 || st = 32 then [] else [(e.id, { d with broken := true, isOpen := true })]
    { w with r := r, recs := w.recs ++ resultRec e.id st 0 0 d.gen d.curLen, outs := w.outs ++ voidRows d e prefill fo,
             errors := w.errors + 1, seqWr := w.seqWr ++ wr, cycles := w.cycles + 32 }
  else
    let T := e.t
    let D := d.dim
    let pos (i : Nat) : Nat := d.curLen + depthOf ps 16 i - 1
    let pos (i : Nat) : Nat := if prefill then d.curLen + i else pos i
    let (r, qb) := readLocal r c e.q (T * d.hq * D * 2)
    let (r, kb) := readLocal r c e.k (T * d.hkv * D * 2)
    let (r, vb) := readLocal r c e.v (T * d.hkv * D * 2)
    let rope := bit mode 1 && d.ropeDim > 0
    let nan := bit (fld dd 0x1A 1) 6
    let heads (i : Nat) : List ((List Byte × List Byte) × (List Byte × List Byte)) := (List.range d.hkv).map (fun h =>
      let k := headVec kb d.hkv D i h
      (storeHead d nan (if rope then rotary d (pos i) k else k), storeHead d nan (headVec vb d.hkv D i h)))
    let ents : List (List (List Byte)) := (List.range T).map (fun i =>
      let hs := heads i
      [hs.flatMap (fun x => x.1.1), hs.flatMap (fun x => x.2.1)] ++
        (if d.scaled then [hs.flatMap (fun x => x.1.2), hs.flatMap (fun x => x.2.2)] else []))
    let com := (List.range T).map (fun i => committedKeys d (pos i))
    let need := (com.flatten).eraseDups
    let r := checkPositions c d layer need r
    let own := (List.range T).map (roundKeys d prefill ps)
    let rows := (List.range T).flatMap (fun i => (List.range d.hq).map (fun h =>
      let kvh := h * d.hkv / d.hq
      let q0 := headVec qb d.hq D i h
      let q := if rope then (rotary d (pos i) q0).map (fun x => decodeNum 2 (encodeNum 2 rne false x).1) else q0
      let kv (ent : List (List Byte)) : List Num × List Num := (loadHead d ent 0 kvh, loadHead d ent 1 kvh)
      let keys := ((com[i]?).getD []).map (fun p => kv (posBytes r.s d layer p)) ++
        ((own[i]?).getD []).map (fun j => kv ((ents[j]?).getD []))
      (attendRow (ofFp32 (fld dd 0x1C 4)) q keys D, keys.isEmpty)))
    let rm := elemMode (bits (fld dd 0x1A 1) 5 4) (bits (fld dd 0x1A 1) 6 6) (fld dd 0x20 4) c.a.frame
    let enc := (rows.zipIdx).map (fun p => encodeRow fo false rm (p.2 * D) p.1.1.1)
    let fl : Flags := enc.foldl (fun (a : Flags) x => a.or x.2.2) { flush := rows.any (fun x => x.1.2.2) }
    let empty := (rows.filter (·.2)).length
    let slots := (List.range T).map (fun i => d.curLen + i)
    let r := r.mayWrite c (foreignArena r.s c d layer slots)
    let nkeys := ((List.zip com own).map (fun p => p.1.length + p.2.length)).foldl (· + ·) 0
    let E := 2 * (d.ek + d.es)
    let fresh := ((slots.map (fun p => p / d.tp)).eraseDups.filter (fun t => !(t * d.tp < d.writtenLen))).length
    let B := need.length * E + 2 * T * E + fresh * d.tp * E
    let mac := 2 * D * d.hq * nkeys
    let cyc := 32 + max (cdiv B 64) (max (cdiv mac (if d.fp8 then 2048 else 1024)) (cdiv (d.hq * nkeys) 32))
    { w with r := r, recs := w.recs ++ resultRec e.id 0 0 empty d.gen d.curLen,
             outs := w.outs ++ [(e.out, enc.flatMap (fun x => packBits (fmtBits fo) x.1)), (e.lse, rows.flatMap (fun x => natLe 4 (fp32 x.1.2.1)))],
             flags := w.flags.or fl, empty := w.empty + empty,
             slotNotes := w.slotNotes ++ ents.flatMap (fun x => x.map crc32c),
             defer := w.defer ++ [{ desc := d, written := d.writtenLen, layer := layer, ents := List.zip slots ents }],
             seqWr := w.seqWr ++ [(e.id, { d with isOpen := true, prefill := prefill, broken := false, roundT := T, nextLayer := layer + 1,
                                                  treeCrc := crc, parents := ps.take 16 })],
             cycles := w.cycles + cyc }

/-- The accepted path of a step round (R155). `fuel` bounds its length. -/
def acceptPath (ps : List Int) (roundT accept : Nat) : Nat → Int → List Nat
  | 0, _ => []
  | fuel + 1, node =>
    match (List.range roundT).find? (fun i => ps[i]? = some node && bit accept i) with
    | none => []
    | some i => i :: acceptPath ps roundT accept fuel i

/-- Close one sequence's round (R155). Its cases have none for a sequence that is not bound to the command's task: the round closes like any
other, and a sequence that is not defined has no open round (DEDUCED, log 47). Each moved entry is read as it stands at issue: no move
overwrites a source that is still to be read. -/
def commitSeq (c : Cmdr) (w : Walk) (e : ListEntry) : Walk :=
  let d := seqOf w.r.s e.id
  let all := bit (fld c.a.desc 0x1B 1) 2
  let w := { w with gens := w.gens ++ [d.gen] }
  let bad (st : Nat) (wr : List (Nat × SeqDesc)) (len : Nat) : Walk :=
    { w with recs := w.recs ++ resultRec e.id st 0 0 d.gen len, errors := w.errors + 1, seqWr := w.seqWr ++ wr, cycles := w.cycles + 32 }
  if !d.valid || !d.isOpen then bad 16 [] d.curLen
  else if d.broken || d.nextLayer ≠ d.layers then bad 32 [(e.id, closeDesc d 0)] d.curLen
  else if all && !d.prefill then bad 2 [(e.id, closeDesc d 0)] d.curLen
  else
    let path := if all then [] else acceptPath d.parents d.roundT e.t d.roundT (-1)
    let a := if all then d.roundT else path.length
    let moves := (path.zipIdx).filter (fun p => p.1 ≠ p.2)
    let r := (List.range d.layers).foldl (fun r l => checkPositions c d l (moves.map (fun p => d.curLen + p.1)) r) w.r
    let r := r.mayWrite c ((List.range d.layers).findSome? (fun l => foreignArena r.s c d l (moves.map (fun p => d.curLen + p.2))))
    let written := (closeDesc d a).writtenLen
    { w with r := r, recs := w.recs ++ resultRec e.id 0 a 0 d.gen (d.curLen + a),
             slotNotes := w.slotNotes ++ path,
             defer := w.defer ++ (List.range d.layers).map (fun l =>
               { desc := d, written := written, layer := l, ents := moves.map (fun p => (d.curLen + p.2, posBytes r.s d l (d.curLen + p.1))) }),
             seqWr := w.seqWr ++ [(e.id, closeDesc d a)],
             cycles := w.cycles + 16 + d.layers * cdiv (3 * moves.length * (2 * (d.ek + d.es))) 64 }

/-- A walker command (R148, R152, R154, R157). -/
def walkerBody (one : Cmdr → Walk → ListEntry → Walk) (c : Cmdr) (s : State) : Eff :=
  let d := c.a.desc
  let g := gOf c.u
  let (r, es) := readList { s := s } c
  let ids := es.map (·.id)
  let w := es.foldl (one c) { r := r }
  let start (s : State) : State := modClu s g (fun x =>
    { x with wlkBusy := true, wlkOpcode := dOp d, wlkLayer := fld d 0x19 1, wlkSeq := (ids.getLast?.getD x.wlkSeq) % 64,
             wlkBusyCycles := sat 0xFFFFFFFF (x.wlkBusyCycles + w.cycles + c.ph.stall) })
  let us := ((w.gens.headD 0) % 65536) * 65536 + sat 0xFFFF w.empty
  -- a command that does not complete DONE writes nothing, outputs in its own units included (R154)
  let r := w.r.mayWrite c (foreignOut w.r.s c ((fld d 0x14 4, w.recs) :: w.outs))
  if !r.ok then
    let s := modClu (start r.s) g (fun x => { x with wlkCheckFails := sat 255 (x.wlkCheckFails + 1) })
    { effFail s w.cycles with seqIds := ids, unitStatus := us }
  else
    let s := modClu (start r.s) g (fun x => { x with wlkSeqErrors := sat 255 (x.wlkSeqErrors + w.errors), wlkEmpty := sat 0xFFFF (x.wlkEmpty + w.empty) })
    let twin := dTwin d && c.twin ≠ 0
    let e := effLocalWith s c w.outs (fld d 0x14 4) w.recs w.flags.byte w.cycles us
    -- outside twin mode the slots are written now; the primary of a pair writes them on release
    { e with s := if twin then e.s else writeArena e.s w.defer, seqIds := ids, notes := w.gens ++ e.notes ++ w.slotNotes,
             defer := if twin && c.twin = 1 then w.defer else [],
             seqWr := if c.twin = 2 then [] else w.seqWr }

/-- ATTN_STEP (R153). -/
def execAttnStep (u ctx : Nat) (ph : Phys) (s : State) : Out := done s (issueWith 0x40 (walkerBody (fun c => walkSeq c false)) u ctx ph s)
/-- ATTN_PREFILL (R153). -/
def execAttnPrefill (u ctx : Nat) (ph : Phys) (s : State) : Out := done s (issueWith 0x41 (walkerBody (fun c => walkSeq c true)) u ctx ph s)
/-- ATTN_COMMIT (R155). -/
def execAttnCommit (u ctx : Nat) (ph : Phys) (s : State) : Out := done s (issueWith 0x42 (walkerBody commitSeq) u ctx ph s)

end Sys2Proof.Machine
end

