-- ==== Sys2Proof/Machine/Results.lean ====
section
/-!
DEFINITION. Result slots (R375–R379): the result unit, triple buffers, the result directory, result rings, and the space they take
(R384).
-/

namespace Sys2Proof.Machine

/-! ## Result space (R384) -/

/-- Bytes of one buffer: header, payload area, trailer. -/
def bufSize (length : Nat) : Nat := 128 + alignUp length 64

/-- Buffer spans in use, as offset and size, in order of offset. -/
def usedSpans (h : HostS) : List (Nat × Nat) :=
  (h.dir.flatMap (fun p => if p.2.state = 0 then [] else p.2.bufOfs.map (fun o => (o, bufSize p.2.length)))).foldl
    (fun l x => l.filter (fun y => y.1 ≤ x.1) ++ [x] ++ l.filter (fun y => x.1 < y.1)) []

/-- The lowest free offset of the buffer area for `n` bytes, given the spans in use (lowest first; DESIGN CHOICE, log 28). -/
def fitSpan (n : Nat) : List (Nat × Nat) → Nat → Option Nat
  | [], pos => if pos + n ≤ 0x1000000 then some pos else none
  | (a, k) :: r, pos => if pos + n ≤ a then some pos else fitSpan n r (max pos (a + k))

/-- Offsets for `n` buffers of one size, taken one after another. -/
def fitMany (size : Nat) : Nat → List (Nat × Nat) → Option (List Nat × List (Nat × Nat))
  | 0, sp => some ([], sp)
  | n + 1, sp =>
    match fitSpan size sp 0x10000 with
    | none => none
    | some o =>
      match fitMany size n (sp.filter (fun y => y.1 ≤ o) ++ [(o, size)] ++ sp.filter (fun y => o < y.1)) with
      | some (os, sp) => some (o :: os, sp)
      | none => none

/-- Is a directory index free? -/
def dirFree (h : HostS) (i : Nat) : Bool := (tget h.dir i {}).state = 0

/-- The first index of `n` consecutive free ones from 1 on (PLAN_LOAD names one first index; DEDUCED, log 28). -/
def dirRun (h : HostS) (n : Nat) : Option Nat :=
  (List.range 1024).find? (fun i => 1 ≤ i && i + n ≤ 1024 && (List.range n).all (fun j => dirFree h (i + j)))

/-- Reserve a plan's directory entries and buffers, or none where there is no space. -/
def reserveDir (h : HostS) (planId : Nat) (outs : List OutEntry) : Option (Nat × HostS) :=
  match dirRun h outs.length with
  | none => none
  | some first =>
    let step (x : Option (HostS × List (Nat × Nat))) (oi : OutEntry × Nat) : Option (HostS × List (Nat × Nat)) :=
      match x with
      | none => none
      | some (h, sp) =>
        match fitMany (bufSize oi.1.length) 3 sp with
        | none => none
        | some (os, sp) =>
          let d : Dir := { state := 1, planId := planId, output := oi.2, safety := oi.1.safety, length := oi.1.length, bufOfs := os, dirSeq := 1 }
          some ({ h with dir := tput h.dir (first + oi.2) d }, sp)
    (outs.zipIdx.foldl step (some (h, usedSpans h))).map (fun x => (first, x.1))

/-- Free a plan's directory entries and buffers. -/
def freeDir (h : HostS) (planId : Nat) : HostS := { h with dir := h.dir.filter (fun p => p.1 = 0 || p.2.planId ≠ planId) }

/-- A plan's entries change STATE. -/
def setDirState (h : HostS) (planId state : Nat) : HostS :=
  { h with dir := h.dir.map (fun p => if p.1 ≠ 0 && p.2.planId = planId then (p.1, { p.2 with state := state, dirSeq := (p.2.dirSeq + 1) % 2 ^ 32 }) else p) }

/-- The frame report's entry, index 0, with its buffers first in the area. -/
def reportDir : Dir := { state := 2, length := 65536, bufOfs := [0x10000, 0x10000 + 65664, 0x10000 + 2 * 65664], dirSeq := 1 }

/-! ## Images of the window -/

/-- A buffer header (Table 17.17). -/
def bufHeader (index planId : Nat) (b : Buf) : List Byte :=
  natLe 4 b.seqStart ++ natLe 1 (b2n b.valid + 2 * b2n b.late + 4 * b2n b.report) ++ natLe 1 b.reason ++ natLe 2 index ++ natLe 6 b.frame ++ [0, 0] ++
    natLe 8 planId ++ natLe 4 b.length ++ natLe 2 b.gen ++ [0, 0] ++ natLe 8 b.completeTime ++ natLe 6 b.lastValidFrame ++
    natLe 1 b.lastValidBuf ++ List.replicate 17 0

/-- A whole buffer: header, payload area, trailer. -/
def bufBytes (index : Nat) (d : Dir) (b : Buf) : List Byte :=
  bufHeader index d.planId b ++ padTo (alignUp d.length 64) b.payload ++ natLe 4 b.seqStart ++ List.replicate 60 0

/-- A directory entry (Table 17.16). -/
def dirBytes (d : Dir) : List Byte :=
  if d.state = 0 then List.replicate 64 0
  else
    natLe 1 d.state ++ natLe 1 d.cur ++ natLe 1 d.lastValid ++ [0] ++ natLe 4 d.dirSeq ++ natLe 8 d.planId ++ natLe 2 d.output ++
      natLe 1 (b2n d.safety) ++ [0] ++ natLe 4 d.length ++ (List.range 3).flatMap (fun i => natLe 4 (d.bufOfs.getD i 0)) ++ natLe 4 d.pub ++
      natLe 6 d.curFrame ++ [0, 0] ++ natLe 6 d.lastValidFrame ++ List.replicate 6 0 ++ natLe 4 d.dirSeq

/-! ## Publication (R377) -/

/-- The buffer for the next publication: neither CUR nor LAST_VALID, written least recently. -/
def nextBuf (d : Dir) : Nat :=
  let w (b : Nat) : Nat := (tget d.bufs b {}).seqStart
  ([0, 1, 2].foldl (fun (best : Option Nat) b =>
    if b = d.cur || b = d.lastValid then best
    else match best with
      | none => some b
      | some x => if w b < w x then some b else best) none).getD 0

/-- One publication into an entry. The header of a valid one names itself as the latest valid (DEDUCED, log 28). -/
def publishDir (d : Dir) (b : Buf) : Dir :=
  let k := nextBuf d
  let p := (d.pub + 1) % 2 ^ 32
  let b := { b with seqStart := p, lastValidFrame := if b.valid then b.frame else d.lastValidFrame,
                    lastValidBuf := if b.valid then k else d.lastValid }
  { d with bufs := tput d.bufs k b, cur := k, lastValid := if b.valid then k else d.lastValid, pub := p, curFrame := b.frame,
           lastValidFrame := if b.valid then b.frame else d.lastValidFrame, dirSeq := (d.dirSeq + 1) % 2 ^ 32 }

/-- Push a publication into one ring (R379). In D3hot it counts as dropped (R360). -/
def pushRing (s : State) (r : Nat) (bytes : List Byte) : State :=
  let g := tget s.host.rings r {}
  let put (s : State) (g : Ring) : State := { s with host := { s.host with rings := tput s.host.rings r g } }
  if 2 ^ g.log2Entry < bytes.length then put s { g with tooBig := sat 0xFFFFFFFF (g.tooBig + 1) }
  else if s.host.d3hot || (g.tail + 1) % 2 ^ g.log2Count = g.head then put s { g with dropped := sat 0xFFFFFFFF (g.dropped + 1) }
  else
    let t := (g.tail + 1) % 2 ^ g.log2Count
    let s := { s with hostMem := mwrite (mwrite s.hostMem (g.base + g.tail * 2 ^ g.log2Entry) bytes) g.tailAddr (natLe 4 t) }
    msix (put s { g with tail := t }) (8 + r)

/-- Publish in directory index `i`, and into every ring that covers it. -/
def publish (s : State) (i : Nat) (b : Buf) : State :=
  let d := publishDir (tget s.host.dir i {}) b
  let s := { s with host := { s.host with dir := tput s.host.dir i d } }
  let bytes := bufBytes i d (tget d.bufs d.cur {})
  (List.range 8).foldl (fun s r =>
    let g := tget s.host.rings r {}
    if g.isSet && g.outFirst ≤ i && i < g.outFirst + g.outCount then pushRing s r bytes else s) s

/-! ## The result unit (R376) -/

/-- Eve of a frame: of the current one, or of the one before it; earlier frames are past theirs. -/
def eveOf (s : State) (n : Nat) : Nat :=
  if n = s.cal.frame then s.cal.eve
  else if n + 1 = s.cal.frame then s.cal.prevEve
  else 0

/-- Directory index of a plan's output. -/
def outputDir (h : HostS) (planId o : Nat) : Option Nat := (h.dir.find? (fun p => p.1 ≠ 0 && p.2.planId = planId && p.2.output = o && p.2.state = 2)).map (·.1)

/-- The reader of an output's tiles, for the records of its checks. -/
def resultReader (planId : Nat) (img : List Byte) (t : Token) (flaky : List Nat) : Cmdr :=
  { u := rResult, ctx := 0, a := { frame := t.frame, planId := planId }, toks := [t], part := 4, twin := 0, img := img, ph := { flaky := flaky } }

/-- Check and read every tile of an output. -/
def readOutput (s : State) (c : Cmdr) (o : OutEntry) (gen : Nat) : Rd × List Byte :=
  let n := cdiv o.length (2 ^ o.log2)
  let r := (List.range n).foldl (fun r i => checkTile r c (o.addr + i * 2 ^ o.log2) o.log2 gen) { s := s }
  ({ r with s := countCmd r.s c o.addr o.length false }, rd r.s o.addr o.length)

/-- Publish an output from its token, the producing command's completion stamped `stamp`. An output whose own tiles fail carries Table 3.3's
reason for that, CHECK_FAIL (DEDUCED, log 28). -/
def publishOutput (s : State) (planId : Nat) (t : Token) (stamp : Nat) : State :=
  match planOf s planId, outputDir s.host planId (t.ctx * 64 + t.slot) with
  | some p, some i =>
    if !p.admitted || p.retired then s
    else
      let o := outAt p.image (t.ctx * 64 + t.slot)
      let b : Buf := { frame := t.frame, gen := t.gen, completeTime := stamp }
      match t.void with
      | some v => publish s i { b with reason := statusCode (some v) }
      | none =>
        let late := eveOf s t.frame ≤ stamp
        let (r, bs) := readOutput s (resultReader planId p.image t []) o t.gen
        let s := if late && !o.safety then modStats r.s (fun f => { f with lateP1P3 := sat 0xFFFFFFFF (f.lateP1P3 + 1) }) else r.s
        if !r.ok then publish s i { b with reason := statusCode (some .checkFail) }
        else if o.safety && late then publish s i { b with late := true }
        else publish s i { b with valid := true, length := o.length, payload := bs }
  | _, _ => s

/-- RESULT_TOKEN: the result unit takes an output's token, from the control channel where it is on its way. -/
def execResultToken (planId : Nat) (t : Token) (s : State) : Out :=
  match takeFlight s.flights (fun f => f.dst = rResult && f.planId = planId && f.tok = some t) with
  | some (f, rest) => done s (publishOutput { s with flights := rest } planId t f.stamp)
  | none => done s (publishOutput s planId t s.now)

/-! ## The frame report (R380) -/

/-- Publish the latched report of the previous frame in directory index 0 and signal vector 3. -/
def publishReport (s : State) : State :=
  if !s.reportPend then s
  else
    let s := publish s 0 { valid := true, report := true, frame := s.cal.frame - 1, length := 65536, completeTime := s.now, payload := s.reportRaw }
    msix { s with reportPend := false } 3

/-- FRAME_REPORT_PUBLISH (R380). -/
def execFrameReportPublish (s : State) : Out := done s (publishReport s)

end Sys2Proof.Machine
end

