-- ==== Sys2Proof/Machine/Fusion.lean ====
section
/-!
DEFINITION. The fusion engine (R234–R248): FUS_EGO, FUS_UPDATE and FUS_PUBLISH. All arithmetic is FP32, every operation rounded to
nearest, sums taken from the left (DESIGN CHOICE, log 22).
-/

namespace Sys2Proof.Machine

/-! ## Small FP32 linear algebra -/

/-- Difference in FP32. -/
def sub32 (a b : Num) : Num := rnd32 (a.sub b)
/-- Square root in FP32. -/
def sqrt32 (a : Num) : Num := rnd32 a.sqrt
/-- Cosine (`false`) or sine (`true`) in FP32, rounded from the exact value. -/
def trig32 (sine : Bool) (a : Num) : Num := rnd32 (ofFix (fixTrig sine (toFix a)))
/-- Natural logarithm in FP32, rounded from the exact value. -/
def log32 (a : Num) : Num :=
  match a with
  | .fin n m e => if m = 0 then .inf true else if n then .nan else rnd32 (logNum m e)
  | .inf n => if n then .nan else .inf false
  | .nan => .nan

/-- A matrix as its rows. -/
abbrev Mat := List (List Num)

/-- A sum from the left. -/
def sum32 : List Num → Num
  | [] => Num.zero
  | x :: xs => xs.foldl add32 x
/-- An inner product. -/
def dot32 (a b : List Num) : Num := sum32 (List.zipWith mul32 a b)
/-- The transpose of a matrix with `n` columns. -/
def tr (n : Nat) (m : Mat) : Mat := (List.range n).map (fun i => m.map (fun r => r.getD i Num.zero))
/-- A product; the second factor has `n` columns. -/
def mmul (n : Nat) (a b : Mat) : Mat := a.map (fun r => (tr n b).map (dot32 r))
/-- A sum. -/
def madd (a b : Mat) : Mat := List.zipWith (List.zipWith add32) a b
/-- A difference. -/
def msub (a b : Mat) : Mat := List.zipWith (List.zipWith sub32) a b
/-- The identity of size `n`. -/
def mid (n : Nat) : Mat := (List.range n).map (fun i => (List.range n).map (fun j => if i = j then Num.one else Num.zero))
/-- An entry. -/
def ent (m : Mat) (i j : Nat) : Num := (m.getD i []).getD j Num.zero
/-- A matrix of `n` columns from its FP32 bits, row by row. -/
def matOf (n : Nat) (bs : List Nat) : Mat := chunks n (bs.length + 1) (bs.map ofFp32)
/-- FP32 bits of a matrix, row by row. -/
def matBits (m : Mat) : List Nat := m.flatten.map fp32

/-- The Cholesky factor of a matrix of size `n`, none when it is not positive definite. -/
def cholesky (n : Nat) (s : Mat) : Option Mat :=
  (List.range n).foldl (fun (l : Option Mat) i =>
    match l with
    | none => none
    | some l =>
      let row := (List.range i).foldl (fun (r : List Num) j =>
        r ++ [div32 (sub32 (ent s i j) (dot32 (r.take j) ((l.getD j []).take j))) (ent l j j)]) []
      let d := sub32 (ent s i i) (dot32 row row)
      if Num.zero.lt d && !d.isZero then some (l ++ [row ++ [sqrt32 d]]) else none) (some [])

/-- Solve `L v = b`. -/
def forward (l : Mat) (b : List Num) : List Num :=
  (List.zip l b).foldl (fun v p => v ++ [div32 (sub32 p.2 (dot32 v (p.1.take v.length))) (p.1.getD v.length Num.one)]) []

/-- The inverse of `L Lᵀ`, from the solutions of `L v = eᵢ`. -/
def cholInv (n : Nat) (l : Mat) : Mat :=
  let cols := (mid n).map (forward l)
  (List.range n).map (fun i => (List.range n).map (fun j => dot32 (cols.getD i []) (cols.getD j [])))

/-! ## Poses (R240) -/

/-- The azimuth of a vector, in fixed point: arctangent after three halvings of the argument. -/
def fixAtan2 (y x : Int) : Int :=
  let pi := fixPi
  if x = 0 && y = 0 then 0
  else
    let ay := y.natAbs
    let ax := x.natAbs
    let swap := ay > ax
    let z : Nat := if swap then ax * 2 ^ fixF / ay else ay * 2 ^ fixF / ax
    let half (z : Nat) : Nat := z * 2 ^ fixF / (2 ^ fixF + isqrt (2 ^ (2 * fixF) + z * z))
    let w : Int := half (half (half z))
    let w2 := w * w / 2 ^ fixF
    let s := ((List.range 60).foldl (fun (p : Int × Int) k => (-(p.1 * w2 / 2 ^ fixF), p.2 + p.1 / (2 * k + 1 : Nat))) (w, 0)).2
    let a := 8 * s
    let a := if swap then pi / 2 - a else a
    let a := if x < 0 then pi - a else a
    if y < 0 then -a else a

/-- Seconds of a difference in ns, in FP32. -/
def secs (ns : Nat) : Num := div32 (Num.ofNat ns) (Num.ofNat 1000000000)

/-- The rotation by roll about x, then pitch about y, then yaw about z (the spec does not give the order of the angles; DESIGN CHOICE, log 48). -/
def rotRpy (roll pitch yaw : Num) : Mat :=
  let o := Num.zero
  let (cr, sr) := (trig32 false roll, trig32 true roll)
  let (cp, sp) := (trig32 false pitch, trig32 true pitch)
  let (cy, sy) := (trig32 false yaw, trig32 true yaw)
  mmul 3 (mmul 3 [[cy, sy.neg, o], [sy, cy, o], [o, o, Num.one]] [[cp, o, sp], [o, Num.one, o], [sp.neg, o, cp]])
    [[Num.one, o, o], [o, cr, sr.neg], [o, sr, cr]]

/-- The angle of a vector in FP32. -/
def atan32 (y x : Num) : Num := rnd32 (ofFix (fixAtan2 (toFix y) (toFix x)))

/-- The angle that differs from `a` by whole turns and lies nearest to `near`: poses turn on without a jump, as R240 interpolates them. -/
def unwrap (a near : Num) : Num :=
  let turns := (toFix near - toFix a + fixPi) / (2 * fixPi)
  rnd32 (ofFix (toFix a + 2 * fixPi * turns))

/-- The pose `a` moved by a fraction `f` of a delta, expressed in its own frame (R240): its translation is rotated into O, its rotation follows the
pose's. A turn about z alone adds to the yaw. -/
def advance (a : Pose) (delta : List Nat) (f : Num) (t : Nat) : Pose :=
  let d (i : Nat) : Num := mul32 (ofFp32 (delta.getD i 0)) f
  let M := rotRpy (ofFp32 a.roll) (ofFp32 a.pitch) (ofFp32 a.yaw)
  let v := M.map (fun r => dot32 r [d 0, d 1, d 2])
  let go (o : Nat) (i : Nat) : Nat := fp32 (add32 (ofFp32 o) (v.getD i Num.zero))
  let b : Pose := { a with t := t, x := go a.x 0, y := go a.y 1, z := go a.z 2 }
  let sum := add32 (ofFp32 a.yaw) (d 5)
  if (ofFp32 a.roll).isZero && (ofFp32 a.pitch).isZero && (d 3).isZero && (d 4).isZero then { b with yaw := fp32 sum }
  else
    let N := mmul 3 M (rotRpy (d 3) (d 4) (d 5))
    let g := sqrt32 (add32 (mul32 (ent N 0 0) (ent N 0 0)) (mul32 (ent N 1 0) (ent N 1 0)))
    { b with roll := fp32 (atan32 (ent N 2 1) (ent N 2 2)), pitch := fp32 (atan32 (ent N 2 0).neg g),
             yaw := fp32 (unwrap (atan32 (ent N 1 0) (ent N 0 0)) sum) }

/-- The pose between two, at time `t`: translation and yaw linear, and so the other angles. -/
def between (a b : Pose) (t : Nat) : Pose :=
  let f := div32 (Num.ofNat (t - a.t)) (Num.ofNat (b.t - a.t))
  let mix (x y : Nat) : Nat := fp32 (add32 (ofFp32 x) (mul32 f (sub32 (ofFp32 y) (ofFp32 x))))
  { t := t, x := mix a.x b.x, y := mix a.y b.y, z := mix a.z b.z, roll := mix a.roll b.roll, pitch := mix a.pitch b.pitch, yaw := mix a.yaw b.yaw }

/-- The pose at a time, from the poses newest first: interpolated, or extrapolated with the latest valid delta rate. Before the
earliest pose it is the earliest; with none it is the origin of O. -/
def poseAt (e : Fus) (t : Nat) : Pose :=
  match e.poses with
  | [] => { t := t }
  | p :: _ =>
    if p.t ≤ t then
      match e.validDelta with
      | dt :: d => if dt = 0 then { p with t := t } else advance p d (div32 (Num.ofNat (t - p.t)) (Num.ofNat dt)) t
      | [] => { p with t := t }
    else match (List.zip e.poses (e.poses.drop 1)).find? (fun q => q.2.t ≤ t) with
      | some (b, a) => between a b t
      | none => { (e.poses.getLast?.getD p) with t := t }

/-- A vector rotated by an angle (`back`: by its opposite). -/
def rot (yaw : Num) (back : Bool) (x y : Num) : Num × Num :=
  let c := trig32 false yaw
  let n := if back then (trig32 true yaw).neg else trig32 true yaw
  (sub32 (mul32 c x) (mul32 n y), add32 (mul32 n x) (mul32 c y))

/-- The rotation matrix. -/
def rotMat (yaw : Num) (back : Bool) : Mat :=
  let c := trig32 false yaw
  let n := if back then (trig32 true yaw).neg else trig32 true yaw
  [[c, n.neg], [n, c]]

/-! ## Prediction (R241) -/

/-- The transition of one axis over Δ. -/
def fAxis (d : Num) : Mat :=
  let h := mul32 (mul32 d d) (ofFp32 0x3F000000)
  [[Num.one, d, h], [Num.zero, Num.one, d], [Num.zero, Num.zero, Num.one]]

/-- The process noise of one axis. -/
def qAxis (q d : Num) : Mat :=
  let d2 := mul32 d d
  let d3 := mul32 d2 d
  let d4 := mul32 d3 d
  let d5 := mul32 d4 d
  let dv (x : Num) (n : Nat) : Num := mul32 q (div32 x (Num.ofNat n))
  [[dv d5 20, dv d4 8, dv d3 6], [dv d4 8, dv d3 3, dv d2 2], [dv d3 6, dv d2 2, dv d 1]]

/-- A 6 × 6 block-diagonal matrix of two equal blocks. -/
def twoAxes (m : Mat) : Mat :=
  let z := List.replicate 3 Num.zero
  (m.map (fun r => r ++ z)) ++ (m.map (fun r => z ++ r))

/-- The state and covariance of a track brought to a time, with its process noise times `inflate`. -/
def predict (e : Fus) (k : Track) (t : Nat) (inflate : Bool) : List Num × Mat :=
  let d := secs (t - k.t)
  let q := ofFp32 (tget e.qJerk k.cls 0x3F800000)
  let q := if inflate then mul32 q (ofFp32 e.egoInflate) else q
  let F := twoAxes (fAxis d)
  let x := k.x.map ofFp32
  let P := matOf 6 k.p
  (F.map (fun r => dot32 r x), madd (mmul 6 (mmul 6 F P) (tr 6 F)) (twoAxes (qAxis q d)))

/-! ## Detections (R236, R242) -/

/-- One record of a detection list, brought into O. -/
structure Det where
  time : Nat
  cls : Nat
  vel : Bool
  sensor : Nat
  z : List Num
  R : Mat
  ext : List Nat
  bad : List Nat
deriving Repr

/-- Rows of a 6-vector that a measurement observes. -/
def obsRows (vel : Bool) : List Nat := if vel then [0, 3, 1, 4] else [0, 3]
/-- H as a matrix. -/
def obsMat (vel : Bool) : Mat := (obsRows vel).map (fun i => (List.range 6).map (fun j => if i = j then Num.one else Num.zero))
/-- The gate of a measurement. -/
def gateOf (e : Fus) (vel : Bool) : Num := ofFp32 (if vel then e.gatePosVel else e.gatePos)

/-- Does a free-space list contradict a record of another sensor (R244)? A list: sensor, time, FP16 ranges, origin, AZ0. -/
def contradicts (e : Fus) (l : Nat × Nat × List Nat × Nat × Nat × Nat) (sensor time : Nat) (px py : Num) : Bool :=
  let (ls, lt, ranges, ox, oy, az0) := l
  let apart := if lt ≤ time then time - lt else lt - time
  let p := poseAt e lt
  let (rx, ry) := rot (ofFp32 p.yaw) false (ofFp32 ox) (ofFp32 oy)
  let dx := sub32 px (add32 (ofFp32 p.x) rx)
  let dy := sub32 py (add32 (ofFp32 p.y) ry)
  let a := fixAtan2 (toFix dy) (toFix dx) - toFix (ofFp32 p.yaw) - toFix (ofFp32 az0)
  let k := (a * 128 / fixPi % 256).toNat
  let r := decodeNum 1 (ranges.getD k 0)
  let dist := sqrt32 (add32 (mul32 dx dx) (mul32 dy dy))
  ls ≠ sensor && apart ≤ e.freeMaxDtMs * 1000000 && !r.isZero && dist.lt (sub32 r (ofFp32 e.freeMargin))

/-- A record of Table 10.8 brought into O, with the sensors whose free space contradicts it. -/
def readDet (e : Fus) (sensor : Nat) (b : List Byte) : Det :=
  let w (o : Nat) : Num := ofFp32 (fld b o 4)
  let t := fld b 0 8
  let vel := bit (fld b 9 1) 0
  let dflt := match tfind e.sensors sensor with | some (_, _, v) => v | none => []
  let dv (i : Nat) : Num := ofFp32 (dflt.getD i 0)
  let zero3 := fld b 0x20 4 % 2 ^ 31 = 0 && fld b 0x24 4 % 2 ^ 31 = 0 && fld b 0x28 4 % 2 ^ 31 = 0
  let C : Mat := if zero3 then [[dv 0, dv 2], [dv 2, dv 1]] else [[w 0x20, w 0x28], [w 0x28, w 0x24]]
  let vv := if fld b 0x2C 4 % 2 ^ 31 = 0 then dv 3 else w 0x2C
  let p := poseAt e t
  let yaw := ofFp32 p.yaw
  let (rx, ry) := rot yaw false (w 0x10) (w 0x14)
  let px := add32 (ofFp32 p.x) rx
  let py := add32 (ofFp32 p.y) ry
  let (vx, vy) := rot yaw false (w 0x18) (w 0x1C)
  let M := rotMat yaw false
  let C := mmul 2 (mmul 2 M C) (tr 2 M)
  let R : Mat := if vel then
      [[ent C 0 0, ent C 0 1, Num.zero, Num.zero], [ent C 1 0, ent C 1 1, Num.zero, Num.zero],
       [Num.zero, Num.zero, vv, Num.zero], [Num.zero, Num.zero, Num.zero, vv]]
    else C
  { time := t, cls := fld b 8 1 % 16, vel := vel, sensor := sensor, z := if vel then [px, py, vx, vy] else [px, py], R := R,
    ext := (List.range 4).map (fun i => fld b (0x30 + 4 * i) 4),
    bad := (e.free.filter (fun l => contradicts e l sensor t px py)).map (·.1) }

/-- What a track and a record make of each other: none when S is not positive definite; else d², the cost, and what the update
needs. -/
structure Fit where
  d2 : Num
  cost : Num
  x : List Num
  P : Mat
  y : List Num
  Si : Mat
deriving Repr

/-- The innovation of a record against a track (R242). -/
def fit (e : Fus) (k : Track) (z : Det) : Option Fit :=
  let (x, P) := predict e k z.time e.egoInvalid
  let rows := obsRows z.vel
  let n := rows.length
  let y := List.zipWith sub32 z.z (rows.map (fun i => x.getD i Num.zero))
  let S := madd (rows.map (fun i => rows.map (fun j => ent P i j))) z.R
  match cholesky n S with
  | none => none
  | some L =>
    let v := forward L y
    let det := (List.range n).foldl (fun a i => mul32 a (mul32 (ent L i i) (ent L i i))) Num.one
    let d2 := dot32 v v
    some { d2 := d2, cost := add32 d2 (log32 det), x := x, P := P, y := y, Si := cholInv n L }

/-- The update of R242 and R243 step 6. -/
def updateTrack (k : Track) (z : Det) (f : Fit) : Track :=
  let H := obsMat z.vel
  let n := H.length
  let K := mmul n (mmul n f.P (tr 6 H)) f.Si
  let x := List.zipWith add32 f.x (K.map (fun r => dot32 r f.y))
  let A := msub (mid 6) (mmul 6 K H)
  let P := madd (mmul 6 (mmul 6 A f.P) (tr 6 A)) (mmul 6 (mmul n K z.R) (tr n K))
  let mix (o v : Nat) : Nat := fp32 (add32 (mul32 (ofFp32 0x3F333333) (ofFp32 o)) (mul32 (ofFp32 0x3E99999A) (ofFp32 v)))
  { k with t := max k.t z.time, x := x.map fp32, p := matBits P, ext := List.zipWith mix k.ext z.ext, cls := z.cls,
           hits := k.hits ||| 2 ^ z.sensor, contra := z.bad.foldl (fun m b => m ||| 2 ^ b) k.contra }

/-- A new candidate from a record (R243 step 7). -/
def newTrack (e : Fus) (z : Det) : Track :=
  let v (i : Nat) : Num := if z.vel then z.z.getD i Num.zero else Num.zero
  let vv : Num := if z.vel then ent z.R 2 2 else ofFp32 e.initVarV
  let o := Num.zero
  let a := ofFp32 e.initVarA
  let P : Mat := [[ent z.R 0 0, o, o, ent z.R 0 1, o, o], [o, vv, o, o, o, o], [o, o, a, o, o, o],
                  [ent z.R 1 0, o, o, ent z.R 1 1, o, o], [o, o, o, o, vv, o], [o, o, o, o, o, a]]
  { used := true, t := z.time, x := [z.z.getD 0 o, v 2, o, z.z.getD 1 o, v 3, o].map fp32, p := matBits P, ext := z.ext,
    cls := z.cls, hits := 2 ^ z.sensor, contra := z.bad.foldl (fun m b => m ||| 2 ^ b) 0 }

/-! ## Association (R243) -/

/-- A gated pair: track index, record index, fit. -/
structure Pair where
  k : Nat
  r : Nat
  f : Fit
deriving Repr

/-- Tracks and records of the group that holds a pair: what the gated pairs connect, grown `fuel` times. -/
def growGroup (ps : List Pair) : Nat → List Nat × List Nat → List Nat × List Nat
  | 0, g => g
  | fuel + 1, (ks, rs) =>
    let ks' := (ps.filter (fun p => rs.contains p.r && !ks.contains p.k)).foldl (fun a p => if a.contains p.k then a else a ++ [p.k]) ks
    let rs' := (ps.filter (fun p => ks'.contains p.k && !rs.contains p.r)).foldl (fun a p => if a.contains p.r then a else a ++ [p.r]) rs
    if ks'.length = ks.length && rs'.length = rs.length then (ks, rs) else growGroup ps fuel (ks', rs')

/-- The connected groups of the gated pairs. -/
def groupsFrom : Nat → List Pair → List (List Pair)
  | 0, _ => []
  | fuel + 1, ps =>
    match ps with
    | [] => []
    | p :: _ =>
      let (ks, _) := growGroup ps (ps.length + 1) ([p.k], [])
      ps.filter (fun q => ks.contains q.k) :: groupsFrom fuel (ps.filter (fun q => !ks.contains q.k))

/-- The least-cost assignment over the tracks `ks` in ascending order, given the records still free: its total and its pairs. A
tie goes to the lower track, then the lower record. -/
def bestAssign (gateK gateR : Nat → Num) (ps : List Pair) : List Nat → List Nat → Num × List Pair
  | [], free => (free.foldl (fun c r => c.add (gateR r)) Num.zero, [])
  | k :: ks, free =>
    let none' := bestAssign gateK gateR ps ks free
    let idle : Num × List Pair := ((gateK k).add none'.1, none'.2)
    let opts := (ps.filter (fun p => p.k = k && free.contains p.r)).map (fun p =>
      let b := bestAssign gateK gateR ps ks (free.filter (· ≠ p.r))
      (p.f.cost.add b.1, p :: b.2))
    match opts with
    | [] => idle
    | o :: os =>
      let best := os.foldl (fun (b : Num × List Pair) c => if b.1.le c.1 then b else c) o
      if best.1.le idle.1 then best else idle

/-- Numbers in ascending order without repeats. -/
def sortNat (xs : List Nat) : List Nat := tkeys (xs.foldl (fun (t : Tbl Unit) k => tput t k ()) [])

/-- The pair a greedy pass takes first: the least cost, then the lower track, then the lower record. -/
def greedyFirst (x y : Pair) : Pair :=
  if x.f.cost.lt y.f.cost && !y.f.cost.le x.f.cost then x
  else if y.f.cost.lt x.f.cost && !x.f.cost.le y.f.cost then y
  else if x.k < y.k || (x.k = y.k && x.r ≤ y.r) then x else y

/-- Greedy resolution in ascending cost. -/
def greedy : Nat → List Pair → List Pair
  | 0, _ => []
  | fuel + 1, ps =>
    match ps with
    | [] => []
    | p :: r =>
      let b := r.foldl greedyFirst p
      b :: greedy fuel (ps.filter (fun q => q.k ≠ b.k && q.r ≠ b.r))

/-- The assignment of a list's gated pairs, and the groups resolved greedily. -/
def assign (gateR : Nat → Num) (ps : List Pair) : List Pair × Nat :=
  (groupsFrom (ps.length + 1) ps).foldl (fun (a : List Pair × Nat) g =>
    let ks := sortNat (g.map (·.k))
    let rs := sortNat (g.map (·.r))
    if ks.length ≤ 64 && rs.length ≤ 64 then
      let gateK (k : Nat) : Num := match sortNat ((g.filter (fun p => p.k = k)).map (·.r)) with | r :: _ => gateR r | [] => Num.zero
      (a.1 ++ (bestAssign gateK gateR g ks rs).2, a.2)
    else (a.1 ++ greedy (g.length + 1) g, a.2 + 1)) ([], 0)

/-- Count skipped detections. -/
def skipDets (e : Fus) (n : Nat) : Fus := { e with skipped := sat 255 (e.skipped + n) }

/-- The first free entry of the track table of 1,024. -/
def freeEntry (e : Fus) : Option Nat := (List.range 1024).find? (fun i => !(tget e.tracks i {}).used)

/-- One detection list's records, associated with the tracks as they stand and applied (R243). -/
def takeList (e : Fus) (ds : List Det) : Fus :=
  let ks := e.tracks.filter (fun p => p.2.used)
  let fits := ds.zipIdx.map (fun d => (d.2, ks.map (fun k => (k.1, fit e k.2 d.1))))
  let nBad := (fits.filter (fun d => d.2.any (fun k => k.2.isNone))).length
  let gateR (r : Nat) : Num := gateOf e (match ds[r]? with | some d => d.vel | none => false)
  let ps : List Pair := fits.flatMap (fun d => d.2.filterMap (fun k =>
    match k.2 with
    | some f => if f.d2.le (gateR d.1) then some { k := k.1, r := d.1, f := f } else none
    | none => none))
  let (as, g) := assign gateR ps
  let e := { skipDets e nBad with greedy := sat 255 (e.greedy + g) }
  let e := as.foldl (fun e p =>
    match ds[p.r]? with
    | none => e
    | some z =>
      let k := tget e.tracks p.k {}
      { e with outOfOrder := if z.time < k.t then sat 255 (e.outOfOrder + 1) else e.outOfOrder,
               tracks := tput e.tracks p.k (updateTrack k z p.f) }) e
  ds.zipIdx.foldl (fun e d =>
    if as.any (fun p => p.r = d.2) then e
    else match freeEntry e with
      | none => skipDets e 1
      | some i => { e with tracks := tput e.tracks i (newTrack e d.1) }) e

/-! ## The commands -/

/-- Mark the engine busy with a command (HUB_FUS_STATUS). -/
def fusStart (c : Cmdr) (s : State) : State := { s with fus := { s.fus with busy := true, ctx := c.ctx % 8, cmd := c.a.idx } }

/-- The counts, the lists and what each track was given in a frame start anew with the first command of another frame (R236, R244, R245). -/
def fusFrame (e : Fus) (frame : Nat) : Fus :=
  if e.frame = frame then e
  else { e with frame := frame, taken := 0, free := [], egoInvalid := false, tracks := tmap e.tracks (fun k => { k with hits := 0, contra := 0 }) }

/-- Is the engine in cold start (R247)? -/
def Fus.cold (e : Fus) : Bool := !e.updated || e.publishes < 5

/-- End a fusion command: failed, abandoned on a mismatch (R235), or with its new engine state and output. -/
def fusEnd (c : Cmdr) (r : Rd) (cyc : Nat) (e : Fus) (out : Option (List Byte)) : Eff :=
  if !r.ok then effFail r.s cyc
  else if c.ph.mismatch then
    let s := { r.s with fus := { r.s.fus with dup := sat 255 (r.s.fus.dup + 1) } }
    { s := engineMismatch s c .fusion .fusionFault, status := some .abftFail, cycles := cyc }
  else
    let s := { r.s with fus := e }
    match out with
    | none => { s := s, cycles := cyc }
    | some bs =>
      let d := c.a.desc
      let (s, os, ok) := putOutput s c (fld d 0x18 6) ((fld d 0x20 2 + c.a.frame) % 65536) bs
      if ok then { s := s, outs := os, cycles := cyc } else { s := s, status := some .checkFail, cycles := cyc }

/-- The voxel of a point: `⌊x / 0.2⌋` in each axis. -/
def voxelOf (p : List Nat) : List Int := p.map (fun b => toFix ((ofFp32 b).mul (Num.ofNat 5)) / 2 ^ fixF)

/-- One point per voxel (R239 step 1). -/
def reduceCloud (ps : List (List Nat)) : List (List Nat) :=
  let vs := ps.foldl (fun (a : List (List Int)) p => if a.contains (voxelOf p) then a else a ++ [voxelOf p]) []
  vs.map (fun v => Config.voxelPoint (ps.filter (fun p => voxelOf p = v)))

/-- Does a point lie within 1.0 m of a confirmed track faster than 0.5 m/s (R239 step 2)? -/
def onMover (e : Fus) (pose : Pose) (p : List Nat) : Bool :=
  let (rx, ry) := rot (ofFp32 pose.yaw) false (ofFp32 (p.getD 0 0)) (ofFp32 (p.getD 1 0))
  let px := add32 (ofFp32 pose.x) rx
  let py := add32 (ofFp32 pose.y) ry
  e.tracks.any (fun k =>
    let x (i : Nat) : Num := ofFp32 (k.2.x.getD i 0)
    let dx := sub32 px (x 0)
    let dy := sub32 py (x 3)
    k.2.used && k.2.life = 2 && (ofFp32 0x3E800000).lt (add32 (mul32 (x 1) (x 1)) (mul32 (x 4) (x 4))) &&
      (add32 (mul32 dx dx) (mul32 dy dy)).le Num.one)

/-- FUS_EGO (R238–R240, Table 10.9). -/
def fusEgoBody (c : Cmdr) (s : State) : Eff :=
  let d := c.a.desc
  let s := fusStart c s
  let a := fld d 0x10 6
  let (r, hd) := readInput { s := s } c (fld d 0x20 2) a 64
  let n := min (fld hd 0 4) (fld d 0x28 4)
  let (r, pb) := readInput r c (fld d 0x20 2) (a + 64) (16 * n)
  let pts := (List.range n).map (fun i => [fld pb (16 * i) 4, fld pb (16 * i + 4) 4, fld pb (16 * i + 8) 4])
  let inst := fld hd 8 8
  let e := fusFrame s.fus c.a.frame
  let cloud := reduceCloud pts
  let keep := cloud.filter (fun p => !onMover e (poseAt e inst) p)
  let prev := e.prevInstant
  let res := if prev.isNone then [] else Config.egoRegister e.prevCloud keep e.prevDelta
  let inliers := res.getD 2 0
  let valid := match prev with
    | none => false
    | some t => t ≠ inst && res.getD 0 0 = 1 && res.getD 1 0 = 1 && e.egoMinInliers ≤ inliers
  let delta := if valid then (List.range 6).map (fun i => res.getD (3 + i) 0 % 2 ^ 32) else List.replicate 6 0
  let cov := if valid then (List.range 21).map (fun i => res.getD (9 + i) 0 % 2 ^ 32) else (List.range 21).map (fun i => e.egoCov.getD i 0)
  let dt := match prev with | none => 0 | some t => (inst + 2 ^ 64 - t) % 2 ^ 64
  let base : Pose := match e.poses with | p :: _ => p | [] => {}
  let e' := { e with prevCloud := cloud, prevInstant := some inst, prevDelta := delta, egoInvalid := !valid,
                     poses := advance base delta Num.one inst :: e.poses, validDelta := if valid then dt :: delta else e.validDelta }
  let out := natLe 6 c.a.frame ++ natLe 1 (b2n valid + 2 * b2n e.cold) ++ natLe 1 0 ++ natLe 8 dt ++ delta.flatMap (natLe 4) ++
    cov.flatMap (natLe 4) ++ natLe 4 inliers
  fusEnd c r (2000 + 36 * fld d 0x28 4) e' (some (padTo 128 out))

/-- One input of a FUS_UPDATE: slot order, sensor, and the records of a detection list or the body of a free-space list. -/
structure FusIn where
  slot : Nat
  free : Bool
  hd : List Byte
  recs : List (List Byte)
deriving Repr

/-- Read the lists of a FUS_UPDATE. -/
def readLists (c : Cmdr) (r : Rd) : Rd × List FusIn :=
  let d := c.a.desc
  let n := fld d 7 1
  let (r, tb) := readInput r c (fld d 0x20 2) (fld d 0x10 6) (8 * n)
  (List.range n).foldl (fun (p : Rd × List FusIn) i =>
    let (r, ls) := p
    let slot := fld d 6 1 + i
    let a0 := fld tb (8 * i) 6
    let (a, tg) := match c.toks.find? (fun t => t.slot = slot) with
      | some t => if t.snap then inputAt r.s c (fld d 0x20 2) a0 else (a0, [t.gen])
      | none => (a0, inputGens c (fld d 0x20 2))
    let free := bit (fld tb (8 * i + 6) 1) 0
    let (r, hd) := readLogical r c tg a 64
    let m := if free then 8 else if fld hd 0 4 > 4095 then 0 else fld hd 0 4
    let (r, body) := readLogical r c tg (a + 64) (64 * m)
    (r, ls ++ [{ slot := slot, free := free, hd := hd, recs := (List.range m).map (fun k => slice body (64 * k) 64) }])) (r, [])

/-- Take a free-space list, if its sensor has FREE_CONFIDENT set (R237). -/
def takeFree (e : Fus) (l : FusIn) : Fus :=
  let sensor := fld l.hd 0 1
  match tfind e.sensors sensor with
  | some (_, true, _) =>
    let body := l.recs.flatten
    { e with free := e.free ++ [(sensor, fld l.hd 8 8, (List.range 256).map (fun k => fld body (2 * k) 2), fld l.hd 0x10 4, fld l.hd 0x14 4, fld l.hd 0x18 4)] }
  | _ => e

/-- Take a detection list: ignored whole when its sensor or count is bad, cut at the frame's 8,192 and the command's MAX_ITEMS
(R236). `left` is what the command may still take; the flag says the frame's limit was met. -/
def takeDets (p : Fus × Nat × Bool) (l : FusIn) : Fus × Nat × Bool :=
  let (e, left, full) := p
  let sensor := fld l.hd 4 1
  let count := fld l.hd 0 4
  if !thas e.sensors sensor || sensor ≥ 16 || count > 4095 then (skipDets e count, left, full)
  else
    let n := min l.recs.length (min left (8192 - e.taken))
    let overs := l.recs.length > 8192 - e.taken
    let e := skipDets { e with taken := e.taken + n } (l.recs.length - n)
    (takeList e ((l.recs.take n).map (readDet e sensor)), left - n, full || overs)

/-- The time a detection list sorts by: that of its first record. -/
def listTime (l : FusIn) : Nat := match l.recs with | b :: _ => fld b 0 8 | [] => 0

/-- Insert a list before the first later one. -/
def insertList (x : FusIn) : List FusIn → List FusIn
  | [] => [x]
  | y :: ys => if listTime x < listTime y then x :: y :: ys else y :: insertList x ys

/-- FUS_UPDATE (R236, R237, R241–R244). -/
def fusUpdateBody (c : Cmdr) (s : State) : Eff :=
  let d := c.a.desc
  let s := fusStart c s
  let (r, ls) := readLists c { s := s }
  let e := { fusFrame s.fus c.a.frame with updated := true }
  let e := (ls.filter (·.free)).foldl takeFree e
  let ds := (ls.filter (fun l => !l.free)).foldl (fun a l => insertList l a) []
  let (e, _, full) := ds.foldl takeDets (e, fld d 0x28 4, false)
  let r := if full && r.ok then { r with s := alm r.s (srcOf c.u) .listRefused 2 [c.ctx, c.a.idx, c.a.frame] } else r
  fusEnd c r (256 + 112 * fld d 0x28 4) e none

/-- How many of the newest `n` frames of a track satisfy a test. -/
def lastFrames (k : Track) (n : Nat) : List (Nat × Nat × Bool) := k.hist.take n

/-- The sensor kinds behind a mask of sensors. -/
def kindsOf (e : Fus) (mask : Nat) : List Nat :=
  sortNat ((List.range 16).filterMap (fun i => if bit mask i then (tfind e.sensors i).map (·.1) else none))

/-- Judge one track over a frame (R245, Table 10.10). Birth is when a candidate becomes tentative (DEDUCED, log 48). The identity given to a new tentative track is `e.nextId`. None when
removed. -/
def judge (e : Fus) (cold : Bool) (frame : Nat) (k : Track) : Option Track × Nat :=
  let hit := k.hits ≠ 0
  let con := k.contra ≠ 0
  let k := { k with hist := ((k.hits, k.contra, hit && !con) :: k.hist).take 8, misses := if hit then 0 else sat 255 (k.misses + 1),
                    contested := if con then true else if k.contested && k.clean + 1 ≥ e.contestClear then false else k.contested,
                    clean := if con then 0 else sat 31 (k.clean + 1) }
  let hits := ((lastFrames k e.birthN).filter (fun h => h.1 ≠ 0)).length
  let (k, id) := if k.life = 0 && hits ≥ e.birthM then ({ k with life := 1, id := e.nextId, born := frame }, e.nextId + 1) else (k, e.nextId)
  let failed := k.life = 0 && k.hist.length ≥ e.birthN
  let clean := (lastFrames k e.confN).filter (fun h => h.2.2)
  let kinds := (sortNat (clean.flatMap (fun h => kindsOf e h.1))).length
  let conf := (kinds ≥ 2 && clean.length ≥ e.confM2) || (kinds ≥ 1 && clean.length ≥ e.confM1)
  let k := if k.life = 1 && conf && !cold then { k with life := 2 } else k
  let tr' := add32 (ofFp32 (k.p.getD 0 0)) (ofFp32 (k.p.getD 21 0))
  let gone := failed || k.misses ≥ e.missLimit || (ofFp32 e.traceLimit).lt tr'
  (if gone then none else some k, id)

/-- A track record (Table 10.12), its state predicted to the Calend and seen from the latest pose (R248). -/
def trackRecord (e : Fus) (cold : Bool) (frame calend : Nat) (k : Track) : List Byte :=
  let (x, P) := predict e k calend false
  let pose : Pose := match e.poses with | p :: _ => p | [] => {}
  let yaw := ofFp32 pose.yaw
  let g (i : Nat) : Num := x.getD i Num.zero
  let (px, py) := rot yaw true (sub32 (g 0) (ofFp32 pose.x)) (sub32 (g 3) (ofFp32 pose.y))
  let (vx, vy) := rot yaw true (g 1) (g 4)
  let (ax, ay) := rot yaw true (g 2) (g 5)
  let ix := [0, 3, 1, 4]
  let C : Mat := ix.map (fun i => ix.map (fun j => ent P i j))
  let m := rotMat yaw true
  let o := Num.zero
  let M : Mat := [[ent m 0 0, ent m 0 1, o, o], [ent m 1 0, ent m 1 1, o, o], [o, o, ent m 0 0, ent m 0 1], [o, o, ent m 1 0, ent m 1 1]]
  let C := mmul 4 (mmul 4 M C) (tr 4 M)
  let up := (List.range 4).flatMap (fun i => (List.range 4).filterMap (fun j => if i ≤ j then some (fp32 (ent C i j)) else none))
  let h := lastFrames k 5
  let sup := h.foldl (fun a x => a ||| x.1) 0
  let con := h.foldl (fun a x => a ||| x.2.1) 0
  let missed := match k.hist with | x :: _ => x.1 = 0 | [] => false
  padTo 128 (natLe 4 k.id ++ natLe 1 k.life ++ natLe 1 (b2n k.contested + 2 * b2n cold + 4 * b2n missed) ++ natLe 1 k.cls ++ natLe 1 k.misses ++
    natLe 2 sup ++ natLe 2 con ++ natLe 4 (frame - k.born) ++ ([px, py, vx, vy, ax, ay].map fp32).flatMap (natLe 4) ++ up.flatMap (natLe 4) ++
    k.ext.flatMap (natLe 4))

/-- Insert a track by ascending TRACK_ID. -/
def insertTrack (x : Track) : List Track → List Track
  | [] => [x]
  | y :: ys => if x.id < y.id then x :: y :: ys else y :: insertTrack x ys

/-- The Calend of a frame that is the current one or the one before it. -/
def calendOf (s : State) (frame : Nat) : Nat := if frame = s.cal.frame then s.cal.calend else s.cal.prevCalend

/-- Judge every track over a frame. -/
def judgeAll (e : Fus) (cold : Bool) (frame : Nat) : Fus :=
  e.tracks.foldl (fun (e : Fus) p =>
    if !p.2.used then e
    else match judge e cold frame p.2 with
      | (none, id) => { e with nextId := id, tracks := tdel e.tracks p.1 }
      | (some k, id) => { e with nextId := id, tracks := tput e.tracks p.1 k }) e

/-- FUS_PUBLISH (R245–R248). A second one in a frame judges no track again (DEDUCED, log 48). -/
def fusPublishBody (c : Cmdr) (s : State) : Eff :=
  let s := fusStart c s
  let n := c.a.frame
  let e := fusFrame s.fus n
  let cold := e.cold
  let first := e.pubFrame ≠ n
  let e := if first then judgeAll e cold n else e
  let outs := ((tvals e.tracks).filter (fun k => k.life ≠ 0)).foldl (fun a k => insertTrack k a) []
  let t := calendOf s n
  let e := { e with pubFrame := n, publishes := if e.updated && first then min 5 (e.publishes + 1) else e.publishes }
  let hd := padTo 64 (natLe 6 n ++ natLe 2 outs.length ++ natLe 8 t)
  fusEnd c { s := s } (128 + 8 * 1024) e (some (padTo (64 + 128 * 1024) (hd ++ outs.flatMap (trackRecord e cold n t))))

/-- FUS_EGO (R239). -/
def execFusEgo (u ctx : Nat) (ph : Phys) (s : State) : Out := done s (issueWith 0x60 fusEgoBody u ctx ph s)
/-- FUS_UPDATE (R243). -/
def execFusUpdate (u ctx : Nat) (ph : Phys) (s : State) : Out := done s (issueWith 0x61 fusUpdateBody u ctx ph s)
/-- FUS_PUBLISH (R245). -/
def execFusPublish (u ctx : Nat) (ph : Phys) (s : State) : Out := done s (issueWith 0x62 fusPublishBody u ctx ph s)

/-- Clear tracks, poses and TRACK_ID history: at Ready, and when a Season change alters the sensor table or parameters (R247). -/
def fusCold (e : Fus) : Fus :=
  { e with tracks := [], poses := [], prevCloud := [], prevInstant := none, prevDelta := [], validDelta := [], egoInvalid := false, nextId := 1,
           taken := 0, frame := 0, pubFrame := 0, updated := false, publishes := 0, free := [] }

end Sys2Proof.Machine
end

