-- ==== Sys2Proof/Machine/Planning.lean ====
section
/-!
DEFINITION. The planning engine (R249–R266): road-map records, the occupancy grid, PLN_GRID, PLN_CHECK and PLN_COMMIT.
-/

namespace Sys2Proof.Machine

/-! ## Map records (Tables 11.3, 11.4) -/

/-- The offset of table `i` within a map image: NODE, EDGE, PRIM, RUN, HORIZON, CAND, ROOT, BAND. -/
def mapOfs (hd : List Byte) (i : Nat) : Nat := 256 + fld hd (0x60 + 4 * i) 4

/-- The region of a map slot. -/
def mapRegion (s : State) (slot : Nat) : Region := tget s.regions (65536 + slot) {}

/-- Read bytes of a map slot, every tile checked with the region's weight generation (R252). -/
def readRoadMap (c : Cmdr) (slot : Nat) (r : Rd) (ofs n : Nat) : Rd × List Byte :=
  let g := mapRegion r.s slot
  let k := 2 ^ g.log2Tile
  let a := g.base + ofs
  let tiles := if n = 0 then [] else (List.range ((a + n - 1) / k - a / k + 1)).map (fun i => (a / k + i) * k)
  let r := tiles.foldl (fun r t => checkTile r c t g.log2Tile g.gen) r
  (r, rd r.s a n)

/-- An edge of the road map, with its runs. -/
structure MapEdge where
  frm : Nat
  dest : Nat
  prim : Nat
  base : Nat
  runs : List Nat
deriving DecidableEq, Repr

/-- Read the edge with this index. -/
def readEdge (c : Cmdr) (slot : Nat) (hd : List Byte) (r : Rd) (i : Nat) : Rd × MapEdge :=
  let (r, b) := readRoadMap c slot r (mapOfs hd 1 + 32 * i) 32
  let n := fld b 0x10 2
  let (r, rb) := readRoadMap c slot r (mapOfs hd 3 + 4 * fld b 0xC 4) (4 * n)
  (r, { frm := fld b 0 4, dest := fld b 4 4, prim := fld b 8 4, base := fld b 0x12 2, runs := (List.range n).map (fun k => fld rb (4 * k) 4) })

/-- SLICE of a run. -/
def runSlice (w : Nat) : Nat := bits w 31 29
/-- ROW. -/
def runRow (w : Nat) : Nat := bits w 28 19
/-- First column. -/
def runCol (w : Nat) : Nat := bits w 18 9
/-- Number of cells. -/
def runLen (w : Nat) : Nat := bits w 8 3 + 1

/-- A candidate: root, terminal cost, horizon positions. -/
structure MapCand where
  root : Nat
  term : Nat
  hs : List Nat
deriving DecidableEq, Repr

/-- Read the candidate with this index. -/
def readCand (c : Cmdr) (slot : Nat) (hd : List Byte) (r : Rd) (i : Nat) : Rd × MapCand :=
  let (r, b) := readRoadMap c slot r (mapOfs hd 5 + 128 * i) 128
  (r, { root := fld b 0 1, term := fld b 4 4, hs := (List.range (min 24 (fld b 1 1))).map (fun k => fld b (16 + 4 * k) 4) })

/-- A root: node, horizon range, candidate range, fallback. -/
structure MapRoot where
  node : Nat
  hFirst : Nat
  hCount : Nat
  cFirst : Nat
  cCount : Nat
  fallback : Nat
deriving DecidableEq, Repr

/-- Read the root with this index. -/
def readRoot (c : Cmdr) (slot : Nat) (hd : List Byte) (r : Rd) (i : Nat) : Rd × MapRoot :=
  let (r, b) := readRoadMap c slot r (mapOfs hd 6 + 32 * i) 32
  (r, { node := fld b 0 4, hFirst := fld b 4 4, hCount := fld b 8 4, cFirst := fld b 0xC 2, cCount := fld b 0xE 2, fallback := fld b 0x10 2 })

/-- The edge at horizon position `h` of a root. -/
def readHorizon (c : Cmdr) (slot : Nat) (hd : List Byte) (root : MapRoot) (r : Rd) (h : Nat) : Rd × MapEdge :=
  let (r, b) := readRoadMap c slot r (mapOfs hd 4 + 4 * (root.hFirst + h)) 4
  readEdge c slot hd r (fld b 0 4)

/-- Read a list of things in order, carrying the checks. -/
def readAll {β : Type} (f : Rd → Nat → Rd × β) (r : Rd) (is : List Nat) : Rd × List β :=
  is.foldl (fun (p : Rd × List β) i => let (r, x) := f p.1 i; (r, p.2 ++ [x])) (r, [])

/-! ## The occupancy grid (R255) -/

/-- Occupancy of cell (i, j) in slice `k`. -/
def Grid.occ (g : Grid) (k i j : Nat) : Bool := bit (g.cells.getD (k * 131072 + 128 * j + i / 8) 0).toNat (i % 8)
/-- Cost of cell (i, j). -/
def Grid.cost (g : Grid) (i j : Nat) : Nat :=
  let b := (g.cells.getD (1048576 + 512 * j + i / 2) 0).toNat
  if i % 2 = 0 then b % 16 else b / 16

/-- A sum that saturates at 0xFFFF_FFFF (R261). -/
def satAdd (a b : Nat) : Nat := sat 0xFFFFFFFF (a + b)

/-- Test an edge (R260): free, and its cost. -/
def testEdge (g : Grid) (w : Nat) (e : MapEdge) : Bool × Nat :=
  let cells := e.runs.flatMap (fun x => (List.range (runLen x)).map (fun i => (runSlice x, runCol x + i, runRow x)))
  let free := cells.all (fun p => !g.occ p.1 p.2.1 p.2.2 && g.cost p.2.1 p.2.2 ≠ 15)
  (free, sat 0xFFFFFFFF (e.base + w * (cells.foldl (fun a p => a + g.cost p.2.1 p.2.2) 0)))

/-- Cycles one edge takes on its checker (R263). -/
def edgeCycles (e : MapEdge) : Nat := 8 + (e.runs.map (fun x => cdiv (runLen x) 8)).foldl (· + ·) 0
/-- Bytes of the map read of some edges. -/
def edgeBytes (es : List MapEdge) : Nat := (es.map (fun e => 32 + 4 * e.runs.length)).foldl (· + ·) 0

/-! ## Common parts of the commands -/

/-- Mark the checker array busy with a command. -/
def chkStart (c : Cmdr) (s : State) : State :=
  { s with pln := { s.pln with checkBusy := true, ctx := c.ctx % 8, cmd := c.a.idx,
                               latched := some (s.pln.newest, s.pln.gridGen, if s.pln.mapValid then s.pln.active else 2) } }

/-- The edge checker that tests horizon position `h` in PLN_CHECK (R260). -/
def checkerOf (h : Nat) : Nat := h % 4096
/-- The edge checker that the `i`-th edge of PLN_COMMIT, at horizon position `h`, runs on: another than tested it before (R265). -/
def commitChecker (i h : Nat) : Nat := if checkerOf h < 2048 then 2048 + i else i

/-- Count checker-array cycles (HUB_PLN_BUSY_CYCLES). -/
def chkBusy (c : Cmdr) (cyc : Nat) (s : State) : State :=
  { s with pln := { s.pln with busyCycles := sat 0xFFFFFFFF (s.pln.busyCycles + cyc + c.ph.stall) } }

/-- End a checker command: failed, a parity error or a bad buffer (R251), a datapath mismatch, or its output. -/
def chkEnd (c : Cmdr) (r : Rd) (cyc : Nat) (grid : Grid) (out : List Byte) (after : State → State) : Eff :=
  let s := chkBusy c cyc r.s
  if !r.ok then effFail s cyc
  else if s.pln.gridGen ≠ 0 && (grid.bad || c.ph.parity) then
    let s := if grid.bad then s
      else { s with pln := { s.pln with dup := sat 255 (s.pln.dup + 1), grids := tmod s.pln.grids s.pln.newest {} (fun g => { g with bad := true }) } }
    { s := s, status := some .checkFail, cycles := cyc }
  else if c.ph.mismatch then
    let s := { s with pln := { s.pln with dup := sat 255 (s.pln.dup + 1) } }
    { s := engineMismatch s c .planning .planningFault, status := some .abftFail, cycles := cyc }
  else
    let d := c.a.desc
    let s := after s
    let (s, os, ok) := putOutput s c (fld d 0x20 6) ((fld d 0x28 2 + c.a.frame) % 65536) out
    if ok then { s := s, outs := os, cycles := cyc } else { s := s, status := some .checkFail, cycles := cyc }

/-! ## PLN_GRID (R255–R259) -/

/-- The geometry that the active map gives the grid: EGO_I, EGO_J, SLICE_MS. With no active map the spec gives none: free values. -/
def gridGeom (s : State) : State × Nat × Nat × Nat :=
  if s.pln.mapValid then
    let img := (tget s.pln.slots s.pln.active {}).image
    (s, fld img 0x54 2, fld img 0x56 2, fld img 0x58 2)
  else
    let (a, s) := draw s
    let (b, s) := draw s
    let (d, s) := draw s
    (s, Config.freeValue a % 1024, Config.freeValue b % 1024, 10 + Config.freeValue d % 991)

/-- A contested track's rectangle in one slice: centre, half extents, heading. -/
structure Stamp where
  px : Num
  py : Num
  hl : Num
  hw : Num
  c : Num
  n : Num
deriving Repr

/-- The rectangle of a track record in slice `k` (R258). -/
def stampOf (t : List Byte) (instant calend sliceMs : Nat) (margin : Num) (k : Nat) : Stamp :=
  let w (o : Nat) : Num := ofFp32 (fld t o 4)
  let dt := div32 (Num.ofInt ((instant + k * sliceMs * 1000000 : Nat) - (calend : Int))) (Num.ofNat 1000000000)
  let half := ofFp32 0x3F000000
  let place (p v a : Num) : Num := add32 (add32 p (mul32 v dt)) (mul32 (mul32 a (mul32 dt dt)) half)
  { px := place (w 0x10) (w 0x18) (w 0x20), py := place (w 0x14) (w 0x1C) (w 0x24), hl := add32 (mul32 (w 0x50) half) margin,
    hw := add32 (mul32 (w 0x54) half) margin, c := trig32 false (w 0x5C), n := trig32 true (w 0x5C) }

/-- Centre coordinate of a column or row (R256). -/
def cellAt (i ego : Nat) : Num := mul32 (add32 (Num.ofInt ((i : Int) - ego)) (ofFp32 0x3F000000)) (ofFp32 0x3DCCCCCD)

/-- Does the rectangle hold the centre of cell (i, j)? -/
def Stamp.holds (st : Stamp) (ei ej i j : Nat) : Bool :=
  let dx := sub32 (cellAt i ei) st.px
  let dy := sub32 (cellAt j ej) st.py
  let lx := add32 (mul32 st.c dx) (mul32 st.n dy)
  let ly := sub32 (mul32 st.c dy) (mul32 st.n dx)
  lx.abs.le st.hl && ly.abs.le st.hw

/-- Stamp one slice of 128 KiB with rectangles. -/
def stampSlice (sts : List Stamp) (ei ej : Nat) (bs : List Byte) : List Byte :=
  if sts.isEmpty then bs
  else bs.zipIdx.map (fun b =>
    let j := b.2 / 128
    let i0 := b.2 % 128 * 8
    BitVec.ofNat 8 (b.1.toNat ||| ((List.range 8).foldl (fun a k => if sts.any (fun t => t.holds ei ej (i0 + k) j) then a + 2 ^ k else a) 0)))

/-- Rows of the grid that a rectangle spans. -/
def Stamp.rows (st : Stamp) (ei ej : Nat) : Nat :=
  ((List.range 1024).filter (fun j => (List.range 1024).any (fun i => st.holds ei ej i j))).length

/-- PLN_GRID (R257–R259). Its token carries the generation it publishes (R250). -/
def plnGridBody (c : Cmdr) (s : State) : Eff :=
  let d := c.a.desc
  let s := { s with pln := { s.pln with gridBusy := true } }
  let a := fld d 0x10 6
  let aux := fld d 0x18 6
  let gens := inputGens c (fld d 0x28 2)
  let (r, hd) := readLogical { s := s } c gens a 256
  let (r, cells) := readLogical r c gens (a + 65536) (1048576 + 524288)
  let (r, th) := if aux = 0 then (r, List.replicate 64 (0 : Byte)) else readLogical r c gens aux 64
  let n := min 1024 (fld th 6 2)
  let (r, tb) := readLogical r c gens (aux + 64) (if aux = 0 then 0 else 128 * n)
  let tracks := (List.range n).map (fun i => slice tb (128 * i) 128)
  let contested := tracks.filter (fun t => bit (fld t 5 1) 0)
  let (s1, ei, ej, ms) := gridGeom r.s
  let r := { r with s := s1 }
  let instant := fld hd 8 8
  let margin := ofFp32 s.pln.stampMargin
  let stamps (k : Nat) : List Stamp := contested.map (fun t => stampOf t instant (fld th 8 8) ms margin k)
  let occ := (List.range 8).flatMap (fun k => stampSlice (stamps k) ei ej (slice cells (k * 131072) 131072))
  let rows := (((List.range 8).flatMap stamps).map (fun t => cdiv (t.rows ei ej) 16)).foldl (· + ·) 0
  let cyc := 512 + 6145 + n + rows
  if !r.ok then effFail r.s cyc
  else if c.ph.mismatch then
    let s := { r.s with pln := { r.s.pln with dup := sat 255 (r.s.pln.dup + 1) } }
    { s := engineMismatch s c .planning .planningFault, status := some .abftFail, cycles := cyc }
  else
    let b := 1 - r.s.pln.newest
    let g := (r.s.pln.gridGen + 1) % 2 ^ 32
    let overs := contested.length - fld d 0x2A 2
    let s := { r.s with pln := { r.s.pln with grids := tput r.s.pln.grids b { gen := g, bad := false, instant := instant, cells := occ ++ cells.drop 1048576 },
                                              contestOver := sat 255 (r.s.pln.contestOver + overs) } }
    let s := if overs = 0 then s else alm s (srcOf c.u) .contestOver 2 [overs, c.ctx, c.a.idx, c.a.frame]
    { s := s, outs := [{ gen := g % 65536 }], cycles := cyc }

/-! ## PLN_CHECK (R260–R263) -/

/-- Insert a scored candidate in the order of R261. -/
def rankInsert (x : Nat × Nat) : List (Nat × Nat) → List (Nat × Nat)
  | [] => [x]
  | y :: ys => if x.1 < y.1 || (x.1 = y.1 && x.2 < y.2) then x :: y :: ys else y :: rankInsert x ys

/-- A top-8 list (Table 11.5). -/
def top8 (c : Cmdr) (flags gen slot root valid blocked : Nat) (es : List (Nat × Nat)) : List Byte :=
  padTo 256 (natLe 6 c.a.frame ++ natLe 1 es.length ++ natLe 1 flags ++ natLe 4 gen ++ natLe 1 slot ++ natLe 1 root ++ natLe 2 0 ++
    natLe 4 valid ++ natLe 4 blocked ++ natLe 8 0 ++ es.flatMap (fun e => natLe 2 e.2 ++ natLe 2 0 ++ natLe 4 e.1))

/-- The largest total of the checkers' cycles, each horizon position on its checker. -/
def checkerMax (cs : List Nat) : Nat :=
  let n := cs.length
  (List.range (min n 4096)).foldl (fun m k =>
    max m ((List.range (cdiv (n - k) 4096)).foldl (fun a i => a + cs.getD (k + 4096 * i) 0) 0)) 0

/-- PLN_CHECK. -/
def plnCheckBody (c : Cmdr) (s : State) : Eff :=
  let d := c.a.desc
  let slot := s.pln.active
  let gen := s.pln.gridGen
  let grid := tget s.pln.grids s.pln.newest {}
  let s := chkStart c s
  let (r, rq) := readInput { s := s } c (fld d 0x28 2) (fld d 0x10 6) 64
  let root := fld rq 0 1
  let w := fld rq 1 1
  let named (es : List (Bool × Nat)) (s : State) : State :=
    { s with pln := { s.pln with edges := es, unread := if s.pln.mapValid then s.pln.unread ++ [(slot, c.a.frame)] else s.pln.unread } }
  let noMap (r : Rd) (flags : Nat) : Eff := chkEnd c r (1024 + 64 + 64) grid (top8 c flags gen slot root 0 0 []) (named [])
  if !r.ok then chkEnd c r 0 grid [] id
  else if !s.pln.mapValid then noMap r (8 + b2n (gen = 0))
  else
    let (r, hd) := readRoadMap c slot r 0 256
    if root ≥ fld hd 0x52 1 then noMap r (2 + b2n (gen = 0))
    else
      let (r, ro) := readRoot c slot hd r root
      let (r, es) := readAll (readHorizon c slot hd ro) r (List.range ro.hCount)
      let (r, cs) := readAll (readCand c slot hd) r ((List.range ro.cCount).map (· + ro.cFirst))
      let res := es.zipIdx.map (fun e =>
        let t := testEdge grid w e.1
        (gen ≠ 0 && (if c.ph.wrong.contains (checkerOf e.2) then !t.1 else t.1), t.2))
      let free := (res.map (·.1)).toArray
      let cost := (res.map (·.2)).toArray
      let scored := cs.zipIdx.filterMap (fun x =>
        if x.1.hs.all (fun h => free.getD h false) then some (x.1.hs.foldl (fun a h => satAdd a (cost.getD h 0)) x.1.term, x.2 + ro.cFirst) else none)
      let best := (scored.foldl (fun l x => rankInsert x l) []).take 8
      let blocked := (res.filter (fun x => !x.1)).length
      let flags := b2n (gen = 0) + 4 * b2n scored.isEmpty
      let cyc := 1024 + max (cdiv (edgeBytes es) 256) (checkerMax (es.map edgeCycles)) + 64 +
        cdiv ((cs.map (fun x => x.hs.length)).foldl (· + ·) 0) 64 + 64
      chkEnd c r cyc grid (top8 c flags gen slot root scored.length blocked best) (named (res.map (fun x => (x.1, if x.1 then x.2 else 0))))

/-! ## PLN_COMMIT (R264–R266) -/

/-- A fallback or no-trajectory output is counted and recorded (R264). -/
def fallbackEvent (c : Cmdr) (s : State) : State :=
  alm { s with pln := { s.pln with fallbacks := sat 255 (s.pln.fallbacks + 1) } } (srcOf c.u) .fallback 2 [c.ctx, c.a.idx, c.a.frame]

/-- A checker disagreement: counted, named, sent to Vigil A and recorded (R265). -/
def disagreeEvent (c : Cmdr) (s : State) (h : Nat) : State :=
  let s := { s with pln := { s.pln with disagree := sat 255 (s.pln.disagree + 1), lastChecker := checkerOf h } }
  let s := modStats s (fun f => { f with disagrees := sat 0xFFFF (f.disagrees + 1) })
  let s := cmdEvent s .planning c.u c.ctx c.a 0 (.checker (checkerOf h))
  let s := alm s (srcOf c.u) .checkerDisagreement 3 [checkerOf h, c.ctx, c.a.idx, c.a.frame]
  healthEvent s 5 c.u 0 c.a c.ctx

/-- One candidate under test in a commit: rank (none for the fallback), candidate index, cost, its edges by horizon position. -/
structure Trial where
  rank : Nat
  cand : Nat
  cost : Nat
  hs : List Nat
  es : List MapEdge
deriving Repr

/-- The nodes of a trajectory record: each edge's start, then the last edge's end, with the speed of the adjoining primitive. -/
def trajNodes (c : Cmdr) (slot : Nat) (hd : List Byte) (r : Rd) (es : List MapEdge) : Rd × List Byte :=
  let one (r : Rd) (node prim ofs : Nat) : Rd × List Byte :=
    let (r, nb) := readRoadMap c slot r (mapOfs hd 0 + 16 * node) 16
    let (r, pb) := readRoadMap c slot r (mapOfs hd 2 + 64 * prim) 64
    (r, slice nb 0 12 ++ slice pb ofs 4 ++ slice nb 12 2 ++ List.replicate 14 0)
  let (r, bs) := es.foldl (fun (p : Rd × List Byte) e => let (r, b) := one p.1 e.frm e.prim 8; (r, p.2 ++ b)) (r, [])
  match es.getLast? with
  | some e => let (r, b) := one r e.dest e.prim 12; (r, bs ++ b)
  | none => (r, bs)

/-- PLN_COMMIT. -/
def plnCommitBody (c : Cmdr) (s : State) : Eff :=
  let d := c.a.desc
  let gen := s.pln.gridGen
  let grid := tget s.pln.grids s.pln.newest {}
  let (r, tl) := readInput { s := s } c (fld d 0x28 2) (fld d 0x10 6) 256
  let slot := fld tl 0xC 1
  let s0 := chkStart c r.s
  let r := { r with s := { s0 with pln := { s0.pln with latched := some (s.pln.newest, gen, if bit (fld tl 7 1) 3 then 2 else slot), unread := s0.pln.unread.erase (slot, fld tl 0 6) } } }
  let flags := fld tl 7 1
  let root := fld tl 0xD 1
  let genC := fld tl 8 4
  let record (fl rank cand cost len : Nat) (mapId : Nat) (nodes prims : List Byte) : List Byte :=
    let h := padTo 64 (natLe 6 c.a.frame ++ natLe 1 (fl + 4 * b2n (gen = 0) + 8 * b2n (gen ≠ genC)) ++ natLe 1 rank ++ natLe 4 genC ++ natLe 4 gen ++
      natLe 8 (if gen = 0 then 0 else grid.instant) ++ natLe 8 mapId ++ natLe 2 cand ++ natLe 1 len ++ natLe 1 root ++ natLe 4 cost)
    padTo 1024 (h ++ padTo 800 nodes ++ padTo 96 prims)
  if !r.ok then chkEnd c r 0 grid [] id
  else if bit flags 3 || bit flags 1 then
    let mapId := if bit flags 3 then 0 else (tget r.s.pln.slots slot {}).mapId
    chkEnd c r 256 grid (record 16 0xFF 0 0xFFFFFFFF 0 mapId [] []) (fallbackEvent c)
  else
    let (r, hd) := readRoadMap c slot r 0 256
    let (r, ro) := readRoot c slot hd r root
    let n := min 8 (fld tl 6 1)
    let ents := (List.range n).map (fun i => (i, fld tl (0x20 + 8 * i) 2, fld tl (0x24 + 8 * i) 4)) ++ [(0xFF, ro.fallback, 0xFFFFFFFF)]
    let (r, ts) := ents.foldl (fun (p : Rd × List Trial) e =>
      let (r, cd) := readCand c slot hd p.1 e.2.1
      let (r, es) := readAll (readHorizon c slot hd ro) r cd.hs
      let t : Trial := { rank := e.1, cand := e.2.1, cost := e.2.2, hs := cd.hs, es := es }
      (r, p.2 ++ [t])) (r, [])
    let edges := ts.flatMap (fun t => List.zip t.hs t.es)
    let tested : List (Nat × Bool) := edges.zipIdx.map (fun p =>
      let f := (testEdge grid 0 p.1.2).1
      (p.1.1, gen ≠ 0 && (if c.ph.wrong.contains (commitChecker p.2 p.1.1) then !f else f)))
    let frees : List Bool := (ts.foldl (fun (a : List (Nat × Bool) × List Bool) t =>
      (a.1.drop t.es.length, a.2 ++ [(a.1.take t.es.length).all (·.2)])) (tested, [])).2
    let isFree (t : Trial) : Bool := (List.zip ts frees).any (fun p => p.1.rank = t.rank && p.2)
    let pick' := (ts.filter (fun t => t.rank ≠ 0xFF)).find? isFree
    let fb := ts.getLast?.getD { rank := 0xFF, cand := ro.fallback, cost := 0xFFFFFFFF, hs := [], es := [] }
    let t := pick'.getD fb
    let fbFlags := if pick'.isSome then 0 else 1 + 2 * b2n (!isFree fb)
    let kept := (s.pln.edges.map (·.1)).toArray
    let bad := if gen = genC && gen ≠ 0 then sortNat ((tested.filter (fun p => kept.getD p.1 false && !p.2)).map (·.1)) else []
    let (r, nodes) := trajNodes c slot hd r t.es
    let prims := t.es.flatMap (fun e => natLe 4 e.prim)
    let cyc := 256 + max (cdiv (edgeBytes (edges.map (·.2))) 256) ((edges.map (fun p => edgeCycles p.2)).foldl max 0)
    chkEnd c r cyc grid (record (fbFlags + 32 * b2n (!bad.isEmpty)) t.rank t.cand t.cost t.es.length (fld hd 8 8) nodes prims) (fun s =>
      let s := if pick'.isSome then s else fallbackEvent c s
      bad.foldl (disagreeEvent c) s)

/-- PLN_GRID (R257). -/
def execPlnGrid (u ctx : Nat) (ph : Phys) (s : State) : Out := done s (issueWith 0x70 plnGridBody u ctx ph s)
/-- PLN_CHECK (R260). -/
def execPlnCheck (u ctx : Nat) (ph : Phys) (s : State) : Out := done s (issueWith 0x71 plnCheckBody u ctx ph s)
/-- PLN_COMMIT (R264). -/
def execPlnCommit (u ctx : Nat) (ph : Phys) (s : State) : Out := done s (issueWith 0x72 plnCommitBody u ctx ph s)

end Sys2Proof.Machine
end

