-- ==== Sys2Proof/Machine/MapImage.lean ====
section
/-!
DEFINITION. The checks of a road-map image that MAP_LOAD makes (Tables 11.3, 11.4, 11.7), in exact arithmetic; sines and cosines in fixed
point of 256 fraction bits (the spec gives no precision; DESIGN CHOICE, log 31).
-/

namespace Sys2Proof.Machine

/-- The rational value of a finite number. -/
def Num.rat : Num → Option Rat
  | .fin n m e => some ((if n then -1 else 1) * (m : Rat) * (if e < 0 then (1 : Rat) / ((2 ^ (-e).toNat : Nat) : Rat) else ((2 ^ e.toNat : Nat) : Rat)))
  | _ => none

/-- A field of FP32. -/
def ratAt (b : List Byte) (o : Nat) : Option Rat := (ofFp32 (fld b o 4)).rat

/-- A rational in fixed point. -/
def ratFix (x : Rat) : Int := x.num * 2 ^ fixF / (x.den : Int)

/-- One of the tables of a map body: its offset field, its record count and record size (Table 11.3). -/
def mapTables (hd : List Byte) : List (Nat × Nat × Nat) :=
  [(0x60, fld hd 0x40 4, 16), (0x64, fld hd 0x44 4, 32), (0x68, fld hd 0x48 4, 64), (0x6C, fld hd 0x4C 4, 4), (0x70, fld hd 0x5C 4, 4),
   (0x74, fld hd 0x50 2, 128), (0x78, fld hd 0x52 1, 32), (0x7C, fld hd 0x53 1, 32)]

/-- Check 0x01 HEADER. -/
def mapHeaderOk (img : List Byte) (ver : Nat → Bool) : Bool :=
  let hd := img.take 256
  let within (o n lo hi : Nat) : Bool := lo ≤ fld hd o n && fld hd o n ≤ hi
  256 ≤ img.length && fld hd 0 4 = 0x50444D52 && ver (fld hd 4 2) && fld hd 6 2 = 256 &&
  within 0x40 4 1 65536 && within 0x44 4 1 262144 && within 0x48 4 1 65536 && within 0x4C 4 1 268435456 && within 0x50 2 1 16384 &&
  within 0x52 1 1 16 && within 0x53 1 1 16 && within 0x54 2 0 1023 && within 0x56 2 0 1023 && within 0x58 2 10 1000 &&
  fld hd 0x5A 2 = 0 && fld hd 0x80 128 = 0 &&
  (mapTables hd).all (fun t => fld hd t.1 4 % 256 = 0 && fld hd t.1 4 + t.2.1 * t.2.2 + 256 ≤ img.length)

/-- Record `i` of `n` bytes of table `t`. -/
def mapRec (img : List Byte) (t i n : Nat) : List Byte := slice img (mapOfs img t + n * i) n

/-- Node record. -/
def mapNode (img : List Byte) (i : Nat) : List Byte := mapRec img 0 i 16
/-- Edge record. -/
def mapEdgeRec (img : List Byte) (i : Nat) : List Byte := mapRec img 1 i 32
/-- Primitive record. -/
def mapPrimRec (img : List Byte) (i : Nat) : List Byte := mapRec img 2 i 64

/-- A speed band's limits: V_MIN, V_MAX, KAPPA_MAX, DKAPPA_MAX, A_MIN, A_MAX, J_MAX, ALAT_MAX. -/
structure Band where
  vMin : Rat
  vMax : Rat
  kap : Rat
  dkap : Rat
  aMin : Rat
  aMax : Rat
  jMax : Rat
  aLat : Rat

/-- Band `i`, if its fields are finite. -/
def bandAt (img : List Byte) (i : Nat) : Option Band := do
  let b := mapRec img 7 i 32
  pure { vMin := (← ratAt b 0), vMax := (← ratAt b 4), kap := (← ratAt b 8), dkap := (← ratAt b 12), aMin := (← ratAt b 16),
         aMax := (← ratAt b 20), jMax := (← ratAt b 24), aLat := (← ratAt b 28) }

/-- A primitive: band, samples, length, speeds and curvatures. -/
structure Prim where
  band : Nat
  n : Nat
  len : Rat
  v0 : Rat
  v1 : Rat
  ks : List Rat

/-- All of a list of options. -/
def allSome {β : Type} : List (Option β) → Option (List β)
  | [] => some []
  | x :: r => match x, allSome r with | some y, some ys => some (y :: ys) | _, _ => none

/-- Primitive `i`, if its fields are in the ranges of Table 11.4. -/
def primAt (img : List Byte) (i : Nat) : Option Prim := do
  let b := mapPrimRec img i
  let n := fld b 1 1
  let len ← ratAt b 4
  let v0 ← ratAt b 8
  let v1 ← ratAt b 12
  let ks ← allSome ((List.range n).map (fun k => (decodeNum 1 (fld b (16 + 2 * k) 2)).rat))
  if 2 ≤ n && n ≤ 16 && 0 < len && 0 < v0 + v1 then pure { band := fld b 0 1, n := n, len := len, v0 := v0, v1 := v1, ks := ks } else none

/-- Distance between samples. -/
def Prim.ds (p : Prim) : Rat := p.len / ((p.n - 1 : Nat) : Rat)
/-- Acceleration. -/
def Prim.a (p : Prim) : Rat := (p.v1 * p.v1 - p.v0 * p.v0) / (2 * p.len)
/-- Duration in seconds. -/
def Prim.t (p : Prim) : Rat := 2 * p.len / (p.v0 + p.v1)

/-- Magnitude. -/
def rabs (x : Rat) : Rat := if x < 0 then -x else x

/-- Neighbours of a list. -/
def steps {β : Type} (xs : List β) : List (β × β) := List.zip xs (xs.drop 1)

/-- Check 0x05 for one primitive. -/
def primOk (img : List Byte) (i : Nat) : Bool :=
  match primAt img i with
  | none => false
  | some p =>
    match (if p.band < fld img 0x53 1 then bandAt img p.band else none) with
    | none => false
    | some b =>
      let v := if p.v0 ≤ p.v1 then p.v1 else p.v0
      (b.vMin ≤ p.v0 && p.v0 ≤ b.vMax && b.vMin ≤ p.v1 && p.v1 ≤ b.vMax) && p.ks.all (fun k => rabs k ≤ b.kap) &&
      (steps p.ks).all (fun k => rabs (k.2 - k.1) ≤ b.dkap * p.ds) && (b.aMin ≤ p.a && p.a ≤ b.aMax) &&
      p.ks.all (fun k => v * v * rabs k ≤ b.aLat)

/-- Integrate a primitive by the trapezoid rule from a pose (x, y, yaw in fixed point). -/
def integrate (ds : Rat) (ks : List Rat) (x y yaw : Int) : Int × Int × Int :=
  let d := ratFix ds
  (steps ks).foldl (fun (p : Int × Int × Int) k =>
    let (x, y, w) := p
    let w' := w + ratFix ((k.1 + k.2) / 2 * ds)
    (x + d * (fixTrig false w + fixTrig false w') / (2 * 2 ^ fixF), y + d * (fixTrig true w + fixTrig true w') / (2 * 2 ^ fixF), w')) (x, y, yaw)

/-- Check 0x06 for one edge. -/
def edgeOk (img : List Byte) (i : Nat) : Bool :=
  let e := mapEdgeRec img i
  let f := fld e 0 4
  let t := fld e 4 4
  if !(f < fld img 0x40 4 && t < fld img 0x40 4 && fld e 8 4 < fld img 0x48 4) then false
  else
    let nf := mapNode img f
    let nt := mapNode img t
    match primAt img (fld e 8 4), bandAt img (fld nf 14 1), bandAt img (fld nt 14 1), allSome [ratAt nf 0, ratAt nf 4, ratAt nf 8, ratAt nt 0, ratAt nt 4, ratAt nt 8] with
    | some p, some bf, some bt, some [x0, y0, w0, x1, y1, w1] =>
      let (x, y, w) := integrate p.ds p.ks (ratFix x0) (ratFix y0) (ratFix w0)
      let dx := x - ratFix x1
      let dy := y - ratFix y1
      let dw := w - ratFix w1
      let tau := 2 * fixPi
      let dw := dw - (2 * dw + tau) / (2 * tau) * tau
      let dt : Rat := ((fld nt 12 2 : Nat) : Rat) - ((fld nf 12 2 : Nat) : Rat)
      (bf.vMin ≤ p.v0 && p.v0 ≤ bf.vMax) && (bt.vMin ≤ p.v1 && p.v1 ≤ bt.vMax) &&
      (400 * (dx * dx + dy * dy) ≤ 2 ^ (2 * fixF)) && (200 * dw ≤ 2 ^ fixF && -(2 ^ fixF) ≤ 200 * dw) && rabs (dt - 1000 * p.t) ≤ 1
    | _, _, _, _ => false

/-- Does run word `k` of an edge meet Table 11.4 and the slices of its edge (check 0x07)? -/
def runOk (img e : List Byte) (k : Nat) : Bool :=
  let ms := fld img 0x58 2
  let w := fld (mapRec img 3 k 4) 0 4
  k < fld img 0x4C 4 && w % 8 = 0 && runCol w + runLen w ≤ 1024 &&
    fld (mapNode img (fld e 0 4)) 12 2 / ms ≤ runSlice w && runSlice w ≤ min 7 (fld (mapNode img (fld e 4 4)) 12 2 / ms)

/-- The first run that fails (check 0x07): of an edge without runs or with too many, its RUN_FIRST. -/
def badRun (img : List Byte) (i : Nat) : Option Nat :=
  let e := mapEdgeRec img i
  let n := fld e 16 2
  if n = 0 || 1024 < n then some (fld e 12 4) else ((List.range n).map (· + fld e 12 4)).find? (fun k => !runOk img e k)

/-- Root record fields: node, first and count of the horizon, first and count of the candidates, fallback. -/
def rootRec (img : List Byte) (i : Nat) : MapRoot :=
  let b := mapRec img 6 i 32
  { node := fld b 0 4, hFirst := fld b 4 4, hCount := fld b 8 4, cFirst := fld b 0xC 2, cCount := fld b 0xE 2, fallback := fld b 0x10 2 }

/-- The edge index in horizon entry `k`. -/
def horizonAt (img : List Byte) (k : Nat) : Nat := fld (mapRec img 4 k 4) 0 4

/-- The first horizon entry that fails for a root (check 0x08). -/
def badHorizon (img : List Byte) (i : Nat) : Option Nat :=
  let r := rootRec img i
  if r.hCount = 0 || 262144 < r.hCount then some r.hFirst
  else ((List.range r.hCount).find? (fun h =>
    let k := r.hFirst + h
    fld img 0x5C 4 ≤ k || fld img 0x44 4 ≤ horizonAt img k ||
      (List.range h).any (fun j => horizonAt img (r.hFirst + j) = horizonAt img k))).map (· + r.hFirst)

/-- The edges of a candidate, by their horizon positions; none where one lies outside its root's list. -/
def candEdges (img : List Byte) (c : List Byte) : Option (List Nat) :=
  let r := rootRec img (fld c 0 1)
  allSome ((List.range (fld c 1 1)).map (fun k => let h := fld c (16 + 4 * k) 4; if h < r.hCount then some (horizonAt img (r.hFirst + h)) else none))

/-- Is a joint of two edges smooth (check 0x09)? -/
def jointOk (img : List Byte) (e1 e2 : Nat) : Bool :=
  let a := mapEdgeRec img e1
  let b := mapEdgeRec img e2
  fld a 4 4 = fld b 0 4 &&
  match primAt img (fld a 8 4), primAt img (fld b 8 4), bandAt img (fld (mapNode img (fld a 4 4)) 14 1) with
  | some p, some q, some w =>
    p.v1 = q.v0 && rabs (q.ks.headD 0 - p.ks.getLastD 0) ≤ w.dkap * (p.ds + q.ds) / 2 && rabs (q.a - p.a) ≤ w.jMax * (p.t + q.t) / 2
  | _, _, _ => false

/-- Check 0x09 for one candidate. -/
def candOk (img : List Byte) (i : Nat) : Bool :=
  let c := mapRec img 5 i 128
  fld c 0 1 < fld img 0x52 1 && 1 ≤ fld c 1 1 && fld c 1 1 ≤ 24 &&
  match candEdges img c with
  | some (e :: es) => fld (mapEdgeRec img e) 0 4 = (rootRec img (fld c 0 1)).node && (steps (e :: es)).all (fun p => jointOk img p.1 p.2)
  | _ => false

/-- Check 0x0A for one root. -/
def rootOk (img : List Byte) (i : Nat) : Bool :=
  let r := rootRec img i
  1 ≤ r.cCount && r.cFirst + r.cCount ≤ fld img 0x50 2 && r.cFirst ≤ r.fallback && r.fallback < r.cFirst + r.cCount &&
  match candEdges img (mapRec img 5 r.fallback 128) with
  | some es => es.all (fun e => match primAt img (fld (mapEdgeRec img e) 8 4) with | some p => p.a ≤ 0 | none => false)
  | none => false

/-- The first index below `n` that fails. -/
def firstFail (n : Nat) (ok : Nat → Bool) : Option Nat := (List.range n).find? (fun i => !ok i)

/-- The checks of Table 11.7 from 0x04 on, in order: detail and index of the first failing record. -/
def mapRecordsBad (img : List Byte) : Option (Nat × Nat) :=
  let node (i : Nat) : Bool := fld (mapNode img i) 14 1 < fld img 0x53 1 && fld (mapNode img i) 12 2 < 8 * fld img 0x58 2
  match firstFail (fld img 0x40 4) node with
  | some i => some (0x04, i)
  | none => match firstFail (fld img 0x48 4) (primOk img) with
    | some i => some (0x05, i)
    | none => match firstFail (fld img 0x44 4) (edgeOk img) with
      | some i => some (0x06, i)
      | none => match (List.range (fld img 0x44 4)).findSome? (badRun img) with
        | some i => some (0x07, i)
        | none => match (List.range (fld img 0x52 1)).findSome? (badHorizon img) with
          | some i => some (0x08, i)
          | none => match firstFail (fld img 0x50 2) (candOk img) with
            | some i => some (0x09, i)
            | none => (firstFail (fld img 0x52 1) (rootOk img)).map (fun i => (0x0A, i))

/-- The checks of Table 11.7, in order; `placed` is check 0x03. -/
def mapBad (img : List Byte) (ver : Nat → Bool) (placed : Bool) : Option (Nat × Nat) :=
  if !mapHeaderOk img ver then some (0x01, 0)
  else if sha384 (img.drop 256) ≠ slice img 0x10 48 then some (0x02, 0)
  else if !placed then some (0x03, 0)
  else mapRecordsBad img

end Sys2Proof.Machine
end

