-- ==== Sys2Proof/Machine/Space.lean ====
section
/-!
DEFINITION. Who owns what memory (R167–R169, R176): the keys of what uses an allocation unit, owner tags that change at the next
Calend, the freeing of units, fine-tile regions, and Xiuth's writes on behalf of a partition.
-/

namespace Sys2Proof.Machine

/-! ## Owner tags -/

/-- Key of a weight region among the users of an allocation unit. -/
def keyRegion (id : Nat) : Nat := 4 * id
/-- Key of a sequence. -/
def keySeq (id : Nat) : Nat := 4 * id + 1
/-- Key of a plan. -/
def keyPlan (id : Nat) : Nat := 4 * id + 2
/-- Key of the extension table of a fine-tile region. -/
def keyFine (ext : Nat) : Nat := 4 * ext + 3

/-- Key of a Quarter's context records: above every REGION_ID's. -/
def keyRecords (q : Nat) : Nat := keyRegion (65536 + q)

/-- The owner a unit has from the next Calend on: a change on its way, else its tag (R168). -/
def effTag (s : State) (u : Nat) : Nat :=
  match s.tagPend.find? (fun p => p.1 = u) with
  | some p => p.2
  | none => ownTag s u

/-- Is an address outside every absent stack: none of its clusters, commons or store addresses are used (Table 12.2)? -/
def stackThere (s : State) (a : Nat) : Bool :=
  match memLevel a with
  | some 3 => bit s.ident.present (storeAt a).1
  | some 1 => bit s.ident.present ((a - 0x100000000000) / 0x1000000)
  | some 0 => bit s.ident.present ((a - 0x120000000000) / 0x200000 / 72)
  | _ => true

/-- Is a unit in a partition's store allocation: its own, or still FREE (R110, R144, R168)? -/
def unitFor (s : State) (part u : Nat) : Bool :=
  (memLevel (u * 65536)).isSome && stackThere s (u * 65536) && (effTag s u = 7 || effTag s u = part)

/-- Are all units of `[a, a + n)` available to a partition? -/
def spaceFor (s : State) (part a n : Nat) : Bool := n ≤ 0x200000000 && (unitsOf a n).all (unitFor s part)

/-- A tag change that takes effect at the next Calend. -/
def setTag (s : State) (u tag : Nat) : State := { s with tagPend := s.tagPend.filter (fun p => p.1 ≠ u) ++ [(u, tag)] }

/-- Assign units to a partition for the object with this key (R168). -/
def claim (s : State) (key part : Nat) (units : List Nat) : State :=
  units.foldl (fun s u =>
    let s := if effTag s u = 7 then setTag s u part else s
    if s.tagUse.contains (u, key) then s else { s with tagUse := s.tagUse ++ [(u, key)] }) s

/-- A memory with `[a, a + n)` as if nothing had written it. -/
def mclear (m : Memory) (a n : Nat) : Memory := m.filter (fun c => c.1 < a || a + n ≤ c.1)

/-- Clear the validity of every tile with its head or check entry in an allocation unit (R168). -/
def clearUnit (s : State) (u : Nat) : State :=
  let a := u * 65536
  match memLevel a with
  | some 3 =>
    let d := (storeAt a).1 * 0x200000000
    let s1 := { s with mem := mclear s.mem (d + 0x1FF7C0000 + (storeAt a).2 / 32768) 2 }
    (tget s1.fines (storeAt a).1 []).foldl (fun s f =>
      (List.range (f.size / 2 ^ f.log2Tile)).foldl (fun s i =>
        if unitsOf (f.base + i * 2 ^ f.log2Tile) 1 = [u] then dropCheck s (f.base + i * 2 ^ f.log2Tile) f.log2Tile else s) s) s1
  | _ => { s with side := s.side.map (fun p => (p.1, if p.1 / 256 = u then p.2 % 2 ^ 63 else p.2)) }

/-- Free the units that only the object with this key used: their tiles become invalid, and the tag change follows at the next
Calend (R168). -/
def releaseUnits (s : State) (key : Nat) : State :=
  let us := (s.tagUse.filter (fun p => p.2 = key)).map (·.1)
  let s := { s with tagUse := s.tagUse.filter (fun p => p.2 ≠ key) }
  us.foldl (fun s u => if s.tagUse.any (fun p => p.1 = u) || effTag s u > 3 then s else setTag (clearUnit s u) u 7) s

/-! ## Context records (R71, R167) -/

/-- The units of a Quarter's context records, in the order they were taken. -/
def recordUnits (s : State) (q : Nat) : List Nat := (s.tagUse.filter (fun p => p.2 = keyRecords q)).map (·.1)

/-- Give a Quarter's context records `n` units of its commons, as SYSTEM: more from the highest free ones, or some back. None where the commons
has no room (where Xiuth puts them the spec leaves open; DESIGN CHOICE, log 47). -/
def fitRecords (s : State) (q n : Nat) : Option State :=
  let have' := recordUnits s q
  if n ≤ have'.length then
    some ((have'.drop n).foldl (fun s u =>
      setTag (clearUnit { s with tagUse := s.tagUse.filter (fun p => p ≠ (u, keyRecords q)) } u) u 7) s)
  else
    let lo := (0x100000000000 + q * 0x1000000) / 65536
    let free := (((List.range 192).map (· + lo)).filter (fun u => effTag s u = 7)).reverse.take (n - have'.length)
    if have'.length + free.length < n then none else some (claim s (keyRecords q) 5 free)

/-! ## Fine-tile regions (R176) -/

/-- Store a die's fine-tile regions. -/
def putFines (s : State) (die : Nat) (fs : List Fine) : State := { s with fines := tput s.fines die fs }

/-- The base unit of the highest run of `n` free units on a die, none of them among those that the object itself is about to take (the spec
does not say where Xiuth puts an extension table; DESIGN CHOICE, log 30). -/
def freeRun (s : State) (avoid : List Nat) (die n : Nat) : Option Nat :=
  let lo := die * 131072
  let hi := lo + 0x1FF7C
  let ends := hi :: ((s.tags.map (·.1)) ++ s.tagPend.map (·.1) ++ avoid).filter (fun u => lo ≤ u && u < hi)
  ends.foldl (fun best e =>
    if lo + n ≤ e && (List.range n).all (fun i => effTag s (e - n + i) = 7 && !avoid.contains (e - n + i)) then
      (match best with | some b => some (max b (e - n)) | none => some (e - n))
    else best) none

/-- Bytes of an extension table: 4 per tile, one validity bit per tile, rounded up to 64 KiB. -/
def extBytes (tiles : Nat) : Nat := alignUp (4 * tiles + cdiv tiles 8) 65536

/-- Copy a tile's check entry, its value and its validity, from one place to another. -/
def copyEntry (s : State) (src dst : Nat × Nat × Nat) : State :=
  wrBit (wr s dst.1 (rd s src.1 4)) dst.2.1 dst.2.2 (bit (mget s.mem src.2.1).toNat src.2.2)

/-- The tiles of a fine-tile region that begin a 4 KiB block: without the region the base table holds their entries. -/
def Fine.heads (f : Fine) : List Nat :=
  ((List.range (f.size / 2 ^ f.log2Tile)).map (fun i => f.base + i * 2 ^ f.log2Tile)).filter (fun x => x % 4096 = 0)

/-- The state with a fine-tile region for tiles of `2^k` bytes in `[a, a + n)` of a store die, for the object with this key; none where
it would overlap a region of another tile size, exceed 64 regions, or find no room for its table, which keeps off the units in `avoid`. A
tile that the base table holds keeps its entry, so that what was written before stays readable (the spec does not say what a new table
holds; DESIGN CHOICE, log 47). -/
def addFine (s : State) (key part : Nat) (avoid : List Nat) (a n k : Nat) : Option State :=
  let die := (storeAt a).1
  let fs := tget s.fines die []
  let overs := fs.filter (fun f => f.base < a + n && a < f.base + f.size)
  if overs.any (fun f => f.log2Tile ≠ k) then none
  else match overs.find? (fun f => f.base ≤ a && a + n ≤ f.base + f.size) with
    | some f => some (putFines s die (fs.map (fun g => if g = f && !g.users.contains key then { g with users := g.users ++ [key] } else g)))
    | none =>
      if fs.length ≥ 64 then none
      else match freeRun s avoid die (extBytes (n / 2 ^ k) / 65536) with
        | none => none
        | some u =>
          let f : Fine := { base := a, size := n, log2Tile := k, ext := u * 65536, users := [key] }
          let s1 := claim s (keyFine (u * 65536)) part (unitsOf (u * 65536) (extBytes (n / 2 ^ k)))
          let s2 := putFines { s1 with mem := mclear s1.mem (u * 65536) (extBytes (n / 2 ^ k)) } die (fs ++ [f])
          some (f.heads.foldl (fun s x => copyEntry s (baseCheck x) (storeCheck s x)) s2)

/-- A range needs a fine-tile region: tiles below 4 KiB on a store die. -/
def wantsFine (a k : Nat) : Bool := k < 12 && memLevel a = some 3

/-- The state with what fine-tile region a range needs. -/
def needFine (s : State) (key part : Nat) (avoid : List Nat) (a n k : Nat) : Option State :=
  if wantsFine a k then addFine s key part avoid a n k else some s

/-- Delete a fine-tile region and free its table; the base table takes over the entries it can hold (DESIGN CHOICE, log 47). -/
def dropFine (s : State) (die : Nat) (f : Fine) : State :=
  let s := f.heads.foldl (fun s x => copyEntry s (storeCheck s x) (baseCheck x)) s
  releaseUnits (putFines s die ((tget s.fines die []).filter (fun g => g ≠ f))) (keyFine f.ext)

/-- An object goes: its units and fine-tile regions are freed (R168). -/
def release (s : State) (key : Nat) : State :=
  let s := releaseUnits s key
  [0, 1, 2, 3].foldl (fun s die =>
    let fs := (tget s.fines die []).map (fun f => { f with users := f.users.filter (fun x => x ≠ key) })
    (fs.filter (fun f => f.users.isEmpty)).foldl (fun s f => dropFine s die f) (putFines s die fs)) s

/-- The tag changes take effect (R168). -/
def applyTags (s : State) : State :=
  { s with tags := s.tagPend.foldl (fun t p => if fixedTag p.1 = p.2 then tdel t p.1 else tput t p.1 p.2) s.tags, tagPend := [] }

/-! ## Xiuth's writes for a partition (R169) -/

/-- Xiuth writes one tile as the partition that owns it; a write into another owner's unit is dropped and recorded. A unit counts as the
partition's from its assignment on, though the tag changes at the next Calend (R168, R369; DEDUCED, log 33). -/
def putOwned (s : State) (part a k gen : Nat) (bs : List Byte) : State :=
  if mayWrite (applyTags s) part a (2 ^ k) then countBytes (putTile s a k gen (tileCrc a gen bs) bs) 5 3 a (2 ^ k) true
  else alm s 0x0000 .unmapped 3 [a, part, tagOf s a]

/-- Xiuth writes tile `i` of a weight region, and of its reserve (R187). -/
def putWeight (s : State) (r : Region) (i gen : Nat) (bs : List Byte) : State :=
  let s := putOwned s r.part (r.base + i * 2 ^ r.log2Tile) r.log2Tile gen bs
  if r.reserve = 0 then s else putOwned s r.part (r.reserve + i * 2 ^ r.log2Tile) r.log2Tile gen bs

/-- The tiles `is` of a weight region have been written: Xiuth's mark is gone (R186). -/
def settleAsked (s : State) (id : Nat) (is : List Nat) : State :=
  { s with regions := tmod s.regions id {} (fun r => { r with asked := r.asked.filter (fun i => !is.contains i) }) }

/-- Tiles of a weight region. -/
def Region.tiles (r : Region) : Nat := r.size / 2 ^ r.log2Tile

/-- Is tile `i` of a region invalid: its primary's check entry without VALID (R186)? -/
def weightInvalid (s : State) (r : Region) (i : Nat) : Bool := !(tileEntry s (r.base + i * 2 ^ r.log2Tile)).valid

/-- Does an admitted plan read the region: is it bound to it (R186)? -/
def regionBound (s : State) (r : Region) : Bool :=
  s.plans.any (fun p => p.admitted && !p.retired && (allDescs p.image).any (fun d => (extReads d).any (fun x => r.meets x.addr x.size)))

/-- The check of a region's place (R166, R171, R187): whole tiles, aligned, in the partition's allocation, and the reserve on another
store die. -/
def regionPlaced (s : State) (r : Region) : Bool :=
  let t := 2 ^ r.log2Tile
  let place (a : Nat) : Bool := a % t = 0 && spaceFor s r.part a r.size
  r.size ≠ 0 && r.size % t = 0 && r.size ≤ 0x200000000 && place r.base &&
    (r.reserve = 0 || (place r.reserve && !(memLevel r.base = some 3 && memLevel r.reserve = some 3 && (storeAt r.base).1 = (storeAt r.reserve).1)
      && !(r.base < r.reserve + r.size && r.reserve < r.base + r.size)))

/-- The state with a region's units assigned to its partition, its fine-tile regions created and every tile invalid; none where R176
refuses it. -/
def openRegion (s : State) (id : Nat) (r : Region) : Option State :=
  let own := unitsOf r.base r.size ++ (if r.reserve = 0 then [] else unitsOf r.reserve r.size)
  match needFine s (keyRegion id) r.part own r.base r.size r.log2Tile with
  | none => none
  | some s1 =>
    match (if r.reserve = 0 then some s1 else needFine s1 (keyRegion id) r.part own r.reserve r.size r.log2Tile) with
    | none => none
    | some s2 =>
      let s3 := claim s2 (keyRegion id) r.part own
      let bare (s : State) (a : Nat) : State := (List.range r.tiles).foldl (fun s i => dropCheck s (a + i * 2 ^ r.log2Tile) r.log2Tile) s
      let s4 := bare s3 r.base
      let s5 := if r.reserve = 0 then s4 else bare s4 r.reserve
      some { s5 with regions := tput s5.regions id r }

/-- A region goes. -/
def closeRegion (s : State) (id : Nat) : State := release { s with regions := tdel s.regions id } (keyRegion id)

end Sys2Proof.Machine
end

