-- ==== Sys2Proof/Machine/Data.lean ====
section
/-!
DEFINITION. Weight regions, checks and reads of memory, partial-array self-refresh, and road maps from the host (Table 17.9).
-/

namespace Sys2Proof.Machine

/-! ## Image formats (R418, R459) -/

/-- Header of the firmware image in a bank (Table 19.1). -/
def bankHeader (s : State) (b : Nat) : List Byte := ((tget s.upd.banks b {}).image).take 1280

/-- Does a firmware header support a version of plan (0), map (1) or Season (2) images? Every image supports version 1. -/
def headerFmt (h : List Byte) (kind v : Nat) : Bool := v = 1 || (fld h (0x28 + 4 * kind) 2 ≤ v && v ≤ fld h (0x2A + 4 * kind) 2)

/-- Does the running Xiuth support an image format? -/
def fmtVersionOk (s : State) (kind v : Nat) : Bool := headerFmt (bankHeader s s.upd.bank) kind v

/-- Does the old firmware, kept able to run from the load of an update until its window ends, support it (R418)? -/
def oldFmtOk (s : State) (kind v : Nat) : Bool :=
  if s.upd.state = 4 then headerFmt (bankHeader s (1 - s.upd.bank)) kind v
  else if s.upd.state = 2 || s.upd.state = 3 then fmtVersionOk s kind v
  else true

/-! ## DATA_WRITE (R168, R169, R186, R187, R369) -/

/-- The region that a CREATE describes. -/
def createRegion (e : SubEntry) : Region :=
  let p := parOf e
  { valid := true, base := fld p 6 6, size := fld p 18 8, log2Tile := fld p 4 1, part := fld p 3 1, reserve := fld p 12 6, gen := 1 }

/-- Does a region overlap one of the listed ones? -/
def overlapsRegion (s : State) (r : Region) (ok : Region → Bool) : Bool :=
  s.regions.any (fun p => p.2.valid && ok p.2 && (p.2.meets r.base r.size || (r.reserve ≠ 0 && p.2.meets r.reserve r.size)))

/-- DATA_WRITE with OP 0: allocate a region; all its tiles are invalid. -/
def dataCreate (e : SubEntry) (s : State) : Answer :=
  let r := createRegion e
  let id := fld (parOf e) 0 2
  if r.log2Tile < 8 || 16 < r.log2Tile || 3 < r.part || (tget s.regions id {}).valid then refuse s stRange
  else if overlapsRegion s r (fun x => x.mapSlot.isSome) then refuse s stInUse
  else if !regionPlaced s r || overlapsRegion s r (fun _ => true) then refuse s stRange
  else if 1024 ≤ (s.regions.filter (fun p => p.2.valid && p.2.mapSlot.isNone)).length then refuse s stNoSlot
  else match openRegion s id r with
    | none => refuse s stRange
    | some s1 => { st := s1, result := natLe 2 1 }

/-- The reserved byte of PARAM lies between its fields. -/
def dataUsed : List (Nat × Nat) := [(0, 5), (6, 28)]

/-- What the command tables say of DATA_WRITE_CREATE. -/
def cmdDataWriteCreate : MbxCmd := { opcode := 0x0300, pick := some (2, 0), used := dataUsed }

/-- DATA_WRITE_CREATE. -/
def execDataWriteCreate (e : SubEntry) (s : State) : Out :=
  mailbox cmdDataWriteCreate e (dataCreate e) s

/-- Write tiles `i0 ..` of a region, and of its reserve, with the bytes of a buffer. -/
def writeTiles (s : State) (r : Region) (i0 gen : Nat) (bs : List Byte) : State :=
  let t := 2 ^ r.log2Tile
  (List.range (bs.length / t)).foldl (fun s i => putWeight s r (i0 + i) gen (slice bs (i * t) t)) s

/-- DATA_WRITE with OP 1: the whole region and its reserve. The weight generation rises by 1, unless an admitted plan is bound to the
region and every tile was invalid (R186). -/
def dataRewrite (e : SubEntry) (s : State) : Answer :=
  let id := fld (parOf e) 0 2
  let r := tget s.regions id {}
  if !r.valid then refuse s stNotFound
  else if bufLenOf e ≠ r.size then refuse s stRange
  else
    let bound := regionBound s r
    if bound && (List.range r.tiles).any (fun i => !weightInvalid s r i) then refuse s stInUse
    else
      let gen := if bound then r.gen else (r.gen + 1) % 65536
      let s1 := writeTiles s r 0 gen (bufAll s e)
      { st := { s1 with regions := tput s1.regions id { r with gen := gen, asked := [] } }, result := natLe 2 gen }

/-- What the command tables say of DATA_WRITE_REWRITE. -/
def cmdDataWriteRewrite : MbxCmd := { opcode := 0x0300, pick := some (2, 1), used := dataUsed, buf := 1 }

/-- DATA_WRITE_REWRITE. -/
def execDataWriteRewrite (e : SubEntry) (s : State) : Out :=
  mailbox cmdDataWriteRewrite e (dataRewrite e) s

/-- DATA_WRITE with OP 2: the invalid ones among the tiles from OFFSET on. -/
def dataRepair (e : SubEntry) (s : State) : Answer :=
  let p := parOf e
  let r := tget s.regions (fld p 0 2) {}
  let t := 2 ^ r.log2Tile
  let ofs := fld p 26 8
  let n := bufLenOf e
  if !r.valid then refuse s stNotFound
  else if ofs % t ≠ 0 || n % t ≠ 0 || n = 0 || r.size < ofs + n then refuse s stRange
  else
    let is := (List.range (n / t)).map (· + ofs / t)
    if regionBound s r && is.any (fun i => !weightInvalid s r i) then refuse s stInUse
    else
      let bs := bufAll s e
      { st := settleAsked (is.foldl (fun s1 i => if weightInvalid s r i then putWeight s1 r i r.gen (slice bs (i * t - ofs) t) else s1) s)
          (fld p 0 2) is,
        result := natLe 2 r.gen }

/-- What the command tables say of DATA_WRITE_REPAIR. -/
def cmdDataWriteRepair : MbxCmd := { opcode := 0x0300, pick := some (2, 2), used := dataUsed, buf := 1 }

/-- DATA_WRITE_REPAIR. -/
def execDataWriteRepair (e : SubEntry) (s : State) : Out :=
  mailbox cmdDataWriteRepair e (dataRepair e) s

/-- DATA_WRITE with OP 3. -/
def dataDelete (e : SubEntry) (s : State) : Answer :=
  let id := fld (parOf e) 0 2
  let r := tget s.regions id {}
  if !r.valid then refuse s stNotFound
  else if regionBound s r then refuse s stInUse
  else { st := closeRegion s id, result := natLe 2 r.gen }

/-- What the command tables say of DATA_WRITE_DELETE. -/
def cmdDataWriteDelete : MbxCmd := { opcode := 0x0300, pick := some (2, 3), used := dataUsed }

/-- DATA_WRITE_DELETE. -/
def execDataWriteDelete (e : SubEntry) (s : State) : Out :=
  mailbox cmdDataWriteDelete e (dataDelete e) s

/-! ## DATA_READ and DATA_CHECK -/

/-- DATA_READ: bytes as stored, unchecked. -/
def dataRead (e : SubEntry) (s : State) : Answer :=
  let a := fld (parOf e) 0 6
  if !mapped a (bufLenOf e) then refuse s stRange else { st := bufOut (countBytes s 5 3 a (bufLenOf e) false) e (hubRead s a (bufLenOf e)) }

/-- What the command tables say of DATA_READ. -/
def cmdDataRead : MbxCmd := { opcode := 0x0301, used := [(0, 6)], buf := 2 }

/-- DATA_READ. -/
def execDataRead (e : SubEntry) (s : State) : Out :=
  mailbox cmdDataRead e (dataRead e) s

/-- DATA_CHECK: a run of the first idle unit of CVUs 8–15; all busy is BUSY (R192). -/
def dataCheck (e : SubEntry) (s : State) : Answer :=
  let p := parOf e
  match (List.range 16).find? (fun k => 8 ≤ k && !(cvuOf s k).busy) with
  | none => refuse s stBusy
  | some k =>
    let v : Cvu := { cvuOf s k with addr := fld p 0 6, len := fld p 6 4, seq := fld p 12 4, expect := fld p 16 8 }
    let ok (u : Nat) : Bool := (memLevel (u * 65536)).isSome
    let v := v.begin (fld p 10 2)
    let s := countRun s ok v
    let v := v.run' s ok
    { st := putCvu s k v, status := if v.fault then stRange else stOk, result := natLe 8 v.result ++ natLe 1 (b2n v.mismatch) }

/-- What the command tables say of DATA_CHECK. -/
def cmdDataCheck : MbxCmd :=
  { opcode := 0x0302, used := [(0, 24)],
    ranged := fun p => fld p 10 2 < 1024 && !bit (fld p 10 2) 6 && !bit (fld p 10 2) 2 }

/-- DATA_CHECK. -/
def execDataCheck (e : SubEntry) (s : State) : Out :=
  mailbox cmdDataCheck e
    (dataCheck e) s

/-! ## Partial-array self-refresh (R213, R214) -/

/-- Is a plan admitted and not retired? -/
def anyAdmitted (s : State) : Bool := s.plans.any (fun p => p.admitted && !p.retired)

/-- Address of a store-die segment. -/
def segBase (die k : Nat) : Nat := die * 0x200000000 + k * 0x40000000

/-- Does `[a, a + n)` share a byte with a segment? -/
def meetsSeg (die k a n : Nat) : Bool := a < segBase die k + 0x40000000 && segBase die k < a + n

/-- What the spec has Xiuth do for a segment that is not retained: validity bits, fine-tile regions, an info record; its contents are
lost (they read as what nothing has written; log 33). -/
def loseSegment (s : State) (die k : Nat) : State :=
  let bitmap := die * 0x200000000 + 0x1FF7C0000 + k * 32768
  let gone := (tget s.fines die []).filter (fun f => meetsSeg die k f.base f.size || meetsSeg die k f.ext (extBytes (f.size / 2 ^ f.log2Tile)))
  let s1 := gone.foldl (fun s f => dropFine s die f) { s with mem := mclear s.mem bitmap 32768 }
  let rs := (s.regions.filter (fun p => p.2.valid && p.2.meets (segBase die k) 0x40000000)).map (·.1)
  let qs := (s.seqs.filter (fun p => p.2.valid && meetsSeg die k p.2.base p.2.bytes)).map (·.1)
  alm { s1 with mem := mclear s1.mem (segBase die k) 0x40000000 } (srcStc die 0) .storeRetain 1 ([die, k, rs.length] ++ rs ++ qs)

/-- STORE_RETAIN: the four dies enter self-refresh with the masked segments retained. -/
def storeRetain (e : SubEntry) (s : State) : Answer :=
  let m (die : Nat) : Nat := fld (parOf e) die 1
  if anyAdmitted s then refuse s stInUse
  else
    let lost := [0, 1, 2, 3].flatMap (fun d => ((List.range 8).filter (fun k => !bit (m d) k)).map (fun k => (d, k)))
    let s1 := lost.foldl (fun s x => loseSegment s x.1 x.2) s
    let s2 := { s1 with streams := tmap s1.streams Stream.dropForRetain }
    { st := [0, 1, 2, 3].foldl (fun s d =>
        modStc s d (fun c => { c with retaining := true, retained := if c.retaining then c.retained &&& m d else m d })) s2 }

/-- What the command tables say of STORE_RETAIN. -/
def cmdStoreRetain : MbxCmd := { opcode := 0x0303, used := [(0, 4)], ranged := fun p => (List.range 4).all (fun d => bit (fld p d 1) 7) }

/-- STORE_RETAIN. -/
def execStoreRetain (e : SubEntry) (s : State) : Out :=
  mailbox cmdStoreRetain e (storeRetain e) s

/-- Was an address lost while the dies retained? -/
def lostAt (s : State) (a : Nat) : Bool :=
  memLevel a = some 3 && !bit (stcOf s (storeAt a).1).retained ((storeAt a).2 / 0x40000000)

/-- Runs of consecutive numbers of a rising list: first and length. -/
def runsOfNats (xs : List Nat) : List (Nat × Nat) :=
  xs.foldr (fun x acc => match acc with
    | (a, n) :: r => if x + 1 = a then (x, n + 1) :: r else (x, 1) :: acc
    | [] => [(x, 1)]) []

/-- The fine-tile regions a weight region needs. -/
def regionFines (s : State) (id : Nat) (r : Region) : State :=
  let s := (needFine s (keyRegion id) r.part [] r.base r.size r.log2Tile).getD s
  if r.reserve = 0 then s else (needFine s (keyRegion id) r.part [] r.reserve r.size r.log2Tile).getD s

/-- Restore the lost tiles of a weight region from its reserve (R185); ask the host to reload the others (R186). -/
def resumeRegion (s : State) (id : Nat) (r : Region) : State :=
  let t := 2 ^ r.log2Tile
  let lost := (List.range r.tiles).filter (fun i => lostAt s (r.base + i * t))
  let good (s : State) (i : Nat) : Bool :=
    r.reserve ≠ 0 && !lostAt s (r.reserve + i * t) && tilePass s (r.reserve + i * t) r.log2Tile r.gen
  let s1 := lost.foldl (fun s i => if good s i then repairTile s (r.base + i * t) (r.reserve + i * t) r.log2Tile r.gen r.part else s) s
  let gone := lost.filter (fun i => !good s i)
  let s1 := { s1 with regions := tmod s1.regions id {} (fun r => { r with asked := (r.asked ++ gone).eraseDups }) }
  (runsOfNats gone).foldl (fun s x =>
    let s := alm s 0x0000 .weightReload 3 [id, x.1, x.2]
    notify s 5 id s.alm.head) s1

/-- The fine-tile regions a sequence needs: for the data tiles, and with scales for the scale tiles, of each layer; a sequence without
scales needs one for its whole region (DESIGN CHOICE, log 30). -/
def seqFineAreas (d : SeqDesc) : List (Nat × Nat × Nat) :=
  if d.scaled then
    (List.range d.layers).flatMap (fun l =>
      let a := d.base + l * d.layerStride
      [(a, 2 * d.mr * d.ek, Nat.log2 (d.tp * d.ek)), (a + 2 * d.mr * d.ek, 2 * d.mr * d.es, Nat.log2 (d.tp * d.es))])
  else [(d.base, d.bytes, Nat.log2 (d.tp * d.ek))]

/-- The state with a sequence's fine-tile regions, or none where R176 refuses one. -/
def seqFines (s : State) (id : Nat) (d : SeqDesc) : Option State :=
  (seqFineAreas d).foldl (fun (o : Option State) x => match o with | none => none | some s => needFine s (keySeq id) d.part (unitsOf d.base d.bytes) x.1 x.2.1 x.2.2) (some s)

/-- STORE_RESUME. -/
def storeResume (s : State) : Answer :=
  if !(List.range 4).any (fun d => (stcOf s d).retaining) then refuse s stRange
  else
    let s1 := s.regions.foldl (fun s p => if p.2.valid then regionFines s p.1 p.2 else s) s
    let s2 := s.seqs.foldl (fun s p => if p.2.valid then (seqFines s p.1 p.2).getD s else s) s1
    let s3 := s.regions.foldl (fun s p => if p.2.valid then resumeRegion s p.1 p.2 else s) s2
    let hit (d : SeqDesc) : Bool :=
      (List.range 8).any (fun k => let die := (storeAt d.base).1; !bit (stcOf s die).retained k && meetsSeg die k d.base d.bytes)
    let s4 := s.seqs.foldl (fun s p => if p.2.valid && hit p.2 then putSeq s p.1 (applyEdit (seqOf s p.1) 3 0 []) else s) s3
    { st := [0, 1, 2, 3].foldl (fun s d => modStc s d (fun c => { c with retaining := false })) s4 }

/-- What the command tables say of STORE_RESUME. -/
def cmdStoreResume : MbxCmd := { opcode := 0x0304 }

/-- STORE_RESUME. -/
def execStoreResume (e : SubEntry) (s : State) : Out :=
  mailbox cmdStoreResume e storeResume s

/-! ## Road maps (R252–R254) -/

/-- A map slot. -/
def slotOf (s : State) (k : Nat) : MapSlot := tget s.pln.slots k {}
/-- REGION key of a map slot. -/
def slotKey (k : Nat) : Nat := 65536 + k
/-- Is a slot the active one? -/
def slotActive (s : State) (k : Nat) : Bool := s.pln.mapValid && s.pln.active = k
/-- Is a slot in use (R254)? -/
def slotInUse (s : State) (k : Nat) : Bool :=
  slotActive s k || (match s.pln.latched with | some (_, _, x) => x = k | none => false) || s.pln.unread.any (fun x => x.1 = k)

/-- A slot empties; its weight region goes. -/
def emptySlot (s : State) (k : Nat) : State :=
  let s := if (tget s.regions (slotKey k) {}).valid then closeRegion s (slotKey k) else s
  { s with pln := { s.pln with slots := tput s.pln.slots k {} } }

/-- Put a map image into a slot, as a weight region with its reserve: the new state, or the detail code and index of the check that
fails, with the slot empty (R252). Its first contents are written as the slot is allocated (log 30). -/
def loadMap (s : State) (k part base reserve : Nat) (img : List Byte) : State × Option (Nat × Nat) :=
  let s := emptySlot s k
  let r : Region := { valid := true, base := base, size := alignUp img.length 4096, log2Tile := 12, part := part, reserve := reserve, gen := 1,
                      mapSlot := some k }
  let onDie (a : Nat) : Bool := memLevel a = some 3 && (storeAt a).1 = (storeAt (a + r.size - 1)).1
  let placed := regionPlaced s r && onDie base && (reserve = 0 || onDie reserve) && !overlapsRegion s r (fun _ => true)
  match mapBad img (fmtVersionOk s 1) placed with
  | some x => (s, some x)
  | none =>
    match openRegion s (slotKey k) r with
    | none => (s, some (0x03, 0))
    | some s1 =>
      let bs := padTo r.size img
      let s2 := (List.range r.tiles).foldl (fun s i =>
        let b := slice bs (4096 * i) 4096
        let put (s : State) (a : Nat) : State := putTile s a 12 1 (tileCrc a 1 b) b
        let s := put s (base + 4096 * i)
        if reserve = 0 then s else put s (reserve + 4096 * i)) s1
      let m : MapSlot := { loaded := true, mapId := fld img 8 8, image := img }
      ({ s2 with pln := { s2.pln with slots := tput s2.pln.slots k m } }, none)

/-- MAP_LOAD. -/
def mapLoad (e : SubEntry) (s : State) : Answer :=
  let p := parOf e
  let k := fld p 0 1
  let img := bufAll s e
  if slotInUse s k then refuse s stInUse
  else if fmtVersionOk s 1 (fld img 4 2) && !oldFmtOk s 1 (fld img 4 2) then refuse s stRange
  else match loadMap s k (fld p 1 1) (fld p 2 6) (fld p 8 6) img with
    | (s1, none) => { st := s1 }
    | (s1, some (d, i)) =>
      { st := alm s1 0x4000 .mapFault 2 [k, d, i], status := stRange, result := natLe 1 d ++ natLe 3 0 ++ natLe 4 i }

/-- What the command tables say of MAP_LOAD. -/
def cmdMapLoad : MbxCmd := { opcode := 0x0305, used := [(0, 14)], buf := 1, ranged := fun p => fld p 0 1 < 2 && fld p 1 1 < 4 }

/-- MAP_LOAD. -/
def execMapLoad (e : SubEntry) (s : State) : Out :=
  mailbox cmdMapLoad e (mapLoad e) s

/-- The frame at whose Calend a change accepted now takes effect: the next, or after Eve the one after it (R47, R253). Between Ready and the
first Calend no frame has an Eve; a change accepted there counts as accepted after Eve, with effect at frame 2 (DESIGN CHOICE, log 45). -/
def effectFrame (s : State) : Nat := if s.now < s.cal.eve then s.cal.frame + 1 else s.cal.frame + 2

/-- A selection accepted for the Calend of frame `f` takes the place of an earlier one for the same Calend (R47, R253). -/
def setSelect (l : List (Nat × Nat)) (v f : Nat) : List (Nat × Nat) := l.filter (fun x => x.2 ≠ f) ++ [(v, f)]

/-- The selection that is due at the Calend of frame `n`: the one with the latest frame of effect among those due. -/
def dueSelect (l : List (Nat × Nat)) (n : Nat) : Option Nat := ((l.filter (fun x => x.2 ≤ n)).getLast?).map (·.1)

/-- The selections that the Calend of frame `n` leaves for later ones. -/
def laterSelects (l : List (Nat × Nat)) (n : Nat) : List (Nat × Nat) := l.filter (fun x => n < x.2)

/-- MAP_SELECT. -/
def mapSelect (e : SubEntry) (s : State) : Answer :=
  let k := parByte e 0
  if !(slotOf s k).loaded then refuse s stRange
  else { st := { s with pln := { s.pln with select := setSelect s.pln.select k (effectFrame s) } }, result := natLe 6 (effectFrame s) }

/-- What the command tables say of MAP_SELECT. -/
def cmdMapSelect : MbxCmd := { opcode := 0x0306, used := [(0, 1)], ranged := fun p => fld p 0 1 < 2 }

/-- MAP_SELECT. -/
def execMapSelect (e : SubEntry) (s : State) : Out :=
  mailbox cmdMapSelect e (mapSelect e) s

/-- State of a slot for MAP_STATUS: 0 empty, 1 loaded, 2 active, 3 in use. -/
def slotState (s : State) (k : Nat) : Nat :=
  if !(slotOf s k).loaded then 0 else if slotActive s k then 2 else if slotInUse s k then 3 else 1

/-- What the command tables say of MAP_STATUS. -/
def cmdMapStatus : MbxCmd := { opcode := 0x0307 }

/-- MAP_STATUS. -/
def execMapStatus (e : SubEntry) (s : State) : Out :=
  mailbox cmdMapStatus e (fun s =>
    { st := s, result := (List.range 2).flatMap (fun k => natLe 1 (slotState s k) ++ natLe 8 (slotOf s k).mapId) }) s

/-- A slot becomes the active one at Calend `n`, if a MAP_SELECT for it is due. -/
def switchMap (s : State) (n : Nat) : State :=
  match dueSelect s.pln.select n with
  | some k => { s with pln := { s.pln with select := laterSelects s.pln.select n, active := k, mapValid := true } }
  | none => s

/-- MAP_SWITCH: at the coming Calend (R253). -/
def execMapSwitch (s : State) : Out :=
  if (dueSelect s.pln.select (s.cal.frame + 1)).isSome then done s (switchMap (atCalend s) (s.cal.frame + 1)) else done s s

/-! ## Sequences (R144–R147, R162, R163) -/

/-- The descriptor that 128 bytes define: what the device keeps starts at 0. -/
def seqDesc (b : List Byte) : SeqDesc :=
  { valid := true, base := fld b 0 8, layerStride := fld b 8 4, maxLen := fld b 0xC 4, arenaGen := fld b 0x1C 2, window := fld b 0x1E 2,
    layers := fld b 0x20 1, hq := fld b 0x21 1, hkv := fld b 0x22 1, headDim32 := fld b 0x23 1, kvFmt := fld b 0x24 1,
    log2TilePos := fld b 0x25 1, ropeDim := fld b 0x26 2, ropeTheta := fld b 0x28 4, ropeMode := fld b 0x2C 1, part := fld b 0x2E 1,
    runs := (runWords (slice b 0x40 64)).take (fld b 0x2D 1), runRest := (runWords (slice b 0x40 64)).drop (fld b 0x2D 1) }

/-- The ranges of Table 7.1, and 0 in what is not set at definition (CUR_LEN, WRITTEN_LEN, GEN, STATE, ROUND_T, NEXT_LAYER, TREE_CRC and
the reserved fields; log 33). -/
def seqRanged (b : List Byte) : Bool :=
  let d := seqDesc b
  d.base < 2 ^ 48 && d.base % 65536 = 0 && d.layerStride % 65536 = 0 && 1 ≤ d.maxLen && d.maxLen ≤ 1048576 &&
  fld b 0x10 4 = 0 && fld b 0x14 4 = 0 && fld b 0x18 4 = 0 && d.window ≤ 8192 && 1 ≤ d.layers &&
  [1, 2, 4, 8, 16, 32, 64].contains d.hkv && 1 ≤ d.hq && d.hq ≤ 128 && d.hq % d.hkv = 0 && [1, 2, 4, 8].contains d.headDim32 &&
  [0x02, 0x03, 0x13].contains d.kvFmt && d.log2TilePos ≤ 16 && d.ropeDim ≤ d.dim && d.ropeDim % 2 = 0 &&
  Num.lt Num.one (ofFp32 d.ropeTheta) && d.ropeMode ≤ 1 && fld b 0x2D 1 ≤ 16 && d.part ≤ 3 && fld b 0x2F 1 = 0 && fld b 0x30 2 = 0 &&
  fld b 0x32 1 = 0 && fld b 0x33 1 = 0 && fld b 0x34 4 = 0 && fld b 0x38 8 = 0 && runsOk d.maxLen d.runs

/-- The footprint rule of R147. -/
def seqFits (d : SeqDesc) : Bool :=
  okTile (d.tp * d.ek) && (!d.scaled || okTile (d.tp * d.es)) && d.footprint ≤ d.layerStride

/-- Does the region lie in one store die and in the partition's allocation (R144)? -/
def seqPlaced (s : State) (d : SeqDesc) : Bool :=
  memLevel d.base = some 3 && (storeAt d.base).2 + d.bytes ≤ 0x200000000 && spaceFor s d.part d.base d.bytes

/-- SEQ_DEFINE. -/
def seqDefine (e : SubEntry) (s : State) : Answer :=
  let b := bufAll s e
  let d := seqDesc b
  if bufLenOf e ≠ 128 || !seqRanged b || !seqFits d || !seqPlaced s d then refuse s stRange
  else match (List.range 64).find? (fun i => !(seqOf s i).valid) with
    | none => refuse s stNoSlot
    | some id =>
      match seqFines s id d with
      | none => refuse s stRange
      | some s1 => { st := putSeq (claim s1 (keySeq id) d.part (unitsOf d.base d.bytes)) id d, result := natLe 1 id }

/-- What the command tables say of SEQ_DEFINE. -/
def cmdSeqDefine : MbxCmd := { opcode := 0x0400, buf := 1 }

/-- SEQ_DEFINE. -/
def execSeqDefine (e : SubEntry) (s : State) : Out :=
  mailbox cmdSeqDefine e (seqDefine e) s

/-- The value of an edit and its runs are in range (Table 7.6, R146). -/
def editOk (d : SeqDesc) (op v : Nat) (runs : List Nat) : Bool :=
  match op with
  | 0 => v ≤ d.curLen
  | 1 => v ≤ 8192
  | 2 => runsOk d.maxLen (runs.take v)
  | _ => true

/-- SEQ_EDIT (R162, R163). -/
def seqEdit (e : SubEntry) (op : Nat) (s : State) : Answer :=
  let p := parOf e
  let id := fld p 0 1
  let d := seqOf s id
  let v := if op = 2 then fld p 3 1 else fld p 4 4
  let runs := if op = 2 then runWords (bufAll s e) else []
  if !d.valid || !editOk d op v runs || (op = 2 && bufLenOf e ≠ 64) then refuse s stRange
  else if d.isOpen then
    if !bit (fld p 2 1) 0 || d.pendingEdit.isSome then refuse s stBusy
    else { st := putSeq s id { d with pendingEdit := some (op, v, runs) }, status := stDeferred }
  else
    let d1 := applyEdit d op v runs
    { st := putSeq s id d1, result := natLe 4 d1.gen }

/-- SEQ_EDIT's PARAM: SEQ_ID, DEFER, N_RUNS. -/
def editRanged (p : List Byte) : Bool := fld p 0 1 < 64 && fld p 2 1 < 2 && fld p 3 1 ≤ 16

/-- What the command tables say of SEQ_EDIT_TRUNCATE. -/
def cmdSeqEditTruncate : MbxCmd := { opcode := 0x0401, pick := some (1, 0), used := [(0, 8)], ranged := editRanged }

/-- SEQ_EDIT TRUNCATE. -/
def execSeqEditTruncate (e : SubEntry) (s : State) : Out :=
  mailbox cmdSeqEditTruncate e (seqEdit e 0) s
/-- What the command tables say of SEQ_EDIT_SET_WINDOW. -/
def cmdSeqEditSetWindow : MbxCmd := { opcode := 0x0401, pick := some (1, 1), used := [(0, 8)], ranged := editRanged }

/-- SEQ_EDIT SET_WINDOW. -/
def execSeqEditSetWindow (e : SubEntry) (s : State) : Out :=
  mailbox cmdSeqEditSetWindow e (seqEdit e 1) s
/-- What the command tables say of SEQ_EDIT_SET_GLOBALS. -/
def cmdSeqEditSetGlobals : MbxCmd := { opcode := 0x0401, pick := some (1, 2), used := [(0, 8)], buf := 1, ranged := editRanged }

/-- SEQ_EDIT SET_GLOBALS. -/
def execSeqEditSetGlobals (e : SubEntry) (s : State) : Out :=
  mailbox cmdSeqEditSetGlobals e (seqEdit e 2) s
/-- What the command tables say of SEQ_EDIT_RESET. -/
def cmdSeqEditReset : MbxCmd := { opcode := 0x0401, pick := some (1, 3), used := [(0, 8)], ranged := editRanged }

/-- SEQ_EDIT RESET. -/
def execSeqEditReset (e : SubEntry) (s : State) : Out :=
  mailbox cmdSeqEditReset e (seqEdit e 3) s

/-- SEQ_READ. -/
def seqRead (e : SubEntry) (s : State) : Answer :=
  let d := seqOf s (parByte e 0)
  if !d.valid then refuse s stNotFound else { st := bufOut s e d.image }

/-- What the command tables say of SEQ_READ. -/
def cmdSeqRead : MbxCmd := { opcode := 0x0402, used := [(0, 1)], buf := 2, ranged := fun p => fld p 0 1 < 64 }

/-- SEQ_READ. -/
def execSeqRead (e : SubEntry) (s : State) : Out :=
  mailbox cmdSeqRead e (seqRead e) s

/-- SEQ_DELETE (R144). -/
def seqDelete (e : SubEntry) (s : State) : Answer :=
  let id := parByte e 0
  let d := seqOf s id
  if !d.valid then refuse s stNotFound
  else if d.boundPlan.isSome then refuse s stInUse
  else { st := release (putSeq s id {}) (keySeq id) }

/-- What the command tables say of SEQ_DELETE. -/
def cmdSeqDelete : MbxCmd := { opcode := 0x0403, used := [(0, 1)], ranged := fun p => fld p 0 1 < 64 }

/-- SEQ_DELETE. -/
def execSeqDelete (e : SubEntry) (s : State) : Out :=
  mailbox cmdSeqDelete e (seqDelete e) s

/-! ## QUEUE_STATUS -/

/-- A mask of contexts. -/
def ctxMask (u : SeqUnit) (f : Ctx → Bool) : Nat := u.ctxs.foldl (fun m p => m + if f p.2 then 2 ^ p.1 else 0) 0

/-- SEQ_SWAP_STATUS. -/
def regSwapStatus (u : SeqUnit) : Nat := b2n u.swap.isSome * 2 ^ 31 + u.outCtx * 2 ^ 21 + u.inCtx * 2 ^ 16 + u.starve
/-- SEQ_TOKEN_ERR. -/
def regTokenErr (u : SeqUnit) : Nat := u.stale * 256 + u.overflow

/-- The 20 bytes of a cluster's SEQ registers. -/
def seqRegs (u : SeqUnit) : List Byte :=
  natLe 4 (ctxMask u (fun c => c.resident)) ++ natLe 4 (ctxMask u (ctxReady u)) ++ natLe 4 (ctxMask u (fun c => c.pinned)) ++
    natLe 4 (regSwapStatus u) ++ natLe 4 (regTokenErr u)

/-- A completion record (Table 5.5). -/
def completionRec (c : Completion) : List Byte :=
  natLe 6 c.frame ++ natLe 2 c.idx ++ natLe 1 c.ctx ++ natLe 1 c.status ++ natLe 1 c.arith ++ natLe 1 0 ++ natLe 4 c.unitStatus

/-- What the command tables say of QUEUE_STATUS. -/
def cmdQueueStatus : MbxCmd := { opcode := 0x0204, used := [(0, 2)], buf := 2, ranged := fun p => fld p 0 2 < 288 }

/-- QUEUE_STATUS: the SEQ registers of a cluster, then its last 64 completion records, oldest first. -/
def execQueueStatus (e : SubEntry) (s : State) : Out :=
  mailbox cmdQueueStatus e (fun s =>
    let u := unitOf s (rClu (fld (parOf e) 0 2))
    { st := bufOut s e (seqRegs u ++ u.records.flatMap completionRec) }) s

end Sys2Proof.Machine
end

