-- ==== Sys2Proof/Machine/Ingest.lean ====
section
/-!
DEFINITION. Device time (R217, R218) and sensor ingest (R219–R233): streams, samples, slots and the snapshot.
-/

namespace Sys2Proof.Machine

/-! ## Device time -/

/-- Keep a number within ±`m`. -/
def clampAbs (m : Nat) (x : Int) : Int := if x > m then m else if x < -(m : Int) then -(m : Int) else x

/-- Device time steps by `d` ns; the Calend's instants, which are spaced in elapsed time, move with it, and so do the marks of elapsed time (R27, R218). -/
def stepTime (s : State) (d : Int) : State :=
  let go (t : Nat) : Nat := ((t : Int) + d).toNat
  let old := s.now
  let c := s.cal
  let c : CalS := { c with calend := go c.calend, prevCalend := go c.prevCalend, next := go c.next, eve := go c.eve, prevEve := go c.prevEve }
  let s := { s with now := min (2 ^ 64 - 1) (go s.now), cal := c }
  let isl (x : Island) : Island := { x with lastWdog := go x.lastWdog, lastHb := go x.lastHb, failedAt := go x.failedAt, hbSince := x.hbSince.map go }
  let s := { s with stc := tmap s.stc (fun c => { c with chans := tmap c.chans (Chan.shift d) }) }
  let s := { s with boot0 := s.boot0 + d, islA := isl s.islA, islB := isl s.islB, pm := { s.pm with opMark := go s.pm.opMark } }
  alm s 0x7000 .timeStep 1 [old, s.now]

/-- A frequency correction within ±500 ppm: the servo's law is the hardware's, so its value is free. -/
def freePpm (s : State) : Int × State :=
  let (n, s) := draw s
  (((Config.freeValue n % 1001 : Nat) : Int) - 500, s)

/-- Device time is locked to gPTP time as of now. -/
def inSync (s : State) : State := { s with time := { s.time with lastSync := s.now, locked := true } }

/-- GPTP_SYNC: a Sync exchange gives device time minus gPTP time, in ns (R218). -/
def execGptpSync (offset : Int) (gm steps : Nat) (s : State) : Out :=
  if s.inReset then done s s
  else
    let s1 := { s with time := { s.time with gmPresent := true, holdover := false, slewBack := false, offset := offset,
                                             lastSync := s.now, gmId := gm, stepsRemoved := steps } }
    if !s.host.ready && !s.time.locked then done s (inSync (if offset = 0 then s1 else stepTime s1 (-offset)))
    else if offset > 1000000 then done s { s1 with time := { s1.time with ppm := -500, slewBack := true } }
    else if offset < -1000000 then done s (inSync (stepTime s1 (-offset)))
    else
      let (p, s2) := freePpm s1
      done s { s2 with time := { s2.time with ppm := p } }

/-- GPTP_HOLDOVER: no Sync for 3 s, or the grandmaster is lost: the local oscillator with the last correction (R218). -/
def execGptpHoldover (lost : Bool) (s : State) : Out :=
  if s.time.gmPresent && (lost || s.time.lastSync + 3000000000 ≤ s.now) then
    done s { s with time := { s.time with gmPresent := false, holdover := true, slewBack := false } }
  else done s s

/-- TIME_LO_READ: the read returns bits [31:0] and latches bits [63:32] (R217). -/
def execTimeLoRead (s : State) : Out :=
  done s { s with time := { s.time with hi := s.now / 2 ^ 32 }, host := { s.host with readData := natLe 4 s.now } }

/-! ## Geometry of a CSI-2 stream (R221, R227) -/

/-- Bits per pixel on the wire, and bytes per pixel as stored, of a data type (MIPI CSI-2; PRESUMED, log 21). -/
def dtBits (dt : Nat) : Nat × Nat :=
  match dt with
  | 0x2A => (8, 1)
  | 0x2B => (10, 2)
  | 0x2C => (12, 2)
  | 0x2D => (14, 2)
  | 0x2E => (16, 2)
  | 0x1E => (16, 2)
  | 0x24 => (24, 3)
  | _ => (8, 1)

/-- The accepted data types, embedded data among them (R221). -/
def acceptedDt (dt : Nat) : Bool := [0x12, 0x2A, 0x2B, 0x2C, 0x2D, 0x2E, 0x1E, 0x24].contains dt

/-- Data bytes of one stored row, without padding. -/
def Stream.rowBytes (t : Stream) : Nat := t.width * (dtBits t.dt).2
/-- Row pitch: rows padded to a multiple of 64 B. -/
def Stream.pitch (t : Stream) : Nat := alignUp t.rowBytes 64
/-- Bytes of one line on the wire. -/
def Stream.wireBytes (t : Stream) : Nat := cdiv (t.width * (dtBits t.dt).1) 8
/-- The largest sample of a stream, in bytes as stored (R227). -/
def Stream.largest (t : Stream) : Nat :=
  if t.kind = 0 then (t.embLines + t.height) * t.pitch else t.stride - 65536

/-- Unpack groups of `g` bytes holding `n` pixels of `8 + x` bits: the high bytes first, then the low bits, little-endian. -/
def unpackGroup (n x : Nat) (g : List Byte) : List Byte :=
  let low := leNat (g.drop n)
  (List.range n).flatMap (fun i => natLe 2 ((g.getD i 0).toNat * 2 ^ x + (low >>> (i * x)) % 2 ^ x))

/-- Split a list into groups of `g`. -/
def groupsOf (g : Nat) : Nat → List Byte → List (List Byte)
  | 0, _ => []
  | fuel + 1, bs => if bs.isEmpty || g = 0 then [] else bs.take g :: groupsOf g fuel (bs.drop g)

/-- A line's payload as the hub stores it (R221). -/
def storeLine (dt : Nat) (bs : List Byte) : List Byte :=
  match dt with
  | 0x2B => (groupsOf 5 bs.length bs).flatMap (unpackGroup 4 2)
  | 0x2C => (groupsOf 3 bs.length bs).flatMap (unpackGroup 2 4)
  | 0x2D => (groupsOf 7 bs.length bs).flatMap (unpackGroup 4 6)
  | _ => bs

/-! ## Samples -/

/-- Change a stream. -/
def modStream (s : State) (k : Nat) (f : Stream → Stream) : State := { s with streams := tmod s.streams k {} f }
/-- A stream. -/
def streamOf (s : State) (k : Nat) : Stream := tget s.streams k {}
/-- The generation of the sample with this SEQ (R228). -/
def sampleGen (seq : Nat) : Nat := (seq - 1) % 65535 + 1

/-- Bytes of a sample that are ready to move, in address order: all of a closed one, the rows without a gap of an open one. -/
def readyBytes (t : Stream) (x : Sample) (closed : Bool) : Nat :=
  if closed || t.kind = 1 then x.data.length
  else if x.emb ≥ t.embLines then (t.embLines + x.rows) * t.pitch else x.emb * t.pitch

/-- Bytes in the staging ring. -/
def staged (t : Stream) : Nat :=
  (t.closing.foldl (fun n x => n + (x.data.length - x.moved)) 0) +
    (match t.cur with | some x => x.data.length - x.moved | none => 0)

/-- The open sample is damaged (R225): counted, recorded, its slot free again. `cause` 1 header ECC, 2 CRC, 3 lines or line length,
4 Frame Start, 5 Ethernet check, 6 overflow. (A sample dropped while the store dies retain has `fail` 7.) -/
def damage (s : State) (k cause : Nat) : State :=
  match (streamOf s k).cur with
  | none => s
  | some x =>
    if x.fail ≠ 0 then s
    else
      let s := modStream s k (fun t => { t with cur := some { x with fail := cause, data := [], moved := 0, placed := false },
                                                damaged := sat 255 (t.damaged + 1), damagedSince := true, seq := max t.seq x.seq,
                                                overflow := if cause = 6 then sat 255 (t.overflow + 1) else t.overflow })
      alm s (0x6000 + k) .sampleDamaged 2 [k, cause]

/-- The store die of a stream's ring. -/
def Stream.die (t : Stream) : Nat := (storeAt t.ringBase).1

/-- Open a sample at the present instant, or drop it while the store dies retain (R223, R226, R228). -/
def openSample (s : State) (k : Nat) : State :=
  let t := streamOf s k
  if (stcOf s t.die).retaining then
    modStream s k (fun t => { t with dropRetain := sat 255 (t.dropRetain + 1), cur := some { fail := 7, lastAt := s.now } })
  else
    let n := t.opened + 1
    let trigT := if t.trig < 12 then (tget s.trig t.trig {}).pulseStart else 0
    modStream s k (fun t => { t with opened := n, cur := some { seq := n, gen := sampleGen n, start := s.now, trigTime := trigT, lastAt := s.now } })

/-- The sensor timestamp of a sample, in ns (Table 10.1). -/
def sensorTs (t : Stream) (x : Sample) : Nat :=
  let o := if t.tsSrc = 1 then t.tsOfs else if t.kind = 0 then t.embLines * t.pitch + t.tsOfs else 4 + t.tsOfs
  if t.tsSrc = 0 then 0 else (fld x.data o 8 * (if t.tsUnit = 1 then 1000 else 1)) % 2 ^ 64

/-- The instant of a sample (R224). -/
def sampleInstant (t : Stream) (x : Sample) : Nat :=
  if t.tsSrc ≠ 0 then sensorTs t x
  else if t.trig < 12 && x.trigTime ≠ 0 then x.trigTime
  else x.start

/-- Close the open sample with its LAST stamp; a damaged one ends here. -/
def closeSample (s : State) (k last : Nat) : State :=
  modStream s k (fun t =>
    match t.cur with
    | none => t
    | some x => if x.fail ≠ 0 then { t with cur := none }
                else { t with cur := none, closing := t.closing ++ [{ x with last := last, sensorTs := sensorTs t x, instant := sampleInstant t x }] })

/-- Put bytes of the open sample at an offset of its data; the staging ring may overflow (R226). -/
def stage (s : State) (k ofs : Nat) (bs : List Byte) (f : Sample → Sample) : State :=
  let t := streamOf s k
  match t.cur with
  | none => s
  | some x =>
    if x.fail ≠ 0 then s
    else
      let x := f { x with data := splice x.data ofs bs }
      let t' := { t with cur := some x }
      if staged t' > t.stage64k * 65536 || x.data.length > t.largest then damage s k 6
      else { s with streams := tput s.streams k t' }

/-- The streams that a CSI-2 port and virtual channel feed. -/
def csiStreams (s : State) (port vc : Nat) : List Nat :=
  (s.streams.filter (fun p => p.2.defd && p.2.kind = 0 && p.2.port = port && p.2.vc = vc)).map (·.1)

/-- Change the measurements of a link (Table 18.4): CSI-2 ports are 0–11, MACs 16–19, PCIe 32. -/
def modLink (s : State) (k : Nat) (f : LinkS → LinkS) : State := { s with links := tmod s.links k {} f }

/-- A CSI-2 port has carried a packet: high-speed seen, and an error counted where its header or payload is bad (Table 18.4; DEDUCED, log 21). -/
def csiSeen (s : State) (port : Nat) (bad : Bool) : State :=
  if s.host.bootStage < 3 || 12 ≤ port then s else modLink s port (fun l => { l with up := true, errors := sat 0xFFFFFFFF (l.errors + b2n bad) })

/-- Frame Start on one stream: an open sample is damaged, and a new one opens. -/
def startSample (s : State) (k : Nat) : State := openSample (modStream (damage s k 4) k (fun t => { t with cur := none })) k

/-- CSI2_FRAME_START: a new sample opens; one whose Frame End never came is damaged (R223, R225). Nothing is received before
Ready (R217). -/
def execCsi2FrameStart (port vc _frameNo : Nat) (s : State) : Out :=
  let s1 := csiSeen s port false
  if !s.host.ready then done s s1 else done s ((csiStreams s1 port vc).foldl startSample s1)

/-- Does a stream take embedded data (0x12) as lines of its own: up to EMB_LINES of them, or as its data type; a line too many is one that differs,
unless another stream of the channel takes it (R220, R225)? -/
def embLine (s : State) (t : Stream) (x : Sample) (p : CsiPacket) : Bool :=
  p.dt = 0x12 && (if t.dt = 0x12 then x.emb < t.embLines
    else t.embLines ≠ 0 || !(csiStreams s t.port t.vc).any (fun j => (streamOf s j).dt = 0x12))

/-- One line of a stream: embedded lines first, then the pixel rows, each padded to the pitch. An embedded line has the length of the others
(DEDUCED, log 21). -/
def takeLine (s : State) (k : Nat) (p : CsiPacket) : State :=
  let t := streamOf s k
  match t.cur with
  | none => s
  | some x =>
    if x.fail ≠ 0 then s
    else if p.badHeader then damage s k 1
    else if embLine s t x p then
      if p.badCrc then damage s k 2
      else if x.emb ≥ t.embLines || p.payload.length ≠ t.wireBytes then damage s k 3
      else stage s k (x.emb * t.pitch) (padTo t.pitch p.payload) (fun x => { x with emb := x.emb + 1, bytes := x.bytes + p.payload.length })
    else if p.dt ≠ t.dt then s
    else if p.badCrc then damage s k 2
    else if x.rows ≥ t.height || p.payload.length ≠ t.wireBytes then damage s k 3
    else stage s k ((t.embLines + x.rows) * t.pitch) (padTo t.pitch ((storeLine t.dt p.payload).take t.rowBytes))
           (fun x => { x with rows := x.rows + 1, bytes := x.bytes + t.rowBytes })

/-- CSI2_PACKET: a long packet (R221, R225). -/
def execCsi2Packet (port : Nat) (p : CsiPacket) (s : State) : Out :=
  done s ((csiStreams s port p.vc).foldl (fun s k => takeLine s k p) (csiSeen s port (p.badHeader || p.badCrc)))

/-- Frame End on one stream: the line counts are checked and the open sample closes. -/
def endSample (s : State) (k : Nat) : State :=
  let t := streamOf s k
  match t.cur with
  | none => s
  | some x =>
    let s := if x.rows ≠ t.height || x.emb ≠ t.embLines then damage s k 3 else s
    closeSample s k s.now

/-- CSI2_FRAME_END: the sample closes, LAST stamped (R223, R225). -/
def execCsi2FrameEnd (port vc _frameNo : Nat) (s : State) : Out :=
  done s ((csiStreams s port vc).foldl endSample s)

/-! ## Ethernet (R222) -/

/-- One's complement sum of 16-bit big-endian words, folded. -/
def onesSum : Nat → List Byte → Nat → Nat
  | 0, _, a => a
  | fuel + 1, bs, a =>
    match bs with
    | [] => a
    | [h] => (a + h.toNat * 256) % 65535
    | h :: l :: r => onesSum fuel r ((a + h.toNat * 256 + l.toNat) % 65535)

/-- Does a one's complement checksum over these bytes, the checksum field included, come out right? -/
def onesOk (bs : List Byte) : Bool := onesSum bs.length bs 0 = 0

/-- An IPv4 UDP datagram (RFC 791, RFC 768; PRESUMED, log 21): destination port, payload, and whether its checksums hold. -/
structure Datagram where
  dport : Nat
  payload : List Byte
  ok : Bool
deriving DecidableEq, Repr

/-- EtherType and what follows it, past at most one 802.1Q tag. -/
def etherPayload (bs : List Byte) : Nat × List Byte :=
  let et := beNat (slice bs 12 2)
  if et = 0x8100 then (beNat (slice bs 16 2), bs.drop 18) else (et, bs.drop 14)

/-- Parse a frame of up to 9,216 B as an IPv4 UDP datagram; anything else is none. -/
def parseUdp (bs : List Byte) : Option Datagram :=
  let (et, ip) := etherPayload bs
  let b0 := (ip.getD 0 0).toNat
  let hl := (b0 % 16) * 4
  let total := beNat (slice ip 2 2)
  let udp := (ip.take total).drop hl
  let ulen := beNat (slice udp 4 2)
  if bs.length > 9216 || et ≠ 0x0800 || b0 / 16 ≠ 4 || hl < 20 || total < hl + 8 || ip.length < total || (ip.getD 9 0).toNat ≠ 17
      || beNat (slice ip 6 2) % 0x4000 ≠ 0 || ulen < 8 || udp.length < ulen then none
  else
    let dg := udp.take ulen
    let pseudo := slice ip 12 8 ++ [0, 17] ++ natBe 2 ulen
    some { dport := beNat (slice dg 2 2), payload := dg.drop 8,
           ok := onesOk (ip.take hl) && (beNat (slice dg 6 2) = 0 || onesOk (pseudo ++ dg)) }

/-- A datagram of a stream: it starts a sample if none is open, and may end it (R222). -/
def takeDatagram (s : State) (k : Nat) (d : Datagram) (fcsOk : Bool) : State :=
  let s := if (streamOf s k).cur.isNone then openSample s k else s
  let t := streamOf s k
  match t.cur with
  | none => s
  | some x =>
    let s := if !fcsOk || !d.ok then damage s k 5
      else stage s k x.data.length (natLe 4 d.payload.length ++ d.payload)
             (fun x => { x with bytes := x.bytes + 4 + d.payload.length })
    let s := modStream s k (fun t => { t with cur := t.cur.map (fun x => { x with lastAt := s.now }) })
    if !t.gapMode && (d.payload.getD t.endOfs 0).toNat &&& t.endMask ≠ 0 && t.endOfs < d.payload.length then closeSample s k s.now else s

/-- ETHERNET_FRAME: to the stream its UDP port names; frames of EtherType 0x88F7 go to the time unit, whose result is GPTP_SYNC;
all others are discarded (R222). -/
def execEthernetFrame (port : Nat) (f : EthFrame) (s : State) : Out :=
  let s1 := if f.fcsOk || s.host.bootStage < 3 || 4 ≤ port then s
    else modLink s (16 + port) (fun l => { l with errors := sat 0xFFFFFFFF (l.errors + 1) })
  if !s.host.ready then done s s1
  else match parseUdp f.bytes with
    | none => done s s1
    | some d => done s ((s.streams.filter (fun p => p.2.defd && p.2.kind = 1 && p.2.udp = d.dport)).foldl
        (fun s p => takeDatagram s p.1 d f.fcsOk) s1)

/-- GAP_EXPIRY: GAP_US of silence ends the sample, LAST at its expiry (R222, R223). -/
def execGapExpiry (k : Nat) (s : State) : Out :=
  let t := streamOf s k
  match t.cur with
  | none => done s s
  | some x =>
    let e := x.lastAt + t.gapUs * 1000
    if t.kind = 1 && t.gapMode && e ≤ s.now then done s (closeSample s k e) else done s s

/-! ## Slots (R226–R229) -/

/-- The slots of closed samples that wait for their header: until they complete they are being written. -/
def slotsInWork (t : Stream) : List Nat := (t.closing.filter (fun x => x.placed)).map (·.slot)

/-- The lowest slot that is neither in the current frame's input set nor the latest complete sample's (R228), nor being written. Slot 0 stands in for
both until a sample completes (R229). None where every slot is taken: the sample then waits in the staging ring. -/
def freeSampleSlot (t : Stream) : Option Nat :=
  let a := match t.snap with | some x => x.slot | none => 0
  let b := match t.latest with | some x => x.slot | none => 0
  (List.range t.slots).find? (fun i => i ≠ a && i ≠ b && !(slotsInWork t).contains i)

/-- The sample with its slot, chosen at its first tile. -/
def placeSample (t : Stream) (x : Sample) : Option Sample :=
  if x.placed then some x else (freeSampleSlot t).map (fun k => { x with placed := true, slot := k })

/-- Address of a slot. -/
def slotAddr (t : Stream) (k : Nat) : Nat := t.ringBase + k * t.stride

/-- Write an ingest tile, if its units belong to INGEST (R169). -/
def putIngest (s : State) (k a lg gen : Nat) (bs : List Byte) : State :=
  if !mapped a (2 ^ lg) || !mayWrite s 4 a (2 ^ lg) then alm s (0x6000 + k) .unmapped 3 [a, 4, tagOf s a]
  else putTile s a lg gen (tileCrc a gen bs) bs

/-- Move the next filled tile of a sample, if the store controller takes it. The slot is chosen at the first tile. -/
def moveTile (s : State) (k : Nat) (x : Sample) (closed : Bool) : Option (State × Sample) :=
  let t := streamOf s k
  let n := 2 ^ t.tileLog2
  let have' := readyBytes t x closed
  if x.fail ≠ 0 || x.moved ≥ have' || (!closed && x.moved + n > have') then none
  else if (stcOf s t.die).level + n > 131072 then none
  else match placeSample t x with
    | none => none
    | some x =>
      let s := ingestIn s t.die n
      let s := putIngest s k (slotAddr t x.slot + 65536 + x.moved) t.tileLog2 x.gen (slice x.data x.moved n)
      some (s, { x with moved := x.moved + n })

/-- INGEST_TILE_MOVE: the oldest sample's next tile moves to the store die (R226), unless a holiday segment holds the way (R338) or the dies
retain. -/
def execIngestTileMove (k : Nat) (s : State) : Out :=
  let t := streamOf s k
  if (stcOf s t.die).retaining || segmentHolds s 580 t.die then done s s
  else match t.closing.find? (fun x => x.moved < x.data.length) with
    | some x =>
      match moveTile s k x true with
      | some (s1, y) => done s (modStream s1 k (fun t => { t with closing := t.closing.map (fun z => if z.seq = x.seq then y else z) }))
      | none => done s s
    | none =>
      if !t.closing.isEmpty then done s s
      else match t.cur with
        | none => done s s
        | some x =>
          match moveTile s k x false with
          | some (s1, y) => done s (modStream s1 k (fun t => { t with cur := some y }))
          | none => done s s

/-- The header tile of a sample (Table 10.2). -/
def sampleHeader (t : Stream) (k : Nat) (x : Sample) (absent : Bool) : List Byte :=
  padTo 256 (natLe 4 x.seq ++ natLe 1 k ++ natLe 1 (b2n absent + 2 * b2n (t.tsSrc ≠ 0 && !absent)) ++ natLe 2 x.gen ++ natLe 8 x.start ++ natLe 8 x.last ++
    natLe 8 x.complete ++ natLe 8 x.sensorTs ++ natLe 8 x.instant ++ natLe 4 x.bytes ++
    natLe 2 (if t.kind = 0 then t.pitch else 0))

/-- SAMPLE_COMPLETE: the oldest closed sample, all its tiles moved, gets its header and its COMPLETE stamp and is the latest
(R223). -/
def execSampleComplete (k : Nat) (s : State) : Out :=
  let t := streamOf s k
  match t.closing with
  | [] => done s s
  | x :: rest =>
    if x.moved < x.data.length || (stcOf s t.die).retaining || segmentHolds s 580 t.die || (stcOf s t.die).level + 256 > 131072 then done s s
    else match placeSample t x with
      | none => done s s
      | some x =>
        let x := { x with complete := s.now }
        let s1 := ingestIn s t.die 256
        let s1 := putIngest s1 k (slotAddr t x.slot) 8 x.gen (sampleHeader t k x false)
        done s (modStream s1 k (fun t => { t with closing := rest, prev := t.latest, latest := some x, seq := max t.seq x.seq }))

/-- At Ready, slot 0 of a stream is written as a placeholder: ABSENT, zero data, generation 0 (R229). -/
def placeholder (s : State) (k : Nat) : State :=
  let t := streamOf s k
  let a := slotAddr t 0
  let s := putIngest s k a 8 0 (sampleHeader t k {} true)
  let n := 2 ^ t.tileLog2
  (List.range (cdiv t.largest n)).foldl (fun s i => putIngest s k (a + 65536 + i * n) t.tileLog2 0 (List.replicate n 0)) s

/-! ## The snapshot (R31, R230–R233) -/

/-- The sample a stream gives a frame whose Calend falls at `t₀`: the latest whose completion is strictly earlier (R31). -/
def snapSample (t : Stream) (t0 : Nat) : Option Sample :=
  match t.latest with
  | none => none
  | some x => if x.complete < t0 then some x else t.prev

/-- Is an entry LATE: a new sample whose INSTANT lies before the previous Calend (R233)? -/
def snapLate (t : Stream) (x : Sample) (prevCal : Nat) : Bool := t.prevSnapSeq ≠ x.seq && x.instant < prevCal

/-- The snapshot entry of stream `k` (Table 10.4). -/
def snapEntry (k : Nat) (t : Stream) (t0 prevCal : Nat) : List Byte :=
  if !t.defd then List.replicate 32 0
  else match t.snap with
    | none => natLe 1 k ++ natLe 1 (1 + 8 * b2n t.damagedSince) ++ natLe 6 0 ++ natLe 8 (2 ^ 64 - 1) ++ natLe 16 0
    | some x =>
      natLe 1 k ++ natLe 1 (2 * b2n (t.prevSnapSeq = x.seq) + 4 * b2n (snapLate t x prevCal) + 8 * b2n t.damagedSince) ++
      natLe 1 x.slot ++ natLe 1 0 ++ natLe 2 x.gen ++ natLe 2 0 ++ natLe 8 (t0 - x.complete) ++ natLe 8 x.instant ++ natLe 4 x.seq ++
      natLe 4 x.bytes

/-- The snapshot table tile of a frame (Table 10.3). -/
def snapTable (s : State) (frame t0 prevCal : Nat) : List Byte :=
  padTo 2048 (padTo 64 (natLe 6 frame ++ natLe 1 (s.streams.filter (fun p => p.2.defd)).length ++ natLe 1 0 ++ natLe 8 t0) ++
    (List.range 32).flatMap (fun k => snapEntry k (streamOf s k) t0 prevCal))

/-- Take the snapshot of frame `frame` at Calend `t0`: the input set, the LATE counts and the table tile. -/
def takeSnapshot (s : State) (frame t0 prevCal : Nat) : State :=
  let s := { s with streams := tmap s.streams (fun t => if t.defd then { t with snap := snapSample t t0 } else t) }
  let a := s.season.cfg.tableBase + frame % 4 * 2048
  let g := frame % 65536
  let tab := snapTable s frame t0 prevCal
  let s := putTile s a 11 g (tileCrc a g tab) tab
  { s with streams := tmap s.streams (fun t =>
           if !t.defd then t
           else match t.snap with
             | none => { t with damagedSince := false }
             | some x => { t with late := if snapLate t x prevCal then sat 255 (t.late + 1) else t.late, prevSnapSeq := x.seq,
                                  damagedSince := false }) }

/-- The snapshot tokens of one plan for a frame: one READY token for each binding to a stream or the table, to every unit of the
task (R231). -/
def snapFlights (s : State) (p : Plan) (frame : Nat) : List Flight :=
  ((bindsOf p.image).filter (fun b => b.kind = 1 || b.kind = 2)).flatMap (fun b =>
    let t := taskAt p.image b.task
    let (k, g) : Nat × Nat := if b.kind = 2 then (frame % 4, frame % 65536)
      else match (streamOf s b.source).snap with
        | some x => (x.slot, x.gen)
        | none => (0, 0)
    (taskUnits p.image p.variant t).map (fun u =>
      { src := 0x04000000, dst := physOf s u, planId := p.planId, sentAt := s.now,
        tok := some { frame := frame, tileId := b.tileId % 2 ^ 28 + k * 2 ^ 28, gen := g, slot := b.inSlot, ctx := t.ctx, snap := true } }))

end Sys2Proof.Machine
end

