-- ==== Sys2Proof/Machine/SeasonImage.lean ====
section
/-!
DEFINITION. Season images (R399, Tables 18.5, 18.7, 20.5): their sections, the checks of SEASON_STORE, and the factory Seasons. The layout of a
section body is opaque (log 34), but for POWER, whose fields Table 20.5 gives.
-/

namespace Sys2Proof.Machine

/-! ## Sections -/

/-- The sections of a body: TYPE and contents, or none where one runs past the end. -/
def sectionsFrom : Nat → List Byte → Option (List (Nat × List Byte))
  | 0, _ => some []
  | n + 1, b =>
    let len := fld b 4 4
    if b.length < 8 || b.length < 8 + len then none
    else (sectionsFrom n (b.drop (8 + len))).map (fun r => (fld b 0 2, (b.drop 8).take len) :: r)

/-- The sections of an image. -/
def sectionsOf (img : List Byte) : List (Nat × List Byte) := (sectionsFrom (fld img 9 1) (img.drop 256)).getD []

/-- A record of a section: numbers, then bytes. -/
abbrev Rec := List Int × List Byte

/-- The records of the sections of one TYPE. -/
def seasonRecs (img : List Byte) (ty : Nat) : List Rec :=
  (sectionsOf img).flatMap (fun p => if p.1 = ty then Config.seasonRecords ty p.2 else [])

/-- The first record of a section. -/
def seasonRec (img : List Byte) (ty : Nat) : Rec := (seasonRecs img ty).headD ([], [])

/-- Number `i` of a record; a missing one is out of every range. -/
def Rec.int (r : Rec) (i : Nat) : Int := r.1.getD i (-(2 ^ 64))
/-- Number `i` of a record, as a natural. -/
def Rec.nat (r : Rec) (i : Nat) : Nat := (Rec.int r i).toNat
/-- Does number `i` lie in a range? -/
def Rec.within (r : Rec) (i : Nat) (lo hi : Int) : Bool := lo ≤ Rec.int r i && Rec.int r i ≤ hi
/-- Does number `i`, the bits of an FP32 number, lie between two others? -/
def Rec.fpIn (r : Rec) (i lo hi : Nat) : Bool :=
  Rec.within r i 0 0xFFFFFFFF && Num.le (ofFp32 lo) (ofFp32 (Rec.nat r i)) && Num.le (ofFp32 (Rec.nat r i)) (ofFp32 hi)

/-! ## Decoding -/

/-- Spares per Quarter of Table 1.5. -/
def minSpares (quarters : Nat) : Nat := match quarters with | 1 => 4 | 2 => 6 | _ => 8

/-- The Quarters a mask activates. -/
def maskCount (m : Nat) : Nat := ((List.range 4).filter (bit m)).length

/-- A stream record: number, then the fields of Table 10.1 in its order. -/
def streamRec (r : Rec) : Nat × Stream :=
  let f := Rec.nat r
  (f 0, { defd := true, kind := f 1, port := f 2, vc := f 3, dt := f 4, udp := f 5, width := f 6, height := f 7, embLines := f 8,
          gapMode := f 9 = 1, endOfs := f 10, endMask := f 11, gapUs := f 12, stage64k := f 13, ringBase := f 14, slots := f 15, stride := f 16,
          tileLog2 := f 17, tsSrc := f 18, tsOfs := f 19, tsUnit := f 20, trig := f 21, maxRate := f 22 })

/-- The fusion parameters: the sensor records, then the parameter record in the order of Table 10.11, the counts of Table 10.10 and the
default covariance. -/
def fusParams (rs : List Rec) : Fus :=
  let p := rs.headD ([], [])
  let f := Rec.nat p
  let sensors : Tbl (Nat × Bool × List Nat) := (rs.drop 1).foldl (fun t r => tput t (Rec.nat r 0) (Rec.nat r 1, Rec.nat r 2 = 1, (r.1.drop 3).map Int.toNat)) []
  { sensors := sensors, gatePos := f 0, gatePosVel := f 1, qJerk := (List.range 16).map (fun k => (k, f (2 + k))), initVarV := f 18, initVarA := f 19,
    missLimit := f 20, traceLimit := f 21, contestClear := f 22, freeMargin := f 23, freeMaxDtMs := f 24, egoMinInliers := f 25, egoInflate := f 26,
    birthM := f 27, birthN := f 28, confM2 := f 29, confM1 := f 30, confN := f 31, egoCov := (List.range 21).map (fun k => f (33 + k)) }

/-- A preload item that is a weight region: [0, REGION_ID, partition, log2 tile, BASE, RESERVE, SIZE]. -/
def preRegion (r : Rec) : Nat × Region × List Byte :=
  let f := Rec.nat r
  (f 1, { valid := true, part := f 2, log2Tile := f 3, base := f 4, reserve := f 5, size := f 6, gen := 1 }, r.2)

/-- A preload item that is a map: [1, slot, partition, BASE, RESERVE]. -/
def preMap (r : Rec) : Nat × Nat × Nat × Nat × List Byte :=
  let f := Rec.nat r
  (f 1, f 2, f 3, f 4, r.2)

/-- The Season an image describes. -/
def seasonCfgOf (img : List Byte) : SeasonCfg :=
  let fr := seasonRec img 1
  let co := seasonRec img 2
  let me := seasonRec img 3
  let re := seasonRec img 4
  let ing := seasonRecs img 5
  let fu := seasonRecs img 6
  let po := ((sectionsOf img).find? (fun p => p.1 = 7)).map (·.2) |>.getD []
  let pre := seasonRecs img 9
  let streams : List (Nat × Stream) := (ing.drop 1).map streamRec
  let plans : List (List Byte) := (seasonRecs img 8).map (·.2)
  let regions : List (Nat × Region × List Byte) := (pre.filter (fun r => Rec.nat r 0 = 0)).map preRegion
  let maps : List (Nat × Nat × Nat × Nat × List Byte) := (pre.filter (fun r => Rec.nat r 0 = 1)).map preMap
  { num := fld img 8 1, period := Rec.nat fr 0, phaseUs := Rec.nat fr 1, guardUs := Rec.nat fr 2, holidayUs := Rec.nat fr 3, floorStep := Rec.nat fr 4,
    trig := (List.range 12).map (fun k => Rec.nat fr (5 + k)), quarters := Rec.nat co 0, spares := Rec.nat co 1, permitted := Rec.nat co 2,
    xor := (List.range 10).map (Rec.nat me), log2InvP := Rec.nat me 10, panicOn := Rec.nat me 11, panicOff := Rec.nat me 12,
    dlyTrim := (List.range 4).map (fun k => Rec.int me (13 + k)), otBase := Rec.nat re 0, otMin := Rec.nat re 1,
    tb := (List.range 3).map (fun k => Rec.nat re (2 + k)), slow := Rec.nat re 5, amber := Rec.nat re 6, red := Rec.nat re 7,
    timePort := Rec.nat (ing.headD ([], [])) 0, tableBase := Rec.nat (ing.headD ([], [])) 1, streams := streams, fus := fusParams fu,
    stampMargin := Rec.nat (fu.headD ([], [])) 32, capW := fld po 0 2, warmHold := fld po 2 1 = 1, warmMaxW := fld po 3 1, tjTarget := fld po 4 1,
    tsTarget := fld po 5 1, coolantDef := sext 8 (fld po 6 1), flowMon := fld po 7 1 = 1, flowTimeout := fld po 8 2, rthJNom := fld po 10 2,
    rthSNom := fld po 12 2, plans := plans, preload := regions, preMaps := maps, bodyDigest := slice img 16 48 }

/-- A factory Season (Table 18.7): its values where they differ from the register resets and the factory values of Table 20.5. -/
def factorySeason (n : Nat) : SeasonCfg :=
  let trig := List.replicate 12 0x06400000
  let f := Config.factoryDigest n
  match n with
  | 0 => { num := 0, period := 400, floorStep := 4, trig := trig, quarters := 1, spares := 4, capW := 40, warmHold := false, bodyDigest := f }
  | 1 => { num := 1, period := 250, floorStep := 2, trig := trig, quarters := 3, spares := 6, capW := 220, warmHold := true, bodyDigest := f }
  | 2 => { num := 2, period := 250, floorStep := 1, trig := trig, quarters := 15, spares := 8, capW := 300, warmHold := true, bodyDigest := f }
  | _ => { num := 3, period := 250, floorStep := 4, trig := trig, quarters := 15, spares := 8, capW := 400, warmHold := false, permitted := 0xE,
           bodyDigest := f }

/-! ## The checks of Table 18.5 -/

/-- Detail 0x01. -/
def seasonHeaderOk (s : State) (slot : Nat) (img : List Byte) : Bool :=
  let secs := sectionsFrom (fld img 9 1) (img.drop 256)
  256 ≤ img.length && img.length ≤ 52 * 2 ^ 20 && fld img 0 4 = 0x534E5341 && fmtVersionOk s 2 (fld img 4 2) && fld img 6 2 = 256 &&
  fld img 8 1 = slot && fld img 12 4 + 256 = img.length && sha384 (img.drop 256) = slice img 16 48 && secs.isSome &&
  [1, 2, 3, 4, 5, 6, 7].all (fun t => ((secs.getD []).filter (fun p => p.1 = t)).length = 1)

/-- Detail 0x02, FRAME (R55). -/
def frameOk (c : SeasonCfg) (r : Rec) : Bool :=
  let p := c.period * 100
  Rec.within r 0 100 1000 && Rec.within r 1 0 (p - 1) && Rec.within r 2 200 2000 && Rec.within r 3 300 4000 && Rec.within r 4 0 4 &&
  (List.range 12).all (fun k => Rec.within r (5 + k) 0 0xFFFFFFFF && bits (Rec.nat r (5 + k)) 19 0 < p && 1 ≤ bits (Rec.nat r (5 + k)) 29 20 &&
    bits (Rec.nat r (5 + k)) 29 20 ≤ 1000) && c.guardUs + c.holidayUs + p / 50 + 1000 ≤ p

/-- Detail 0x03, COMPUTE (R16). -/
def computeOk (c : SeasonCfg) (r : Rec) : Bool :=
  Rec.within r 0 0 15 && [1, 2, 4].contains (maskCount c.quarters) && Rec.within r 1 (minSpares (maskCount c.quarters)) 16 && Rec.within r 2 0 15

/-- The conditions of R196 on the mask of address bit `own`. -/
def maskOk (own m : Nat) : Bool := m < 2 ^ 33 && bit m own && bits m 16 7 = 2 ^ (own - 7) && m % 128 = 0

/-- Detail 0x04, MEMORY (R196, R207, R209). -/
def memoryOk (r : Rec) : Bool :=
  (List.range 10).all (fun k => Rec.within r k 0 (2 ^ 33 - 1) && maskOk (7 + k) (Rec.nat r k)) && Rec.within r 10 4 10 && Rec.within r 11 1 15 &&
  Rec.within r 12 0 (Rec.int r 11 - 1) && (List.range 4).all (fun k => Rec.within r (13 + k) (-8) 7)

/-- Detail 0x05, REGULATION (R280, R288, and the ranges of RGL_OT_BASE and RGL_OT_MIN). -/
def regulationOk (c : SeasonCfg) (r : Rec) : Bool :=
  let b (k : Nat) : Nat := bits c.otBase (8 * k + 7) (8 * k)
  Rec.within r 0 0 0xFFFFFFFF && [0, 1, 2, 3].all (fun k => 2 ≤ b k && b k ≤ 128) && Rec.within r 1 0 0xFFFF &&
  1 ≤ bits c.otMin 15 8 && bits c.otMin 15 8 ≤ b 1 && 1 ≤ bits c.otMin 7 0 && bits c.otMin 7 0 ≤ b 0 &&
  (List.range 3).all (fun k => Rec.within r (2 + k) 0 0xFFFFFFFF && (let w := c.tb.getD k 0; !bit w 31 || (bits w 27 16 ≠ 0 && bits w 15 0 ≠ 0))) &&
  Rec.within r 5 256 0xFFFF && Rec.within r 6 1 (Rec.int r 7 - 1) && Rec.within r 7 2 64

/-- The ranges of Table 10.1 that a stream's source uses, and R227. -/
def streamOk (r : Rec) : Bool :=
  let t := (streamRec r).2
  let own : Bool :=
    if Rec.int r 1 = 0 then
      Rec.within r 2 0 11 && Rec.within r 3 0 15 && Rec.within r 4 0 255 && acceptedDt t.dt && Rec.within r 6 1 8192 && Rec.within r 7 1 8192 &&
        Rec.within r 8 0 4 && 65536 + t.largest ≤ t.stride
    else Rec.within r 5 1 65535 && Rec.within r 9 0 1 && Rec.within r 10 0 1471 && Rec.within r 11 1 255 && Rec.within r 12 20 10000
  Rec.within r 0 0 31 && Rec.within r 1 0 1 && Rec.within r 13 1 16 && Rec.within r 14 0 (2 ^ 48 - 1) && t.ringBase % 65536 = 0 &&
  Rec.within r 15 3 8 && Rec.within r 16 131072 (2 ^ 28) && t.stride % 65536 = 0 && Rec.within r 17 8 16 && Rec.within r 18 0 2 &&
  Rec.within r 19 0 4095 && Rec.within r 20 0 1 && (Rec.within r 21 0 11 || Rec.int r 21 = 0xFF) && Rec.within r 22 1 1000 && own

/-- The ring of a stream lies in one store die, below its check area. -/
def ringOk (t : Stream) : Bool := memLevel t.ringBase = some 3 && (storeAt t.ringBase).2 + t.slots * t.stride ≤ 0x1FF7C0000

/-- Do two ranges share a byte? -/
def rangesMeet (a n b m : Nat) : Bool := a < b + m && b < a + n

/-- Have two streams the same source, or overlapping rings? -/
def streamsClash (a b : Nat × Stream) : Bool :=
  let x := a.2
  let y := b.2
  a.1 = b.1 || rangesMeet x.ringBase (x.slots * x.stride) y.ringBase (y.slots * y.stride) ||
    (x.kind = y.kind && (if x.kind = 0 then x.port = y.port && x.vc = y.vc && x.dt = y.dt else x.udp = y.udp))

/-- Does a relation hold between no two entries of a list? -/
def pairwiseNot {β : Type} (f : β → β → Bool) : List β → Bool
  | [] => true
  | x :: r => r.all (fun y => !f x y) && pairwiseNot f r

/-- The ranges that the preload items take: regions with their reserves, and maps. -/
def preloadSpans (c : SeasonCfg) : List (Nat × Nat) :=
  c.preload.flatMap (fun p => (p.2.1.base, p.2.1.size) :: (if p.2.1.reserve = 0 then [] else [(p.2.1.reserve, p.2.1.size)])) ++
    c.preMaps.flatMap (fun m =>
      let n := alignUp m.2.2.2.2.length 4096
      (m.2.2.1, n) :: (if m.2.2.2.1 = 0 then [] else [(m.2.2.2.1, n)]))

/-- Place staging rings of these sizes in units of hub SRAM, each in the highest run of available units (the spec gives no addresses; DESIGN CHOICE, log
48). -/
def placeStages : List Nat → (Nat → Bool) → List (Option (Nat × Nat))
  | [], _ => []
  | n :: r, free =>
    match (List.range 512).reverse.find? (fun u => u + n ≤ 512 && (List.range n).all (fun i => free (u + i))) with
    | some u => some (u, n) :: placeStages r (fun v => free v && (v < u || u + n ≤ v))
    | none => none :: placeStages r free

/-- Where a Season's staging rings lie: beyond the units of Xiuth and the Almanac, the snapshot table and what the preload items take, among units that
`free` leaves (R220, R226). -/
def stagePlaces (c : SeasonCfg) (free : Nat → Bool) : List (Option (Nat × Nat)) :=
  placeStages (c.streams.map (fun p => p.2.stage64k)) (fun u =>
    let a := 0x110000000000 + u * 65536
    80 ≤ u && ((c.tableBase, 8192) :: preloadSpans c).all (fun x => !rangesMeet a 65536 x.1 x.2) && free u)

/-- Detail 0x06, INGEST (R220, R227): a ring overlaps no other ring, no check area, no preload item and no unit that `held` finds allocated, and the
staging rings find room. -/
def ingestOk (c : SeasonCfg) (rs : List Rec) (held : Nat → Bool) : Bool :=
  let h := rs.headD ([], [])
  Rec.within h 0 0 3 && Rec.within h 1 0 (2 ^ 48 - 1) && c.tableBase % 2048 = 0 && memLevel c.tableBase = some 2 && memLevel (c.tableBase + 8191) = some 2 &&
  c.streams.length ≤ 32 && (rs.drop 1).all streamOk && c.streams.all (fun p => ringOk p.2) && pairwiseNot streamsClash c.streams &&
  c.streams.all (fun p => (preloadSpans c).all (fun x => !rangesMeet p.2.ringBase (p.2.slots * p.2.stride) x.1 x.2)) &&
  c.streams.all (fun p => (unitsOf p.2.ringBase (p.2.slots * p.2.stride)).all (fun u => !held u)) && (stagePlaces c (fun _ => true)).all (·.isSome)

/-- A pair of counts M of N: M from 1 to N, N from 1 to 8. -/
def countsOk (r : Rec) (m n : Nat) : Bool := Rec.within r n 1 8 && Rec.within r m 1 (Rec.int r n)

/-- Detail 0x07, FUSION (Table 10.11, R258). -/
def fusionOk (rs : List Rec) : Bool :=
  let p := rs.headD ([], [])
  Rec.fpIn p 0 0x3F800000 0x42C80000 && Rec.fpIn p 1 0x3F800000 0x42C80000 && (List.range 16).all (fun k => Rec.fpIn p (2 + k) 0x3A83126F 0x447A0000) &&
  Rec.fpIn p 18 0x3C23D70A 0x461C4000 && Rec.fpIn p 19 0x3C23D70A 0x461C4000 && Rec.within p 20 1 31 && Rec.fpIn p 21 0x3DCCCCCD 0x461C4000 &&
  Rec.within p 22 1 31 && Rec.fpIn p 23 0 0x41200000 && Rec.within p 24 1 200 && Rec.within p 25 100 65536 && Rec.fpIn p 26 0x3F800000 0x42C80000 &&
  countsOk p 27 28 && countsOk p 29 31 && countsOk p 30 31 && Rec.fpIn p 32 0 0x40000000 &&
  (rs.drop 1).all (fun r => Rec.within r 0 0 15 && Rec.within r 1 0 3 && Rec.within r 2 0 1)

/-- Detail 0x08, POWER (Table 20.5). -/
def powerOk (c : SeasonCfg) (b : List Byte) : Bool :=
  b.length = 18 && 20 ≤ c.capW && c.capW ≤ 400 && fld b 2 1 ≤ 1 && c.warmMaxW ≤ 30 && 85 ≤ c.tjTarget && c.tjTarget ≤ 120 && 80 ≤ c.tsTarget &&
  c.tsTarget ≤ 110 && -40 ≤ c.coolantDef && c.coolantDef ≤ 85 && fld b 7 1 ≤ 1 && 50 ≤ c.flowTimeout && c.flowTimeout ≤ 5000 && 500 ≤ c.rthJNom &&
  c.rthJNom ≤ 10000 && 500 ≤ c.rthSNom && c.rthSNom ≤ 10000 && fld b 14 4 = 0 && c.tsTarget ≤ c.tjTarget

/-- Detail 0x09, PLANS: the header checks of R40 before PLAN_ID, and the count. -/
def plansOk (s : State) (c : SeasonCfg) : Bool :=
  c.plans.length ≤ 16 && c.plans.all (fun p => fld p 0 4 = 0x50464E43 && fmtVersionOk s 0 (fld p 4 2) && fld p 6 2 = 256)

/-- A reserve that R187 forbids: on the store die of its primary. -/
def sameDie (a b : Nat) : Bool := b ≠ 0 && memLevel a = some 3 && memLevel b = some 3 && (storeAt a).1 = (storeAt b).1

/-- Does a range touch a check area? -/
def inCheckArea (x : Nat × Nat) : Bool := x.1 < 0x800000000 && x.2 ≠ 0 && (storeAt x.1).2 + x.2 > 0x1FF7C0000

/-- Detail 0x0A, PRELOAD (R187, R400). -/
def preloadOk (c : SeasonCfg) : Bool :=
  pairwiseNot (fun x y => rangesMeet x.1 x.2 y.1 y.2) (preloadSpans c) && (preloadSpans c).all (fun x => !inCheckArea x) &&
  c.preload.all (fun p => p.2.1.part ≤ 3 && !sameDie p.2.1.base p.2.1.reserve) &&
  c.preMaps.all (fun m => m.1 ≤ 1 && m.2.1 ≤ 3 && !sameDie m.2.2.1 m.2.2.2.1) && pairwiseNot (fun x y => x.1 = y.1) c.preMaps

/-- Is an allocation unit assigned to a partition? -/
def unitHeld (s : State) (u : Nat) : Bool := effTag s u ≤ 3

/-- The first failing detail code of Table 18.5, or 0, where `held` tells which allocation units are assigned. -/
def seasonBadBy (held : Nat → Bool) (s : State) (slot : Nat) (img : List Byte) : Nat :=
  let c := seasonCfgOf img
  let po := ((sectionsOf img).find? (fun p => p.1 = 7)).map (·.2) |>.getD []
  if !seasonHeaderOk s slot img then 0x01
  else if !frameOk c (seasonRec img 1) then 0x02
  else if !computeOk c (seasonRec img 2) then 0x03
  else if !memoryOk (seasonRec img 3) then 0x04
  else if !regulationOk c (seasonRec img 4) then 0x05
  else if !ingestOk c (seasonRecs img 5) held then 0x06
  else if !fusionOk (seasonRecs img 6) then 0x07
  else if !powerOk c po then 0x08
  else if !plansOk s c then 0x09
  else if !preloadOk c then 0x0A
  else 0

/-- The first failing detail code of an image by itself. Against the allocations of the moment SEASON_STORE checks it (R220; DEDUCED, log 48). -/
def seasonBad (s : State) (slot : Nat) (img : List Byte) : Nat := seasonBadBy (fun _ => false) s slot img

/-- The image in a Season slot; an erased slot holds none. -/
def slotImage (s : State) (k : Nat) : Option (List Byte) := tfind s.season.slots k

/-- The Season a slot gives, if it passes every check; the factory Season of that number where the slot is erased. -/
def seasonOf (s : State) (k : Nat) : Option SeasonCfg :=
  match slotImage s k with
  | none => some (factorySeason k)
  | some img => if seasonBad s k img = 0 then some (seasonCfgOf img) else none

end Sys2Proof.Machine
end

