-- ==== Sys2Proof/Machine/Admit.lean ====
section
/-!
DEFINITION. The checks of PLAN_ADMIT (R40–R54, R59, R72, R96, R110, R118, R139, R145, R176, R231, R232, R234, R249, R250, R330, R401,
R460): the plan header, the layout of the body, its tables, the variant map, the task pass, context limits and the admission arithmetic.
-/

namespace Sys2Proof.Machine

/-- A refusal (R45): reason, variant, RESOURCE_ID, and D and A in ns. -/
structure PlanNo where
  reason : Nat
  variant : Nat := 0xFF
  res : Nat := 0
  d : Nat := 0
  a : Nat := 0
deriving DecidableEq, Repr

/-- The refusal a check list gives. -/
def noOf (reason : Nat) : Option PlanNo := if reason = 0 then none else some { reason := reason }

/-- The first refusal of a list of steps. -/
def firstNo : List (Option PlanNo) → Option PlanNo
  | [] => none
  | some x :: _ => some x
  | none :: r => firstNo r

/-! ## The Season a plan is built for (R40, R403) -/

/-- The pending Season, by number, where a change is pending. -/
def pendingCfg (s : State) : Option (Nat × SeasonCfg) :=
  match s.season.pending with
  | some (k, _) => (seasonOf s k).map (fun c => (k, c))
  | none => none

/-- Is the plan for the pending Season, and that Season; none where its SEASON names neither. -/
def planTarget (s : State) (img : List Byte) : Option (Bool × SeasonCfg) :=
  let f := ph img 0x4A 1
  if f = 0xFF then some (false, s.season.cfg)
  else
    match pendingCfg s with
    | some (k, c) => if f = k then some (true, c) else if f = s.season.cfg.num then some (false, s.season.cfg) else none
    | none => if f = s.season.cfg.num then some (false, s.season.cfg) else none

/-- The admitted plans a new plan shares its Season with (R403). -/
def planGroup (s : State) (pend : Bool) : List Plan := s.plans.filter (fun p => p.admitted && !p.retired && p.pendingSeason = pend)

/-- Is a Quarter activated by a Season on this package: an absent stack's never is (R271)? -/
def cfgQuarterOn (s : State) (c : SeasonCfg) (q : Nat) : Bool := bit c.quarters q && bit s.ident.present q

/-! ## Header (R40, Table 2.3) -/

/-- Does a table of `n` bytes at a body offset lie within the body? -/
def inBody (img : List Byte) (o n : Nat) : Bool := o + n + 256 ≤ img.length

/-- The reason of the first failing header check, or 0. `t` is the Season the plan is for. -/
def headerReason (s : State) (p : Plan) (t : Option (Bool × SeasonCfg)) : Nat :=
  let img := p.image
  let c := match t with | some x => x.2 | none => s.season.cfg
  let parts := ph img 0x4B 1
  firstBad (checks [
    (ph img 0 4 = 0x50464E43, rsFormat),
    (fmtVersionOk s 0 (ph img 4 2), rsFormat),
    (ph img 6 2 = 256, rsFormat),
    (!s.plans.any (fun q => q.planId = p.planId && q.admitted), 0x11),
    (ph img 0x10 4 + 256 = img.length, rsFormat),
    (slice img 0x14 48 = sha384 (planBody img), 0x0A),
    (ph img 0x44 4 &&& s.ident.features = ph img 0x44 4, rsFeature),
    (ph img 0x48 2 = c.period && t.isSome, 0x0B),
    (!(usesP0 img && (s.host.serviceOnly || s.ident.p0Refused || c.log2InvP > 7 || c.period > 400)), rsPartition),
    (parts < 16, rsFormat),
    (parts &&& c.permitted = parts, rsPartition),
    (1 ≤ variantCount img && variantCount img ≤ 4 && ph img 0x4D 3 = 0, rsFormat),
    (1 ≤ taskCount img && taskCount img ≤ 65535 && inBody img (ph img 0x50 4) (64 * taskCount img), rsFormat),
    (1 ≤ ph img 0x5C 4 && ph img 0x5C 4 ≤ 1048575 && inBody img (ph img 0x58 4) (16 * ph img 0x5C 4), rsFormat),
    (inBody img (ph img 0x60 4) (4 * variantCount img * slotCount img), rsFormat),
    (outputCount img ≤ 256 && (1 ≤ outputCount img || !usesP0 img) && inBody img (ph img 0x64 4) (32 * outputCount img), rsFormat),
    (1 ≤ slotCount img && slotCount img ≤ 512 && ph img 0x6E 2 = 0, rsFormat),
    (ph img 0x74 4 ≤ 262144 && inBody img (ph img 0x70 4) (16 * ph img 0x74 4), rsFormat),
    (ph img 0x78 136 = 0, rsFormat)])

/-! ## Step 1: the layout of the body (R41, R50, R53, R460) -/

/-- The areas of the body: tables, command lists, destination tables and layer records. -/
def bodyAreas (img : List Byte) : List Span :=
  let area (o n : Nat) : Span := { addr := o, size := n, align := 1 }
  let xs : List Span := [area (ph img 0x50 4) (64 * taskCount img), area (ph img 0x58 4) (16 * ph img 0x5C 4),
    area (ph img 0x60 4) (4 * variantCount img * slotCount img), area (ph img 0x64 4) (32 * outputCount img),
    area (ph img 0x70 4) (16 * ph img 0x74 4)] ++
    (tasksOf img).flatMap (fun t => [area t.cmdOfs (64 * t.cmdCount), area t.destOfs (8 * t.destCount)] ++
      ((descsOf img t).filter (fun d => dOp d = 0x31)).map (fun d => area (fld d 0x1C 4) (32 * fld d 0x26 1)))
  xs.filter (fun x => x.size ≠ 0)

/-- Are the bindings in ascending TASK_ID and IN_SLOT, and do they name tasks? The spec gives the range of a TASK_ID and not the step of R53 that
checks it: the model does so here, in step 1 (DESIGN CHOICE, log 45). -/
def bindOrder (img : List Byte) : Bool :=
  let bs := bindsOf img
  bs.all (fun b => b.task < taskCount img) &&
    (List.zip bs (bs.drop 1)).all (fun p => p.1.task < p.2.task || (p.1.task = p.2.task && p.1.inSlot ≤ p.2.inSlot))

/-- Step 1. -/
def layoutReason (img : List Byte) : Nat :=
  if (bodyAreas img).all (fun x => inBody img x.addr x.size) && apart (bodyAreas img) && bindOrder img then 0 else rsFormat

/-! ## Steps 2 and 3: demand and output entries -/

/-- A demand entry (R41). -/
structure Demand where
  res : Nat
  variant : Nat
  part : Nat
  conflict : Nat
  amount : Nat
deriving DecidableEq, Repr

/-- All demand entries. -/
def demandsOf (img : List Byte) : List Demand :=
  (List.range (ph img 0x5C 4)).map (fun i =>
    let b := slice img (256 + ph img 0x58 4 + 16 * i) 16
    { res := fld b 0 4, variant := fld b 4 1, part := fld b 5 1, conflict := fld b 6 2, amount := fld b 8 8 })

/-- Does a RESOURCE_ID of Table 2.4 name a unit of the package? -/
def resourceOk (r : Nat) : Bool :=
  let lim : Option (Nat × Nat) := match rType r with
    | 1 => some (4, 72) | 2 => some (4, 32) | 3 => some (4, 2) | 4 => some (1, 1) | 5 => some (1, 1) | 6 => some (1, 1)
    | 7 => some (4, 1) | 8 => some (4, 1)
    | _ => none
  match lim with
  | some (q, n) => rQ r < q && bits r 15 0 < n
  | none => false

/-- A demand entry in its ranges. -/
def demandOk (img : List Byte) (d : Demand) : Bool :=
  resourceOk d.res && d.variant < variantCount img && d.part ≤ 3 &&
    (if rType d.res = 2 then 16 ≤ d.conflict && d.conflict ≤ 136 else d.conflict = 0)

/-- An output-table entry: the ranges of Table 17.15 and R375. -/
def outputOk (s : State) (img : List Byte) (o : OutEntry) : Bool :=
  8 ≤ o.log2 && o.log2 ≤ 16 && 256 ≤ o.length && o.length ≤ 1048576 && o.length % 2 ^ o.log2 = 0 && o.flags < 2 && o.rsv = 0 &&
    o.addr < 2 ^ 48 && (memLevel o.addr = some 2 || memLevel o.addr = some 3) &&
    extOk s { addr := o.addr, size := o.length, align := 2 ^ o.log2 } && (!o.safety || usesP0 img)

/-- Steps 2 and 3. -/
def entriesReason (s : State) (img : List Byte) : Nat :=
  if (demandsOf img).all (demandOk img) && (List.range (outputCount img)).all (fun i => outputOk s img (outAt img i)) then 0 else rsFormat

/-! ## Step 4: the variant map (R52, R118, R139, R324) -/

/-- The first slot of a variant that fails a test. -/
def slotFails (img : List Byte) (ok : Nat → Nat → Bool) : Option PlanNo :=
  ((List.range (variantCount img)).flatMap (fun v => (List.range (slotCount img)).map (fun k => (v, k)))).findSome? (fun x =>
    if ok x.1 x.2 then none else some { reason := rsVariant, variant := x.1, res := variantEntry img x.1 x.2 })

/-- The type rules of R52 at one slot. -/
def slotTypeOk (img : List Byte) (v k : Nat) : Bool :=
  let r := variantEntry img v k
  let r0 := variantEntry img 0 k
  isUnit r && rType r = rType r0 && (rType r = 1 || rType r = 7 || r = r0)

/-- May a variant place a slot on its unit? -/
def slotUnitOk (s : State) (c : SeasonCfg) (img : List Byte) (v k : Nat) : Bool :=
  let r := variantEntry img v k
  if isClu r then
    cfgQuarterOn s c (rQ r) && !excludedClu s (gOf r) (strictSlot img k) && !(List.range k).any (fun j => variantEntry img v j = r)
  else rType r ≠ 7 || cfgQuarterOn s c (rQ r)

/-- Distance of two numbers. -/
def absDiff (a b : Nat) : Nat := (a - b) + (b - a)

/-- The pairing rules of R118 for two clusters. -/
def pairingOk (c : SeasonCfg) (a b : Nat) : Bool :=
  let x := gOf a % 72
  let y := gOf b % 72
  a ≠ b && (if maskCount c.quarters = 1 then absDiff (x % 9) (y % 9) + absDiff (x / 9) (y / 9) ≥ 2 else rQ a ≠ rQ b)

/-- The twin pairs that the task table names within the slots' range and that map to clusters. -/
def twinPairs (img : List Byte) : List (Nat × Nat) :=
  ((tasksOf img).filter (fun t => t.isTwin && t.slot < t.twin && t.twin < slotCount img &&
    isClu (variantEntry img 0 t.slot) && isClu (variantEntry img 0 t.twin))).map (fun t => (t.slot, t.twin))

/-- The first twin pair that breaks R118. -/
def twinNo (c : SeasonCfg) (img : List Byte) : Option PlanNo :=
  ((List.range (variantCount img)).flatMap (fun v => (twinPairs img).map (fun p => (v, p)))).findSome? (fun x =>
    if pairingOk c (variantEntry img x.1 x.2.1) (variantEntry img x.1 x.2.2) then none
    else some { reason := rsVariant, variant := x.1, res := variantEntry img x.1 x.2.1 })

/-- The clusters of a variant. -/
def variantClusters (img : List Byte) (v : Nat) : List Nat :=
  ((List.range (slotCount img)).map (variantEntry img v)).filterMap (fun u => if isClu u then some (gOf u) else none)

/-- Would the plan leave every activated Quarter its spares (R401): clusters in service without a slot? -/
def sparesLeft (s : State) (c : SeasonCfg) (group : List Plan) (img : List Byte) : Bool :=
  let used := variantClusters img 0 ++ group.flatMap (fun p => variantClusters p.image p.variant)
  (List.range 4).all (fun q => !cfgQuarterOn s c q ||
    c.spares ≤ ((List.range 72).filter (fun x => !used.contains (72 * q + x) && !excludedClu s (72 * q + x) true)).length)

/-- Step 4, and R401. -/
def variantNo (s : State) (c : SeasonCfg) (group : List Plan) (img : List Byte) : Option PlanNo :=
  firstNo [slotFails img (slotTypeOk img), slotFails img (slotUnitOk s c img), twinNo c img,
    if sparesLeft s c group img then none else some { reason := rsVariant, variant := 0 }]

/-! ## Step 5: the task pass (R50) -/

/-- Type of a task's slot. -/
def slotType (img : List Byte) (k : Nat) : Nat := rType (variantEntry img 0 k)

/-- A task entry (Table 2.7, R51): its ranges, a twin slot that is a cluster's, and no earlier task on its context. -/
def taskEntryOk (img : List Byte) (t : Task) : Bool :=
  let ty := slotType img t.slot
  let shares (u : Task) : Bool :=
    u.ctx = t.ctx && (u.slot = t.slot || (t.isTwin && u.slot = t.twin) || (u.isTwin && (u.twin = t.slot || (t.isTwin && u.twin = t.twin))))
  t.part ≤ 3 && bit (ph img 0x4B 1) t.part && t.slot < slotCount img && t.ctx < (if ty = 1 then 32 else 8) && t.flags < 2 && t.rsv0 = 0 &&
    (!t.isTwin || (t.slot < t.twin && t.twin < slotCount img && ty = 1 && slotType img t.twin = 1)) && 1 ≤ t.budget &&
    t.cmdOfs % 64 = 0 && 1 ≤ t.cmdCount && t.cmdCount ≤ 4096 && t.destCount ≤ 4096 && t.destOfs % 8 = 0 && (t.destCount ≠ 0 || t.destOfs = 0) &&
    t.rsv1 = 0 && t.rsv2 = 0 && !((List.range t.id).map (taskAt img)).any shares

/-- Does a task have a command with an opcode? -/
def taskHasOp (img : List Byte) (t : Task) (op : Nat) : Bool := (descsOf img t).any (fun d => dOp d = op)

/-- One binding (Table 2.8, R53, R145, R231, R250). -/
def bindingOk (s : State) (c : SeasonCfg) (img : List Byte) (t : Task) (b : Binding) : Bool :=
  let src := taskAt img b.source
  b.kind ≤ 4 && b.rsv0 = 0 && b.rsv1 = 0 && (if b.kind = 4 then b.inSlot = 0 else b.inSlot ≤ 63) &&
    (b.counter = 0xFF || (b.kind = 0 && b.counter ≤ 31)) &&
    (if b.kind = 1 || b.kind = 2 then b.tileId < 2 ^ 28 else b.tileId = 0) &&
    (match b.kind with
     | 0 => b.source < taskCount img && (destsOf img src).any (fun d => !d.result && d.target = t.id && d.slot = b.inSlot)
     | 1 => c.streams.any (fun x => x.1 = b.source)
     | 2 => b.source = 0
     | 3 => b.source < taskCount img && slotType img src.slot = 6 && taskHasOp img src 0x70 && slotType img t.slot = 6
     | _ => b.source < 64 && (seqOf s b.source).valid && (seqOf s b.source).part = t.part && (seqOf s b.source).boundPlan.isNone &&
            !(bindsOf img).any (fun x => x.kind = 4 && x.source = b.source && x.task < t.id))

/-- The bindings of a task, and the input slots its commands name. -/
def bindingsOk (s : State) (c : SeasonCfg) (img : List Byte) (t : Task) : Bool :=
  let bs := (bindsOf img).filter (fun b => b.task = t.id)
  let ins := (bs.filter (fun b => b.kind ≤ 3)).map (·.inSlot)
  bs.all (bindingOk s c img t) && ins.eraseDups.length = ins.length && (descsOf img t).all (fun d => (dIns d).all ins.contains)

/-- The destination table of a task (Table 2.9, R53, R54), and the credit counters its commands take. -/
def destsOk (img : List Byte) (t : Task) : Bool :=
  let ds := destsOf img t
  let bs := bindsOf img
  ds.all (fun d => d.flags < 4 &&
    (if d.result then d.target < outputCount img && d.slot = 0
     else d.target < taskCount img && d.slot ≤ 63 &&
       bs.any (fun b => b.task = d.target && b.inSlot = d.slot && (b.kind = 0 || b.kind = 3) && b.source = t.id))) &&
  (match ds.getLast? with | some d => !d.more | none => true) &&
  (descsOf img t).all (fun d => (cmdDests img t d).isSome && (t.destCount ≠ 0 || dDest d = 0) &&
    (dOuts d).all (fun k => (bs.filter (fun b => b.kind = 0 && b.source = t.id && b.counter = k)).length = 1))

/-- The snapshot bindings of a command's input slots. -/
def snapBindsOf (img : List Byte) (t : Task) (d : List Byte) : List Binding :=
  (bindsOf img).filter (fun b => b.task = t.id && (b.kind = 1 || b.kind = 2) && (dIns d).contains b.inSlot)

/-- The memory a snapshot binding names at `k = 0`: slot 0 of the ring or the first table tile; and how many such places there are, how
far apart. -/
def snapPlace (c : SeasonCfg) (b : Binding) : Nat × Nat × Nat :=
  if b.kind = 2 then (c.tableBase, 2048, 4)
  else match c.streams.find? (fun x => x.1 = b.source) with
    | some x => (x.2.ringBase, x.2.stride, x.2.slots)
    | none => (0, 0, 0)

/-- R232 for one command. What FUS_UPDATE reads at run time, the lists that its table names, no admission sees (DEDUCED, log 48). -/
def snapOk (c : SeasonCfg) (img : List Byte) (t : Task) (d : List Byte) : Bool :=
  match snapBindsOf img t d with
  | [] => true
  | [b] =>
    let (a, n, _) := snapPlace c b
    (dOp d = 1 || (0x38 ≤ dOp d && dOp d ≤ 0x3C) || (0x60 ≤ dOp d && dOp d ≤ 0x62)) &&
      (dOp d = 0x61 || ((extReads d).take 1).all (fun x => a ≤ x.addr && x.addr + x.size ≤ a + n))
  | _ => false

/-- The track list of a PLN_GRID in a plan that uses P0 (R250). -/
def gridOk (img : List Byte) (t : Task) (d : List Byte) : Bool :=
  dOp d ≠ 0x70 || !usesP0 img ||
    (fld d 0x18 6 ≠ 0 && (bindsOf img).any (fun b => b.task = t.id && (dIns d).contains b.inSlot && b.kind = 0 &&
      slotType img (taskAt img b.source).slot = 5 && taskHasOp img (taskAt img b.source) 0x62))

/-- The clusters that some variant places a task on. -/
def taskClusters (img : List Byte) (t : Task) : List Nat :=
  (((List.range (variantCount img)).flatMap (fun v => taskUnits img v t)).filterMap (fun u => if isClu u then some (gOf u) else none)).eraseDups

/-- The banks a command's operands touch on the clusters of its task (R110). -/
def bankUnits (img : List Byte) (t : Task) (d : List Byte) : List Nat :=
  (taskClusters img t).flatMap (fun g => (localSpans img d).flatMap (fun x => unitsOf (cluBase g + x.addr) x.size))

/-- The places a command's first external range has: where it lies in the source of a snapshot binding, one in each slot of the ring or table
(R232). -/
def snapRanges (c : SeasonCfg) (img : List Byte) (t : Task) (d : List Byte) (a : Nat) : List Nat :=
  match snapBindsOf img t d with
  | b :: _ =>
    let (p, n, k) := snapPlace c b
    if p ≤ a && a < p + n then (List.range k).map (fun i => a + i * n) else [a]
  | [] => [a]

/-- The tile size of what an NLE or a hub engine reads from a store die, where the spec gives one: a stream's data, the header of a grid
image, the records of the planning commands (R222, R255, R256). -/
def engineTile (c : SeasonCfg) (img : List Byte) (t : Task) (d : List Byte) : Option Nat :=
  match snapBindsOf img t d with
  | b :: _ => if b.kind = 1 then (c.streams.find? (fun x => x.1 = b.source)).map (·.2.tileLog2) else none
  | [] => if dOp d = 0x70 || dOp d = 0x71 || dOp d = 0x72 then some 8 else none

/-- The store ranges with tiles below 4 KiB that a command uses (R176), through LOAD and STORE or through an engine. -/
def fineRanges (c : SeasonCfg) (img : List Byte) (t : Task) (d : List Byte) : List (Nat × Nat × Nat) :=
  if dOp d = 1 || dOp d = 2 then
    let k := fld d 0x1C 1
    let a := fld d 0x10 6
    let n := fld d 0x1D 1 * 2 ^ k
    let r := fld d 0x28 6
    let here := (snapRanges c img t d a).map (fun a => (a, n, k))
    (here ++ (if dOp d = 1 && r ≠ 0 then [(r, n, k)] else [])).filter (fun x => wantsFine x.1 x.2.2)
  else
    match engineTile c img t d, extReads d with
    | some k, x :: _ =>
      let n := if dOp d = 0x70 then 256 else x.size
      ((snapRanges c img t d x.addr).map (fun a => (a / 2 ^ k * 2 ^ k, alignUp (a + n) (2 ^ k) - a / 2 ^ k * 2 ^ k, k))).filter
        (fun y => wantsFine y.1 y.2.2)
    | _, _ => []

/-- The state with a command's fine-tile regions, none where R176 refuses one. -/
def addFines (s : State) (key part : Nat) (avoid : List Nat) (xs : List (Nat × Nat × Nat)) : Option State :=
  xs.foldl (fun (s : Option State) x => match s with | some s => addFine s key part avoid x.1 x.2.1 x.2.2 | none => none) (some s)

/-- Every store unit that a plan's commands name: no extension table lands in one. -/
def planUnits (img : List Byte) : List Nat :=
  ((allDescs img).flatMap (fun d => (extReads d ++ extWrites d).filter (fun x => memLevel x.addr = some 3 && x.size ≤ 0x200000000))).flatMap
    (fun x => unitsOf x.addr x.size)

/-- The units of the tensors that a command reads: what it names by logical address, and the operands in its clusters' SRAM (R96). -/
def readUnits (img : List Byte) (t : Task) (d : List Byte) : List Nat :=
  let out := (outRegion img d).map (·.1)
  let local' := if dOp d = 1 then [] else (localSpans img d).filter (fun x => dOp d = 2 || some x.addr ≠ out)
  (extReads d).flatMap (fun x => unitsOf x.addr x.size) ++
    (taskClusters img t).flatMap (fun g => local'.flatMap (fun x => unitsOf (cluBase g + x.addr) x.size))

/-- Does a plan that uses P0 keep off P2's allocations (R96)? No command reads a tensor in a unit of P2, nor a walker the arena of a sequence
of P2. -/
def keepsOffP2 (s : State) (img : List Byte) (t : Task) (d : List Byte) : Bool :=
  !usesP0 img || ((readUnits img t d).all (fun u => effTag s u ≠ 2) && !(isWalker (dOp d) && t.part = 2))

/-- The reason a descriptor is refused for, in the order 0x09, 0x0F, 0x0C, 0x0D (the spec orders descriptors, not the codes within one;
DEDUCED, log 32). -/
def pickReason (l : List (Bool × Nat)) : Nat :=
  ([rsFormat, rsFeature, rsPartition, rsVariant].find? (fun c => l.any (fun x => !x.1 && x.2 = c))).getD 0

/-- One descriptor of the task pass: its reason, and the state with what it claims. -/
def admitDesc (s : State) (key : Nat) (c : SeasonCfg) (img : List Byte) (t : Task) (i : Nat) (d : List Byte) : Nat × State :=
  let banks := bankUnits img t d
  let fines := addFines s key t.part (planUnits img) (fineRanges c img t d)
  let reason := pickReason (headChecks t (slotType img t.slot) d i ++ bodyChecks img d ++ checks [
    ((localSpans img d).all spanOk, rsFormat),
    ((extReads d ++ extWrites d).all (fun x => extOk s x && ((dOp d ≠ 1 && dOp d ≠ 2) || memLevel x.addr ≠ some 0)), rsFormat),
    (snapOk c img t d, rsFormat),
    (gridOk img t d, rsFormat),
    (fines.isSome, rsFormat),
    (banks.all (unitFor s t.part), rsPartition),
    (!backward (dOp d) || t.part = 2, rsPartition),
    (keepsOffP2 s img t d, rsPartition),
    (!(t.part = 0 && twinInP0 (dOp d) && !t.isTwin), rsVariant)])
  let s := fines.getD s
  (reason, claim s key t.part (banks ++ ((extWrites d).flatMap (fun x => unitsOf x.addr x.size)).filter (fun u => effTag s u = 7)))

/-- The descriptors of a task from the `i`-th on. -/
def admitDescs (s : State) (key : Nat) (c : SeasonCfg) (img : List Byte) (t : Task) : Nat → List (List Byte) → Nat × State
  | _, [] => (0, s)
  | i, d :: r =>
    let (reason, s') := admitDesc s key c img t i d
    if reason = 0 then admitDescs s' key c img t (i + 1) r else (reason, s)

/-- One task of the pass: its entry, its bindings, its destination table, its descriptors. -/
def admitTask (s : State) (key : Nat) (c : SeasonCfg) (img : List Byte) (t : Task) : Nat × State :=
  if !taskEntryOk img t || !bindingsOk s c img t || !destsOk img t then (rsFormat, s)
  else admitDescs s key c img t 0 (descsOf img t)

/-- Once the whole pass has claimed its units: does any command of a plan that uses P0 read one that a task of the plan takes for P2 (R96)? -/
def lateP2 (s : State) (img : List Byte) : Nat :=
  if (tasksOf img).all (fun t => (descsOf img t).all (keepsOffP2 s img t)) then 0 else rsPartition

/-- The tasks of the pass, in ascending TASK_ID. -/
def admitTasks (s : State) (key : Nat) (c : SeasonCfg) (img : List Byte) : List Task → Nat × State
  | [] => (0, s)
  | t :: r =>
    let (reason, s') := admitTask s key c img t
    if reason = 0 then admitTasks s' key c img r else (reason, s)

/-! ## Step 6: slots and budgets (R51, R52) -/

/-- Do the budgets that variant `v` places on a unit keep within its demand there? -/
def budgetOk (img : List Byte) (v u : Nat) : Bool :=
  ((tasksOf img).foldl (fun n t => n + t.budget * ((taskUnits img v t).filter (· = u)).length) 0) ≤
    ((demandsOf img).filter (fun d => d.variant = v && d.res = u)).foldl (fun n d => n + d.amount) 0

/-- Step 6. -/
def budgetReason (img : List Byte) : Nat :=
  let ts := tasksOf img
  if (List.range (slotCount img)).all (fun k => ts.any (fun t => t.slot = k || (t.isTwin && t.twin = k))) &&
    (List.range (variantCount img)).all (fun v => (List.range (slotCount img)).all (fun k => budgetOk img v (variantEntry img v k)))
  then 0 else rsFormat

/-! ## Step 7: contexts (R51, R72, R139, R234, R249) -/

/-- The contexts a variant defines: unit, context, pinned. -/
def variantCtxs (img : List Byte) (v : Nat) : List (Nat × Nat × Bool) :=
  (tasksOf img).flatMap (fun t => (taskUnits img v t).map (fun u => (u, t.ctx, t.pinned)))

/-- The most contexts a plan defines on a unit in one variant; the most pinned ones. -/
def mostCtxs (img : List Byte) (u : Nat) (pinned : Bool) : Nat :=
  (List.range (variantCount img)).foldl (fun m v => max m ((variantCtxs img v).filter (fun x => x.1 = u && (!pinned || x.2.2))).length) 0

/-- The contexts the admitted plans count for on a unit. -/
def groupCtxs (group : List Plan) (u : Nat) (pinned : Bool) : Nat := group.foldl (fun n p => n + mostCtxs p.image u pinned) 0

/-- Does an admitted plan define a context on a unit in some variant? -/
def groupHas (group : List Plan) (u k : Nat) : Bool :=
  group.any (fun p => (List.range (variantCount p.image)).any (fun v => (variantCtxs p.image v).any (fun x => x.1 = u && x.2.1 = k)))

/-- Does a variant of the new plan keep the limits of a unit? -/
def ctxLimitOk (group : List Plan) (img : List Byte) (v u : Nat) : Bool :=
  let xs := (variantCtxs img v).filter (fun x => x.1 = u)
  let ks := xs.map (·.2.1)
  ks.eraseDups.length = ks.length && ks.all (fun k => !groupHas group u k) &&
    (if isClu u then groupCtxs group u false + xs.length ≤ 32 && groupCtxs group u true + (xs.filter (fun x => x.2.2)).length ≤ 8
     else groupCtxs group u false + xs.length ≤ 8)

/-- The keys of a list, each once, rising. -/
def sortKeys (xs : List Nat) : List Nat := tkeys (xs.foldl (fun (t : Tbl Unit) x => tput t x ()) [])

/-- 0x0E: the lowest variant that breaks a limit, and its lowest unit. -/
def ctxNo (group : List Plan) (img : List Byte) : Option PlanNo :=
  ((List.range (variantCount img)).flatMap (fun v => (sortKeys ((variantCtxs img v).map (·.1))).map (fun u => (v, u)))).findSome? (fun x =>
    if ctxLimitOk group img x.1 x.2 then none else some { reason := rsContext, variant := x.1, res := x.2 })

/-- Are more than 8 contexts defined on a cluster, counted as R72 counts them? -/
def crowded (plans : List Plan) (u : Nat) : Bool := isClu u && groupCtxs plans u false > 8

/-- The allocation units that the context records of a Quarter take: 4 KiB for each context of a cluster that cannot hold all of its own
(R71). -/
def recordNeed (plans : List Plan) (q : Nat) : Nat :=
  cdiv (((List.range 72).filter (fun c => crowded plans (rClu (72 * q + c)))).foldl (fun n c => n + groupCtxs plans (rClu (72 * q + c)) false) 0) 16

/-- The state in which every Quarter has the context records of these plans, or the first Quarter whose commons has no room. -/
def placeRecords (s : State) (plans : List Plan) : Nat ⊕ State :=
  (List.range 4).foldl (fun (x : Nat ⊕ State) q =>
    match x with
    | .inl q => .inl q
    | .inr s => match fitRecords s q (recordNeed plans q) with | some s' => .inr s' | none => .inl q) (.inr s)

/-- 0x10. -/
def dilationReason (img : List Byte) : Nat := if (allDescs img).all (dilationOk img) then 0 else rsDilation

/-! ## Step 8: the arithmetic (R42–R45) -/

/-- A time is counted in fractions of a ns, so many to one, for each type of resource: clusters at the admission floor step, NLEs at 900 MHz,
hub engines at 1.2 GHz, and the rates of R42. -/
def demandDen (c : SeasonCfg) (ty : Nat) : Nat :=
  match ty with
  | 1 => stepMhz c.floorStep | 2 => 9216 | 3 => 1600 | 4 => 8000 | 5 => 1200 | 6 => 1200 | 7 => 900
  | _ => 9216

/-- A demand entry in those fractions: cycles ÷ MHz, or bytes ÷ rate. -/
def demandTime (d : Demand) : Nat :=
  match rType d.res with
  | 1 | 5 | 6 | 7 => d.amount * 1000
  | 2 => d.amount * d.conflict * 10
  | 3 | 4 => d.amount
  | _ => d.amount * 10

/-- A plan's demand on a resource in one variant, with the holiday blocking of 50 µs for each P0 task on a cluster and the swap allowance of
20 µs for each unpinned one on a crowded cluster. -/
def variantDemand (c : SeasonCfg) (swaps : Bool) (img : List Byte) (r v : Nat) : Nat :=
  let base := ((demandsOf img).filter (fun d => d.res = r && d.variant = v)).foldl (fun n d => n + demandTime d) 0
  if isClu r then
    (tasksOf img).foldl (fun n t =>
      n + ((taskUnits img v t).filter (· = r)).length *
        ((if t.part = 0 then 50000 else 0) + (if swaps && !t.pinned then 20000 else 0)) * demandDen c 1) base
  else base

/-- A plan's heaviest variant on a resource, the lowest-numbered on a tie, and its demand. -/
def heaviest (c : SeasonCfg) (swaps : Bool) (img : List Byte) (r : Nat) : Nat × Nat :=
  (List.range (variantCount img)).foldl (fun (b : Nat × Nat) v =>
    let d := variantDemand c swaps img r v
    if b.2 < d then (v, d) else b) (0, 0)

/-- Does a plan put a demand on a resource in some variant? -/
def hasDemand (img : List Byte) (r : Nat) : Bool :=
  (demandsOf img).any (fun d => d.res = r) || (isClu r && (tasksOf img).any (fun t => (taskClusters img t).contains (gOf r)))

/-- The worst-case ingest writes onto one channel of a store die in one frame: every sample that the stream's MAX_RATE allows in P, at its
largest, header tile included, of every stream whose ring lies on the die (DEDUCED, log 36). -/
def ingestBytes (c : SeasonCfg) (die : Nat) : Nat :=
  (c.streams.filter (fun x => x.2.die = die)).foldl (fun n x => n + cdiv (x.2.maxRate * c.period) 10000 * (cdiv x.2.largest (2 ^ x.2.tileLog2) * 2 ^ x.2.tileLog2 + 256)) 0

/-- Every resource with a demand, ascending. -/
def demandedResources (c : SeasonCfg) (imgs : List (List Byte)) : List Nat :=
  let units (img : List Byte) : List Nat :=
    (demandsOf img).map (·.res) ++ (tasksOf img).flatMap (fun t => (taskClusters img t).map rClu)
  let chans := ([0, 1, 2, 3].filter (fun d => ingestBytes c d ≠ 0)).flatMap (fun d => (List.range 32).map (fun ch => 0x02000000 + d * 65536 + ch))
  sortKeys (imgs.flatMap units ++ chans)

/-- A of R42 in ns, without and with the holiday budget H. -/
def availNs (c : SeasonCfg) : Nat × Nat :=
  let full := c.period * 100000 - c.guardUs * 1000 - c.period * 2000
  (full, full - c.holidayUs * 1000)

/-- The check of one resource (R43, R45). D is returned in whole ns, rounded down: the spec gives no rounding (DESIGN CHOICE, log 45). -/
def resourceNo (c : SeasonCfg) (group : List Plan) (p : Plan) (r : Nat) : Option PlanNo :=
  let all := group ++ [p]
  let sw := crowded all r
  let den := demandDen c (rType r)
  let ing := if rType r = 2 then ingestBytes c (rQ r) * 160 else 0
  let d := all.foldl (fun n q => n + (heaviest c sw q.image r).2) ing
  let (full, avail) := availNs c
  let reason := if d > full * den then (if rType r = 8 then 0x12 else rType r) else if d > avail * den then 0x08 else 0
  if reason = 0 then none
  else some { reason := reason, res := r, variant := if hasDemand p.image r then (heaviest c sw p.image r).1 else 0xFF,
              d := d / den, a := avail }

/-- Step 8: the resources by type and ascending RESOURCE_ID; type 8 comes last. -/
def arithNo (c : SeasonCfg) (group : List Plan) (p : Plan) : Option PlanNo :=
  firstNo ((demandedResources c ((group ++ [p]).map (·.image))).map (resourceNo c group p))

/-! ## The whole check -/

/-- Check a loaded plan: the refusal, or the state with what its tasks claim (R40–R45). A refused plan leaves everything unchanged. A plan whose
context records find no room in a Quarter's commons is refused as one with too many contexts (the spec gives no code for it; DESIGN CHOICE,
log 47). -/
def admitCheck (s : State) (p : Plan) : Option PlanNo × State :=
  let img := p.image
  let t := planTarget s img
  let (pend, c) := t.getD (false, s.season.cfg)
  let group := planGroup s pend
  -- a plan that is retired and still runs keeps its contexts until its last command completes (R70; DEDUCED, log 45)
  let ctxGroup := group ++ (if pend then [] else s.plans.filter (fun q => q.admitted && q.retired))
  match noOf (headerReason s p t) with
  | some x => (some x, s)
  | none =>
    match noOf (layoutReason img) with
    | some x => (some x, s)
    | none =>
      match noOf (entriesReason s img) with
      | some x => (some x, s)
      | none =>
        match variantNo s c group img with
        | some x => (some x, s)
        | none =>
          let (reason, s') := admitTasks s (keyPlan p.planId) c img (tasksOf img)
          match firstNo [noOf reason, noOf (lateP2 s' img), noOf (budgetReason img), ctxNo ctxGroup img, noOf (dilationReason img), arithNo c group p] with
          | some x => (some x, s)
          | none =>
            match placeRecords s' (s.plans.filter (·.admitted) ++ [p]) with
            | .inr s'' => (none, s'')
            | .inl q => (some { reason := rsContext, variant := 0, res := rClu (72 * q) }, s)

/-- RESULT of PLAN_ADMIT and PLAN_SELECT (R374). -/
def planNoBytes (x : PlanNo) : List Byte :=
  natLe 1 x.reason ++ natLe 1 x.variant ++ [0, 0] ++ natLe 4 x.res ++ natLe 4 (sat 0xFFFFFFFF x.d) ++ natLe 4 (sat 0xFFFFFFFF x.a)

end Sys2Proof.Machine
end

