-- ==== Sys2Proof/Machine/Plans.lean ====
section
/-!
DEFINITION. Frame plans: loading, admission, selection and retirement (Table 17.8, R46–R49, R368, R374, R384), the switches of R47 and
R49, and what a switch means for a rotation step (R337).
-/

namespace Sys2Proof.Machine

/-! ## PLAN_LOAD (R368, R384) -/

/-- The header and output table that PLAN_LOAD looks at: the MAGIC, sizes, and an output table within the body whose entries keep the ranges of
Table 17.15. -/
def loadOk (img : List Byte) : Bool :=
  256 ≤ img.length && ph img 0 4 = 0x50464E43 && ph img 6 2 = 256 && ph img 0x10 4 + 256 = img.length && outputCount img ≤ 256 &&
    inBody img (ph img 0x64 4) (32 * outputCount img) &&
    (List.range (outputCount img)).all (fun i =>
      let o := outAt img i
      8 ≤ o.log2 && o.log2 ≤ 16 && 256 ≤ o.length && o.length ≤ 1048576 && o.length % 2 ^ o.log2 = 0 && o.flags < 2 && o.rsv = 0 && o.addr < 2 ^ 48)

/-- Load a plan image: the status, and the state with the plan's entry and its result space. -/
def loadPlan (s : State) (img : List Byte) : State × Nat :=
  let id := ph img 8 8
  if !loadOk img || !oldFmtOk s 0 (ph img 4 2) then (s, stRange)
  else if s.plans.any (fun p => p.planId = id) then (s, stBusy)
  else if 16 ≤ s.plans.length then (s, stNoSlot)
  else match reserveDir s.host id ((List.range (outputCount img)).map (outAt img)) with
    | none => (s, stNoSlot)
    | some (first, h) => ({ s with host := h, plans := s.plans ++ [{ planId := id, image := img, dirFirst := first }] }, stOk)

/-- PLAN_LOAD. -/
def planLoad (e : SubEntry) (s : State) : Answer :=
  let img := bufAll s e
  let (s1, st) := loadPlan s img
  if st ≠ stOk then refuse s st
  else { st := s1, result := natLe 8 (ph img 8 8) ++ natLe 2 (((planOf s1 (ph img 8 8)).map (·.dirFirst)).getD 0) }

/-- What the command tables say of PLAN_LOAD. -/
def cmdPlanLoad : MbxCmd := { opcode := 0x0200, buf := 1, early := true }

/-- PLAN_LOAD. -/
def execPlanLoad (e : SubEntry) (s : State) : Out :=
  mailbox cmdPlanLoad e (planLoad e) s

/-! ## PLAN_ADMIT -/

/-- Bind the sequences of a plan to their tasks (R145). -/
def bindSeqs (s : State) (p : Plan) : State :=
  ((bindsOf p.image).filter (fun b => b.kind = 4)).foldl (fun s b =>
    putSeq s b.source { seqOf s b.source with boundPlan := some p.planId, boundTask := b.task }) s

/-- The first frame of a plan: the next one, or the first of the pending Season (R28, R403). -/
def firstFrame (s : State) (pend : Bool) : Nat :=
  match s.season.pending with
  | some (_, f) => if pend then f else s.cal.frame + 1
  | none => s.cal.frame + 1

/-- Admit a loaded plan, or refuse it. -/
def admitPlan (s : State) (p : Plan) : State × Option PlanNo :=
  match admitCheck s p with
  | (some x, _) => (s, some x)
  | (none, s1) =>
    let pend := ((planTarget s p.image).map (·.1)).getD false
    let s2 := modPlan s1 p.planId (fun q => { q with admitted := true, variant := 0, pendingSeason := pend, startFrame := firstFrame s pend })
    (bindSeqs { s2 with host := setDirState s2.host p.planId 2 } p, none)

/-- The loaded or admitted plan that a command names. -/
def livePlan (s : State) (id : Nat) : Option Plan := s.plans.find? (fun p => p.planId = id && !p.retired)

/-- PLAN_ADMIT. -/
def planAdmit (e : SubEntry) (s : State) : Answer :=
  match livePlan s (fld (parOf e) 0 8) with
  | none => refuse s stNotFound
  | some p =>
    match admitPlan s p with
    | (s1, none) => { st := s1, result := planNoBytes { reason := 0, variant := 0 } }
    | (_, some x) => refuse s stPlanRefused (planNoBytes x)

/-- What the command tables say of PLAN_ADMIT. -/
def cmdPlanAdmit : MbxCmd := { opcode := 0x0201, used := [(0, 8)] }

/-- PLAN_ADMIT. -/
def execPlanAdmit (e : SubEntry) (s : State) : Out :=
  mailbox cmdPlanAdmit e (planAdmit e) s

/-! ## PLAN_SELECT (R47, R48) -/

/-- Is a deferred expulsion of a cluster due by the Calend of frame `f`, which comes P after the one before it (R317; DEDUCED, log 45)? -/
def deferredBy (s : State) (g f : Nat) : Bool :=
  !expelDecided s (quarterOf g) && deferredDue s (quarterOf g) (s.cal.next + (f - (s.cal.frame + 1)) * (s.cal.periodReg * 100000)) = some g

/-- Is a cluster excluded or in test at the Calend of frame `f`, as far as is decided now (R48, R324)? -/
def excludedAt (s : State) (g f : Nat) (strict : Bool) : Bool :=
  let h := healthOf s g
  let r := rotOf s (quarterOf g)
  excludedClu s g strict || (h.decided.isSome && !h.deferred) || deferredBy s g f ||
    (h.state = .inTest && (f < r.startFrame + 4 || (strict && h.prior ≠ .inService)))

/-- The lowest cluster of a variant that R48 refuses, as a RESOURCE_ID. -/
def selectBar (s : State) (img : List Byte) (v f : Nat) : Option Nat :=
  ((List.range (slotCount img)).filterMap (fun k =>
    let r := variantEntry img v k
    if isClu r && excludedAt s (gOf r) f (strictSlot img k) then some r else none)).foldl (fun (b : Option Nat) r =>
      match b with | some x => some (min x r) | none => some r) none

/-- PLAN_SELECT. Of several that take effect at one Calend, the last accepted applies. -/
def planSelect (e : SubEntry) (s : State) : Answer :=
  let v := parByte e 8
  let f := effectFrame s
  match livePlan s (fld (parOf e) 0 8) with
  | none => refuse s stNotFound
  | some p =>
    if !p.admitted then refuse s stNotFound
    else if variantCount p.image ≤ v then refuse s stRange
    else match selectBar s p.image v f with
      | some r => refuse s stPlanRefused (planNoBytes { reason := rsVariant, variant := v, res := r })
      | none => { st := modPlan s p.planId (fun q => { q with select := setSelect q.select v f }), result := natLe 6 f }

/-- What the command tables say of PLAN_SELECT. -/
def cmdPlanSelect : MbxCmd := { opcode := 0x0202, used := [(0, 9)] }

/-- PLAN_SELECT. -/
def execPlanSelect (e : SubEntry) (s : State) : Out :=
  mailbox cmdPlanSelect e (planSelect e) s

/-! ## PLAN_RETIRE (R368) -/

/-- A plan's entry goes, with its result space. -/
def dropPlan (s : State) (id : Nat) : State :=
  { s with plans := s.plans.filter (fun p => p.planId ≠ id), host := freeDir s.host id }

/-- PLAN_RETIRE. -/
def planRetire (e : SubEntry) (s : State) : Answer :=
  match livePlan s (fld (parOf e) 0 8) with
  | none => refuse s stNotFound
  | some p =>
    if p.admitted then { st := modPlan s p.planId (fun q => { q with retiring := true }), result := natLe 6 (s.cal.frame + 1) }
    else { st := dropPlan s p.planId, result := natLe 6 s.cal.frame }

/-- What the command tables say of PLAN_RETIRE. -/
def cmdPlanRetire : MbxCmd := { opcode := 0x0203, used := [(0, 8)] }

/-- PLAN_RETIRE. -/
def execPlanRetire (e : SubEntry) (s : State) : Out :=
  mailbox cmdPlanRetire e (planRetire e) s

/-- A plan retires at a Calend: its work leaves (R70), its sequences are no longer bound, and what only it used is freed (R168). -/
def retireNow (s : State) (id : Nat) : State :=
  let s := retirePlan s id
  let s := { s with seqs := tmap s.seqs (fun d => if d.boundPlan = some id then { d with boundPlan := none, boundTask := 0 } else d) }
  release s (keyPlan id)

/-- Retired plans whose last command has completed leave the table; their result directory entries and buffers are freed (R368), and what
context records they alone needed (R168). -/
def dropRetired (s : State) : State :=
  let gone := s.plans.filter (fun p => p.retired && !planBusy s p.planId)
  let s := gone.foldl (fun s p => dropPlan s p.planId) s
  if gone.isEmpty then s
  else match placeRecords s (s.plans.filter (·.admitted)) with | .inr s' => s' | .inl _ => s

/-! ## Switches at a Calend (R47, R49, R322, R337) -/

/-- The variant that an accepted PLAN_SELECT gives a plan at the Calend of frame `n`. -/
def selectDue (p : Plan) (n : Nat) : Option Nat := dueSelect p.select n

/-- The slots of a variant on clusters now excluded, as cluster numbers. -/
def variantExcluded (s : State) (img : List Byte) (v : Nat) : List Nat :=
  (List.range (slotCount img)).filterMap (fun k =>
    let r := variantEntry img v k
    if isClu r && excludedClu s (gOf r) (strictSlot img k) then some (gOf r) else none)

/-- Does R49 act on a plan at the Calend of frame `n`: its active variant, or the variant selected for this Calend, uses an excluded cluster? The
work moves off "from the next Calend" (R69), so a plan that found no variant is looked at again at every Calend (DEDUCED, log 35). A plan admitted
for a pending Season is admitted as well: its first frame is to find it off the cluster. -/
def exclusionDue (s : State) (p : Plan) (n : Nat) : Bool :=
  p.admitted && !p.retired && !s.exclDone.contains p.planId &&
    (!(variantExcluded s p.image p.variant).isEmpty ||
      (match selectDue p n with | some v => !(variantExcluded s p.image v).isEmpty | none => false))

/-- Quarters of a list of clusters, as a mask. -/
def quarterMask (gs : List Nat) : Nat := ((gs.map quarterOf).eraseDups).foldl (fun m q => m + 2 ^ q) 0

/-- The spares-exhausted event (R322). -/
def sparesExhausted (s : State) (p : Plan) (gs : List Nat) : State :=
  let s := (gs.map quarterOf).foldl (fun s q => modHltQ s q (fun x => { x with exhausted := true })) s
  let s := alm s 0x0000 .sparesExhausted 4 [p.planId, quarterMask gs]
  notify s 1 (quarterMask gs) s.alm.head

/-- A PLAN_SELECT for the Calend of frame `n` gives way to R49. -/
def overrideSelect (s : State) (p : Plan) (n v : Nat) : State :=
  let s := modStats (modPlan s p.planId (fun q => { q with select := laterSelects q.select n })) (fun f => { f with overrides := f.overrides + 1 })
  let s := alm s 0x0000 .planOverride 2 [p.planId, v]
  notify s 8 v s.alm.head

/-- R49 for one plan: the lowest-numbered variant without an excluded cluster, or the active one where there is none; the event is raised
where one of its clusters was quarantined or fenced since the last Calend. -/
def exclusionSwitch (s : State) (p : Plan) (n : Nat) : State :=
  let s := { s with exclDone := s.exclDone ++ [p.planId] }
  match (List.range (variantCount p.image)).find? (fun v => (variantExcluded s p.image v).isEmpty) with
  | some v =>
    let s := if (selectDue p n).isSome then overrideSelect s p n v else s
    modPlan s p.planId (fun q => { q with variant := v })
  | none =>
    let s := if (selectDue p n).isSome then overrideSelect s p n p.variant else s
    if (variantExcluded s p.image p.variant).any s.moved.contains then sparesExhausted s p (variantExcluded s p.image p.variant) else s

/-- A selected variant becomes the active one (R47). -/
def selectSwitch (s : State) (p : Plan) (n : Nat) : State :=
  match selectDue p n with
  | some v => modPlan s p.planId (fun q => { q with variant := v, select := laterSelects q.select n })
  | none => s

/-- May the substitute of a step carry what the active variants now place on the cluster under test? -/
def substituteHolds (s : State) (g h : Nat) : Bool :=
  (healthOf s h).state = .inService && !(usedClusters s).contains h &&
    (twinPartners s g).all (fun p => p ≠ h && (activeQuarters s ≠ 1 || meshDist (p % 72) (h % 72) ≥ 2))

/-- No active variant places a slot on the cluster under test any more, and one names the substitute: the substitute runs under its own name
and allocation again, while the step goes on (R335 lets it carry no slot of its own; DEDUCED, log 49). -/
def leaveSubstitute (s : State) (q : Nat) : State :=
  clearCluSide (modRot s q (fun r => { r with substituted := false, substitute := 0 })) (72 * q + (rotOf s q).substitute)

/-- A variant that now names the cluster under test: the step's substitution extends to it where R335 allows, else the step ends at this
Calend (R337). -/
def extendStep (s : State) (q : Nat) : State :=
  let r := rotOf s q
  let g := 72 * q + r.pointer
  if !r.active then s
  else if !(usedClusters s).contains g then
    (if r.substituted && (usedClusters s).contains (72 * q + r.substitute) then leaveSubstitute s q else s)
  else if r.substituted then (if substituteHolds s g (72 * q + r.substitute) then s else endStep s q true)
  else match substituteFor s g with
    | some h => modRot s q (fun r => { r with substituted := true, substitute := h })
    | none => endStep s q true

/-- Every Quarter's step after a switch. -/
def extendSteps (s : State) : State := (List.range 4).foldl extendStep s

/-- VARIANT_SWITCH: an accepted PLAN_SELECT takes effect at the coming Calend, unless R49 takes precedence there. -/
def execVariantSwitch (planId : Nat) (s : State) : Out :=
  match livePlan s planId with
  | none => done s s
  | some p =>
    let n := s.cal.frame + 1
    if (selectDue p n).isSome && !exclusionDue s p n then done s (extendSteps (selectSwitch (atCalend s) p n)) else done s s

/-- EXCLUSION_SWITCH (R49). -/
def execExclusionSwitch (planId : Nat) (s : State) : Out :=
  match livePlan s planId with
  | none => done s s
  | some p =>
    let n := s.cal.frame + 1
    if exclusionDue s p n then done s (extendSteps (exclusionSwitch (atCalend s) p n)) else done s s

/-- The switches of a Calend of frame `n`, those of R49 before those of R47 (R49); EXHAUSTED clears where every plan avoids every excluded
cluster (R322). -/
def calendSwitches (s : State) (n : Nat) : State :=
  let ids := (s.plans.filter (fun p => p.admitted && !p.retired)).map (·.planId)
  let s := ids.foldl (fun s id => match livePlan s id with
    | some p => if exclusionDue s p n then exclusionSwitch s p n else selectSwitch s p n
    | none => s) s
  let clean := s.plans.all (fun p => !p.admitted || p.retired || (variantExcluded s p.image p.variant).isEmpty)
  let s := if clean then { s with hltQ := tmap s.hltQ (fun x => { x with exhausted := false }) } else s
  extendSteps { s with moved := [], exclDone := [] }

end Sys2Proof.Machine
end

