-- ==== Sys2Proof/Machine/Power.lean ====
section
/-!
DEFINITION. Cooling, power and ageing (chapter 20): sensor pairs, the trip, coolant, thermal-resistance estimates, the cap, DVFS steps,
SURVIVAL, warm hold, and the ageing re-plan. Temperatures are in 0.5 °C, the coolant's in 1/128 °C, powers in 0.1 W.
-/

namespace Sys2Proof.Machine

/-! ## Shared pieces -/

/-- Power state of a Quarter. -/
def pmQ (s : State) (q : Nat) : PmQ := tget s.pm.q q {}
/-- Change the power management. -/
def modPm (s : State) (f : Pm → Pm) : State := { s with pm := f s.pm }
/-- Change the power state of a Quarter. -/
def modPmQ (s : State) (q : Nat) (f : PmQ → PmQ) : State := modPm s (fun m => { m with q := tmod m.q q {} f })

/-- Is a Quarter activated by the applied Season? -/
def pmActive (s : State) (q : Nat) : Bool := s.season.applied && cfgQuarterOn s s.season.cfg q
/-- The activated Quarters. -/
def pmActives (s : State) : List Nat := [0, 1, 2, 3].filter (pmActive s)
/-- The present Quarters that are not activated (R436). -/
def pmInactives (s : State) : List Nat := [0, 1, 2, 3].filter (fun q => bit s.ident.present q && s.season.applied && !pmActive s q)

/-- The AVS target of a Quarter at a step: V_BASE + AGE_OFFSET, at most 0.85 V (R438). -/
def vTarget (s : State) (q k : Nat) : Nat := min 850 (tget s.ident.vBase (5 * q + k) 0 + 5 * tget (pmQ s q).ageOffset k 0)

/-- The ceiling of a Quarter: the higher of MAX_STEP and the Season's floor step (R443). Steps count down from 900 MHz. -/
def ceilingOf (s : State) (q : Nat) : Nat := min (pmQ s q).maxStep s.season.cfg.floorStep

/-- The lower bound of a Quarter's step: the floor step while a P0 plan is admitted, else 300 MHz (R44, R431). -/
def lowerBound (s : State) : Nat := if p0Admitted s then s.season.cfg.floorStep else 4

/-- A quotient whose rounding the spec leaves open: the whole number below or above it (log 37). -/
def divFree (s : State) (a b : Nat) : Nat × State :=
  if b = 0 || a % b = 0 then (a / b, s)
  else
    let (n, s) := draw s
    (a / b + Config.freeValue n % 2, s)

/-- The package power of the latest sample. -/
def powerNow (s : State) : Nat := match s.pm.tjHist with | x :: _ => x.2.2 | [] => 0

/-- Sum and number of the samples of P newer than `ns` ago. -/
def powerOver (s : State) (ns : Nat) : Nat × Nat :=
  let xs := s.pm.tjHist.filter (fun x => s.now < x.1 + ns)
  (xs.foldl (fun a x => a + x.2.2) 0, xs.length)

/-- Is `p` within 5 % of `r`? -/
def within5 (p r : Nat) : Bool := absDiff p r * 20 ≤ r

/-- The highest T_S. -/
def tsMax (s : State) : Int := [0, 1, 2, 3].foldl (fun m n => if bit s.ident.present n && m < tget s.pm.ts n (-400) then tget s.pm.ts n (-400) else m) (-400)

/-- The Season's survival cap in W (R434). -/
def survivalCap (s : State) : Nat := min 60 s.season.cfg.capW

/-! ## Power states (R432) -/

/-- The device enters a power state; entering LIMITED, FLOOR_HELD or SURVIVAL notifies the host and makes a record. -/
def enterState (s : State) (n : Nat) : State :=
  if s.pm.state = n then s
  else
    let s := modStats (modPm s (fun m => { m with state := n })) (fun f => { f with pmStateMax := max f.pmStateMax n })
    if n = 0 then s
    else
      let s := alm s 0xA000 .pmState (if n = 3 then 4 else 2) [n, s.pm.capW]
      notify s 9 s.pm.capW s.alm.head

/-! ## Steps (R431, R438) -/

/-- A Quarter's AVS target becomes `v`; a change is noted, for the mask of Table 13.2. -/
def setVqc (s : State) (v : Nat) (x : PmQ) : PmQ := { x with vqc := v, avsAt := if x.vqc = v then x.avsAt else some s.now }

/-- A Quarter's clock now runs at a step. A change is noted, for the mask of Table 13.2. -/
def clockAt (s : State) (q k : Nat) : State :=
  let s := if (pmQ s q).step = k then s
    else modPmQ (modStats s (fun f => { f with stepChanges := sat 0xFFFF (f.stepChanges + 1) })) q (fun x => { x with stepAt := some s.now })
  modPmQ s q (fun x => { x with step := k, ranStep := tput x.ranStep k true })

/-- Begin a change of step: downward the frequency changes first, upward the voltage. -/
def beginChange (s : State) (q k : Nat) : State :=
  let s := modPm s (fun m => { m with evidenceBar := s.now + 2000000000 })
  let s := modPmQ s q (fun x => { x with pendingStep := some k })
  if (pmQ s q).step < k then clockAt s q k else modPmQ s q (setVqc s (vTarget s q k))

/-- DVFS_STEP_COMPLETE: the regulator has settled; the voltage is the new step's, and so is the frequency. -/
def execDvfsStepComplete (q : Nat) (s : State) : Out :=
  match (pmQ s q).pendingStep with
  | none => done s s
  | some k => done s (modPmQ (clockAt s q k) q (fun x => { setVqc s (vTarget s q k) x with pendingStep := none }))

/-- Set a Quarter's step and voltage at once. -/
def forceStep (s : State) (q k : Nat) : State :=
  modPmQ (clockAt s q k) q (fun x => { setVqc s (vTarget s q k) x with pendingStep := none })

/-- Stop warm hold. -/
def stopWarm (s : State) : State :=
  if s.pm.q.any (fun p => p.2.warmX10 ≠ 0) then
    modPm s (fun m => { m with evidenceBar := s.now + 2000000000, q := tmap m.q (fun x => { x with warmX10 := 0 }) })
  else s

/-! ## SURVIVAL (R434, R435) -/

/-- Enter SURVIVAL: the survival cap, every active Quarter at 300 MHz, no warm hold, and no issue of P1–P3. -/
def enterSurvival (s : State) : State :=
  if s.pm.state = 3 || !s.season.applied then s
  else
    let s := (pmActives s).foldl (fun s q => forceStep s q 4) (stopWarm s)
    enterState (modPm s (fun m => { m with capW := survivalCap s, capRiseAt := s.now, survAt := s.now, p0Stopped := false, coolSince := none })) 3

/-- SURVIVAL_P0_STOP: 20 ms after entry the 10 ms mean of P still exceeds the survival cap. -/
def execSurvivalP0Stop (s : State) : Out :=
  let s1 := { s with now := max s.now (s.pm.survAt + 20000000) }
  let (sum, n) := powerOver s1 10000000
  if s.pm.state = 3 && !s.pm.p0Stopped && sum > survivalCap s * 10 * n then done s (modPm s1 (fun m => { m with p0Stopped := true })) else done s s

/-- Have the conditions of R435 held at a sample: temperatures, their rise over the last second, and flow? -/
def coolNow (s : State) : Bool :=
  let c := s.season.cfg
  let old := s.pm.tjHist.find? (fun x => x.1 + 1000000000 ≤ s.now)
  s.pm.tjMax ≤ 2 * c.tjTarget - 20 && tsMax s < 2 * c.tsTarget && (match old with | some x => s.pm.tjMax - x.2.1 ≤ 2 | none => true) &&
    (!c.flowMon || s.pm.flowPresent)

/-- SURVIVAL_EXIT: the conditions have held together for 10 s; the cap rises from the survival cap. -/
def execSurvivalExit (s : State) : Out :=
  match s.pm.coolSince with
  | none => done s s
  | some t =>
    if s.pm.state = 3 && t + 10000000000 ≤ s.now then
      done s (alm (modPm s (fun m => { m with state := 0, p0Stopped := false, coolSince := none, capRiseAt := s.now })) 0xA000 .pmState 2 [0, s.pm.capW])
    else done s s

/-! ## The 1 ms sample (R424–R426, R429, R434, R439) -/

/-- One sensor takes a reading: its latest reading, milliseconds since it updated, and whether it is plausible. -/
def sensorStep (last : Option Int) (stale : Nat) (x : Option Int) : Option Int × Nat × Bool :=
  match x with
  | none => (last, stale + 1, stale + 1 < 10)
  | some v =>
    (some v, 0, -100 ≤ v && v ≤ 320 &&
      (match last with | some l => stale ≠ 0 || (v - l ≤ 20 && l - v ≤ 20) | none => true))

/-- The pairs of the dies that are present. -/
def pairsOf (s : State) : List Nat :=
  ([0, 1, 2, 3].filter (bit s.ident.present)).flatMap (fun q => (List.range 8).map (· + 8 * q)) ++ [32, 33, 34, 35]

/-- The other pairs of a pair's die. -/
def otherPairs (p : Nat) : List Nat := ((List.range 36).filter (fun k => k / 8 = p / 8)).filter (fun k => k ≠ p)

/-- Insertion into a rising list. -/
def insertInt (x : Int) : List Int → List Int
  | [] => [x]
  | y :: r => if x ≤ y then x :: y :: r else y :: insertInt x r

/-- The middle of an odd number of readings. -/
def median (xs : List Int) : Int := (xs.foldl (fun l x => insertInt x l) []).getD (xs.length / 2) 0

/-- A sensor is marked failed until reset: an error record (R424). -/
def failSensor (s : State) (p k : Nat) : State := alm s (0xA000 + 2 * p + k) .sensorFault 3 [2 * p + k]

/-- First pass over a pair: plausibility, failed marks, and the reading where its own sensors give it (Table 20.1). -/
def pairFirst (x : PmInput) (s : State) (p : Nat) : State :=
  let r := tget s.pm.pairs p {}
  let (a, sa, oa) := sensorStep r.a r.staleA ((x.temps[2 * p]?).getD none)
  let (b, sb, ob) := sensorStep r.b r.staleB ((x.temps[2 * p + 1]?).getD none)
  let fa := r.failA || !oa
  let fb := r.failB || !ob
  let s := if fa && !r.failA then failSensor s p 0 else s
  let s := if fb && !r.failB then failSensor s p 1 else s
  let (reading, spread) : Option Int × Bool := match fa, fb with
    | true, true => (none, false)
    | true, false => (b.map (· + 10), false)
    | false, true => (a.map (· + 10), false)
    | false, false => match a, b with
      | some u, some v => if absDiff (u + 400).toNat (v + 400).toNat ≤ 6 then (some (max u v), false)
                          else if absDiff (u + 400).toNat (v + 400).toNat ≤ 20 then (some (max u v + 6), true) else (none, false)
      | some u, none => (some u, false)
      | none, y => (y, false)
  let trip := match fa, fb, a, b with
    | false, false, some u, some v => 270 ≤ u && 270 ≤ v
    | true, false, _, some v => 260 ≤ v
    | false, true, some u, _ => 260 ≤ u
    | _, _, _, _ => false
  let r1 := { r with a := a, b := b, staleA := sa, staleB := sb, failA := fa, failB := fb, reading := reading.getD r.reading,
                     tripRun := if trip then min 3 (r.tripRun + 1) else 0 }
  let s := modPm s (fun m => { m with pairs := tput m.pairs p r1 })
  let s := if spread then alm s (0xA000 + 2 * p) .sensorSpread 2 [p] else s
  if fa && fb && !(r.failA && r.failB) then alm s (0xA000 + 2 * p) .pairLost 4 [p] else s

/-- Second pass: pairs whose reading rests on the other pairs of the die, as `t` holds them. Where both sensors are as far from the median, which
is the odd one is free. -/
def pairSecond (t : Tbl PairS) (s : State) (p : Nat) : State :=
  let r := tget s.pm.pairs p {}
  let others := (otherPairs p).map (fun k => (tget t k {}).reading)
  let put (s : State) (r : PairS) : State := modPm s (fun m => { m with pairs := tput m.pairs p r })
  if r.failA && r.failB then put s { r with reading := (others.foldl max (others.headD 0)) + 20 }
  else match r.failA, r.failB, r.a, r.b with
    | false, false, some u, some v =>
      if absDiff (u + 400).toNat (v + 400).toNat ≤ 20 then s
      else
        let m := median others
        let du := absDiff (u + 400).toNat (m + 400).toNat
        let dv := absDiff (v + 400).toNat (m + 400).toNat
        let (n, s1) := draw s
        let odd0 := dv < du || (du = dv && Config.freeValue n % 2 = 0)
        let s := if du = dv then s1 else s
        if odd0 then failSensor (put s { r with failA := true, reading := v + 10 }) p 0
        else failSensor (put s { r with failB := true, reading := u + 10 }) p 1
    | _, _, _, _ => s

/-- The highest reading of a list of pairs. -/
def highest (s : State) (ps : List Nat) : Int :=
  ps.foldl (fun m p => max m (tget s.pm.pairs p {}).reading) (match ps with | p :: _ => (tget s.pm.pairs p {}).reading | [] => 0)

/-- A temperature that Vigil B judges is breached (R293, Table 13.2): items 19 Tj, 20 T_S, 21 THERMTRIP_N. -/
def tempBreach (s : State) (item : Nat) (v : Int) : State :=
  if s.host.ready && s.islB.works then alm (breach s) 0x9000 .vigilBreach 3 [item, twos 16 v] else s

/-- The temperatures of the dies from their pairs (R425). -/
def dieTemps (s : State) : State :=
  let qs := [0, 1, 2, 3].filter (bit s.ident.present)
  let s := modPm s (fun m => { m with tj := tput (qs.foldl (fun t q => tput t q (highest s ((List.range 8).map (· + 8 * q)))) m.tj) 4 (highest s [32, 33, 34, 35]),
                                      ts := qs.foldl (fun t q => tput t q (highest s [8 * q + 6, 8 * q + 7])) m.ts })
  let top := highest s (pairsOf s)
  let s := modPm s (fun m => { m with tjMax := top })
  let s := { s with vg := { s.vg with tjMaxFrame := max s.vg.tjMaxFrame top } }
  let s := qs.foldl (fun s q => storeTemp s q (tget s.pm.ts q 0)) s
  let s := if 250 ≤ top then tempBreach s 19 top else s
  if 230 < tsMax s then tempBreach s 20 (tsMax s) else s

/-- Does a condition of R434 that temperatures show hold? -/
def survivalNow (s : State) : Bool :=
  let rise := match s.pm.tjHist.find? (fun x => x.1 + 200000000 ≤ s.now) with
    | some x => s.pm.tjMax - x.2.1 > 2 && (s.pm.tjHist.filter (fun y => x.1 ≤ y.1)).all (fun y => within5 y.2.2 (powerNow s))
    | none => false
  rise || tsMax s > 230 || s.pm.tjMax ≥ 250

/-- Operating time since the last count (R441). -/
def countHours (s : State) : State :=
  let hour := 3600000000000
  let t := s.pm.opNs + (s.now - s.pm.opMark)
  modPm s (fun m => { m with opNs := t % hour, opMark := s.now, opHours := sat 0xFFFFF (m.opHours + t / hour), toReplan := m.toReplan - t / hour })

/-- One sample: the pairs, the temperatures, the power, its means, the slack readings, the operating time, SURVIVAL. -/
def pmSample (x : PmInput) (s : State) : State :=
    let s1 := (pairsOf s).foldl (pairFirst x) s
    let s1 := (pairsOf s).foldl (pairSecond s1.pm.pairs) s1
    let s1 := dieTemps s1
    let qs := [0, 1, 2, 3].filter (bit s.ident.present)
    let s1 := qs.foldl (fun s q => modPmQ s q (fun y => { y with powerX10 := x.qPower.getD q 0, currentX10 := x.qCurrent.getD q 0 })) s1
    let p := qs.foldl (fun n q => n + x.qPower.getD q 0) x.other
    let s1 := modPm s1 (fun m => { m with tjHist := (s.now, m.tjMax, p) :: m.tjHist.filter (fun y => s.now ≤ y.1 + 1002000000) })
    let (sum, n) := powerOver s1 100000000
    let (mean, s1) := divFree s1 sum n
    let s1 := modPm s1 (fun m => { m with meanX10 := mean })
    let s1 := modStats s1 (fun f => { f with pSum := f.pSum + p, pCount := f.pCount + 1, survivalMs := if s1.pm.state = 3 then sat 0xFFFF (f.survivalMs + 1) else f.survivalMs })
    let s1 := x.slack.foldl (fun s y =>
      modPmQ s (quarterOf y.1) (fun z =>
        let k := (y.1 % 72) * 8 + z.step
        { z with minSlack := tput z.minSlack k (min y.2 (tget z.minSlack k y.2)), ranStep := tput z.ranStep z.step true })) s1
    let s1 := countHours s1
    let s1 := if s1.season.applied && survivalNow s1 then enterSurvival s1 else s1
    modPm s1 (fun m => { m with coolSince := if m.state = 3 && coolNow s1 then (match m.coolSince with | some t => some t | none => some s1.now) else none })

/-- PM_SAMPLE. -/
def execPmSample (x : PmInput) (s : State) : Out :=
  if s.inReset || s.railsLow then done s s else done s (pmSample x s)

/-- THERMTRIP: the condition of R426 has held on 2 consecutive samples; the output stays asserted until PORST_N. -/
def execThermtrip (s : State) : Out :=
  if s.vg.tripped || !s.pm.pairs.any (fun p => 2 ≤ p.2.tripRun) then done s s
  else done s (tempBreach { s with vg := { s.vg with tripped := true } } 21 s.pm.tjMax)

/-! ## Coolant and flow (R427, R433, R434, R452, R455) -/

/-- The coolant temperature in use while the reading is lost. -/
def heldCoolant (s : State) : Int :=
  let d := 128 * s.season.cfg.coolantDef
  match s.pm.lastGood with
  | some g => max d (g + 640)
  | none => d

/-- The reading is lost. -/
def loseCoolant (s : State) : State := modPm s (fun m => { m with coolantSrc := true, tc := heldCoolant s })

/-- COOLANT_READ: the sensor's two bytes as a number of 1/128 °C, or no answer. -/
def execCoolantRead (v : Option Int) (s : State) : Out :=
  match v with
  | none => done s s
  | some t =>
    if -5120 ≤ t && t ≤ 14080 then
      done s (modPm s (fun m => { m with tc := t, coolantSrc := false, lastGood := some t, lastCoolant := s.now }))
    else done s (loseCoolant s)

/-- COOLANT_LOST: no valid reading for 1 s. -/
def execCoolantLost (s : State) : Out :=
  if s.inReset || s.railsLow then done s s else done s (loseCoolant { s with now := max s.now (s.pm.lastCoolant + 1000000000) })

/-- COOL_FLOW_PULSE: a rising edge is counted; with FLOW_MON clear the pin is ignored. -/
def execCoolFlowPulse (s : State) : Out :=
  if s.inReset || s.railsLow || !s.season.cfg.flowMon then done s s
  else done s (modPm s (fun m => { m with flowCount := m.flowCount + 1, flowPeriodNs := if m.flowCount = 0 then 0 else s.now - m.lastFlow,
                                          lastFlow := s.now, flowPresent := true }))

/-- FLOW_TIMEOUT: no pulse for FLOW_TIMEOUT_MS, with FLOW_MON set. -/
def execFlowTimeout (s : State) : Out :=
  if !s.season.applied || !s.season.cfg.flowMon then done s s
  else
    let s1 := { s with now := max s.now (s.pm.lastFlow + s.season.cfg.flowTimeout * 1000000) }
    let s1 := alm (modPm s1 (fun m => { m with flowPresent := false })) 0xA000 .coolant 2 [s.season.cfg.flowTimeout]
    done s (enterSurvival s1)

/-! ## The cap (R428–R430) -/

/-- A thermal-resistance value in 10⁻⁴ K/W from a temperature difference in 0.5 °C over a power in 0.1 W, within 0.05–1.00 K/W. -/
def clampRth (x : Int) : Nat := if x < 500 then 500 else if x > 10000 then 10000 else x.toNat

/-- Replace 1/8 of an estimate by a value `num / den` (in 10⁻⁴ K/W); the rounding is free. -/
def blendRth (s : State) (est : Nat) (num den : Int) : Nat × State :=
  let (num, den) := if den < 0 then (-num, -den) else (num, den)
  let top := 7 * (est : Int) * den + num
  let q := top / (8 * den)
  if top % (8 * den) = 0 then (clampRth q, s)
  else
    let (n, s) := draw s
    (clampRth (q + (Config.freeValue n % 2 : Nat)), s)

/-- The step evidence of the 100 ms samples, newest first: a change of at least 25 W 2 s ago, within ±5 W since. The samples before and after. -/
def stepEvidence (h : List (Nat × Int × Int × Int × Nat)) : Option ((Nat × Int × Int × Int × Nat) × (Nat × Int × Int × Int × Nat) × Int) :=
  match h[0]?, h[20]?, h[21]? with
  | some now, some hit, some pre =>
    let dp : Int := (hit.2.2.2.2 : Int) - pre.2.2.2.2
    if dp.natAbs ≥ 250 && (h.take 21).all (fun y => absDiff y.2.2.2.2 hit.2.2.2.2 ≤ 50) then some (now, pre, dp) else none
  | _, _, _ => none

/-- The steady evidence: P of at least 20 W, within ±5 % for 5 s. -/
def steadyEvidence (h : List (Nat × Int × Int × Int × Nat)) : Option (Nat × Int × Int × Int × Nat) :=
  match h[0]? with
  | some now =>
    if 51 ≤ h.length && (h.take 51).all (fun y => 200 ≤ y.2.2.2.2 && within5 y.2.2.2.2 now.2.2.2.2) then some now else none
  | none => none

/-- Take one accepted pair of values `(numJ, numS) / den` into the estimates, once 60 s of evidence exist (R429). -/
def takeEvidence (s : State) (numJ numS den : Int) : State :=
  if s.pm.rthNominal then s
  else
    let (j, s) := blendRth s s.pm.rthJ numJ den
    let (t, s) := blendRth s s.pm.rthS numS den
    modPm s (fun m => { m with rthJ := j, rthS := t })

/-- The evidence of one 100 ms sample. A sample that gives evidence counts as 100 ms of it. -/
def evidence (s : State) : State :=
  if s.pm.state = 3 || s.now < s.pm.evidenceBar then s
  else
    let h := s.pm.powHist
    let st := stepEvidence h
    let sy := steadyEvidence h
    let s := match st with
      | some (now, pre, dp) => takeEvidence s ((now.2.1 - pre.2.1) * 50000) ((now.2.2.1 - pre.2.2.1) * 50000) dp
      | none => s
    let s := match sy with
      -- T_C is in 1/128 °C: (T/2 − T_C/128) / (P/10), in units of 10⁻⁴
      | some x => takeEvidence s ((64 * x.2.1 - x.2.2.2.1) * 100000) ((64 * x.2.2.1 - x.2.2.2.1) * 100000) (128 * x.2.2.2.2)
      | none => s
    if st.isSome || sy.isSome then
      let ms := s.pm.evidenceMs + 100
      modPm s (fun m => { m with evidenceMs := ms, rthNominal := m.rthNominal && ms < 60000 })
    else s

/-- cap_law in whole watts (R430). -/
def capLaw (s : State) : Nat :=
  let c := s.season.cfg
  let one (target rth : Nat) : Nat := ((128 * (target : Int) - s.pm.tc) * 10000 / (128 * max 1 rth)).toNat
  min (one c.tjTarget s.pm.rthJ) (one c.tsTarget s.pm.rthS)

/-- The cap that the Season, PWR_LIMIT and cap_law give; the survival cap in SURVIVAL. -/
def capTarget (s : State) : Nat :=
  if s.pm.state = 3 then survivalCap s
  else min (min s.season.cfg.capW (s.pm.pwrLimit.getD 1000)) (capLaw s)

/-- A fall of the effective cap takes effect at once, a rise at 10 W/s (R430). -/
def moveCap (s : State) : State :=
  let t := capTarget s
  if t ≤ s.pm.capW then modPm s (fun m => { m with capW := t, capRiseAt := s.now })
  else
    let n := (s.now - s.pm.capRiseAt) / 100000000
    modPm s (fun m => { m with capW := min t (m.capW + n), capRiseAt := m.capRiseAt + n * 100000000 })

/-- The power state the sample shows (R432). -/
def judgeState (s : State) : State :=
  if s.pm.state = 3 then s
  else
    let (sum, n) := powerOver s 10000000
    let qs := pmActives s
    let below := qs.any (fun q => ceilingOf s q < (pmQ s q).step)
    let s := if s.pm.lowered && (s.season.cfg.capW ≤ s.pm.capW || (!below && sum * 10 < s.pm.capW * 90 * n)) then modPm s (fun m => { m with lowered := false }) else s
    if sum > s.pm.capW * 10 * n && qs.all (fun q => lowerBound s ≤ (pmQ s q).step) then enterState s 2
    else if s.pm.capW < s.season.cfg.capW && s.pm.lowered then enterState s 1
    else enterState s 0

/-- The 100 ms update: a sample for the estimates, their evidence, the history of RTH_J, the cap and the power state. -/
def capLawUpdate (s : State) : State :=
    let s1 := modPm s (fun m => { m with powHist := ((s.now, m.tjMax, tsMax s, m.tc, powerNow s) :: m.powHist).take 60 })
    let s1 := evidence s1
    let s1 := modPm s1 (fun m => { m with rthHist := match m.rthHist with
      | x :: _ => if x.1 + 1000000000 ≤ s.now then (s.now, m.rthJ) :: m.rthHist.filter (fun y => s.now ≤ y.1 + 602000000000) else m.rthHist
      | [] => [(s.now, m.rthJ)] })
    judgeState (moveCap s1)

/-- CAP_LAW_UPDATE: every 100 ms. -/
def execCapLawUpdate (s : State) : Out :=
  if !s.season.applied then done s s else done s (capLawUpdate s)

/-- The Quarter of a list with the largest value, the lowest-numbered on a tie (DESIGN CHOICE, log 37). -/
def argMax (f : Nat → Nat) : List Nat → Option Nat
  | [] => none
  | q :: r => some (r.foldl (fun b x => if f b < f x then x else b) q)

/-- Above the cap: warm hold goes first, then the active Quarter with the highest power whose step lies above its lower bound (R431). -/
def lowerOne (s : State) : State :=
  let bound := lowerBound s
  let binds := s.pm.capW < s.season.cfg.capW
  let warm := s.pm.q.any (fun p => p.2.warmX10 ≠ 0)
  let s := stopWarm s
  match argMax (fun q => (pmQ s q).powerX10) ((pmActives s).filter (fun q => (pmQ s q).step < bound && (pmQ s q).pendingStep.isNone)) with
  | some q => modPm (beginChange s q ((pmQ s q).step + 1)) (fun m => { m with lowered := m.lowered || binds })
  | none => modPm s (fun m => { m with lowered := m.lowered || (binds && warm) })

/-- Below 90 % of the cap: the active Quarter with the lowest step below its ceiling rises one step, at most once per 100 ms. -/
def raiseOne (s : State) : State :=
  if s.now < s.pm.lastRaise + 100000000 then s
  else match argMax (fun q => (pmQ s q).step) ((pmActives s).filter (fun q => ceilingOf s q < (pmQ s q).step && (pmQ s q).pendingStep.isNone)) with
    | some q => modPm (beginChange s q ((pmQ s q).step - 1)) (fun m => { m with lastRaise := s.now })
    | none => s

/-- CAP_CONTROL: every 10 ms. -/
def execCapControl (s : State) : Out :=
  let (sum, n) := powerOver s 10000000
  if !s.season.applied || n = 0 then done s s
  else
    let (mean, s1) := divFree s sum n
    let s1 := modPm s1 (fun m => { m with peakX10 := max m.peakX10 (sat 0xFFFF mean) })
    if s.pm.state = 3 then done s s1
    else
      let s1 := if sum > s.pm.capW * 10 * n then lowerOne s1
                else if sum * 10 < s.pm.capW * 90 * n then raiseOne s1 else s1
      done s (judgeState s1)

/-! ## Warm hold (R437) -/

/-- The least Tj that warm hold keeps. -/
def warmTarget (s : State) : Int := max 40 ((pmActives s).foldl (fun m q => max m (tget s.pm.tj q 0)) 0 - 50)

/-- May warm hold run? -/
def warmMayRun (s : State) : Bool := s.season.cfg.warmHold && s.pm.state ≠ 3 && !s.stc.any (fun p => p.2.retaining)

/-- The load of each inactive Quarter, which the spec bounds by WARM_MAX_W and by what the cap leaves and does not state (a free
value, log 37), and the time since when the Quarter is below its target. -/
def warmHold (s : State) : State :=
    let t := warmTarget s
    let s1 := (pmInactives s).foldl (fun s q =>
      let x := pmQ s q
      let (n, s) := draw s
      let room := min (s.season.cfg.warmMaxW * 10) (x.warmX10 + (s.pm.capW * 10 - powerNow s))
      let load := Config.freeValue n % (room + 1)
      let cold := tget s.pm.tj q 0 < t
      let s := if load = x.warmX10 then s else modPm s (fun m => { m with evidenceBar := s.now + 2000000000 })
      modPmQ s q (fun x => { x with warmX10 := load, warmBelow := if cold then some (x.warmBelow.getD s.now) else none,
                                    warmShort := x.warmShort && cold })) s
    (pmActives s).foldl (fun s q => modPmQ s q (fun x => { x with warmX10 := 0, warmBelow := none, warmShort := false })) s1

/-- WARM_HOLD_ADJUST. -/
def execWarmHoldAdjust (s : State) : Out :=
  if !s.season.applied then done s s else if !warmMayRun s then done s (stopWarm s) else done s (warmHold s)

/-- WARM_SHORT: below its target for 10 s. -/
def execWarmShort (q : Nat) (s : State) : Out :=
  match (pmQ s q).warmBelow with
  | none => done s s
  | some t => done s (modPmQ { s with now := max s.now (t + 10000000000) } q (fun x => { x with warmShort := true }))

/-! ## Ageing (R439–R443) -/

/-- Is a cluster counted in a re-plan (R442)? -/
def counted (s : State) (g : Nat) : Bool :=
  match (healthOf s g).state with
  | .quarantined | .fenced | .retired => false
  | _ => true

/-- The lowest slack of the counted clusters of a Quarter at a step. -/
def worstSlack (s : State) (q k : Nat) : Option Int :=
  (List.range 72).foldl (fun (b : Option Int) c =>
    if counted s (72 * q + c) then
      match tfind (pmQ s q).minSlack (c * 8 + k), b with
      | some v, some w => some (min v w)
      | some v, none => some v
      | none, _ => b
    else b) none

/-- MAX_STEP of a Quarter falls below step `k`. -/
def dropMaxStep (s : State) (q k : Nat) : State := modPmQ s q (fun x => { x with maxStep := max x.maxStep (min 4 (k + 1)) })

/-- Raise AGE_OFFSET by `n` units of 5 mV within 0.85 V; whether it takes all of them. -/
def raiseOffset (s : State) (q k n : Nat) : State × Bool :=
  let room := (850 - (tget s.ident.vBase (5 * q + k) 0 + 5 * tget (pmQ s q).ageOffset k 0)) / 5
  (modPmQ s q (fun x => { x with ageOffset := tmod x.ageOffset k 0 (fun a => sat 255 (a + min n room)) }), n ≤ room)

/-- The re-plan of one step of a Quarter: ⌈s ÷ 0.5⌉ × 5 mV for a shortfall of s %. -/
def replanStep (s : State) (q k : Nat) : State :=
  match worstSlack s q k with
  | some w =>
    if tget (pmQ s q).ranStep k false && w < 60 then
      let (s, all) := raiseOffset s q k (cdiv (60 - w).toNat 5)
      if all then s else dropMaxStep s q k
    else s
  | none => s

/-- The ceilings in the registers, and the record of a MAX_STEP below the floor step (R443). -/
def setCeilings (s : State) : State :=
  (pmActives s).foldl (fun s q =>
    let s := if s.season.cfg.floorStep < (pmQ s q).maxStep then alm s (0xA000 + q) .ageing 4 [q, (pmQ s q).maxStep, s.season.cfg.floorStep] else s
    modPmQ s q (fun x => { x with ceiling := ceilingOf s q })) s

/-- The counted clusters of a Quarter short at its ceiling. -/
def shortClusters (s : State) (q : Nat) : List Nat :=
  (List.range 72).filter (fun c => counted s (72 * q + c) && (match tfind (pmQ s q).minSlack (c * 8 + ceilingOf s q) with | some v => v < 60 | none => false))

/-- The re-plan at 1,000 operating hours: offsets and MAX_STEP per step, the ceilings, the clusters short of slack. -/
def ageingReplan (s : State) : State :=
    let s1 := countHours s
    let left := s1.pm.toReplan * 3600000000000 - s1.pm.opNs
    let s1 := if s1.pm.toReplan = 0 then s1 else countHours { s1 with now := s1.now + left }
    let qs := [0, 1, 2, 3].filter (bit s.ident.present)
    let s1 := qs.foldl (fun s q => (List.range 5).foldl (fun s k => replanStep s q k) s) s1
    let s1 := setCeilings s1
    let short := qs.flatMap (fun q => (shortClusters s1 q).map (· + 72 * q))
    let s1 := short.foldl (fun s g =>
      { s with hEvents := s.hEvents ++ [{ atT := s.now, row := 3, unit := rClu g, frame := s.cal.frame }] }) s1
    modPm s1 (fun m => { m with toReplan := 1000, replans := sat 255 (m.replans + 1), short := short.length,
                                q := tmap m.q (fun x => { x with minSlack := [], ranStep := [] }) })

/-- AGEING_REPLAN: every 1,000 operating hours. -/
def execAgeingReplan (s : State) : Out :=
  if s.inReset || s.railsLow then done s s else done s (ageingReplan s)

/-! ## Season and start (R430, R438, R440) -/

/-- Power and thermal settings of the Season just applied. At the start the estimates are nominal unless the journal gave them, and the cap has
nothing to rise from. -/
def powerSeason (s : State) (start : Bool) : State :=
  let c := s.season.cfg
  let s := modPm s (fun m => { m with pwrLimit := none, rthJ := if m.rthNominal then c.rthJNom else m.rthJ, rthS := if m.rthNominal then c.rthSNom else m.rthS,
                                      lastFlow := s.now, flowPresent := m.flowPresent && c.flowMon })
  let s := if s.pm.lastGood.isNone || s.pm.coolantSrc then modPm s (fun m => { m with tc := heldCoolant s }) else s
  let s := setCeilings s
  let s := (pmInactives s).foldl (fun s q => modPmQ s q (fun x => { setVqc s 600 x with pendingStep := none })) s
  if start then modPm s (fun m => { m with capW := capTarget s, capRiseAt := s.now }) else moveCap s

/-- The step each active Quarter starts at: its ceiling where the Season cap allows it, else its lower bound. -/
def startSteps (s : State) (capped : List Nat) : State :=
  (pmActives s).foldl (fun s q => forceStep s q (if capped.contains q then lowerBound s else ceilingOf s q)) s

/-- The Quarters' steps at an epoch: a Quarter newly activated starts like one at boot, whether the cap allows its ceiling being free; one above
its ceiling comes down to it. In SURVIVAL all stay at 300 MHz. -/
def epochSteps (s : State) (was : List Nat) : State :=
  (pmActives s).foldl (fun s q =>
    if s.pm.state = 3 then forceStep s q 4
    else if was.contains q then (if (pmQ s q).step < ceilingOf s q then forceStep s q (ceilingOf s q) else s)
    else
      let (n, s) := draw s
      forceStep s q (if Config.freeValue n % 2 = 0 then ceilingOf s q else lowerBound s)) s

/-- The sweep of stage 6 at every boot but the first (R440, R442). -/
def bootSweep (s : State) (raises : List (Nat × Nat × Nat)) (short : List (Nat × Nat)) : State :=
  let s := raises.foldl (fun s r => if bit s.ident.present r.1 && r.2.1 < 5 then (raiseOffset s r.1 r.2.1 r.2.2).1 else s) s
  short.foldl (fun s r => if bit s.ident.present r.1 && r.2 < 5 then dropMaxStep s r.1 r.2 else s) s

/-! ## Reports (R444) -/

/-- Is any sensor marked failed? -/
def sensorFault (s : State) : Bool := s.pm.pairs.any (fun p => p.2.failA || p.2.failB)

/-- T_C in 0.5 °C, rounded down. -/
def tcHalf (s : State) : Int := s.pm.tc / 64

/-- Table 20.6 for the frame that ends. RTH_TREND needs an estimate 600 s old; before there is one the field is free (log 37). -/
def powerSection (s : State) : List Byte × State :=
  let m := s.pm
  let f := s.stats
  let (mean, s) := divFree s f.pSum f.pCount
  let (n, s) := draw s
  let trend : Nat := match m.rthHist.find? (fun x => x.1 + 600000000000 ≤ s.now) with
    | some x => twos 16 ((m.rthJ : Int) - x.2)
    | none => Config.freeValue n % 65536
  let warm := m.q.foldl (fun a p => a + b2n p.2.warmShort * 2 ^ p.1) 0
  (natLe 2 m.capW ++ natLe 2 (sat 0xFFFF mean) ++ natLe 2 m.peakX10 ++ natLe 1 (max f.pmStateMax m.state) ++
    natLe 1 (b2n m.flowPresent + 2 * b2n m.coolantSrc + 4 * b2n m.rthNominal + 8 * b2n (sensorFault s) + 16 * warm) ++
    natLe 2 m.rthJ ++ natLe 2 m.rthS ++ natLe 2 trend ++ natLe 2 (twos 16 (tcHalf s)) ++ natLe 2 (twos 16 m.tjMax) ++ natLe 2 (twos 16 (tsMax s)) ++
    [0, 1, 2, 3].flatMap (fun q => natLe 1 (if pmActive s q then (pmQ s q).step else 0xFF)) ++ natLe 2 f.stepChanges ++ natLe 2 f.survivalMs ++ List.replicate 4 0, s)

/-- HUB_PM_SFAIL_Q and HUB_PM_SFAIL_HUB. -/
def sfail (s : State) (lo n : Nat) : Nat :=
  (List.range n).foldl (fun a p => let x := tget s.pm.pairs (lo + p) {}; a + (b2n x.failA + 2 * b2n x.failB) * 4 ^ p) 0

/-- One Quarter of Table 20.7. -/
def quarterReport (s : State) (q : Nat) : List Byte :=
  let x := pmQ s q
  natLe 1 x.ceiling ++ natLe 1 x.maxStep ++ natLe 1 (b2n (x.warmX10 ≠ 0) + 2 * b2n x.warmShort) ++ [0] ++ natLe 2 x.vqc ++ natLe 2 x.currentX10 ++ natLe 2 x.powerX10 ++
    natLe 2 (twos 16 (tget s.pm.tj q 0)) ++ natLe 2 (twos 16 (tget s.pm.ts q 0)) ++ (List.range 5).flatMap (fun k => natLe 1 (tget x.ageOffset k 0)) ++ List.replicate 13 0

/-- Table 20.7. -/
def powerReport (s : State) : List Byte :=
  padTo 32 s.pm.powSection ++ [0, 1, 2, 3].flatMap (quarterReport s) ++ natLe 8 (sfail s 0 32) ++ natLe 1 (sfail s 32 4) ++ List.replicate 7 0 ++
    natLe 4 s.pm.opHours ++ natLe 2 s.pm.toReplan ++ natLe 2 s.pm.replans ++ natLe 2 s.pm.short ++ List.replicate 6 0 ++ List.replicate 64 0

/-- What the command tables say of PWR_STATUS. -/
def cmdPwrStatus : MbxCmd := { opcode := 0x0900, buf := 2, early := true }

/-- PWR_STATUS. -/
def execPwrStatus (e : SubEntry) (s : State) : Out :=
  mailbox cmdPwrStatus e (fun s => { st := bufOut s e (powerReport s) }) s

/-- PWR_LIMIT: 0 removes the limit; RANGE above the Season cap or below 20 W. -/
def pwrLimit (e : SubEntry) (s : State) : Answer :=
  let w := fld (parOf e) 0 2
  if w ≠ 0 && (w < 20 || s.season.cfg.capW < w) then refuse s stRange
  else
    let s1 := moveCap (modPm s (fun m => { m with pwrLimit := if w = 0 then none else some w }))
    { st := s1, result := natLe 2 s1.pm.capW }

/-- What the command tables say of PWR_LIMIT. -/
def cmdPwrLimit : MbxCmd := { opcode := 0x0901, used := [(0, 2)] }

/-- PWR_LIMIT. -/
def execPwrLimit (e : SubEntry) (s : State) : Out :=
  mailbox cmdPwrLimit e (pwrLimit e) s

end Sys2Proof.Machine
end

