-- ==== Sys2Proof/Machine/Seasons.lean ====
section
/-!
DEFINITION. Applying a Season (R28, R400), the commands that store, read and schedule Seasons (R399, R403), trigger outputs (R30), and the
surroundings report with the link measurements behind it (R398, Tables 18.4 and 21.9).
-/

namespace Sys2Proof.Machine

/-! ## The registers of a Season -/

/-- HUB_TRIG_CFG as a Season's trigger word gives it; from then on the pin is driven (R30, R451). -/
def trigCfg (w : Nat) (t : Trig) : Trig :=
  { t with en := bit w 31, pol := bit w 30, widthUs := bits w 29 20, offsetUs := bits w 19 0, driven := true }

/-- The RWL fields of one store controller. -/
def stcCfg (c : SeasonCfg) (die : Nat) (x : Stc) : Stc :=
  { x with xorCh := c.xor.take 5, xorBank := c.xor.drop 5, log2InvP := c.log2InvP, panicOn := c.panicOn, panicOff := c.panicOff,
           dlyTrim := c.dlyTrim.getD die 0, amberOn := c.amber, redOn := c.red }

/-- The RWL fields of one RGL instance; SLOW_REPORT_X256 is held in instance 0. -/
def rglCfg (c : SeasonCfg) (i : Nat) (r : Rgl) : Rgl :=
  let w (p : Nat) : Nat := c.tb.getD (p - 1) 0
  let tab {β : Type} (f : Nat → β) : Tbl β := [(1, f 1), (2, f 2), (3, f 3)]
  { r with baseRT := bits c.otBase 31 24, baseSAF := bits c.otBase 23 16, baseSTD := bits c.otBase 15 8, baseBKG := bits c.otBase 7 0,
           stdMin := bits c.otMin 15 8, bkgMin := bits c.otMin 7 0, tbEn := tab (fun p => bit (w p) 31), tbBurst := tab (fun p => bits (w p) 27 16),
           tbRate := tab (fun p => bits (w p) 15 0), slowReport := if i = 0 then c.slow else 0 }

/-- The fusion engine with a Season's sensor table and parameters. -/
def fusCfg (p e : Fus) : Fus :=
  { e with sensors := p.sensors, gatePos := p.gatePos, gatePosVel := p.gatePosVel, qJerk := p.qJerk, initVarV := p.initVarV, initVarA := p.initVarA,
           missLimit := p.missLimit, traceLimit := p.traceLimit, contestClear := p.contestClear, freeMargin := p.freeMargin,
           freeMaxDtMs := p.freeMaxDtMs, egoMinInliers := p.egoMinInliers, egoInflate := p.egoInflate, birthM := p.birthM, birthN := p.birthN,
           confM2 := p.confM2, confM1 := p.confM1, confN := p.confN, egoCov := p.egoCov }

/-- A stream's definition, with nothing of its state. -/
def Stream.bare (t : Stream) : Stream :=
  { t with seq := 0, damaged := 0, overflow := 0, dropRetain := 0, late := 0, opened := 0, cur := none, closing := [], latest := none, prev := none,
           snap := none, prevSnapSeq := 0, damagedSince := false }

/-- The streams of a Season: one whose definition stays goes on, another starts afresh (DEDUCED, log 40). -/
def streamsCfg (s : State) (c : SeasonCfg) : Tbl Stream :=
  c.streams.foldl (fun t p => tput t p.1 (if (streamOf s p.1).bare = p.2 then streamOf s p.1 else p.2)) []

/-- The allocation units of a Season's staging rings, in units that are free or were INGEST before. -/
def stageUnits (s : State) (c : SeasonCfg) : List Nat :=
  (stagePlaces c (fun u => 4 = ownTag s (0x11000000 + u) || 7 = ownTag s (0x11000000 + u))).flatMap (fun p =>
    match p with
    | some (u, n) => (List.range n).map (fun i => 0x11000000 + u + i)
    | none => [])

/-- The allocation units of a Season's rings, of its snapshot table and of its staging rings, which are INGEST (R167, R220). -/
def ringUnits (s : State) (c : SeasonCfg) : List Nat :=
  c.streams.flatMap (fun p => unitsOf p.2.ringBase (p.2.slots * p.2.stride)) ++ unitsOf c.tableBase 8192 ++ stageUnits s c

/-- The units of the old rings are freed, those of the new ones tagged INGEST, at once. -/
def retagRings (s : State) (c : SeasonCfg) : State :=
  let new := (ringUnits s c).filter (fun u => fixedTag u ≠ 5)
  let old := (s.tags.filter (fun p => p.2 = 4 && !new.contains p.1)).map (·.1)
  let s := old.foldl (fun s u => { clearUnit s u with tags := tdel s.tags u }) s
  new.foldl (fun s u => { s with tags := tput s.tags u 4, tagPend := s.tagPend.filter (fun p => p.1 ≠ u) }) s

/-- R400 step 1: the RWL fields of every block, and what the Season configures beside them. A change of the sensor table or fusion parameters
clears the tracks (R247). -/
def writeRwl (s : State) (c : SeasonCfg) : State :=
  let s := retagRings s c
  let cal : CalS := { s.cal with periodReg := c.period, eveGuardUs := c.guardUs, phaseUs := c.phaseUs, holidayUs := c.holidayUs }
  let trig : Tbl Trig := (List.range 12).foldl (fun t k => tmod t k {} (trigCfg (c.trig.getD k 0))) s.trig
  let stc : Tbl Stc := [0, 1, 2, 3].foldl (fun t d => tmod t d {} (stcCfg c d)) s.stc
  let rgl : Tbl Rgl := [0, 1, 2, 3, 4].foldl (fun t i => tmod t i {} (rglCfg c i)) s.rgl
  let f := fusCfg c.fus s.fus
  let s := { s with cal := cal, trig := trig, stc := stc, rgl := rgl, fus := if f = s.fus then f else fusCold f, streams := streamsCfg s c }
  let s := { s with pln := { s.pln with stampMargin := c.stampMargin }, time := { s.time with timePort := c.timePort } }
  let s := { s with season := { s.season with cfg := c, applied := true }, host := { s.host with season := c.num } }
  [0, 1, 2, 3].foldl (fun s d => setDelays s d (stcOf s d).band) s

/-! ## Preload, maps and plans (R400) -/

/-- An item that is left out: an Almanac error record with its kind (0 region, 1 map, 2 plan), its number, and the status and reason. -/
def itemRefused (s : State) (kind item status reason : Nat) : State := alm s 0x0000 .seasonItem 3 [kind, item, status, reason]

/-- Create and fill a preload weight region, or the status with which it is refused. A region that an earlier application left in the same place
stays as it is: a change at an epoch moves no live data (R197; DESIGN CHOICE, log 40). -/
def preloadRegion (s : State) (id : Nat) (r : Region) (bs : List Byte) : State × Nat :=
  let old := tget s.regions id {}
  if old.valid && old.base = r.base && old.size = r.size && old.reserve = r.reserve && old.log2Tile = r.log2Tile && old.part = r.part then (s, stOk)
  else if 65536 ≤ id || r.log2Tile < 8 || 16 < r.log2Tile || 3 < r.part || old.valid || r.size < bs.length then (s, stRange)
  else if overlapsRegion s r (fun x => x.mapSlot.isSome) then (s, stInUse)
  else if !regionPlaced s r || overlapsRegion s r (fun _ => true) then (s, stRange)
  else if 1024 ≤ (s.regions.filter (fun p => p.2.valid && p.2.mapSlot.isNone)).length then (s, stNoSlot)
  else match openRegion s id r with
    | none => (s, stRange)
    | some s1 => (writeTiles (applyTags s1) r 0 1 (padTo r.size bs), stOk)

/-- Load a preload map, or refuse it: a slot in use, unless it holds just this map, or the detail code of its first failing check. -/
def preloadMap (s : State) (m : Nat × Nat × Nat × Nat × List Byte) : State × Nat × Nat :=
  let (k, part, base, reserve, img) := m
  let r := tget s.regions (slotKey k) {}
  if (slotOf s k).loaded && (slotOf s k).image = img && r.base = base && r.reserve = reserve then (s, stOk, 0)
  else if slotInUse s k then (s, stInUse, 0)
  else match loadMap s k part base reserve img with
    | (s1, none) => (applyTags s1, stOk, 0)
    | (s1, some (d, _)) => (s1, stRange, d)

/-- R400 step 3: the maps, then the lowest loaded slot becomes active; a Season without maps leaves the slots as they are. -/
def preloadMaps (s : State) (c : SeasonCfg) : State :=
  let s := c.preMaps.foldl (fun s m =>
    let (s1, st, d) := preloadMap s m
    if st = stOk then s1 else itemRefused s1 1 m.1 st d) s
  if c.preMaps.isEmpty then s
  else match [0, 1].find? (fun k => (slotOf s k).loaded) with
    | some k => { s with pln := { s.pln with active := k, mapValid := true, select := [] } }
    | none => s

/-- Load and admit one plan of the PLANS section; a refused one is unloaded. -/
def preloadPlan (s : State) (i : Nat) (img : List Byte) : State :=
  let (s1, st) := loadPlan s img
  if st ≠ stOk then itemRefused s 2 i st 0
  else match planOf s1 (ph img 8 8) with
    | none => s1
    | some p =>
      match admitPlan s1 p with
      | (s2, none) => s2
      | (_, some x) => itemRefused (dropPlan s1 p.planId) 2 i stPlanRefused x.reason

/-- Apply a Season (R400). Expert access ends at any Season change (R381). -/
def applySeason (s : State) (c : SeasonCfg) : State :=
  let s := writeRwl (expertClose s 2) c
  let s := c.preload.foldl (fun s p =>
    let (s1, st) := preloadRegion s p.1 p.2.1 p.2.2
    if st = stOk then s1 else itemRefused s 0 p.1 st 0) s
  let s := preloadMaps s c
  (c.plans.zipIdx).foldl (fun s p => preloadPlan s p.2 p.1) s

/-! ## SET_SEASON, SEASON_STORE, SEASON_READ (R399, R403) -/

/-- An update, or the way back from one, is scheduled for an epoch. -/
def updEpochPending (s : State) : Bool := s.upd.epoch.isSome || s.upd.fallback.isSome

/-- SET_SEASON, after the checks of R365. -/
def setSeason (e : SubEntry) (s : State) : Answer :=
  let k := parByte e 0
  let f := fld (parOf e) 1 6
  match seasonOf s k with
  | none => refuse s stRange
  | some c =>
    if c.xor ≠ s.season.cfg.xor || c.dlyTrim ≠ s.season.cfg.dlyTrim then refuse s stRestart
    else if s.host.serviceOnly && k ≠ 3 then refuse s stUnqualified
    else
      let n := if f = 0 then s.cal.frame + 2 else f
      { st := { s with season := { s.season with pending := some (k, n) } }, result := natLe 6 n }

/-- What the command tables say of SET_SEASON. -/
def cmdSetSeason (s : State) : MbxCmd :=
  { opcode := 0x0102, used := [(0, 7)],
    ranged := fun p => fld p 0 1 < 4 && (fld p 1 6 = 0 || s.cal.frame + 2 ≤ fld p 1 6),
    busy := fun s _ => s.season.pending.isSome || updEpochPending s }

/-- SET_SEASON. EPOCH is 0 or at least two frames ahead. -/
def execSetSeason (e : SubEntry) (s : State) : Out :=
  mailbox (cmdSetSeason s) e (setSeason e) s

/-- What a failed flash write leaves of a slot: the spec does not say, so whether the old image stays, and how much of the new one is
there, is free (log 40). -/
def tornSlot (s : State) (k : Nat) (img : List Byte) : State :=
  let (n, s) := draw s
  let (m, s) := draw s
  if Config.freeValue n % 2 = 0 then s
  else { s with season := { s.season with slots := tput s.season.slots k (img.take (Config.freeValue m % (img.length + 1))) } }

/-- SEASON_STORE, after the checks of R365. -/
def seasonStore (e : SubEntry) (flashFail : Bool) (s : State) : Answer :=
  let k := parByte e 0
  let img := bufAll s e
  let d := seasonBadBy (unitHeld s) s k img
  if d ≠ 0 then refuse s stRange (natLe 1 d)
  else if k = s.season.cfg.num || s.season.pending.any (fun p => p.1 = k) then refuse s stInUse
  else if flashFail then refuse (tornSlot s k img) stFlashFail
  else { st := { s with season := { s.season with slots := tput s.season.slots k img } }, result := natLe 1 0 }

/-- What the command tables say of SEASON_STORE. -/
def cmdSeasonStore : MbxCmd :=
  { opcode := 0x0103, used := [(0, 1)], buf := 1,
    ranged := fun p => fld p 0 1 < 4,
    busy := fun s _ => 2 ≤ s.upd.state && s.upd.state ≤ 4 }

/-- SEASON_STORE; from the load of an update until its window ends it is refused with BUSY (R418). -/
def execSeasonStore (e : SubEntry) (flashFail : Bool) (s : State) : Out :=
  mailbox cmdSeasonStore e (seasonStore e flashFail) s

/-- What the command tables say of SEASON_READ. -/
def cmdSeasonRead : MbxCmd := { opcode := 0x0104, used := [(0, 1)], early := true, buf := 2, ranged := fun p => fld p 0 1 < 4 }

/-- SEASON_READ: the stored image unchanged; an erased slot holds none. -/
def execSeasonRead (e : SubEntry) (s : State) : Out :=
  mailbox cmdSeasonRead e
    (fun s => { st := bufOut s e ((slotImage s (parByte e 0)).getD []) }) s

/-! ## Trigger outputs (R30) -/

/-- TRIG_PULSE_START: at Calend + OFFSET_US of the frame, once, an enabled trigger goes active. -/
def execTrigPulseStart (k : Nat) (s : State) : Out :=
  let t := tget s.trig k {}
  let due := s.cal.calend + t.offsetUs * 1000
  if 12 ≤ k || !t.en || !t.driven || t.active || s.cal.frame = 0 || (t.pulseStart = due && due ≠ 0) || s.cal.next ≤ due then done s s
  else done s { s with now := max s.now due, trig := tput s.trig k { t with active := true, pulseStart := due } }

/-- TRIG_PULSE_END: after WIDTH_US, or at the next Calend if that is earlier. -/
def execTrigPulseEnd (k : Nat) (s : State) : Out :=
  let t := tget s.trig k {}
  let due := min (t.pulseStart + t.widthUs * 1000) s.cal.next
  if !t.active then done s s else done s { s with now := max s.now due, trig := tput s.trig k { t with active := false } }

/-! ## Links and the surroundings report (R398) -/

/-- LENGTH_MM of a link from its loss in 0.1 dB (Table 21.9), rounded down and never below 0. -/
def lengthMm (link : Nat) (m : LinkMeasure) : Nat :=
  if link < 12 then (if m.rate = 0 then 0 else (m.lossX10 - 5) * 37500 / m.rate)
  else if link < 20 then (m.lossX10 - 10) * 5
  else
    let u := match m.rate with | 1 => 5 | 2 => 10 | 3 => 16 | 4 => 32 | 5 => 64 | _ => 0
    if u = 0 then 0 else (64 * m.lossX10 - 20 * u) * 20 / (9 * u)

/-- LINK_TRAINING: the measurements of a link as it trains. The PCIe endpoint then answers; with Configuration Request Retry Status until
stage 2 ends (R389, R392). -/
def execLinkTraining (link : Nat) (m : LinkMeasure) (s : State) : Out :=
  if s.inReset || s.railsLow || !(link < 12 || (16 ≤ link && link < 20) || link = 32) then done s s
  else
    let s1 := modLink s link (fun l =>
      { l with up := l.up || decide (12 ≤ link), lanes := m.lanes, rate := m.rate, skewPs := m.skewPs, lossX10 := m.lossX10, lengthMm := lengthMm link m,
               pSpeed := m.pSpeed, pWidth := m.pWidth, lp11 := m.lp11 })
    done s (if link ≠ 32 then s1
      else { s1 with host := { s1.host with linkUp := true, crs := s.host.bootError = 0 && s.host.bootStage < 3 } })

/-- ETH_LINK_DOWN. -/
def execEthLinkDown (mac : Nat) (s : State) : Out :=
  if 4 ≤ mac then done s s else done s (modLink s (16 + mac) (fun l => { l with up := false }))

/-- The measurements of a link. -/
def linkOf (s : State) (k : Nat) : LinkS := tget s.links k {}

/-- One rail of Table 18.4. No command brings the readings, so they are free (log 40). -/
def railEntry (s : State) : List Byte × State :=
  let (a, s) := draw s
  let (b, s) := draw s
  let (c, s) := draw s
  let (d, s) := draw s
  let w (n : Nat) : List Byte := natLe 2 (Config.freeValue n % 65536)
  (w a ++ w b ++ w c ++ natLe 2 (Config.freeValue d % 2), s)

/-- One CSI-2 port. -/
def csiEntry (l : LinkS) : List Byte :=
  natLe 1 (b2n l.lp11 + 2 * b2n l.up) ++ natLe 1 l.lanes ++ natLe 2 l.rate ++ natLe 2 l.skewPs ++ natLe 2 l.lossX10 ++ natLe 2 l.lengthMm ++ natLe 2 0 ++
    natLe 4 l.errors

/-- One MAC. -/
def macEntry (l : LinkS) (time : Bool) : List Byte :=
  natLe 1 (b2n l.up + 2 * b2n time) ++ [0] ++ natLe 2 l.lossX10 ++ natLe 2 l.lengthMm ++ List.replicate 6 0 ++ natLe 4 l.errors

/-- The 512 bytes of Table 18.4. The coolant sensor answers while its reading is used; which regulators answer on AVSBus is free once they are
programmed (log 40). -/
def surroundings (s : State) : List Byte × State :=
  let (rails, s) := (List.range 13).foldl (fun (x : List Byte × State) _ => let (b, s) := railEntry x.2; (x.1 ++ b, s)) (([] : List Byte), s)
  let (n, s) := draw s
  let p := linkOf s 32
  let board := b2n (s.pm.lastGood.isSome && !s.pm.coolantSrc) + 2 * b2n s.pm.flowPresent +
    4 * (if s.season.applied then Config.freeValue n % 16 else 0)
  let cool : Int := match s.pm.lastGood with | some t => t / 64 | none => 0
  (natLe 4 0x53525553 ++ natLe 2 1 ++ [0, 0] ++ natLe 8 s.now ++ natLe 6 s.cal.frame ++ List.replicate 10 0 ++ rails ++ List.replicate 8 0 ++
    (List.range 12).flatMap (fun k => csiEntry (linkOf s k)) ++
    (List.range 4).flatMap (fun k => macEntry (linkOf s (16 + k)) (s.season.applied && s.time.timePort = k)) ++
    natLe 1 p.rate ++ natLe 1 p.lanes ++ natLe 1 p.pSpeed ++ natLe 1 p.pWidth ++ natLe 2 p.lossX10 ++ natLe 2 p.lengthMm ++ natLe 4 0 ++ natLe 4 p.errors ++
    natLe 2 (b2n s.time.gmPresent + 2 * b2n s.time.holdover) ++ natLe 2 s.time.stepsRemoved ++ natLe 4 0 ++ natLe 8 s.time.gmId ++
    natLe 8 (twos 64 s.time.offset) ++ natLe 8 0 ++
    natLe 2 board ++ natLe 2 (twos 16 cool) ++ natLe 4 s.flash.mib ++ List.replicate 24 0 ++ List.replicate 32 0, s)

/-- GET_SURROUNDINGS. -/
def getSurroundings (e : SubEntry) (s : State) : Answer :=
  let (b, s1) := surroundings s
  { st := bufOut s1 e b }

/-- What the command tables say of GET_SURROUNDINGS. -/
def cmdGetSurroundings : MbxCmd := { opcode := 0x0105, early := true, buf := 2 }

/-- GET_SURROUNDINGS. -/
def execGetSurroundings (e : SubEntry) (s : State) : Out :=
  mailbox cmdGetSurroundings e (getSurroundings e) s

end Sys2Proof.Machine
end

