-- ==== Sys2Proof/Machine/FwImage.lean ====
section
/-!
DEFINITION. Update images (R404–R406): header, signature block, components, the checks of Table 19.4, and the boot directory (R409).
-/

namespace Sys2Proof.Machine

/-! ## The image -/

/-- The 1,280-byte header. -/
def fwHeader (img : List Byte) : List Byte := slice img 0 1280
/-- End of the signature block, where payloads may start. -/
def fwBodyStart : Nat := 18432
/-- FLAGS.BOUND. -/
def fwBound (h : List Byte) : Bool := bit (fld h 0x0A 2) 0
/-- FLAGS.RAISE_FLOOR. -/
def fwRaise (h : List Byte) : Bool := bit (fld h 0x0A 2) 1
/-- SECURITY_VERSION. -/
def fwSecVer (h : List Byte) : Nat := fld h 0x0C 4
/-- VERSION. -/
def fwVersion (h : List Byte) : Nat := fld h 0x18 8
/-- IMAGE_SIZE. -/
def fwSize (h : List Byte) : Nat := fld h 0x20 4
/-- The confirmation window W in frames (R416). -/
def fwWindow (h : List Byte) : Nat := let w := fld h 0x24 2; if w = 0 then 2400 else w
/-- KEY_INDEX of the signature block. -/
def fwKey (img : List Byte) : Nat := fld img 1280 1
/-- The RSA modulus. -/
def fwModulus (img : List Byte) : List Byte := slice img 1288 384
/-- The SLH-DSA public key. -/
def fwSlhKey (img : List Byte) : List Byte := slice img 1672 48

/-- A component entry (Table 19.2). -/
structure FwComp where
  type : Nat
  stateFormat : Nat
  stateMin : Nat
  offset : Nat
  size : Nat
  digest : List Byte
deriving DecidableEq, Repr

/-- The component entries in use. -/
def fwComps (h : List Byte) : List FwComp :=
  ((List.range 16).map (fun i =>
    let o := 256 + 64 * i
    { type := fld h o 1, stateFormat := fld h (o + 2) 2, stateMin := fld h (o + 4) 2, offset := fld h (o + 8) 4, size := fld h (o + 12) 4,
      digest := slice h (o + 16) 48 : FwComp })).filter (fun c => c.type ≠ 0)

/-- The entry of a type. -/
def fwComp (h : List Byte) (t : Nat) : Option FwComp := (fwComps h).find? (fun c => c.type = t)

/-- A component's payload. -/
def fwPayload (img : List Byte) (c : FwComp) : List Byte := slice img c.offset c.size

/-- Does a component's payload match its DIGEST? -/
def fwDigestOk (img : List Byte) (c : FwComp) : Bool := sha384 (fwPayload img c) = c.digest

/-! ## Table 19.4 -/

/-- Largest SIZE of a type (Table 19.3). -/
def fwLimit : Nat → Nat
  | 1 => 1536 * 1024 | 2 => 384 * 1024 | 3 => 384 * 1024 | 4 => 32 * 1024 | 5 => 64 * 1024 | 6 => 256 * 1024 | 7 => 64 * 1024 | 8 => 16 * 1024
  | _ => 0

/-- Step 1. -/
def fwFormOk (h : List Byte) : Bool :=
  fld h 0 4 = 0x4D495551 && fld h 4 2 = 1 && fld h 6 2 = 1280 && fwBodyStart ≤ fwSize h && fwSize h ≤ 16777216
/-- Step 2. -/
def fwTypeOk (s : State) (h : List Byte) : Bool :=
  let t := fld h 8 2
  bits t 15 8 = 0x51 && bits t 3 0 = 0 && (bits t 7 4 = 0 || bits t 7 4 = bits s.ident.hwType 7 4)
/-- Step 3. -/
def fwBindOk (s : State) (h : List Byte) : Bool := !fwBound h || fld h 0x10 8 = s.ident.serial
/-- Step 4. -/
def fwKeyOk (s : State) (img : List Byte) : Bool :=
  fwKey img < 4 && !tget s.ident.keyRevoked (fwKey img) false && tget s.ident.keyDigest (fwKey img) [] = sha384 (fwModulus img ++ fwSlhKey img)
/-- Step 5. -/
def fwRsaOk (img : List Byte) : Bool := rsaPssOk (fwModulus img) (fwHeader img) (slice img 1720 384)
/-- Step 6. -/
def fwSlhOk (img : List Byte) : Bool := Config.slhOk (fwSlhKey img) (fwHeader img) (slice img 2104 16224)
/-- The floor: the number of blown bits (R410). -/
def floorOf (s : State) : Nat := ((List.range 64).filter (bit s.ident.floor)).length
/-- Step 7. -/
def fwFloorOk (s : State) (h : List Byte) : Bool := floorOf s ≤ fwSecVer h
/-- Step 8: each type at most once and type 0x01 always (R405), sizes within Table 19.3, payloads at multiples of 4,096 after the signature block,
within IMAGE_SIZE, apart from each other. -/
def fwCompsOk (h : List Byte) : Bool :=
  let cs := fwComps h
  cs.all (fun c => 1 ≤ c.type && c.type ≤ 8 && c.size ≤ fwLimit c.type && c.offset % 4096 = 0 && fwBodyStart ≤ c.offset && c.offset + c.size ≤ fwSize h) &&
    (fwComp h 1).isSome && pairwiseNot (fun a b => a.type = b.type || rangesMeet a.offset a.size b.offset b.size) cs

/-- The status of the first of steps 1–8 that fails, and its number; none where all pass. -/
def fwFail (s : State) (img : List Byte) : Option (Nat × Nat) :=
  let h := fwHeader img
  if !fwFormOk h then some (stRange, 1)
  else if !fwTypeOk s h then some (stAuthFail, 2)
  else if !fwBindOk s h then some (stAuthFail, 3)
  else if !fwKeyOk s img then some (stAuthFail, 4)
  else if !fwRsaOk img then some (stAuthFail, 5)
  else if !fwSlhOk img then some (stAuthFail, 6)
  else if !fwFloorOk s h then some (stAuthFail, 7)
  else if !fwCompsOk h then some (stRange, 8)
  else none

/-- The boot ROM's checks of a bank: steps 1–6, then the digests of types 0x01 to 0x03 (R409). -/
def bankPasses (s : State) (img : List Byte) : Bool :=
  let h := fwHeader img
  fwFormOk h && fwTypeOk s h && fwBindOk s h && fwKeyOk s img && fwRsaOk img && fwSlhOk img &&
    ((fwComps h).filter (fun c => c.type ≤ 3)).all (fwDigestOk img)

/-! ## The boot directory (R409) -/

/-- A bank of the boot directory. -/
def bankOf (s : State) (b : Nat) : BootBank := tget s.upd.banks b {}

/-- Change the firmware update's state. -/
def modUpd (s : State) (f : Upd → Upd) : State := { s with upd := f s.upd }

/-- The directory fields of the banks. -/
def dirOf (banks : Tbl BootBank) : Tbl DirBank :=
  banks.map (fun p => (p.1, ({ state := p.2.state, attempts := p.2.attempts, version := p.2.version, digest := p.2.digest } : DirBank)))

/-- One write of the boot directory: the older copy is rewritten with WRITE_COUNT one higher, so that the newer one becomes the older. -/
def writeDir (s : State) (f : Tbl BootBank → Tbl BootBank) : State :=
  modUpd s (fun u => { u with banks := f u.banks, writeCount := (u.writeCount + 1) % 2 ^ 64, olderDir := some (dirOf u.banks), olderCount := u.writeCount })

/-- The boot ROM finds the newer copy torn: the older one stands (R409); where its CRC fails too, no bank is known. -/
def useOlder (s : State) : State :=
  let old := s.upd.olderDir.getD []
  let put (b : Nat) (t : Tbl BootBank) : Tbl BootBank :=
    let d := tget old b {}
    tmod t b {} (fun x => { x with state := d.state, attempts := d.attempts, version := d.version, digest := d.digest })
  modUpd s (fun u => { u with banks := put 1 (put 0 u.banks), writeCount := u.olderCount, olderDir := none })

/-- A write that sets one bank's STATE and ATTEMPTS. -/
def setBank (s : State) (b state attempts : Nat) : State :=
  writeDir s (fun t => tmod t b {} (fun x => { x with state := state, attempts := attempts }))

/-- The 256 bytes of the newer copy (Table 19.5). -/
def dirCopy (s : State) : List Byte :=
  let bank (b : Nat) : List Byte :=
    let x := bankOf s b
    natLe 1 x.state ++ natLe 1 x.attempts ++ List.replicate 6 0 ++ natLe 8 x.version ++ padTo 16 x.digest
  let b := padTo 252 (natLe 4 0x52494442 ++ natLe 4 0 ++ natLe 8 s.upd.writeCount ++ bank 0 ++ bank 1)
  b ++ natLe 4 (crc32c b)

/-- The payloads that run from a bank: those its image carries, over those that were running when it was loaded (R405). -/
def bankComponents (x : BootBank) : Tbl (List Byte) :=
  (fwComps (fwHeader x.image)).foldl (fun t c => tput t c.type (fwPayload x.image c)) x.kept

end Sys2Proof.Machine
end

