-- ==== Sys2Proof/Machine/Settings.lean ====
section
/-!
DEFINITION. The settings journal (R396, R397, R415): the keys that chapters 14 and 20 own, the writing of changed keys, and their restoring.
-/

namespace Sys2Proof.Machine

/-! ## Keys and formats -/

/-- KEY of a class and index. -/
def settingKey (cls idx : Nat) : Nat := cls * 2 ^ 24 + idx

/-- The running Xiuth firmware. -/
def xiuthOf (s : State) : List Byte := tget s.upd.components 1 []

/-- Does the running image support a FORMAT of a class? -/
def settingFmtOk (s : State) (cls fmt : Nat) : Bool := fmt = Config.settingsFmt (xiuthOf s) cls || Config.settingsAlso (xiuthOf s) cls fmt

/-- VALUE of a cluster's health (R327): state, DEFERRED, score, clean count, passes, failures, and what a fence and a hard quarantine keep beside
them. -/
def healthValue (h : Health) : List Nat :=
  [stateCode h.state, b2n h.deferred, h.score, h.clean, h.passes, h.fails, stateCode h.prior, b2n h.hardQ]

/-- VALUE of a Quarter's ageing (R443): AGE_OFFSET per step, MAX_STEP and the operating hours. -/
def ageValue (s : State) (q : Nat) : List Nat :=
  let x := pmQ s q
  (List.range 5).map (fun k => tget x.ageOffset k 0) ++ [x.maxStep, s.pm.opHours]

/-- The keys journalled at each change, with their values. -/
def settingsNow (s : State) : List (Nat × Nat × List Nat) :=
  let qs := List.range 4
  (qs.flatMap (fun q => (List.range 72).map (fun c => (1, 72 * q + c, healthValue (healthOf s (72 * q + c)))))) ++ qs.map (fun q => (3, q, ageValue s q))

/-- The latest entry of a key: the one with the highest WRITE_COUNT whose CRC passes, of both halves (R397). -/
def latestEntry (f : Flash) (key : Nat) : Option JKey :=
  (tget f.halves 0 [] ++ tget f.halves 1 []).foldl (fun (b : Option JKey) j =>
    if j.key ≠ key || !j.good then b
    else match b with | some x => if x.writeCount < j.writeCount then some j else b | none => some j) none

/-- The latest entries of all keys. -/
def latestEntries (f : Flash) : List JKey :=
  (((tget f.halves 0 [] ++ tget f.halves 1 []).map (·.key)).eraseDups).filterMap (latestEntry f)

/-- Is the latest entry of a key other than this value, or one the image cannot use? -/
def settingStale (s : State) (cls idx : Nat) (v : List Nat) : Bool :=
  match latestEntry s.flash (settingKey cls idx) with
  | none => true
  | some j => !settingFmtOk s cls j.format || j.value ≠ v

/-! ## Writing (R396) -/

/-- Compaction at 24,576 entries, as R351 has it: the latest entry of every key goes into the other half, which becomes active, and the old half
is erased. -/
def compactSettings (s : State) : State :=
  let f := s.flash
  if (tget f.halves f.half []).length < 24576 then s
  else { s with flash := { f with halves := [(1 - f.half, latestEntries f)], half := 1 - f.half } }

/-- Write one entry. -/
def writeSetting (s : State) (cls idx : Nat) (v : List Nat) : State :=
  let f := s.flash
  let n := (f.count + 1) % 2 ^ 64
  let j : JKey := { key := settingKey cls idx, writeCount := n, format := Config.settingsFmt (xiuthOf s) cls, value := v }
  compactSettings { s with flash := { f with halves := tput f.halves f.half (tget f.halves f.half [] ++ [j]), count := n } }

/-- Every key that has changed is written once, with its last value. -/
def writeSettings (s : State) : State :=
  (settingsNow s).foldl (fun s x => if settingStale s x.1 x.2.1 x.2.2 then writeSetting s x.1 x.2.1 x.2.2 else s) s

/-- SETTINGS_JOURNAL_WRITE: from the time the settings are restored. -/
def execSettingsJournalWrite (s : State) : Out :=
  if s.inReset || s.railsLow || s.host.bootStage < 4 then done s s else done s (writeSettings s)

/-- RTH_JOURNAL: both thermal-resistance estimates, class 0x02 (R429). -/
def execRthJournal (s : State) : Out :=
  if s.inReset || s.railsLow || !s.season.applied then done s s else done s (writeSetting s 2 0 [s.pm.rthJ, s.pm.rthS])

/-! ## Restoring (R397) -/

/-- The restored value of a key; an entry of a FORMAT the image does not support is treated as missing, with a warning that names the key. -/
def readSetting (s : State) (cls idx : Nat) : State × Option (List Nat) × Bool :=
  match latestEntry s.flash (settingKey cls idx) with
  | none => (s, none, false)
  | some j =>
    if !settingFmtOk s cls j.format then (alm s 0x0000 .settingsFormat 2 [settingKey cls idx, j.format], none, true)
    else (s, some j.value, false)

/-- A cluster state from its code. -/
def stateOfCode : Nat → CluState
  | 0 => .inService | 1 => .inTest | 2 => .probation | 3 => .quarantined | 4 => .fenced | 5 => .restricted | _ => .retired

/-- The health a VALUE restores: a deferred expulsion is carried out, a fence and a test end (R327). -/
def healthOfValue (v : List Nat) : Health :=
  let st := stateOfCode (v.getD 0 0)
  let prior := stateOfCode (v.getD 6 0)
  let st := if v.getD 1 0 = 1 then .quarantined else match st with | .fenced => prior | .inTest => prior | x => x
  { state := st, score := v.getD 2 0, clean := v.getD 3 0, passes := v.getD 4 0, fails := v.getD 5 0, prior := prior, hardQ := v.getD 7 0 = 1 }

/-- Restore one cluster; without a usable entry it starts at score 900 in IN_SERVICE, with a warning record. -/
def restoreHealth (s : State) (g : Nat) : State :=
  match readSetting s 1 g with
  | (s1, some v, _) => modHealth s1 g (fun _ => healthOfValue v)
  | (s1, none, told) =>
    let s2 := modHealth s1 g (fun _ => { state := .inService, score := 900 })
    if told then s2 else alm s2 (srcClu g) .health 2 [8, 900]

/-- Restore the ageing of a Quarter; without an entry the factory baseline (R440). -/
def restoreAge (s : State) (q : Nat) : State :=
  match readSetting s 3 q with
  | (s1, some v, _) =>
    let s2 := modPmQ s1 q (fun x => { x with ageOffset := (List.range 5).map (fun k => (k, v.getD k 0)), maxStep := v.getD 5 0 })
    let hrs := max s2.pm.opHours (v.getD 6 0)
    modPm s2 (fun m => { m with opHours := hrs, toReplan := 1000 - hrs % 1000, aged := true })
  | (s1, none, _) => modPmQ s1 q (fun x => { x with ageOffset := [], maxStep := 0 })

/-- Restore the thermal-resistance estimates; without an entry they are nominal (R429). -/
def restoreRth (s : State) : State :=
  match readSetting s 2 0 with
  | (s1, some v, _) => modPm s1 (fun m => { m with rthJ := v.getD 0 0, rthS := v.getD 1 0, rthNominal := false })
  | (s1, none, _) => modPm s1 (fun m => { m with rthNominal := true })

/-- Restore every class. -/
def restoreSettings (s : State) : State :=
  restoreRth ((List.range 4).foldl restoreAge ((List.range 288).foldl restoreHealth (modPm s (fun m => { m with toReplan := 1000 }))))

/-! ## Keys of a FORMAT that a new Xiuth does not support (R415) -/

/-- The entries of such keys. -/
def unsupportedKeys (s : State) : List JKey := (latestEntries s.flash).filter (fun j => !settingFmtOk s (j.key / 2 ^ 24) j.format)

/-- Write a key with the value it has now. Before a Season is applied the thermal resistances have no default yet: RTH_JOURNAL writes them. -/
def rewriteKey (s : State) (key : Nat) : State :=
  let idx := key % 2 ^ 24
  match key / 2 ^ 24 with
  | 1 => writeSetting s 1 idx (healthValue (healthOf s idx))
  | 2 => if s.season.applied then writeSetting s 2 idx [s.pm.rthJ, s.pm.rthS] else s
  | 3 => writeSetting s 3 idx (ageValue s idx)
  | c => writeSetting s c idx []

/-- The keys are written in the new format, and one info record gives their number. -/
def rewriteKeys (s : State) (bad : List JKey) : State :=
  alm (bad.foldl (fun s j => rewriteKey s j.key) s) 0x0000 .settingsReset 1 [bad.length]

end Sys2Proof.Machine
end

