-- ==== Sys2Proof/Machine/Boot.lean ====
section
/-!
DEFINITION. Resets and the boot stages (R385–R394, R402, R409–R411, R419): each stage is one command, which acts only at its stage.
-/

namespace Sys2Proof.Machine

/-! ## Resets (R386–R388) -/

/-- An island over a reset of the device: one whose reset input is released goes on running, held under RESET until Ready, with the holds it had
and its inputs; its counters and time start again (R295, R386; log 38). -/
def islandAfter (x : Island) : Island :=
  if x.running then
    { running := true, hReset := true, hCmpFail := x.hCmpFail, hPeerLost := x.hPeerLost, hBoard := x.hBoard, hDebug := x.hDebug, peerDebug := x.peerDebug,
      inp := x.inp, flagged := x.flagged, attached := x.attached, halted := x.halted, regsMain := x.regsMain, regsChk := x.regsChk, sram := x.sram,
      peerCmpOk := x.peerCmpOk, cmpTestDone := x.cmpTestDone,
      regSeed := x.regSeed, wrongBits := x.wrongBits, detach := if x.detach = 0 then 0 else 1 }
  else {}

/-- What stays over a reset of the device: the boot flash, the fuses, the pins, the host's memory, and a tripped THERMTRIP_N. -/
def deviceReset (s : State) (cause : Nat) : State :=
  let r : State := State.reset
  let ident : Ident := { s.ident with slotMap := 0, present := 0, unqualified := false, mismatch := false, absent := false, features := 0, p0Refused := false,
                                      udsLocked := false }
  let upd : Upd := { banks := s.upd.banks, writeCount := s.upd.writeCount, olderDir := s.upd.olderDir, olderCount := s.upd.olderCount,
                     floorPending := s.upd.floorPending }
  let alm' : Alm := { halves := s.alm.halves }
  let season : SeasonSt := { slots := s.season.slots, pins := s.season.pins }
  let host : HostS := { bootCause := cause }
  let t := { r with fresh := s.fresh, inReset := s.inReset, railsLow := s.railsLow, hostMem := s.hostMem, flash := s.flash, ident := ident, upd := upd }
  let t := { t with alm := alm', season := season, host := host, islA := islandAfter s.islA, islB := islandAfter s.islB }
  let t := { t with vg := { t.vg with tripped := s.vg.tripped } }
  { t with vg := { t.vg with statusFrame := if t.islB.running then initialFrame t else [] } }

/-- A reset that Xiuth makes itself: what is due for the Almanac journal is programmed first, then the boot starts at stage 1 (DEDUCED, log 38). -/
def restartDevice (s : State) (cause : Nat) : State :=
  let h := tget s.alm.halves s.alm.half [] ++ s.alm.due
  let t := deviceReset { s with alm := { s.alm with halves := tput s.alm.halves s.alm.half h, due := [] } } cause
  { t with host := { t.host with bootStage := 1 } }

/-- PORST_ASSERT: the device is in reset and THERMTRIP_N is released (R387, R426). -/
def execPorstAssert (s : State) : Out :=
  let t := deviceReset s 2
  done s { t with inReset := true, vg := { t.vg with tripped := false } }

/-- PORST_RELEASE: boot time 0 and device time 0. A reset that PORST_N began without a loss of supplies has cause 2, else it is a power-on. -/
def execPorstRelease (s : State) : Out :=
  if !s.inReset then done s s
  else
    let c := if s.host.bootCause = 2 then 2 else 1
    done s { s with inReset := false, now := 0, host := { s.host with bootCause := c, bootStage := if s.railsLow then 0 else 1 } }

/-- HUB_RAIL_LOW: the hub holds the whole device in reset (R388). -/
def execHubRailLow (s : State) : Out :=
  let t := deviceReset s (if s.inReset then 0 else 3)
  done s { t with railsLow := true }

/-- HUB_RAIL_RECOVER: the hub restarts from stage 1. -/
def execHubRailRecover (s : State) : Out :=
  if !s.railsLow then done s s
  else done s { s with railsLow := false, now := 0, host := { s.host with bootStage := if s.inReset then 0 else 1 } }

/-- Is the device at a boot stage? -/
def atStage (s : State) (n : Nat) : Bool := !s.inReset && !s.railsLow && s.host.bootStage = n && s.host.bootError = 0

/-- The device passes to a boot stage. -/
def toStage (s : State) (n : Nat) : State := { s with host := { s.host with bootStage := n } }

/-! ## Stage 1 -/

/-- HUB_CLOCK_LOCK: the hub has read its own fuse block, whose CRC passes or fails. -/
def execHubClockLock (fuseOk : Bool) (s : State) : Out :=
  if !atStage s 1 then done s s else done s (toStage { s with ident := { s.ident with hubFuseOk := fuseOk } } 2)

/-! ## Stage 2: the boot ROM (R394, R409, R419) -/

/-- The boot ROM stops: BAR0 stays readable and Configuration Request Retry Status ends (R394). -/
def bootStop (s : State) (err : Nat) : State := { s with host := { s.host with bootError := err, crs := false } }

/-- Is the hardware type an IST-Q4A of a known grade (R270)? -/
def knownType (t : Nat) : Bool := bits t 15 8 = 0x51 && bits t 3 0 = 0 && (bits t 7 4 = 1 || bits t 7 4 = 2)

/-- PENDING banks already booted once are REJECTED without a try: the state and their mask. -/
def rejectTried (s : State) : State × Nat :=
  [0, 1].foldl (fun (x : State × Nat) b =>
    if (bankOf x.1 b).state = 2 && (bankOf x.1 b).attempts ≠ 0 then (setBank x.1 b 4 (bankOf x.1 b).attempts, x.2 + 2 ^ b) else x) (s, 0)

/-- The banks to try, in order. -/
def bootOrder (s : State) : List Nat :=
  let of (p : BootBank → Bool) : List Nat := [0, 1].filter (fun b => p (bankOf s b))
  of (fun x => x.state = 2 && x.attempts = 0) ++ of (fun x => x.state = 3) ++ of (fun x => x.state = 1)

/-- Try banks in order: the state, the mask of those rejected, and the bank that passes. -/
def tryBanks : List Nat → State → Nat → State × Nat × Option Nat
  | [], s, m => (s, m, none)
  | b :: r, s, m =>
    let s1 := if (bankOf s b).state = 2 then setBank s b 2 1 else s
    if bankPasses s1 (bankOf s1 b).image then (s1, m, some b) else tryBanks r (setBank s1 b 4 (bankOf s1 b).attempts) (m + 2 ^ b)

/-- A payload laid out from address 0 of an island's SRAM. -/
def sramOf (p : List Byte) : Tbl Byte := ((List.range p.length).zip p).foldl (fun t x => if x.2 = 0 then t else tput t x.1 x.2) []

/-- The context of CDI₁: digest of the header, SECURITY_VERSION, HW_TYPE (R419; log 26). -/
def cdiContext (h : List Byte) : List Byte := sha384 h ++ natLe 4 (fwSecVer h) ++ natLe 2 (fld h 8 2)

/-- The boot ROM passes control to Xiuth in bank `b`: keys derived and the secret locked, the Vigil firmware placed in the islands' SRAM. -/
def startXiuth (s : State) (b : Nat) : State :=
  let x := bankOf s b
  let h := fwHeader x.image
  let c := bankComponents x
  let u : Upd := { s.upd with bank := b, components := c, cdi := hkdf384 s.ident.uds (ascii "CDI" ++ cdiContext h), devSeed := hkdf384 s.ident.uds (ascii "DEVID") }
  let s := { s with upd := u, ident := { s.ident with udsLocked := true }, host := { s.host with fw := fwVersion h / 2 ^ 32 } }
  { s with islA := { s.islA with sram := sramOf (tget c 2 []) }, islB := { s.islB with sram := sramOf (tget c 3 []) } }

/-- Blow the fuses of a floor and revoke mask (R410). -/
def blowFloor (s : State) (target mask : Nat) : State :=
  let fl := (List.range (min 64 target)).foldl (fun f i => if bit f i then f else f + 2 ^ i) s.ident.floor
  let rv := (List.range 4).foldl (fun t k => if bit mask k then tput t k true else t) s.ident.keyRevoked
  { s with ident := { s.ident with floor := fl, keyRevoked := rv }, upd := { s.upd with floorPending := none } }

/-- State of the update after a boot: AWAITING_CONFIRM for a bank booted as PENDING, REVERTED beside a rejected bank, else IDLE (R417; log 39). -/
def updAfterBoot (s : State) : State :=
  let x := bankOf s s.upd.bank
  let st := if x.state = 2 then 4 else if (bankOf s (1 - s.upd.bank)).state = 4 then 6 else 0
  modUpd s (fun u => { u with state := st, restartKind := x.state = 2, confirmFrames := fwWindow (fwHeader x.image) })

/-- Xiuth starts in bank `b`, `mask` the banks rejected before it: it rebuilds the Almanac, then checks its security version: below the floor it
rejects its bank and resets the device, with a CAUSE the spec does not give (R410; free, log 38). An interrupted raising of the floor is finished. -/
def bootBank (s : State) (mask b : Nat) : State :=
  let s3 := rebuildAlmanac (startXiuth s b) s.host.bootCause mask
  if !fwFloorOk s3 (fwHeader (bankOf s3 b).image) then
    let (n, s4) := draw (alm (setBank s3 b 4 (bankOf s3 b).attempts) 0xC000 .versionFloor 4 [b, fwSecVer (fwHeader (bankOf s3 b).image), floorOf s3])
    restartDevice s4 (1 + Config.freeValue n % 4)
  else
    let s4 := match s3.upd.floorPending with | some (t, k) => blowFloor s3 t k | none => s3
    let s5 := updAfterBoot s4
    toStage { s5 with host := { s5.host with mbxReady := true, crs := false } } 3

/-- A torn entry at the end of the Almanac journal's active half: replay ignores and counts it (R352). -/
def tornJournal (s : State) : State :=
  let h := s.alm.half
  { s with alm := { s.alm with halves := tput s.alm.halves h (tget s.alm.halves h [] ++ [{ img := {}, due := 0, torn := true }]) } }

/-- What the flash holds as the boot ROM finds it: a write that a reset cut is torn, in the directory or in the journal (R387, R409). A restart for an
update cuts none. -/
def foundFlash (ph : BootPhys) (s : State) : State :=
  let s := if ph.almTorn && s.host.bootCause ≠ 4 then tornJournal s else s
  if ph.dirTorn then useOlder s else s

/-- IMAGE_LOAD (R394, R409, R419). -/
def execImageLoad (ph : BootPhys) (s : State) : Out :=
  if !atStage s 2 then done s s
  else if !s.ident.hubFuseOk then done s (bootStop s 4)
  else if !knownType s.ident.hwType then done s (bootStop s 1)
  else if !ph.flashOk || s.flash.mib < 256 then done s (bootStop s 3)
  else
    let (s1, m1) := rejectTried (foundFlash ph s)
    match tryBanks (bootOrder s1) s1 m1 with
    | (s2, _, none) => done s (bootStop s2 2)
    | (s2, mask, some b) => done s (bootBank s2 mask b)

/-! ## Stage 3: identity and discovery (R270–R277, R327, R411) -/

/-- Package to the Service Season only, and P0 plans refused. -/
def restrictPackage (s : State) : State :=
  { s with host := { s.host with serviceOnly := true }, ident := { s.ident with p0Refused := true } }

/-- An identity outcome other than none: a safety record that names the die and the field (0 absent, 1 slot, 2 slot map, 3 revision,
4 qualification). -/
def identityBad (s : State) (die field : Nat) : State := restrictPackage (alm s 0x70FF .identity 4 [die, field])

/-- Does a stack answer with a good fuse block? -/
def stackAnswers (s : State) (q : Nat) : Bool := tget s.ident.stackOk q false

/-- The revision tuple: hub, Q0–Q3, S0–S3. -/
def revTuple (s : State) : List Nat :=
  s.ident.revHub :: (List.range 4).map (fun q => tget s.ident.revQ q 0) ++ (List.range 4).map (fun q => tget s.ident.revS q 0)

/-- Do all revisions of a tuple appear in Table 12.4? -/
def listedTuple (t : List Nat) : Bool :=
  (t.take 1).all (· = 0x01) && ((t.drop 1).take 4).all (fun r => r = 0x01 || r = 0x10) && (t.drop 5).all (· = 0x01)

/-- Is the package qualified (R277)? -/
def qualified (s : State) : Bool :=
  let t := revTuple s
  (listedTuple t && s.ident.qualCode = Config.finalQual t) || Config.qualPair (tget s.upd.components 7 []) t s.ident.qualCode

/-- The common feature level (R274): bits 0 and 1 where every Quarter present is at B0 or later. -/
def featureLevel (s : State) : Nat :=
  if (List.range 4).all (fun q => !stackAnswers s q || tget s.ident.revQ q 0 ≥ 0x10) then 3 else 0

/-- Table 12.2. -/
def checkIdentity (s : State) : State :=
  let i := s.ident
  let absent := (List.range 4).filter (fun q => !stackAnswers s q)
  let slots := (List.range 8).filter (fun d => stackAnswers s (d % 4) && tget i.dieSlot d 0 ≠ d % 4)
  let revs := (List.range 8).filter (fun d => stackAnswers s (d % 4) && tget i.dieRev d 0 ≠ (if d < 4 then tget i.revQ d 0 else tget i.revS (d - 4) 0))
  let present := (List.range 4).foldl (fun m q => m + b2n (stackAnswers s q) * 2 ^ q) 0
  let mism := !slots.isEmpty || i.slotMapFuse ≠ 0xF || !revs.isEmpty
  let ident : Ident := { i with slotMap := i.slotMapFuse, present := present, absent := !absent.isEmpty, mismatch := mism, unqualified := !qualified s,
                                features := featureLevel s }
  let s := { s with ident := ident }
  let s := absent.foldl (fun s q => identityBad s q 0) s
  let s := slots.foldl (fun s d => identityBad s d 1) s
  let s := if i.slotMapFuse ≠ 0xF then identityBad s 0xFF 2 else s
  let s := revs.foldl (fun s d => identityBad s d 3) s
  if qualified s then s else identityBad s 0xFF 4

/-- Microcode payload in a bank of a unit, with the outcome of its digest check. -/
def loadMicrocode (s : State) (r bank : Nat) (p : List Byte) (ok : Bool) : State :=
  modUnit s r (fun u => { u with microcode := tput u.microcode bank p, relayOk := tput u.relayOk bank ok })

/-- Discovery of the clusters of one present Quarter with their boot LBIST, and the relay of the microcode into bank 0 (R272, R411). -/
def discoverQuarter (ph : BootPhys) (s : State) (q : Nat) : State :=
  (List.range 72).foldl (fun s c =>
    let g := 72 * q + c
    if ph.silent.contains g then
      let s := modHealth s g (fun h => { h with answers := false })
      if (healthOf s g).state = .retired then s else quarantineNow s g false
    else
      let s := loadMicrocode s (rClu g) 0 (tget s.upd.components 4 []) (!ph.relayFail.contains g)
      if ph.lbistFail.contains g && (healthOf s g).state ≠ .retired then hardFault s g 5 else s) s

/-- A torn entry at the end of the settings journal's active half, whose CRC fails (R397). -/
def tornSetting (s : State) : State :=
  let f := s.flash
  { s with flash := { f with halves := tput f.halves f.half (tget f.halves f.half [] ++ [{ good := false }]) } }

/-- Stage 3: the settings, which a Xiuth that boots as an update takes over (R415), the identity, the clusters of the present Quarters with their microcode. -/
def discover (ph : BootPhys) (s : State) : State :=
    let s := if ph.setTorn && s.host.bootCause ≠ 4 then tornSetting s else s
    let s1 := checkIdentity (if s.upd.state = 4 then rewriteKeys (restoreSettings s) (unsupportedKeys s) else restoreSettings s)
    let s2 := (List.range 4).foldl (fun s q =>
      if bit s.ident.present q then
        loadMicrocode (discoverQuarter ph s q) (rNle q) 0 (tget s.upd.components 5 []) true
      else (List.range 72).foldl (fun s c => modHealth s (72 * q + c) (fun h => { h with answers := false })) s) s1
    [rFus, rPln].foldl (fun s r => loadMicrocode s r 0 (tget s.upd.components 6 []) true) s2

/-- DISCOVERY. -/
def execDiscovery (ph : BootPhys) (s : State) : Out :=
  if !atStage s 3 then done s s else done s (toStage (discover ph s) 4)

/-! ## Stage 4: store dies (R175, R215, R216) -/

/-- Stage 4: the delays of every present store die, its validity bits cleared, the pattern on the test rows of every channel (the spec gives none, so
it is a free value; log 20), and the channels that fail their test (R194, R216). -/
def setupDelays (ph : BootPhys) (s : State) : State :=
    let dies := (List.range 4).filter (bit s.ident.present)
    let s1 := dies.foldl (fun s d =>
      let s := modStc s d (fun c => { c with dlySource := flashCalOk s })
      let s := setDelays s d (bandOf (stcOf s d).tempHalf)
      let (n, s) := draw s
      let s := modStc s d (fun c => { c with chans := (List.range 32).foldl (fun t k => tmod t k {} (fun h => { h with testRows := Config.freeValue n })) c.chans })
      { s with mem := mclear s.mem (d * 0x200000000 + 0x1FF7C0000) 0x40000 }) s
    (ph.delayFail.filter (fun k => dies.contains (k / 32))).foldl (fun s k => restrictPackage (alm s (srcStc (k / 32) (k % 32)) .delayFail 4 [k / 32, k % 32])) s1

/-- DELAY_SETUP. -/
def execDelaySetup (ph : BootPhys) (s : State) : Out :=
  if !atStage s 4 then done s s else done s (toStage (setupDelays ph s) 5)

/-! ## Stage 5: error injection (R332, R333) -/

/-- What the SECDED checkers find of an injected one-bit and two-bit error, and of a clean word (row 8 of Table 15.3, R170). -/
def secdedFlags : Bool := secded 1 = .corrected && secded 3 = .detected && secded 0 = .clean

/-- One row of Table 15.3: its record, and what a failure of it brings. -/
def injectRow (ph : BootPhys) (s : State) (row : Nat) : State :=
  let fails := ph.rowFail.filter (fun x => x.1 = row)
  let bad := if row = 0 then (s.islA.running && s.islA.hCmpFail) || (s.islB.running && s.islB.hCmpFail) else !fails.isEmpty || (row = 8 && !secdedFlags)
  let sys := bad && row ≠ 0 && row ≠ 1 && row ≠ 2 && row ≠ 4
  let x : St := { s.st with injPass := if bad then s.st.injPass else s.st.injPass + 2 ^ row, injFail := s.st.injFail || bad }
  let s := alm { s with st := x } 0x0000 .injection (if sys then 4 else if bad then 3 else 1) [row, b2n (!bad)]
  if !bad || row = 0 then s
  else if sys then restrictPackage s
  else fails.foldl (fun s f => if f.2 < 288 && (healthOf s f.2).state ≠ .retired then quarantineNow s f.2 false else s) s

/-- Stage 5: the sixteen rows in table order. -/
def injectErrors (ph : BootPhys) (s : State) : State :=
  let s1 := (List.range 16).foldl (injectRow ph) { s with st := { s.st with injPass := 0, injFail := false, injDone := false } }
  { s1 with st := { s1.st with injDone := true } }

/-- ERROR_INJECTION. -/
def execErrorInjection (ph : BootPhys) (s : State) : Out :=
  if !atStage s 5 then done s s else done s (toStage (injectErrors ph s) 6)

/-! ## Stage 6: Season selection (R400, R402) -/

/-- Slot 3, or the factory Service Season where it is empty or fails. -/
def serviceSeason (s : State) : SeasonCfg :=
  match slotImage s 3 with
  | some img => if seasonBad s 3 img = 0 then seasonCfgOf img else factorySeason 3
  | none => factorySeason 3

/-- The Season of Table 18.6, with SEASON_SRC and the record it brings. -/
def selectSeason (s : State) : State × SeasonCfg × Nat :=
  let k := s.season.pins % 4
  if s.host.serviceOnly then (s, serviceSeason s, 2)
  else match slotImage s k with
    | none => (alm s 0x0000 .seasonFallback 2 [k, 0], factorySeason k, 1)
    | some img =>
      let d := seasonBad s k img
      if d = 0 then (s, seasonCfgOf img, 0)
      else if 6 ≤ img.length && !fmtVersionOk s 2 (fld img 4 2) then (alm s 0x0000 .seasonFallback 2 [k, d], factorySeason k, 1)
      else (alm s 0x0000 .seasonFallback 4 [k, d], serviceSeason s, 2)

/-- Stage 6: the Season is applied; at every boot but the first the slack of every step is swept (R440); the Quarters start. -/
def startSeason (ph : BootPhys) (s : State) : State :=
  let (s1, c, src) := selectSeason s
  let s2 := applySeason { s1 with host := { s1.host with seasonSrc := src } } c
  startSteps (powerSeason (if s2.pm.aged then bootSweep s2 ph.raises ph.short else s2) true) ph.capped

/-- SEASON_SELECTION. -/
def execSeasonSelection (ph : BootPhys) (s : State) : Out :=
  if !atStage s 6 then done s s else done s (toStage (startSeason ph s) 7)

/-! ## Stage 7: Ready (R26, R229, R247, R380) -/

/-- The first instant from `t` on that meets R25 for a period and phase in ns. -/
def nextInstant (t p f : Nat) : Nat := t + (f % p + p - t % p) % p

/-- The package is ready: frames begin at the first instant that meets R25, and every stream gets its placeholder. -/
def becomeReady (s : State) : State :=
  let cal : CalS := { s.cal with frame := 0, next := nextInstant (s.now + 1) (s.cal.periodReg * 100000) (s.cal.phaseUs * 1000), evalDone := true }
  let host : HostS := { s.host with ready := true, readyMs := sat 0xFFF (((s.now : Int) - s.boot0).toNat / 1000000), dir := tput s.host.dir 0 reportDir }
  let s1 := { s with cal := cal, host := host, fus := fusCold s.fus, st := { s.st with readyAt := s.now, scrubStart := s.now } }
  (s.streams.filter (fun p => p.2.defd)).foldl (fun s p => placeholder s p.1) s1

/-- READY. -/
def execReady (s : State) : Out :=
  if !atStage s 7 || s.host.ready then done s s else done s (becomeReady s)

end Sys2Proof.Machine
end

