-- ==== Sys2Proof/Machine/Identity.lean ====
section
/-!
DEFINITION. Identity and attestation: the HUB_ID registers, GET_IDENTITY (R270), the background derivation of the keys (R420), GET_CERTS (R421)
and ATTEST (R422, R423).
-/

namespace Sys2Proof.Machine

/-! ## HUB_ID -/

/-- Four bytes of a table, key 0 lowest. -/
def fourBytes (t : Tbl Nat) : Nat := (List.range 4).foldl (fun a k => a + tget t k 0 % 256 * 256 ^ k) 0

/-- HUB_ID_REV_Q. -/
def regIdRevQ (i : Ident) : Nat := fourBytes i.revQ
/-- HUB_ID_REV_S. -/
def regIdRevS (i : Ident) : Nat := fourBytes i.revS
/-- HUB_ID_REV_HUB. -/
def regIdRevHub (i : Ident) : Nat := i.qualCode * 65536 + i.revHub
/-- HUB_ID_STATUS. -/
def regIdStatus (i : Ident) : Nat :=
  i.slotMap * 2 ^ 28 + i.present * 2 ^ 24 + b2n i.unqualified * 4 + b2n i.mismatch * 2 + b2n i.absent

/-- The GET_IDENTITY response: the HUB_ID registers in their order, without the gap in their offsets, then HUB_HOST_FW (DEDUCED, log 39). -/
def identityBytes (s : State) : List Byte :=
  let i := s.ident
  natLe 8 i.serial ++ natLe 4 i.hwType ++ natLe 4 (regIdRevQ i) ++ natLe 4 (regIdRevS i) ++ natLe 4 (regIdRevHub i) ++ natLe 4 (regIdStatus i) ++
    natLe 4 i.features ++ natLe 4 s.host.fw

/-- What the command tables say of GET_IDENTITY. -/
def cmdGetIdentity : MbxCmd := { opcode := 0x0B00, early := true, buf := 2 }

/-- GET_IDENTITY. -/
def execGetIdentity (e : SubEntry) (s : State) : Out :=
  mailbox cmdGetIdentity e (fun s => { st := bufOut s e (identityBytes s) }) s

/-! ## Keys and certificates (R420, R421) -/

/-- KEY_DERIVATION_DONE: after Ready the DeviceID and alias keys exist, the alias certificates are made, and the DeviceID seed is erased. -/
def execKeyDerivationDone (s : State) : Out :=
  if !s.host.ready || s.upd.keysReady then done s s
  else
    let cert (alg : Nat) : List Byte := Config.aliasCert s.upd.devSeed s.upd.cdi alg
    done s (modUpd s (fun u => { u with keysReady := true, aliasCerts := [cert 0, cert 1], devSeed := [] }))

/-- The certificate chain: count, then each certificate behind its length of 4 bytes (the width is the model's, log 39). -/
def certChain (s : State) : List Byte :=
  let aliasCert (k : Nat) : List Byte := s.upd.aliasCerts.getD k []
  let dev (k : Nat) : List Byte := s.flash.certs.getD k []
  natLe 4 4 ++ [aliasCert 0, dev 0, aliasCert 1, dev 1].flatMap (fun c => natLe 4 c.length ++ c)

/-- What the command tables say of GET_CERTS. -/
def cmdGetCerts : MbxCmd := { opcode := 0x0B02, buf := 2, busy := fun s _ => !s.upd.keysReady }

/-- GET_CERTS. -/
def execGetCerts (e : SubEntry) (s : State) : Out :=
  mailbox cmdGetCerts e
    (fun s => { st := bufOut s e (certChain s), result := natLe 4 (certChain s).length }) s

/-! ## ATTEST (R422, R423) -/

/-- The plans an attestation report lists. -/
def attestedPlans (s : State) : List Plan := s.plans.filter (fun p => p.admitted && !p.retired)

/-- The report body (Table 19.8). -/
def attestBody (s : State) (nonce : List Byte) : List Byte :=
  let ps := attestedPlans s
  let i := s.ident
  natLe 4 0x54545341 ++ natLe 2 1 ++ natLe 2 (192 + 56 * ps.length) ++ padTo 32 nonce ++ natLe 8 i.serial ++ natLe 2 i.hwType ++ natLe 2 i.qualCode ++
    (revTuple s).flatMap (natLe 1) ++ natLe 1 s.season.cfg.num ++ natLe 1 (floorOf s) ++ natLe 1 ps.length ++ natLe 8 s.now ++ natLe 6 s.cal.frame ++ natLe 2 0 ++
    natLe 4 i.features ++ natLe 4 0 ++ natLe 8 (fwVersion (bankHeader s s.upd.bank)) ++ sha384 (bankHeader s s.upd.bank) ++ padTo 48 s.season.cfg.bodyDigest ++
    ps.flatMap (fun p => natLe 8 p.planId ++ slice p.image 0x14 48)

/-- ATTEST: the body, then an RSA-3072 and an SLH-DSA signature over it under the alias keys. Each signing draws its own randomness (log 26). -/
def attest (e : SubEntry) (s : State) : Answer :=
  let body := attestBody s (slice (parOf e) 0 32)
  let (a, s) := draw s
  let (b, s) := draw s
  let rep := body ++ padTo 384 (Config.sign s.upd.cdi 0 a body) ++ padTo 16224 (Config.sign s.upd.cdi 1 b body)
  { st := bufOut s e rep, result := natLe 4 rep.length }

/-- What the command tables say of ATTEST. -/
def cmdAttest : MbxCmd := { opcode := 0x0B01, used := [(0, 32)], buf := 2, busy := fun s _ => !s.upd.keysReady }

/-- ATTEST. -/
def execAttest (e : SubEntry) (s : State) : Out :=
  mailbox cmdAttest e (attest e) s

end Sys2Proof.Machine
end

