-- ==== Sys2Proof/Machine/Update.lean ====
section
/-!
DEFINITION. Firmware update (R404–R418): loading and staging, scheduling, the handover at the epoch, confirmation and the way back.
-/

namespace Sys2Proof.Machine

/-! ## UPD_LOAD (R407, R408, R411, R412) -/

/-- The bank Xiuth does not run from. -/
def otherBank (s : State) : Nat := 1 - s.upd.bank

/-- Change one bank without a write of the boot directory. -/
def modBank (s : State) (b : Nat) (f : BootBank → BootBank) : State := modUpd s (fun u => { u with banks := tmod u.banks b {} f })

/-- Everything received is discarded: the inactive bank is EMPTY and the update IDLE. -/
def discardUpdate (s : State) : State :=
  let s := writeDir s (fun t => tput t (otherBank s) {})
  modUpd s (fun u => { u with state := 0, staged := [], epoch := none, handover := 0 })

/-- An image that fails a check of Table 19.4 is discarded, with a warning record that gives the step. -/
def refuseImage (s : State) (status step : Nat) : Answer := { st := alm (discardUpdate s) 0xC000 .updRefused 2 [step], status := status }

/-- Any other refusal of a part that discards what has been received (R407, R408, R411). -/
def refusePart (s : State) (status : Nat) : Answer := { st := discardUpdate s, status := status }

/-- STATE_FORMAT of each component that runs from a bank. -/
def bankFormats (x : BootBank) : Tbl Nat := (fwComps (fwHeader x.image)).foldl (fun t c => tput t c.type c.stateFormat) x.keptFmt

/-- FORMAT_VERSION of a Season, 1 for a factory Season. -/
def seasonVersion (s : State) (c : SeasonCfg) : Nat :=
  match slotImage s c.num with
  | some img => if seasonCfgOf img = c then fld img 4 2 else 1
  | none => 1

/-- The handover code of an image (R412): 0 where every condition for a seamless one holds. -/
def handoverCode (s : State) (img : List Byte) : Nat :=
  let h := fwHeader img
  let cs := fwComps h
  let run := s.upd.components
  let fmts := bankFormats (bankOf s s.upd.bank)
  let vigil := cs.all (fun c => !(c.type = 2 || c.type = 3) || (thas run c.type && sha384 (tget run c.type []) = c.digest))
  let takes := cs.all (fun c => match tfind fmts c.type with | some f => decide (c.stateMin ≤ f ∧ f ≤ c.stateFormat) | none => true)
  let seasons := headerFmt h 2 (seasonVersion s s.season.cfg) &&
    (match s.season.pending with
     | some (k, _) => headerFmt h 2 (match slotImage s k with | some i => fld i 4 2 | none => 1)
     | none => true)
  let plans := s.plans.all (fun p => headerFmt h 0 (fld p.image 4 2))
  let maps := s.pln.slots.all (fun p => !p.2.loaded || headerFmt h 1 (fld p.2.image 4 2))
  if vigil && takes && seasons && plans && maps then 0 else 1

/-- Clusters of present Quarters that answered at discovery: the configuration chains (R272). -/
def chained (s : State) : List Nat := (List.range 288).filter (fun g => bit s.ident.present (g / 72) && (healthOf s g).answers)

/-- Is a cluster in a state in which a failed relay refuses the image (R411)? -/
def inWork (s : State) (g : Nat) : Bool :=
  match (healthOf s g).state with
  | .quarantined | .fenced | .retired => false
  | _ => true

/-- Units that run component type 4, 5 or 6. -/
def unitsOfType (s : State) (t : Nat) : List Nat :=
  match t with
  | 4 => (chained s).map rClu
  | 5 => ((List.range 4).filter (bit s.ident.present)).map rNle
  | 6 => [rFus, rPln]
  | _ => []

/-- Stage the components of types 4 to 6 in the inactive banks of their units. -/
def stageComps (s : State) (img : List Byte) (relayFail : List Nat) : State :=
  let cs := (fwComps (fwHeader img)).filter (fun c => 4 ≤ c.type && c.type ≤ 6)
  let s := cs.foldl (fun s c => (unitsOfType s c.type).foldl (fun s r =>
    loadMicrocode s r (1 - (unitOf s r).ucBank) (fwPayload img c) (!(c.type = 4 && relayFail.contains (gOf r)))) s) s
  modUpd s (fun u => { u with staged := cs.map (·.type) })

/-- The image is complete: its bank becomes VALID and the update LOADED. What the image does not carry keeps its running payload (R405). -/
def finishLoad (s : State) (img : List Byte) (relayFail : List Nat) : State :=
  let h := fwHeader img
  let has (t : Nat) : Bool := (fwComp h t).isSome
  let code := handoverCode s img
  let kept := s.upd.components.filter (fun p => !has p.1)
  let fmts := (bankFormats (bankOf s s.upd.bank)).filter (fun p => !has p.1)
  let s := stageComps s img relayFail
  let s := writeDir s (fun t => tmod t (otherBank s) {} (fun x =>
    { x with state := 1, attempts := 0, version := fwVersion h, digest := (sha384 h).take 16, kept := kept, keptFmt := fmts }))
  modUpd s (fun u => { u with state := 2, handover := code })

/-- The part with LAST has been stored. -/
def lastPart (s : State) (relayFail : List Nat) : Answer :=
  let img := (bankOf s (otherBank s)).image
  let h := fwHeader img
  if img.length ≠ fwSize h then refusePart s stRange
  else if !(fwComps h).all (fwDigestOk img) then refusePart s stAuthFail
  else if (fwComp h 4).isSome && (chained s).any (fun g => relayFail.contains g && inWork s g) then refusePart s stRange
  else
    let t := finishLoad s img relayFail
    { st := t, result := natLe 1 t.upd.handover }

/-- UPD_LOAD, after the checks of R365. The first part starts at 0 with the header and signature block; each further part starts where the last one
ended (R407). -/
def updLoad (e : SubEntry) (relayFail : List Nat) (s : State) : Answer :=
  let p := parOf e
  let bs := bufAll s e
  let last := bit (fld p 4 1) 0
  let have1 := (bankOf s (otherBank s)).image.length
  if s.upd.state = 1 then
    if fld p 0 4 ≠ have1 || 16777216 < have1 + bs.length then refusePart s stRange
    else
      let t := modBank s (otherBank s) (fun x => { x with image := x.image ++ bs })
      if last then lastPart t relayFail else { st := t }
  else if fld p 0 4 ≠ 0 || bs.length < fwBodyStart || 16777216 < bs.length then refuse s stRange
  else
    let t := writeDir s (fun t => tput t (otherBank s) {})
    match fwFail t bs with
    | some (st, k) => refuseImage t st k
    | none =>
      let t := modUpd (modBank t (otherBank s) (fun x => { x with image := bs })) (fun u => { u with state := 1, staged := [], epoch := none, handover := 0 })
      if last then lastPart t relayFail else { st := t }

/-- What the command tables say of UPD_LOAD. -/
def cmdUpdLoad : MbxCmd :=
  { opcode := 0x0800, used := [(0, 5)], buf := 1,
    ranged := fun p => fld p 4 1 < 2,
    busy := fun s _ => 2 ≤ s.upd.state && s.upd.state ≤ 5 }

/-- UPD_LOAD: BUSY while an update is loaded, scheduled, awaiting confirmation or reverting (R407). -/
def execUpdLoad (e : SubEntry) (relayFail : List Nat) (s : State) : Out :=
  mailbox cmdUpdLoad e
    (updLoad e relayFail) s

/-! ## UPD_SCHEDULE, UPD_STATUS (R413, R414) -/

/-- UPD_SCHEDULE, after the checks of R365. -/
def updSchedule (e : SubEntry) (s : State) : Answer :=
  let p := parOf e
  if s.upd.state ≠ 2 then refuse s stRange
  else if s.upd.handover = 1 && !bit (fld p 6 1) 0 then refuse s stRestart
  else
    let n := if fld p 0 6 = 0 then s.cal.frame + 2 else fld p 0 6
    { st := modUpd s (fun u => { u with state := 3, epoch := some n }), result := natLe 6 n }

/-- What the command tables say of UPD_SCHEDULE. -/
def cmdUpdSchedule (s : State) : MbxCmd :=
  { opcode := 0x0801, used := [(0, 7)],
    ranged := fun p => fld p 6 1 < 2 && (fld p 0 6 = 0 || s.cal.frame + 2 ≤ fld p 0 6),
    busy := fun s _ => s.season.pending.isSome }

/-- UPD_SCHEDULE: the epoch is 0 or at least two frames ahead; BUSY while a Season change is pending. -/
def execUpdSchedule (e : SubEntry) (s : State) : Out :=
  mailbox (cmdUpdSchedule s) e (updSchedule e) s

/-- UPD_STATUS: the state, the running version, and the version being loaded, loaded or scheduled (log 39). -/
def updStatus (s : State) : List Byte :=
  let pend := if 1 ≤ s.upd.state && s.upd.state ≤ 3 then fwVersion (bankHeader s (otherBank s)) else 0
  natLe 4 s.upd.state ++ natLe 8 (fwVersion (bankHeader s s.upd.bank)) ++ natLe 8 pend

/-- What the command tables say of UPD_STATUS. -/
def cmdUpdStatus : MbxCmd := { opcode := 0x0803, early := true }

/-- UPD_STATUS. -/
def execUpdStatus (e : SubEntry) (s : State) : Out :=
  mailbox cmdUpdStatus e (fun s => { st := s, result := updStatus s }) s

/-! ## The epoch (R413–R416) -/

/-- A settings key whose FORMAT the new Xiuth does not support: a warning names it, and its owner's default applies (R397, R415). -/
def defaultKey (s : State) (j : JKey) : State :=
  let idx := j.key % 2 ^ 24
  let s := alm s 0x0000 .settingsFormat 2 [j.key, j.format]
  match j.key / 2 ^ 24 with
  | 1 => modHealth s idx (fun h => { h with state := .inService, score := 900, clean := 0, passes := 0, fails := 0, deferred := false })
  | 2 => modPm s (fun m => { m with rthJ := s.season.cfg.rthJNom, rthS := s.season.cfg.rthSNom, rthNominal := true })
  | 3 => setCeilings (modPmQ s idx (fun x => { x with ageOffset := [], maxStep := 0 }))
  | _ => s

/-- The settings journal as a new Xiuth takes it over: unsupported keys get their defaults and are written, and one info record counts them. -/
def takeSettings (s : State) : State :=
  let bad := unsupportedKeys s
  rewriteKeys (bad.foldl defaultKey s) bad

/-- Every unit whose microcode was staged changes its active bank. -/
def flipBanks (s : State) : State :=
  s.upd.staged.foldl (fun s t => (unitsOfType s t).foldl (fun s r => modUnit s r (fun u => { u with ucBank := 1 - u.ucBank })) s) s

/-- A seamless handover to bank `b`. Keys and CDI₁ stay: the boot ROM alone derives them (DEDUCED, log 39). -/
def handOver (s : State) (b : Nat) : State :=
  let s := flipBanks s
  let s := modUpd s (fun u => { u with bank := b, components := bankComponents (tget u.banks b {}) })
  takeSettings { s with host := { s.host with fw := fwVersion (bankHeader s b) / 2 ^ 32 } }

/-- A seamless update at Calend `n`: the other bank takes over, and the confirmation window opens with its notification (R413, R416). -/
def seamless (s : State) (n : Nat) : State :=
  let b := otherBank s
  let s1 := writeDir s (fun t => tmod (tmod t b {} (fun x => { x with state := 2, attempts := 1 })) (1 - b) {} (fun x => { x with state := 3 }))
  let s1 := handOver s1 b
  let w := fwWindow (bankHeader s1 b)
  let s1 := modUpd s1 (fun u => { u with state := 4, epoch := none, restartKind := false, confirmFrames := w, windowEnd := some (n + w) })
  notify s1 0x000A 4 s1.alm.head

/-- UPDATE_EPOCH, at its Calend: a seamless handover, or a restart handover that resets the device. -/
def execUpdateEpoch (s : State) : Out :=
  match s.upd.epoch with
  | none => done s s
  | some n =>
    if !s.host.ready || s.upd.state ≠ 3 || s.cal.frame < n then done s s
    else if s.upd.handover = 1 then done s (restartDevice (setBank s (otherBank s) 2 0) 4)
    else done s (seamless s n)

/-! ## Confirmation and the way back (R416–R418) -/

/-- UPD_CONFIRM, after the checks of R365: the new bank is CONFIRMED, the old one VALID, and R410 raises the floor and revokes keys. -/
def updConfirm (s : State) : Answer :=
  match s.upd.windowEnd with
  | none => refuse s stRange
  | some w =>
    if s.upd.state ≠ 4 || w ≤ s.cal.frame then refuse s stRange
    else
      let b := s.upd.bank
      let img := (bankOf s b).image
      let h := fwHeader img
      let t := writeDir s (fun t => tmod (tmod t b {} (fun x => { x with state := 3, attempts := 0 })) (1 - b) {}
        (fun x => if x.state = 3 then { x with state := 1 } else x))
      let t := modUpd t (fun u => { u with state := 0, windowEnd := none, staged := [], restartKind := false })
      let mask := (List.range 4).foldl (fun m k => if bit (fld h 0x27 1) k && k ≠ fwKey img then m + 2 ^ k else m) 0
      { st := if fwRaise h then blowFloor t (fwSecVer h) mask else t }

/-- What the command tables say of UPD_CONFIRM. -/
def cmdUpdConfirm : MbxCmd := { opcode := 0x0802 }

/-- UPD_CONFIRM. -/
def execUpdConfirm (e : SubEntry) (s : State) : Out :=
  mailbox cmdUpdConfirm e updConfirm s

/-- The new bank is REJECTED and a fallback epoch scheduled at Calend `n`, with a safety record and a notification. -/
def scheduleFallback (s : State) (n : Nat) : State :=
  let b := s.upd.bank
  let s := setBank s b 4 (bankOf s b).attempts
  let s := modUpd s (fun u => { u with state := 5, windowEnd := none, fallback := some n })
  let s := alm s 0xC000 .updFallback 4 [b, n]
  notify s 0x000A 5 s.alm.head

/-- CONFIRM_WINDOW_EXPIRY: at the Calend that ends the window without a confirmation (R417). -/
def execConfirmWindowExpiry (s : State) : Out :=
  match s.upd.windowEnd with
  | none => done s s
  | some w => if s.upd.state ≠ 4 || s.cal.frame < w then done s s else done s (scheduleFallback s (w + 2))

/-- FALLBACK_EPOCH: every unit reverts to its old bank as it came, or the device restarts into the CONFIRMED bank. -/
def execFallbackEpoch (s : State) : Out :=
  match s.upd.fallback with
  | none => done s s
  | some n =>
    if !s.host.ready || s.upd.state ≠ 5 || s.cal.frame < n then done s s
    else if s.upd.restartKind then done s (restartDevice s 4)
    else
      let t := handOver s (otherBank s)
      done s (modUpd t (fun u => { u with state := 6, fallback := none, staged := [] }))

/-- UPD_CANCEL, after the checks of R365; `cut` when it ended an unfinished UPD_LOAD. -/
def updCancel (cut : Bool) (s : State) : Answer :=
  if 1 ≤ s.upd.state && s.upd.state ≤ 3 then { st := discardUpdate s }
  else if s.upd.state = 4 then { st := scheduleFallback s (s.cal.frame + 2) }
  else if cut then { st := s }
  else refuse s stRange

/-- The UPD_LOADs taken before an entry and not yet completed: those that UPD_CANCEL ends with ABORTED, and for which it does not wait. -/
def unfinishedLoads (s : State) (e : SubEntry) : List SubEntry := (s.host.taken.takeWhile (fun x => x ≠ e)).filter (fun x => x.opcode = 0x0800)

/-- What the command tables say of UPD_CANCEL. -/
def cmdUpdCancel : MbxCmd := { opcode := 0x0804 }

/-- UPD_CANCEL. -/
def execUpdCancel (e : SubEntry) (s : State) : Out :=
  let cut := unfinishedLoads s e
  if !s.host.mbxReady || cmdUpdCancel.check e s ≠ 0 then mailbox cmdUpdCancel e (updCancel false) s
  else mailbox cmdUpdCancel e (updCancel (!cut.isEmpty)) (cut.foldl (fun s x => complete s x stAborted []) s)

end Sys2Proof.Machine
end

