-- ==== Sys2Proof/Machine/Report.lean ====
section
/-!
DEFINITION. The frame report that is latched at a Calend: its sections (Tables 12.7 and 17.18), the counts of a frame and their return to 0.
-/

namespace Sys2Proof.Machine

/-! ## Slowdown (R285, R286) -/

/-- The greatest of some named amounts; of several that are greatest, which one is free (log 41). 0 where there is none. -/
def topOf (xs : List (Nat × Nat)) (s : State) : Nat × State :=
  let m := xs.foldl (fun m x => max m x.2) 0
  let ties := xs.filter (fun x => x.2 = m && m ≠ 0)
  match ties with
  | [] => (0, s)
  | [x] => (x.1, s)
  | _ =>
    let (n, s) := draw s
    ((ties.getD (Config.freeValue n % ties.length) (0, 0)).1, s)

/-- The first `n` stall cycles by cause, and those that remain (which cause came first is a DESIGN CHOICE, log 48). -/
def splitStall : Nat → List (Nat × Nat) → List (Nat × Nat) × List (Nat × Nat)
  | _, [] => ([], [])
  | n, (r, k) :: t =>
    let (a, b) := splitStall (n - k) t
    ((r, min n k) :: a, if k ≤ n then b else (r, k - n) :: b)

/-- Count what a running command has run by the Calend in the frame that ends (R285). How many of these cycles were stalled is a free value
between the least and the most there can be (log 48). -/
def chargeRun (s : State) (u ctx : Nat) (c : Ctx) (r : Run) : State :=
  let ran := r.soFar s u - (r.chX + r.chS)
  let left := r.stall - r.chS
  let lo := ran - (r.cycles - r.stall - r.chX)
  let hi := min left ran
  let (n, s) := draw s
  let k := lo + Config.freeValue n % (hi - lo + 1)
  let (by1, by2) := splitStall k r.stallBy
  putCtx s u ctx { c with slowRan := true, slowX := c.slowX + (ran - k), slowS := c.slowS + k,
                          slowBy := by1.foldl (fun t p => if p.2 = 0 then t else tmod t p.1 0 (· + p.2)) c.slowBy,
                          slowFlags := if k = 0 then c.slowFlags else c.slowFlags ||| r.stallFlags,
                          run := some { r with chX := r.chX + (ran - k), chS := r.chS + k, stallBy := by2 } }

/-- Every command that runs across the Calend, charged. -/
def chargeRunning (s : State) : State :=
  s.units.foldl (fun s pu => pu.2.ctxs.foldl (fun s p => match p.2.run with | some r => chargeRun s pu.1 p.1 p.2 r | none => s) s) s

/-- A task that ran in the frame: its ratio and what Table 12.7 lists beside it. -/
structure Slow where
  planId : Nat
  task : Nat
  ratio : Nat
  unit : Nat
  x : Nat
  st : Nat
  by' : Tbl Nat
  flags : Nat

/-- (X + S) / (X + S_r) in units of 1/256, rounded down, at most 0xFFFF; 0/0 is free (log 41). -/
def slowRatio (x sc sr : Nat) (s : State) : Nat × State :=
  if x + sr = 0 then
    if sc = 0 then (let (n, s) := draw s; (Config.freeValue n % 65536, s)) else (0xFFFF, s)
  else (sat 0xFFFF ((x + sc) * 256 / (x + sr)), s)

/-- The tasks of admitted plans that ran in the frame. -/
def slowTasks (s : State) : List Slow × State :=
  s.units.foldl (fun acc pu =>
    pu.2.ctxs.foldl (fun (acc : List Slow × State) p =>
      let c := p.2
      if !c.slowRan || !planRuns s c.planId then acc
      else
        let (r, s1) := slowRatio c.slowX c.slowS c.stallRef acc.2
        (acc.1 ++ [{ planId := c.planId, task := c.task, ratio := r, unit := pu.1, x := c.slowX, st := c.slowS, by' := c.slowBy, flags := c.slowFlags }], s1)) acc)
    (([] : List Slow), s)

/-- The Quarter of a unit in the SLOWDOWN section: 0xF for the hub engines. -/
def slowQuarter (u : Nat) : Nat := if u = rFus || u = rPln then 0xF else rQ u

/-- Descending ratio, then ascending unit, then ascending task. -/
def slowBefore (a b : Slow) : Bool :=
  a.ratio > b.ratio || (a.ratio = b.ratio && (a.unit < b.unit || (a.unit = b.unit && a.task < b.task)))

/-- Insert in that order. -/
def slowInsert (a : Slow) : List Slow → List Slow
  | [] => [a]
  | b :: r => if slowBefore a b then a :: b :: r else b :: slowInsert a r

/-- One entry of Table 12.7. -/
def slowEntry (t : Slow) (s : State) : List Byte × State :=
  let (top, s) := topOf t.by' s
  (natLe 8 t.planId ++ natLe 2 t.task ++ natLe 2 t.ratio ++ natLe 4 t.unit ++ natLe 4 (sat 0xFFFFFFFF t.x) ++ natLe 4 (sat 0xFFFFFFFF t.st) ++ natLe 4 top ++
    natLe 1 (b2n (tget t.by' 0 0 ≠ 0) + t.flags) ++ List.replicate 3 0, s)

/-- The SLOWDOWN section. -/
def slowSection (s : State) : List Byte × State :=
  let (ts, s) := slowTasks s
  let tops := (attestedPlans s).flatMap (fun p => [0, 1, 2, 3, 0xF].filterMap (fun q =>
    let mine := ts.filter (fun t => t.planId = p.planId && slowQuarter t.unit = q)
    if mine.isEmpty then none
    else some (natLe 8 p.planId ++ natLe 1 q ++ [0] ++ natLe 2 (mine.foldl (fun m t => max m t.ratio) 0) ++ natLe 4 0)))
  let overs := (ts.filter (fun t => (tget s.rgl 0 {}).slowReport ≤ t.ratio)).foldl (fun l t => slowInsert t l) []
  let (rows, s) := (overs.take 256).foldl (fun (acc : List Byte × State) t => let (b, s) := slowEntry t acc.2; (acc.1 ++ b, s)) (([] : List Byte), s)
  (natLe 4 tops.length ++ natLe 2 (min 256 overs.length) ++ natLe 2 (sat 0xFFFF (overs.length - 256)) ++ tops.flatMap (fun b => b) ++ rows, s)

/-! ## The other sections (Table 17.18) -/

/-- SUMMARY. -/
def summarySection (s : State) : List Byte :=
  let f := s.stats
  let c := s.cal
  natLe 6 c.frame ++ natLe 1 c.outcome ++ natLe 1 s.host.season ++ natLe 8 c.calend ++ natLe 8 c.eve ++ natLe 4 f.lateP1P3 ++ natLe 4 f.overruns ++ natLe 4 f.lapses ++
    natLe 4 f.starves ++ natLe 2 s.vg.stops ++ natLe 2 s.vg.throttles ++ natLe 2 s.vg.p0Overrun ++ natLe 2 f.overrides ++ natLe 2 s.pln.fallbacks ++
    natLe 2 f.disagrees ++ natLe 2 s.pln.contestOver ++ natLe 2 (f.restartsA + f.restartsB) ++
    natLe 2 (b2n c.slewing + 2 * b2n s.time.holdover + 4 * b2n s.time.slewBack) ++ List.replicate 6 0

/-- OUTPUTS. -/
def outputsSection (s : State) : List Byte :=
  s.vg.outStates.flatMap (fun x => natLe 8 x.1 ++ natLe 2 x.2.1 ++ natLe 1 x.2.2 ++ List.replicate 5 0)

/-- SNAPSHOT: the entries of the frame's table tile. -/
def snapSection (s : State) : List Byte := (rd s (s.season.cfg.tableBase + s.cal.frame % 4 * 2048 + 64) 1024)

/-- TRAFFIC. -/
def trafficSection (s : State) : List Byte :=
  let cls (t : Tbl Nat) : List Byte := (List.range 4).flatMap (fun c => natLe 8 (tget t c 0))
  (List.range 4).flatMap (fun d => cls (stcOf s d).bytesRd ++ cls (stcOf s d).bytesWr) ++
    (List.range 4).flatMap (fun q => cls (stcOf s q).comRd ++ cls (stcOf s q).comWr) ++
    (List.range 11).flatMap (fun p => (List.range 4).flatMap (fun c => natLe 8 (tget s.swIn (4 * p + c) 0)) ++
      (List.range 4).flatMap (fun c => natLe 8 (tget s.swOut (4 * p + c) 0)))

/-- STORE: a channel that moved no data has no ratio (log 41). -/
def storeSection (s : State) : List Byte × State :=
  (List.range 4).foldl (fun (acc : List Byte × State) d =>
    let c := stcOf s d
    let panic := c.panicNs + (if c.panic then s.now - c.panicSince else 0)
    let ratios := (c.chans.filter (fun p => p.2.data ≠ 0)).map (fun p => (p.1, p.2.busyNow s.now * 16 / p.2.data))
    let (k, s) := topOf ratios acc.2
    (acc.1 ++ natLe 4 c.entries ++ natLe 4 (panic / 1000) ++ natLe 2 (sat 0xFFFF (ratios.foldl (fun m x => max m x.2) 0)) ++ natLe 1 k ++ [0], s))
    (([] : List Byte), s)

/-- CLUSTERS. -/
def clustersSection (s : State) : List Byte :=
  (s.stats.clu.filter (fun p => p.2 ≠ (0, 0, 0))).flatMap (fun p => natLe 2 p.1 ++ natLe 2 (sat 0xFFFF p.2.1) ++ natLe 2 (sat 0xFFFF p.2.2.1) ++ natLe 1 p.2.2.2 ++ [0])

/-- CHECKS. -/
def checksSection (s : State) : List Byte :=
  let f := s.stats
  natLe 4 f.refetches ++ natLe 4 f.reserves ++ (List.range 4).flatMap (fun m => natLe 4 (tget f.stage3 m 0)) ++ natLe 4 f.unattributed ++ natLe 4 0 ++ natLe 8 f.scrubBytes

/-- SAFETY. -/
def safetySection (s : State) : List Byte :=
  natLe 4 (regStSeg s.st) ++ (List.range 4).flatMap (fun q => natLe 4 (regStRot (rotOf s q))) ++ (List.range 6).flatMap (fun k => natLe 4 (regStDebt s k)) ++
    natLe 4 (regVgBudget s.vg)

/-- A section behind its header; its length is a multiple of 8. -/
def reportPart (type : Nat) (body : List Byte) : List Byte :=
  let n := alignUp body.length 8
  natLe 2 type ++ natLe 2 0 ++ natLe 4 n ++ padTo n body

/-- The report of the frame that ends, and the POWER section by itself. -/
def frameReport (s : State) : List Byte × List Byte × State :=
  let (slow, s) := slowSection s
  let (store, s) := storeSection s
  let (power, s) := powerSection s
  let parts := [summarySection s, outputsSection s, snapSection s, slow, trafficSection s, store, clustersSection s, checksSection s, safetySection s, power]
  (padTo 65536 ((parts.zipIdx).flatMap (fun p => reportPart (p.2 + 1) p.1)), power, s)

/-- The report of the frame that ends is latched: at the Calend it becomes the one to publish (R380, R444). -/
def latchReport (s : State) : State :=
  if s.cal.frame = 0 then s
  else
    let (b, power, s) := frameReport (chargeRunning s)
    { s with reportRaw := b, reportPend := true, pm := { s.pm with powSection := power } }

/-! ## The counts of a frame return to 0 -/

/-- Counters of a cluster that count within a frame. -/
def Clu.newFrame (c : Clu) : Clu :=
  { c with arithNanLost := 0, arithInexact := 0, arithNan := 0, arithSat := 0, compared := 0, sramStall := 0, ldeRefetch := 0, wlkSeqErrors := 0, wlkEmpty := 0,
           wlkBusyCycles := 0 }

/-- Counters of a store controller; a panic in progress counts from the Calend. -/
def Stc.newFrame (now : Nat) (c : Stc) : Stc :=
  { c with postMax := 0, panicNs := 0, panicSince := if c.panic then now else c.panicSince, entries := 0, leapRows := 0, bytesRd := [], bytesWr := [], comRd := [],
           comWr := [], chans := tmap c.chans (Chan.newFrame now) }

/-- What a context counts within a frame. -/
def Ctx.newFrame (c : Ctx) : Ctx := { c with slowRan := false, slowX := 0, slowS := 0, slowBy := [], slowFlags := 0, delayedBy := false }

/-- Every count of a frame returns to 0. -/
def clearCounts (s : State) : State :=
  let vg : Vg := { s.vg with queuePeak := 0, queueOvf := false, p0Overrun := 0, throttles := 0, stops := 0, rail := 0, tjMaxFrame := s.pm.tjMax }
  let s := { s with stats := {}, clu := tmap s.clu Clu.newFrame, nle := tmap s.nle (fun n => { n with empty := 0, clipped := 0, busyCycles := 0 }) }
  let s := { s with stc := tmap s.stc (Stc.newFrame s.now), fus := { s.fus with greedy := 0, outOfOrder := 0, skipped := 0 }, vg := vg, swIn := [], swOut := [] }
  { s with pln := { s.pln with fallbacks := 0, contestOver := 0, busyCycles := 0 }, pm := { s.pm with peakX10 := 0 }, st := { s.st with run := 0, busyNs := 0 },
           units := tmap s.units (fun u => { u with starve := 0, ctxs := tmap u.ctxs Ctx.newFrame }) }

end Sys2Proof.Machine
end

