-- ==== Sys2Proof/Machine/Calend.lean ====
section
/-!
DEFINITION. The Calend (R24–R37, R57, R70, R113, R168, R207, R231) and the epoch of a Season change (R28).
-/

namespace Sys2Proof.Machine

/-! ## The end of a frame -/

/-- R36: a command of the frame that ends still runs; a warning record names the plan and the command. -/
def noteOverruns (s : State) : State :=
  s.units.foldl (fun s pu => pu.2.ctxs.foldl (fun s p =>
    match p.2.run with
    | some r =>
      if r.cmd.frame ≠ s.cal.frame then s
      else alm (modStats s (fun f => { f with overruns := f.overruns + 1 })) (srcOf pu.1) .lateCommand 2 [r.cmd.planId, r.cmd.task, r.cmd.idx, r.cmd.frame]
    | none => s) s) s

/-- Quarantines that take effect at the Calend of frame `n`: the decided ones, then the deferred ones that are due (R316, R317). -/
def dueQuarantines (s : State) (n : Nat) : State :=
  let s := (List.range 288).foldl (fun s g => if quarantineDue s g n s.now then carryOut s g else s) s
  (List.range 4).foldl (fun s q => match deferredDue s q s.now with | some g => carryOut s g | none => s) s

/-- What ends with the frame: the Eve deadline where it has not been taken, overruns, trigger pulses. -/
def endFrame (s : State) : State :=
  if s.cal.frame = 0 then s
  else
    let s := noteOverruns (eveDeadline s)
    { s with trig := tmap s.trig (fun t => { t with active := false }) }

/-! ## The schedule (R25, R27, R33) -/

/-- The phase error of a Calend at `t`, in (−P/2, P/2]: positive where it is late. Both directions are as short where it is P/2; which is
taken is free (log 41). -/
def phaseError (t p f : Nat) (s : State) : Int × State :=
  let r := (t + p - f % p) % p
  if 2 * r = p then
    let (n, s) := draw s
    (if Config.freeValue n % 2 = 0 then r else (r : Int) - p, s)
  else (if 2 * r < p then (r : Int) else (r : Int) - p, s)

/-- The info records of R27: an error of more than 100 µs, and its end. -/
def notePhase (s : State) (e : Int) : State :=
  if !s.cal.errNoted && (e > 100000 || e < -100000) then
    { alm s 0x0000 .calPhase 1 [1, twos 64 e] with cal := { s.cal with errNoted := true } }
  else if s.cal.errNoted && e = 0 then { alm s 0x0000 .calPhase 1 [0, 0] with cal := { s.cal with errNoted := false } }
  else s

/-- Fix the next Calend and Eve of the frame that starts at `t`. -/
def schedule (s : State) (t : Nat) : State :=
  let p := s.cal.periodReg * 100000
  let (e, s) := phaseError t p (s.cal.phaseUs * 1000) s
  let s := notePhase s e
  let d := clampAbs (p / 400) e
  let next := ((t : Int) + p - d).toNat
  { s with cal := { s.cal with next := next, eve := next - s.cal.eveGuardUs * 1000, phaseErrNs := e, slewing := e ≠ 0 } }

/-- Frame `n` starts at `t`. -/
def startFrame (s : State) (n t : Nat) : State :=
  let c : CalS := { s.cal with frame := n, prevCalend := s.cal.calend, calend := t, prevEve := s.cal.eve, outcome := 7 }
  let c : CalS := { c with evalDone := false, firstOfSeason := false }
  let isl (x : Island) : Island := { x with judged := false, good := false, edged := false }
  let s := { s with cal := c, islA := isl s.islA, islB := isl s.islB, vg := { s.vg with events := s.vg.events.filter (fun e => n ≤ e.frame + 1) } }
  schedule { s with health := tmap s.health (fun h => { h with hbSeen := false }) } t

/-! ## Plans at a Calend (R28, R47, R57, R65, R70, R368) -/

/-- Is the Calend of frame `n` the epoch of a Season change? -/
def epochAt (s : State) (n : Nat) : Bool := s.season.pending.any (fun p => p.2 ≤ n)

/-- Plans that retire at the Calend of frame `n`: those PLAN_RETIRE named, and at an epoch every plan of the old Season. -/
def retireDue (s : State) (n : Nat) : State :=
  let due := s.plans.filter (fun p => p.admitted && !p.retired && (p.retiring || (epochAt s n && !p.pendingSeason)))
  due.foldl (fun s p => retireNow s p.planId) s

/-- Credits that a failed check has held go to their producers (R65). -/
def returnHeld (s : State) : State :=
  let owed := s.units.flatMap (fun pu => pu.2.ctxs.flatMap (fun p => p.2.held))
  let s := { s with units := tmap s.units (fun u => { u with ctxs := tmap u.ctxs (fun c => { c with held := [] }) }) }
  owed.foldl send s

/-- Plans that run in frame `n`. -/
def plansOf (s : State) (n : Nat) : List Nat :=
  (s.plans.filter (fun p => p.admitted && !p.retired && !p.pendingSeason && p.startFrame ≤ n)).map (·.planId)

/-- Define, arm and feed one plan for frame `n`: its contexts, its commands, the tokens of its snapshot bindings (R57, R231). -/
def armFor (n : Nat) (s : State) (id : Nat) : State :=
  match planOf s id with
  | none => s
  | some p =>
    let s := armPlan (placePlan s p) p n
    { s with flights := s.flights ++ snapFlights s p n }

/-- Every sequencer of an activated Quarter, and the hub engines, send a heartbeat with the clusters they heard from (R113). -/
def sendHeartbeats (s : State) : State :=
  let on (u : Nat) : Bool := u = rFus || u = rPln || quarterOn s (rQ u)
  { s with units := s.units.map (fun p => (p.1, { p.2 with hbOut := if on p.1 then some p.2.heardFrom else none, heardFrom := [] })) }

/-- A true random seed of a channel's leap-refresh LFSR; 0 becomes 1 (R207). -/
def reseed (s : State) (k : Nat) : State :=
  let (n, s) := draw s
  let v := Config.freeValue n % 2 ^ 32
  modStc s (k / 32) (fun c => { c with chans := tmod c.chans (k % 32) {} (fun x => { x with lfsr := if v = 0 then 1 else v }) })

/-- A restart handover's confirmation window opens at the first frame (R416). -/
def openWindow (s : State) (n : Nat) : State :=
  if s.upd.state ≠ 4 || s.upd.windowEnd.isSome then s
  else notify (modUpd s (fun u => { u with windowEnd := some (n + u.confirmFrames) })) 0x000A 4 s.alm.head

/-! ## CALEND -/

/-- All that a Calend holds, for frame `n` at `t`. -/
def calend (s : State) (n t : Nat) : State :=
  let prev := s.cal.calend
  let s := publishReport { s with now := max s.now t }
  let s := startFrame (clearCounts (latchReport (endFrame s))) n t
  let s := (List.range 288).foldl promote (dueQuarantines s n)
  let s := (List.range 4).foldl (fun s q => if stepOver s q n then endStep s q false else s) s
  let s := retireDue s n
  let s := switchMap (calendSwitches s n) n
  let s := applyTags (dropRetired (freeContexts (returnHeld s)))
  let s := takeSnapshot s n t prev
  let s := sendHeartbeats ((plansOf s n).foldl (armFor n) s)
  let s := (List.range 128).foldl reseed s
  let s := { s with st := { s.st with scrubQuota := scrubQuotaOf s }, pln := { s.pln with unread := s.pln.unread.filter (fun x => n ≤ x.2 + 2) } }
  openWindow s n

/-- CALEND: the frame number rises by 1 at the instant fixed at the Calend before it, or for the first frame at Ready (R25, R26, R33). -/
def execCalend (s : State) : Out :=
  if !s.host.ready || s.inReset || s.railsLow then done s s else done s (calend s (s.cal.frame + 1) s.cal.next)

/-! ## SEASON_EPOCH (R28, R403) -/

/-- The snapshot table of the frame under the new Season: entries of streams that go on stay, the others are new. -/
def moveSnapTable (s : State) (old : Tbl Stream) (was : List Byte) : State :=
  let n := s.cal.frame
  let tab := padTo 2048 (padTo 64 (natLe 6 n ++ natLe 1 (s.streams.filter (fun p => p.2.defd)).length ++ natLe 1 0 ++ natLe 8 s.cal.calend) ++
    (List.range 32).flatMap (fun k =>
      if tget old k {} = streamOf s k then slice was (64 + 32 * k) 32 else snapEntry k (streamOf s k) s.cal.calend s.cal.prevCalend))
  let a := s.season.cfg.tableBase + n % 4 * 2048
  putTile s a 11 (n % 65536) (tileCrc a (n % 65536) tab) tab

/-- The first frame of the new Season: its length and Eve (R28, R33). Its end is aligned, so that a noted error ends with the info record of
R27. -/
def newSchedule (s : State) : State :=
  let s := notePhase s 0
  let p := s.cal.periodReg * 100000
  let next := nextInstant (s.cal.calend + p) p (s.cal.phaseUs * 1000)
  { s with cal := { s.cal with next := next, eve := next - s.cal.eveGuardUs * 1000, phaseErrNs := 0, slewing := false, firstOfSeason := true } }

/-- The plans of the new Season start in its first frame. -/
def startPlans (s : State) : State :=
  let n := s.cal.frame
  let s := { s with plans := s.plans.map (fun p => if p.admitted && !p.retired then { p with startFrame := n } else p) }
  (plansOf s n).foldl (armFor n) s

/-- SEASON_EPOCH: at the epoch Calend, once the old Season's plans are retired. -/
def execSeasonEpoch (s : State) : Out :=
  match s.season.pending with
  | none => done s s
  | some (k, f) =>
    if !s.host.ready || s.cal.frame < f then done s s
    else
      let s0 := { s with season := { s.season with pending := none },
                         plans := s.plans.map (fun p => if p.admitted && !p.retired then { p with pendingSeason := false } else p) }
      match seasonOf s k with
      | none => done s s0
      | some c =>
        let s1 := newSchedule (applySeason s0 c)
        let s2 := epochSteps (powerSeason s1 false) (pmActives s)
        let fresh := s2.streams.filter (fun p => p.2.defd && tget s.streams p.1 {} ≠ p.2)
        let s3 := fresh.foldl (fun s p => placeholder s p.1) s2
        done s (startPlans (moveSnapTable s3 s.streams (rd s (s.season.cfg.tableBase + s.cal.frame % 4 * 2048) 2048)))

end Sys2Proof.Machine
end

