-- ==== Sys2Proof/Machine/HostIface.lean ====
section
/-!
DEFINITION. What the host does to the device through its BARs (R357–R361, R381–R383): register and ring writes, reads that have an
effect, the store aperture, and resets and power states of the interface.
-/

namespace Sys2Proof.Machine

/-! ## The store aperture (R381, R382) -/

/-- Logical address of an aperture offset. -/
def aperAddr (s : State) (ofs : Nat) : Nat := s.host.aperBase * 2 ^ 20 + ofs

/-- What a host read of the aperture returns: bytes as stored, all ones where unmapped or without expert access. -/
def aperBytes (s : State) (ofs len : Nat) : List Byte :=
  (List.range len).map (fun i =>
    if s.host.expertOn && mapped (aperAddr s ofs + i) 1 then hubByte s (aperAddr s ofs + i) else 0xFF)

/-- APERTURE_READ: `len` bytes at offset `ofs` of the aperture. One longer than the largest payload reads all ones (R361). -/
def execApertureRead (ofs len : Nat) (s : State) : Out :=
  let ok := s.host.expertOn && len ≤ 512
  let bs := if ok then aperBytes s ofs len else List.replicate len 0xFF
  let s1 := { s with host := { s.host with readData := bs } }
  done s (if !ok then s1
          else if !mapped (aperAddr s ofs) len then alm s1 srcHost .aperture 2 [aperAddr s ofs, 0]
          else countBytes s1 5 3 (aperAddr s ofs) len false)

/-- A host write into the aperture: with expert access the bytes change and no checksum does; a write to an unmapped address, or as P3
into a unit of another owner (R169), is dropped and recorded. -/
def aperWrite (s : State) (ofs : Nat) (bs : List Byte) : State :=
  let a := aperAddr s ofs
  if bs.length > 512 then s
  else if !s.host.expertOn then expertRefuse s (0x8000000 + ofs)
  else if !mapped a bs.length then alm s srcHost .aperture 2 [a, 1]
  else
    let s1 := hubWrite s (expertOwner s) a bs
    match firstBarred s (expertOwner s) a bs.length with
    | some x => alm s1 srcHost .unmapped 3 [x, expertOwner s, tagOf s x]
    | none => countBytes s1 5 3 a bs.length true

/-- APERTURE_WRITE. -/
def execApertureWrite (ofs : Nat) (bytes : List Byte) (s : State) : Out := done s (aperWrite s ofs bytes)

/-! ## Register writes (R6–R8, R361, R381, R383) -/

/-- A write of 4 or 8 bytes, aligned. -/
def aligned48 (addr size : Nat) : Bool := (size = 4 || size = 8) && addr % size = 0

/-- The 32-bit words of a write: offset and value. -/
def wordsOf (addr size value : Nat) : List (Nat × Nat) :=
  if size = 8 then [(addr, value % 2 ^ 32), (addr + 4, value / 2 ^ 32)] else [(addr, value % 2 ^ 32)]

/-- Unmask or mask an MSI-X vector: one that pends is signalled as it is unmasked. -/
def vectorControl (s : State) (v x : Nat) : State :=
  let s := { s with host := { s.host with msixMask := tput s.host.msixMask v (bit x 0) } }
  if !bit x 0 && tget s.host.msixPend v false && !s.host.d3hot then
    msix { s with host := { s.host with msixPend := tput s.host.msixPend v false } } v
  else s

/-- One word of a register write to BAR0. -/
def bar0Word (s : State) (w : Nat × Nat) : State :=
  let (o, v) := w
  if o = 0x30000 then sqTailWrite s v
  else if o = 0x3000C then cqHeadWrite s v
  else if o = 0x30010 then { s with host := { s.host with doorbellErr := s.host.doorbellErr && !bit v 31 } }
  else if o = 0x10 then if s.host.expertOn then { s with host := { s.host with aperLo := v } } else s
  else if o = 0x14 then
    if s.host.expertOn then { s with host := { s.host with aperBase := bits (v * 2 ^ 32 + s.host.aperLo) 47 20 } }
    else s
  else if 0xF00000 ≤ o && o < 0xF00400 then
    let v' := (o - 0xF00000) / 16
    if o % 16 = 12 then vectorControl s v' v
    else { s with host := { s.host with msixTab := tput s.host.msixTab ((o - 0xF00000) / 4) v } }
  else s

/-- A write to BAR0: ring memory takes any access up to the largest payload, registers aligned words. -/
def bar0Write (s : State) (o size value : Nat) : State :=
  if 0x10000 ≤ o && o < 0x11000 then
    if size ≤ 512 then { s with host := { s.host with sq := ringWrite s.host.sq (o - 0x10000) ((natLe size value).take (0x11000 - o)) } } else s
  else if !aligned48 o size then s
  else
    let s1 := (wordsOf o size value).foldl bar0Word s
    if !s.host.expertOn && (o = 0x10 || o = 0x14) then expertRefuse s1 o else s1

/-- A write of a register of CVU `k`, 8 to 15 (R193). -/
def cvuWord (s : State) (k : Nat) (w : Nat × Nat) : State :=
  let v := cvuOf s k
  let (o, x) := w
  if o = 0 then putCvu s k (v.writeCtrl x)
  else if o = 0xC then putCvu s k (v.feed (natLe 4 x))
  else if v.busy then s
  else match o with
    | 0x4 => putCvu s k { v with len := x }
    | 0x8 => putCvu s k { v with seq := x }
    | 0x10 => putCvu s k { v with loAddr := x }
    | 0x14 => putCvu s k { v with addr := (x % 65536) * 2 ^ 32 + v.loAddr }
    | 0x18 => putCvu s k { v with loRun := x }
    | 0x1C => putCvu s k { v with run := x * 2 ^ 32 + v.loRun }
    | 0x28 => putCvu s k { v with loExpect := x }
    | 0x2C => putCvu s k { v with expect := x * 2 ^ 32 + v.loExpect }
    | _ => s

/-- The ranged RWL fields of a word of the expert area: shift, width, lowest, highest value. -/
def rwlFields (s : State) (o : Nat) : List (Nat × Nat × Nat × Nat) :=
  let p := s.cal.periodReg * 100
  if o = 0x1000000 then [(16, 11, 200, 2000), (0, 10, 100, 1000)]
  else if o = 0x1000004 then [(0, 17, 0, p - 1)]
  else if o = 0x1000008 then [(0, 12, 300, 4000)]
  else if 0x1000100 ≤ o && o < 0x1000130 then [(20, 10, 1, 1000), (0, 20, 0, p - 1)]
  else if 0x1060000 ≤ o && o < 0x1060500 then
    let r := tget s.rgl ((o - 0x1060000) / 0x100) {}
    match o % 0x100 with
    | 0x00 => [(24, 8, 2, 128), (16, 8, 2, 128), (8, 8, 2, 128), (0, 8, 2, 128)]
    | 0x04 => [(8, 8, 1, r.baseSTD), (0, 8, 1, r.baseBKG)]
    | 0x10 => [(16, 12, 1, 4095), (0, 16, 1, 65535)]
    | 0x14 => [(16, 12, 1, 4095), (0, 16, 1, 65535)]
    | 0x18 => [(16, 12, 1, 4095), (0, 16, 1, 65535)]
    | 0x20 => if o < 0x1060100 then [(0, 16, 256, 0xFFFF)] else []
    | _ => []
  else if 0x1200000 ≤ o && o < 0x1240000 then
    let c := stcOf s ((o - 0x1200000) / 0x10000)
    match o % 0x10000 with
    | 0x1050 => [(0, 4, 4, 10)]
    | 0x1058 => [(4, 4, 1, 15), (0, 4, 0, c.panicOn - 1)]
    | 0x1440 => [(0, 6, 1, 63)]
    | _ => []
  else []

/-- One word of a write to the expert area with expert access open: CVU registers take it; every other field is read-only or RWL, which
no write changes once a Season is applied (R7), and a value outside an RWL field's range is recorded. -/
def expertWord (s : State) (w : Nat × Nat) : State :=
  let (o, v) := w
  if 0x10B0200 ≤ o && o < 0x10B0400 then cvuWord s ((o - 0x10B0000) / 0x40) (o % 0x40, v)
  else if (rwlFields s o).any (fun f => (v >>> f.1) % 2 ^ f.2.1 < f.2.2.1 || f.2.2.2 < (v >>> f.1) % 2 ^ f.2.1) then
    alm s 0x0000 .rwlRange 2 [o, v]
  else s

/-- A write to BAR2: the result window ignores it, the expert area takes aligned words, the aperture bytes. -/
def bar2Write (s : State) (o size value : Nat) : State :=
  if o < 0x1000000 then s
  else if o < 0x8000000 then
    if !aligned48 o size then s
    else if !s.host.expertOn then expertRefuse s o
    else (wordsOf o size value).foldl expertWord s
  else if o < 0x10000000 then aperWrite s (o - 0x8000000) (natLe size value)
  else s

/-- REGISTER_WRITE: a host write of `size` bytes; `addr` is a BAR0 offset, or 2²⁸ more than a BAR2 offset (the model's numbering,
log 29). -/
def execRegisterWrite (addr size value : Nat) (s : State) : Out :=
  done s (if addr < 2 ^ 28 then if addr < 2 ^ 24 then bar0Write s addr size value else s
          else bar2Write s (addr - 2 ^ 28) size value)

/-- FRAME_LO_READ latches FRAME[47:32] (R26). -/
def execFrameLoRead (s : State) : Out :=
  done s { s with cal := { s.cal with frameHi := bits s.cal.frame 47 32 }, host := { s.host with readData := natLe 4 s.cal.frame } }

/-! ## Identity (Table 17.1) -/

/-- Vendor ID of the function. -/
def vendorId : Nat := 0x1F3C
/-- Device ID of the function. -/
def deviceId : Nat := 0x5104
/-- Class code: processing accelerator. -/
def classCode : Nat := 0x120000
/-- Revision ID: REV_HUB. -/
def revisionId (s : State) : Nat := s.ident.revHub

/-- The first 12 bytes of configuration space that Table 17.1 gives, as a configuration read returns them once stage 2 has ended (R392): Vendor ID,
Device ID, then Revision ID and class code. Before that the endpoint answers with Configuration Request Retry Status. Command and status,
between the two, are PCI Express's own. -/
def configIdentity (s : State) : Option (List Byte × List Byte) :=
  if s.host.crs then none else some (natLe 2 vendorId ++ natLe 2 deviceId, natLe 1 (revisionId s) ++ natLe 3 classCode)

/-! ## Resets and power states of the interface (R360, R389) -/

/-- Is a taken entry a REWRITE of a weight region that has begun: first of its family? -/
def begunRewrite (s : State) (e : SubEntry) : Bool := e.opcode = 0x0300 && parByte e 2 = 1 && !waitsTurn s e

/-- A REWRITE that does not finish leaves the region's tiles, and its reserve's, invalid (R369). -/
def spoilRewrite (s : State) (e : SubEntry) : State :=
  let r := tget s.regions (fld (parOf e) 0 2) {}
  if !r.valid || bufLenOf e ≠ r.size then s
  else
    (List.range (r.size / 2 ^ r.log2Tile)).foldl (fun s i =>
      let s := dropCheck s (r.base + i * 2 ^ r.log2Tile) r.log2Tile
      if r.reserve = 0 then s else dropCheck s (r.reserve + i * 2 ^ r.log2Tile) r.log2Tile) s

/-- A Function Level Reset, hot reset or link-down: mailbox rings and pointers, result rings, expert access, DMA and commands in
progress (R360). The MSI-X table returns to its masked state (PCI Express; PRESUMED, log 25). -/
def resetInterface (s : State) (kind : Nat) : State :=
  let s := (s.host.taken.filter (fun e => begunRewrite s e)).foldl spoilRewrite s
  let s := expertClose s 1
  let h : HostS := { s.host with sqTail := 0, sqHead := 0, cqTail := 0, cqHead := 0, doorbellErr := false, sq := [], cq := [], taken := [],
                                 waiting := [], rings := [] }
  let h : HostS := { h with dmaDone := [], dmaChan := [], msixTab := [], msixMask := [], msixPend := [], dmaOn := true, d3hot := false }
  alm { s with host := h, alm := { s.alm with clearEntry := none } } srcHost .hostDma 2 [0x10 + kind]

/-- HOST_INTERFACE_RESET: 0 Function Level Reset, 1 hot reset, 2 link-down. -/
def execHostInterfaceReset (kind : Nat) (s : State) : Out :=
  let s1 := resetInterface s kind
  done s (if kind = 2 then { s1 with host := { s1.host with linkUp := false, crs := true } } else s1)

/-- PERST_RELEASE resets the endpoint and the host interface (R389). -/
def execPerstRelease (s : State) : Out := done s (resetInterface s 3)

/-- PCIE_POWER_STATE: in D3hot no DMA and no interrupt leave the device (R360); on the way back what pends is signalled. -/
def execPciePowerState (d3 : Bool) (s : State) : Out :=
  let s1 := { s with host := { s.host with d3hot := d3, dmaOn := !d3 } }
  if d3 then done s s1
  else
    done s ((List.range 64).foldl (fun s v =>
      if tget s.host.msixPend v false && !tget s.host.msixMask v true then
        msix { s with host := { s.host with msixPend := tput s.host.msixPend v false } } v
      else s) s1)

/-! ## Device DMA (R359) -/

/-- Does a command read a host buffer? -/
def readsBuffer (e : SubEntry) : Bool :=
  [0x0103, 0x0200, 0x0305, 0x0400, 0x0702, 0x0800].contains e.opcode || (e.opcode = 0x0300 && (parByte e 2 = 1 || parByte e 2 = 2)) ||
    (e.opcode = 0x0401 && parByte e 1 = 2)

/-- The taken command with a tag that waits for its buffer. -/
def dmaEntry (s : State) (tag : Nat) : Option SubEntry :=
  s.host.taken.find? (fun e => e.tag = tag && readsBuffer e && (s.host.ready || e.opcode = 0x0200) && bufLenOf e ≠ 0 && !waitsTurn s e && (channelOf s e).isSome &&
    !s.host.dmaDone.contains tag)

/-- A device DMA read fails: its command ends with HOST_DMA and AER logs the error (R359). -/
def dmaFail (s : State) (e : SubEntry) : State :=
  let s := if begunRewrite s e then spoilRewrite s e else s
  let s := { s with host := { s.host with aer := sat 0xFFFFFFFF (s.host.aer + 1) } }
  settleStray (complete s e stHostDma []) 64

/-- DMA_COMPLETION: the completion of a device DMA read arrives, good or bad. Reads are named by the TAG of their command. -/
def execDmaCompletion (tag : Nat) (good : Bool) (s : State) : Out :=
  match dmaEntry s tag with
  | none => done s s
  | some e => done s (if good then { s with host := { s.host with dmaDone := s.host.dmaDone ++ [tag] } } else dmaFail s e)

/-- DMA_TIMEOUT: 50 ms have passed without it. -/
def execDmaTimeout (tag : Nat) (s : State) : Out :=
  match dmaEntry s tag with
  | none => done s s
  | some e => done s (dmaFail s e)

end Sys2Proof.Machine
end

