-- ==== Sys2Proof/Machine/Tokens.lean ====
section
/-!
DEFINITION. The sequencer's own steps: tokens and credits arriving (R62–R64), completion, VOID completion and lapse of commands,
context swaps (R73–R75), and the twin comparator (R120, R121, R157).
-/

namespace Sys2Proof.Machine

/-- A unit notes the cluster that a token or credit came from, for its next heartbeat (R319). -/
def hear (s : State) (dst src : Nat) : State :=
  if isClu src then modUnit s dst (fun u => if u.heardFrom.contains (gOf src) then u else { u with heardFrom := u.heardFrom ++ [gOf src] }) else s

/-- TOKEN_ARRIVAL: the token leaves the channel, if it is on it and none sent earlier on its way is, and the unit takes it by the
first matching case of R63. A token from elsewhere arrives as it is. -/
def execTokenArrival (dst : Nat) (t : Token) (s : State) : Out :=
  let p := fun f : Flight => f.dst = dst && f.tok = some t
  if inFlight s.flights p then
    match takeFlight s.flights p with
    | some (f, fs) => done s (hear (recvToken { s with flights := fs } dst t) dst f.src)
    | none => done s s
  else done s (recvToken s dst t)

/-- CREDIT_ARRIVAL (R64). -/
def execCreditArrival (dst : Nat) (c : Credit) (s : State) : Out :=
  let p := fun f : Flight => f.dst = dst && f.cred = some c
  if inFlight s.flights p then
    match takeFlight s.flights p with
    | some (f, fs) => done s (hear (recvCredit { s with flights := fs } dst c) dst f.src)
    | none => done s s
  else done s (recvCredit s dst c)

/-- INPUT_VOID_COMPLETE: the head command of a resident context holds a VOID token of its frame (R66). -/
def execInputVoidComplete (u ctx : Nat) (s : State) : Out :=
  match ctxOf s u ctx with
  | none => done s s
  | some c =>
    match c.queue with
    | [] => done s s
    | a :: _ => if c.resident && c.run.isNone && voidIn c a then done s (inputVoid s u ctx c a) else done s s

/-- Make resident the pinned contexts of a unit that still wait for room (R72). -/
def residePending (u : SeqUnit) : SeqUnit :=
  u.ctxs.foldl (fun u p => if p.2.stays && !p.2.resident then residePinned u p.1 else u) u

/-- Does the holiday segment in progress test this comparator (kind 4 of Table 15.4): item 0 the twin comparator, 1–4 the NLEs, 5 fusion, 6 planning, 7
the re-check path of PLN_COMMIT? The items are numbered in the order of the table (DESIGN CHOICE, log 49). -/
def comparatorHeld (s : State) (item : Nat) : Bool :=
  match s.st.seg with
  | none => false
  | some g => g.kind = 4 && g.item = item

/-- The comparator that a command's results pass before they are written (R138, R235, R265): none on a cluster outside twin mode. -/
def comparatorOf (u op : Nat) : Option Nat :=
  if rType u = 7 then some (1 + rQ u) else if rType u = 5 then some 5 else if rType u = 6 then some (if op = 0x72 then 7 else 6) else none

/-- COMMAND_COMPLETE: a running command ends, once the comparator has released it where it is a twin's (R61, R113, R120). -/
def execCommandComplete (u ctx : Nat) (s : State) : Out :=
  match ctxOf s u ctx with
  | none => done s s
  | some c =>
    match c.run with
    | none => done s s
    | some r =>
      let held := match comparatorOf u (dOp r.cmd.desc) with | some k => comparatorHeld s k | none => false
      if r.released && !held then done s (modUnit (finish s u ctx c r) u residePending) else done s s

/-- COMMAND_LAPSE: the oldest unissued command of a context whose frame is two Calends old (R68). -/
def execCommandLapse (u ctx : Nat) (s : State) : Out :=
  match ctxOf s u ctx with
  | none => done s s
  | some c =>
    match (unissued c).find? (fun a => a.frame + 2 ≤ s.cal.frame) with
    | some a => done s (lapseOne s u ctx a 0)
    | none => done s s

/-- A swap moves context records, 4 KiB each, between the cluster and its Quarter's commons (R71, R284): the incoming one is read, the evicted
one written, each in the class of its partition (the spec gives a swap no class; DESIGN CHOICE, log 48). -/
def countSwap (s : State) (u : Nat) : State :=
  let rec' (s : State) (k : Nat) (w : Bool) : State :=
    countBytes s (rQ u) (clsOfPart (((ctxOf s u k).map (·.part)).getD 3)) (0x100000000000 + rQ u * 0x1000000) 4096 w
  match (unitOf s u).swap with
  | some (k, o) => let s := rec' s k false; match o with | some j => rec' s j true | none => s
  | none => s

/-- Start a swap, counting its traffic. -/
def beginSwap (s : State) (u ctx : Nat) : State :=
  if (unitOf s u).swap.isSome then s else countSwap (startSwap s u ctx) u

/-- CONTEXT_SWAP_START (R73). An NLE or hub engine never swaps (R139, R234, R249). -/
def execContextSwapStart (u ctx : Nat) (s : State) : Out :=
  if isClu u then done s (beginSwap s u ctx) else done s s

/-- CONTEXT_SWAP_COMPLETE: the swap ends and R73 is applied again (R74). -/
def execContextSwapComplete (u : Nat) (s : State) : Out :=
  if (unitOf s u).swap.isNone then done s s
  else
    let s1 := endSwap s u
    match swapIn (unitOf s1 u) with
    | some k => done s (beginSwap s1 u k)
    | none => done s s1

/-! ## The twin comparator -/

/-- Set a running command's outcome at the comparator. -/
def releaseRun (s : State) (u ctx : Nat) (a : Armed) (f : Run → Run) : State :=
  modCtx s u ctx (fun c => match c.run with
    | some r => if r.cmd.frame = a.frame && r.cmd.idx = a.idx then { c with run := some (f { r with noted := true, released := true }) } else c
    | none => c)

/-- The notes agree: the primary writes its slots, their check values and its descriptors, then both twins are released (R120, R157). The
comparator reports it to Vigil A. -/
def twinAgree (s : State) (u v ctx : Nat) (r q : Run) : State :=
  let s := writeSeqs (writeArena s (r.defer ++ q.defer)) (r.seqWr ++ q.seqWr)
  let written (x : Run) : Run := { x with defer := [], seqWr := [] }
  let s := releaseRun (releaseRun s u ctx r.cmd written) v ctx r.cmd written
  let s := cmdEvent s .twin u ctx r.cmd 0 (.twin v true)
  let n := r.outs.length
  let up (x : Clu) : Clu := { x with compared := sat 0xFFFF (x.compared + n) }
  modClu (modClu s (gOf u) up) (gOf v) up

/-- The notes differ: both complete with TWIN_MISMATCH, with the event to Vigil A, the Almanac error record and the charges
(R121, R311). -/
def twinDiffer (s : State) (u v ctx : Nat) (r : Run) : State :=
  let mark (x : Run) : Run := { x with status := some .twinMismatch, failed := true }
  let s := releaseRun (releaseRun s u ctx r.cmd mark) v ctx r.cmd mark
  let up (x : Clu) : Clu := { x with mismatch := sat 255 (x.mismatch + 1) }
  let s := modClu (modClu s (gOf u) up) (gOf v) up
  let s := cmdEvent s .twin u ctx r.cmd 3 (.twin v false)
  let s := alm s 0x7000 .twinMismatch 3 [gOf u, gOf v, ctx, r.cmd.idx, r.cmd.frame]
  healthEvent (healthEvent s 1 u 4 r.cmd ctx) 1 v 4 r.cmd ctx

/-- TWIN_NOTE: a twin's note reaches the comparator (R120, R121). The first note of a pair waits for the other. -/
def execTwinNote (u ctx : Nat) (s : State) : Out :=
  match ctxOf s u ctx with
  | none => done s s
  | some c =>
    match c.run with
    | none => done s s
    | some r =>
      if c.twin = 0 || !dTwin r.cmd.desc || r.noted || r.released || r.status.isSome || comparatorHeld s 0 then done s s
      else
        let s1 := modCtx s u ctx (fun c => { c with run := some { r with noted := true } })
        match s1.twinNotes.find? (fun n => n.1 = c.partner && n.2.1 = ctx && n.2.2.cmd.frame = r.cmd.frame && n.2.2.cmd.idx = r.cmd.idx) with
        | none => done s { s1 with twinNotes := s1.twinNotes ++ [(u, ctx, r)] }
        | some n =>
          let s2 := { s1 with twinNotes := s1.twinNotes.erase n }
          match n.2.2.status with
          | some st => done s (releaseRun s2 u ctx r.cmd (fun x => x.takes st))
          | none =>
            if n.2.2.notes = r.notes then done s (twinAgree s2 u c.partner ctx r n.2.2)
            else done s (twinDiffer s2 u c.partner ctx r)

end Sys2Proof.Machine
end

