-- ==== Sys2Proof/Machine/Dispatch.lean ====
section
/-! DEFINITION. One arm per command: the meaning of each row of the opcode table. -/

namespace Sys2Proof.Machine

/-- The effect of a command on everything but the queue. -/
def exec (i : Instr) (s : State) : Host.Outcome State Fault Refusal :=
  match i with
  | .calend => Sys2Proof.Machine.execCalend s
  | .trigPulseStart k => Sys2Proof.Machine.execTrigPulseStart k s
  | .trigPulseEnd k => Sys2Proof.Machine.execTrigPulseEnd k s
  | .seasonEpoch => Sys2Proof.Machine.execSeasonEpoch s
  | .eveCheck => Sys2Proof.Machine.execEveCheck s
  | .eveDeadline => Sys2Proof.Machine.execEveDeadline s
  | .safeEdge isl => Sys2Proof.Machine.execSafeEdge isl s
  | .frameReportPublish => Sys2Proof.Machine.execFrameReportPublish s
  | .nop e => Sys2Proof.Machine.execNop e s
  | .getEvents e => Sys2Proof.Machine.execGetEvents e s
  | .setSeason e => Sys2Proof.Machine.execSetSeason e s
  | .seasonStore e flashFail => Sys2Proof.Machine.execSeasonStore e flashFail s
  | .seasonRead e => Sys2Proof.Machine.execSeasonRead e s
  | .getSurroundings e => Sys2Proof.Machine.execGetSurroundings e s
  | .getIdentity e => Sys2Proof.Machine.execGetIdentity e s
  | .attest e => Sys2Proof.Machine.execAttest e s
  | .getCerts e => Sys2Proof.Machine.execGetCerts e s
  | .planLoad e => Sys2Proof.Machine.execPlanLoad e s
  | .planAdmit e => Sys2Proof.Machine.execPlanAdmit e s
  | .planSelect e => Sys2Proof.Machine.execPlanSelect e s
  | .planRetire e => Sys2Proof.Machine.execPlanRetire e s
  | .queueStatus e => Sys2Proof.Machine.execQueueStatus e s
  | .dataWriteCreate e => Sys2Proof.Machine.execDataWriteCreate e s
  | .dataWriteRewrite e => Sys2Proof.Machine.execDataWriteRewrite e s
  | .dataWriteRepair e => Sys2Proof.Machine.execDataWriteRepair e s
  | .dataWriteDelete e => Sys2Proof.Machine.execDataWriteDelete e s
  | .dataRead e => Sys2Proof.Machine.execDataRead e s
  | .dataCheck e => Sys2Proof.Machine.execDataCheck e s
  | .storeRetain e => Sys2Proof.Machine.execStoreRetain e s
  | .storeResume e => Sys2Proof.Machine.execStoreResume e s
  | .mapLoad e => Sys2Proof.Machine.execMapLoad e s
  | .mapSelect e => Sys2Proof.Machine.execMapSelect e s
  | .mapStatus e => Sys2Proof.Machine.execMapStatus e s
  | .seqDefine e => Sys2Proof.Machine.execSeqDefine e s
  | .seqEditTruncate e => Sys2Proof.Machine.execSeqEditTruncate e s
  | .seqEditSetWindow e => Sys2Proof.Machine.execSeqEditSetWindow e s
  | .seqEditSetGlobals e => Sys2Proof.Machine.execSeqEditSetGlobals e s
  | .seqEditReset e => Sys2Proof.Machine.execSeqEditReset e s
  | .seqRead e => Sys2Proof.Machine.execSeqRead e s
  | .seqDelete e => Sys2Proof.Machine.execSeqDelete e s
  | .resultRingSet e => Sys2Proof.Machine.execResultRingSet e s
  | .resultRingRemove e => Sys2Proof.Machine.execResultRingRemove e s
  | .resultAck e => Sys2Proof.Machine.execResultAck e s
  | .resultRingStatus e => Sys2Proof.Machine.execResultRingStatus e s
  | .healthStatus e => Sys2Proof.Machine.execHealthStatus e s
  | .fenceClusterFence e => Sys2Proof.Machine.execFenceClusterFence e s
  | .fenceClusterRelease e => Sys2Proof.Machine.execFenceClusterRelease e s
  | .clusterRestrictRestrict e => Sys2Proof.Machine.execClusterRestrictRestrict e s
  | .clusterRestrictUnrestrict e => Sys2Proof.Machine.execClusterRestrictUnrestrict e s
  | .healthResume e => Sys2Proof.Machine.execHealthResume e s
  | .vigilStatus e => Sys2Proof.Machine.execVigilStatus e s
  | .vigilDebugEnable e => Sys2Proof.Machine.execVigilDebugEnable e s
  | .vigilDebugDisable e => Sys2Proof.Machine.execVigilDebugDisable e s
  | .getSafetyReport e => Sys2Proof.Machine.execGetSafetyReport e s
  | .almRead e => Sys2Proof.Machine.execAlmRead e s
  | .almInfo e => Sys2Proof.Machine.execAlmInfo e s
  | .almClear e flashFail => Sys2Proof.Machine.execAlmClear e flashFail s
  | .updLoad e relayFail => Sys2Proof.Machine.execUpdLoad e relayFail s
  | .updSchedule e => Sys2Proof.Machine.execUpdSchedule e s
  | .updConfirm e => Sys2Proof.Machine.execUpdConfirm e s
  | .updStatus e => Sys2Proof.Machine.execUpdStatus e s
  | .updCancel e => Sys2Proof.Machine.execUpdCancel e s
  | .pwrStatus e => Sys2Proof.Machine.execPwrStatus e s
  | .pwrLimit e => Sys2Proof.Machine.execPwrLimit e s
  | .expertUnlockP3 e => Sys2Proof.Machine.execExpertUnlockP3 e s
  | .expertUnlockService e => Sys2Proof.Machine.execExpertUnlockService e s
  | .expertLock e => Sys2Proof.Machine.execExpertLock e s
  | .sqTailDoorbell v => Sys2Proof.Machine.execSqTailDoorbell v s
  | .cqHeadDoorbell v => Sys2Proof.Machine.execCqHeadDoorbell v s
  | .submissionFetch => Sys2Proof.Machine.execSubmissionFetch s
  | .completionPost => Sys2Proof.Machine.execCompletionPost s
  | .registerWrite addr size value => Sys2Proof.Machine.execRegisterWrite addr size value s
  | .frameLoRead => Sys2Proof.Machine.execFrameLoRead s
  | .timeLoRead => Sys2Proof.Machine.execTimeLoRead s
  | .almHeadLoRead => Sys2Proof.Machine.execAlmHeadLoRead s
  | .apertureRead ofs len => Sys2Proof.Machine.execApertureRead ofs len s
  | .apertureWrite ofs bytes => Sys2Proof.Machine.execApertureWrite ofs bytes s
  | .cvuStart k ctrl => Sys2Proof.Machine.execCvuStart k ctrl s
  | .cvuDataWrite k len value => Sys2Proof.Machine.execCvuDataWrite k len value s
  | .cvuRunDone k => Sys2Proof.Machine.execCvuRunDone k s
  | .inputVoidComplete u ctx => Sys2Proof.Machine.execInputVoidComplete u ctx s
  | .load u ctx ph => Sys2Proof.Machine.execLoad u ctx ph s
  | .store u ctx ph => Sys2Proof.Machine.execStore u ctx ph s
  | .sync u ctx ph => Sys2Proof.Machine.execSync u ctx ph s
  | .matmul u ctx ph => Sys2Proof.Machine.execMatmul u ctx ph s
  | .matmulDx u ctx ph => Sys2Proof.Machine.execMatmulDx u ctx ph s
  | .matmulDw u ctx ph => Sys2Proof.Machine.execMatmulDw u ctx ph s
  | .vec u ctx ph => Sys2Proof.Machine.execVec u ctx ph s
  | .sfu u ctx ph => Sys2Proof.Machine.execSfu u ctx ph s
  | .optStep u ctx ph => Sys2Proof.Machine.execOptStep u ctx ph s
  | .conv u ctx ph => Sys2Proof.Machine.execConv u ctx ph s
  | .convFused u ctx ph => Sys2Proof.Machine.execConvFused u ctx ph s
  | .dwconv u ctx ph => Sys2Proof.Machine.execDwconv u ctx ph s
  | .pool u ctx ph => Sys2Proof.Machine.execPool u ctx ph s
  | .layout u ctx ph => Sys2Proof.Machine.execLayout u ctx ph s
  | .nleConvIn u ctx ph => Sys2Proof.Machine.execNleConvIn u ctx ph s
  | .nleConvOut u ctx ph => Sys2Proof.Machine.execNleConvOut u ctx ph s
  | .nleCrop u ctx ph => Sys2Proof.Machine.execNleCrop u ctx ph s
  | .nlePool u ctx ph => Sys2Proof.Machine.execNlePool u ctx ph s
  | .nleResample u ctx ph => Sys2Proof.Machine.execNleResample u ctx ph s
  | .attnStep u ctx ph => Sys2Proof.Machine.execAttnStep u ctx ph s
  | .attnPrefill u ctx ph => Sys2Proof.Machine.execAttnPrefill u ctx ph s
  | .attnCommit u ctx ph => Sys2Proof.Machine.execAttnCommit u ctx ph s
  | .fusEgo u ctx ph => Sys2Proof.Machine.execFusEgo u ctx ph s
  | .fusUpdate u ctx ph => Sys2Proof.Machine.execFusUpdate u ctx ph s
  | .fusPublish u ctx ph => Sys2Proof.Machine.execFusPublish u ctx ph s
  | .plnGrid u ctx ph => Sys2Proof.Machine.execPlnGrid u ctx ph s
  | .plnCheck u ctx ph => Sys2Proof.Machine.execPlnCheck u ctx ph s
  | .plnCommit u ctx ph => Sys2Proof.Machine.execPlnCommit u ctx ph s
  | .commandComplete u ctx => Sys2Proof.Machine.execCommandComplete u ctx s
  | .tokenArrival dst t => Sys2Proof.Machine.execTokenArrival dst t s
  | .creditArrival dst c => Sys2Proof.Machine.execCreditArrival dst c s
  | .commandLapse u ctx => Sys2Proof.Machine.execCommandLapse u ctx s
  | .contextSwapStart u ctx => Sys2Proof.Machine.execContextSwapStart u ctx s
  | .contextSwapComplete u => Sys2Proof.Machine.execContextSwapComplete u s
  | .twinNote u ctx => Sys2Proof.Machine.execTwinNote u ctx s
  | .resultToken planId t => Sys2Proof.Machine.execResultToken planId t s
  | .variantSwitch planId => Sys2Proof.Machine.execVariantSwitch planId s
  | .exclusionSwitch planId => Sys2Proof.Machine.execExclusionSwitch planId s
  | .mapSwitch => Sys2Proof.Machine.execMapSwitch s
  | .quarantine g => Sys2Proof.Machine.execQuarantine g s
  | .deferredExpulsion q => Sys2Proof.Machine.execDeferredExpulsion q s
  | .hardFault g cause => Sys2Proof.Machine.execHardFault g cause s
  | .busTimeout g => Sys2Proof.Machine.execBusTimeout g s
  | .seqHeartbeat u => Sys2Proof.Machine.execSeqHeartbeat u s
  | .heartbeatDeadline => Sys2Proof.Machine.execHeartbeatDeadline s
  | .checkAttribution k => Sys2Proof.Machine.execCheckAttribution k s
  | .weightRepair addr => Sys2Proof.Machine.execWeightRepair addr s
  | .cleanRunCredit g => Sys2Proof.Machine.execCleanRunCredit g s
  | .probationEnd g => Sys2Proof.Machine.execProbationEnd g s
  | .deepSelfTestStart g => Sys2Proof.Machine.execDeepSelfTestStart g s
  | .deepSelfTestDone g pass lbist => Sys2Proof.Machine.execDeepSelfTestDone g pass lbist s
  | .rotationStepStart q => Sys2Proof.Machine.execRotationStepStart q s
  | .rotationTestDone q pass => Sys2Proof.Machine.execRotationTestDone q pass s
  | .rotationStepEnd q => Sys2Proof.Machine.execRotationStepEnd q s
  | .holidaySegmentStart kind item len => Sys2Proof.Machine.execHolidaySegmentStart kind item len s
  | .holidaySegmentEnd pass flaky => Sys2Proof.Machine.execHolidaySegmentEnd pass flaky s
  | .segmentWatchdog => Sys2Proof.Machine.execSegmentWatchdog s
  | .testDebtWarning kind => Sys2Proof.Machine.execTestDebtWarning kind s
  | .testOverdue kind => Sys2Proof.Machine.execTestOverdue kind s
  | .budgetExceeded u ctx count => Sys2Proof.Machine.execBudgetExceeded u ctx count s
  | .vigilEvent e => Sys2Proof.Machine.execVigilEvent e s
  | .vigilWatchdogExpiry w => Sys2Proof.Machine.execVigilWatchdogExpiry w s
  | .vigilHeartbeatSend isl => Sys2Proof.Machine.execVigilHeartbeatSend isl s
  | .vigilHeartbeat isl => Sys2Proof.Machine.execVigilHeartbeat isl s
  | .peerLossTimeout isl cause => Sys2Proof.Machine.execPeerLossTimeout isl cause s
  | .lossNotice isl => Sys2Proof.Machine.execLossNotice isl s
  | .comparatorMismatch isl group async => Sys2Proof.Machine.execComparatorMismatch isl group async s
  | .restartRetry isl => Sys2Proof.Machine.execRestartRetry isl s
  | .islandResetRelease isl flagged clean => Sys2Proof.Machine.execIslandResetRelease isl flagged clean s
  | .islandBrownOut isl => Sys2Proof.Machine.execIslandBrownOut isl s
  | .vigilInputChange isl level => Sys2Proof.Machine.execVigilInputChange isl level s
  | .vigilBBreach item reading => Sys2Proof.Machine.execVigilBBreach item reading s
  | .readStatus => Sys2Proof.Machine.execReadStatus s
  | .hold => Sys2Proof.Machine.execHold s
  | .release => Sys2Proof.Machine.execRelease s
  | .spiBadCommand cmd arg crc => Sys2Proof.Machine.execSpiBadCommand cmd arg crc s
  | .debugAttach isl => Sys2Proof.Machine.execDebugAttach isl s
  | .debugRegisterWrite isl reg value => Sys2Proof.Machine.execDebugRegisterWrite isl reg value s
  | .debugResume isl => Sys2Proof.Machine.execDebugResume isl s
  | .debugDetach isl => Sys2Proof.Machine.execDebugDetach isl s
  | .storeRequest die ch => Sys2Proof.Machine.execStoreRequest die ch s
  | .refreshDue die ch bank => Sys2Proof.Machine.execRefreshDue die ch bank s
  | .refreshWindowReturn die => Sys2Proof.Machine.execRefreshWindowReturn die s
  | .ingestWrite die bytes => Sys2Proof.Machine.execIngestWrite die bytes s
  | .levelBroadcast die => Sys2Proof.Machine.execLevelBroadcast die s
  | .levelStale port die => Sys2Proof.Machine.execLevelStale port die s
  | .transactionIssue port r => Sys2Proof.Machine.execTransactionIssue port r s
  | .transactionComplete port die cls => Sys2Proof.Machine.execTransactionComplete port die cls s
  | .bucketRefill => Sys2Proof.Machine.execBucketRefill s
  | .delayUpdate die => Sys2Proof.Machine.execDelayUpdate die s
  | .csi2FrameStart port vc frameNo => Sys2Proof.Machine.execCsi2FrameStart port vc frameNo s
  | .csi2Packet port p => Sys2Proof.Machine.execCsi2Packet port p s
  | .csi2FrameEnd port vc frameNo => Sys2Proof.Machine.execCsi2FrameEnd port vc frameNo s
  | .ethernetFrame port f => Sys2Proof.Machine.execEthernetFrame port f s
  | .gapExpiry k => Sys2Proof.Machine.execGapExpiry k s
  | .ingestTileMove k => Sys2Proof.Machine.execIngestTileMove k s
  | .sampleComplete k => Sys2Proof.Machine.execSampleComplete k s
  | .gptpSync offset gm steps => Sys2Proof.Machine.execGptpSync offset gm steps s
  | .gptpHoldover lost => Sys2Proof.Machine.execGptpHoldover lost s
  | .almanacEvent e => Sys2Proof.Machine.execAlmanacEvent e s
  | .journalFlush fail => Sys2Proof.Machine.execJournalFlush fail s
  | .almanacSummary => Sys2Proof.Machine.execAlmanacSummary s
  | .settingsJournalWrite => Sys2Proof.Machine.execSettingsJournalWrite s
  | .porstRelease => Sys2Proof.Machine.execPorstRelease s
  | .porstAssert => Sys2Proof.Machine.execPorstAssert s
  | .hubRailLow => Sys2Proof.Machine.execHubRailLow s
  | .hubClockLock fuseOk => Sys2Proof.Machine.execHubClockLock fuseOk s
  | .imageLoad ph => Sys2Proof.Machine.execImageLoad ph s
  | .discovery ph => Sys2Proof.Machine.execDiscovery ph s
  | .delaySetup ph => Sys2Proof.Machine.execDelaySetup ph s
  | .errorInjection ph => Sys2Proof.Machine.execErrorInjection ph s
  | .seasonSelection ph => Sys2Proof.Machine.execSeasonSelection ph s
  | .ready => Sys2Proof.Machine.execReady s
  | .perstRelease => Sys2Proof.Machine.execPerstRelease s
  | .hostInterfaceReset kind => Sys2Proof.Machine.execHostInterfaceReset kind s
  | .pciePowerState d3 => Sys2Proof.Machine.execPciePowerState d3 s
  | .dmaCompletion tag good => Sys2Proof.Machine.execDmaCompletion tag good s
  | .dmaTimeout tag => Sys2Proof.Machine.execDmaTimeout tag s
  | .pmSample x => Sys2Proof.Machine.execPmSample x s
  | .survivalP0Stop => Sys2Proof.Machine.execSurvivalP0Stop s
  | .survivalExit => Sys2Proof.Machine.execSurvivalExit s
  | .thermtrip => Sys2Proof.Machine.execThermtrip s
  | .capControl => Sys2Proof.Machine.execCapControl s
  | .dvfsStepComplete q => Sys2Proof.Machine.execDvfsStepComplete q s
  | .capLawUpdate => Sys2Proof.Machine.execCapLawUpdate s
  | .coolantRead v => Sys2Proof.Machine.execCoolantRead v s
  | .coolantLost => Sys2Proof.Machine.execCoolantLost s
  | .coolFlowPulse => Sys2Proof.Machine.execCoolFlowPulse s
  | .flowTimeout => Sys2Proof.Machine.execFlowTimeout s
  | .warmHoldAdjust => Sys2Proof.Machine.execWarmHoldAdjust s
  | .warmShort q => Sys2Proof.Machine.execWarmShort q s
  | .rthJournal => Sys2Proof.Machine.execRthJournal s
  | .ageingReplan => Sys2Proof.Machine.execAgeingReplan s
  | .updateEpoch => Sys2Proof.Machine.execUpdateEpoch s
  | .confirmWindowExpiry => Sys2Proof.Machine.execConfirmWindowExpiry s
  | .fallbackEpoch => Sys2Proof.Machine.execFallbackEpoch s
  | .keyDerivationDone => Sys2Proof.Machine.execKeyDerivationDone s
  | .islandResetAssert isl => Sys2Proof.Machine.execIslandResetAssert isl s
  | .pairRestartDone isl flagged clean => Sys2Proof.Machine.execPairRestartDone isl flagged clean s
  | .hubRailRecover => Sys2Proof.Machine.execHubRailRecover s
  | .linkTraining link m => Sys2Proof.Machine.execLinkTraining link m s
  | .ethLinkDown mac => Sys2Proof.Machine.execEthLinkDown mac s
  | .debugHalt isl => Sys2Proof.Machine.execDebugHalt isl s
  | .debugSingleStep isl => Sys2Proof.Machine.execDebugSingleStep isl s
  | .debugMemoryWrite isl addr bytes => Sys2Proof.Machine.execDebugMemoryWrite isl addr bytes s
  | .rowClose die ch bank => Sys2Proof.Machine.execRowClose die ch bank s

end Sys2Proof.Machine
end

