-- ==== Sys2Proof/Machine/Idle.lean ====
section
/-!
DEFINITION. What a step does on an empty queue: one nanosecond of the local oscillator passes (log 3).
-/

namespace Sys2Proof.Machine

/-- Device time after one local nanosecond, with the frequency correction in force (R217, R218): the correction, in parts per
million, gathers in `frac` until it makes a whole nanosecond. Device time never wraps. -/
def tickTime (s : State) : State :=
  let f := s.time.frac + s.time.ppm
  let (d, f) : Nat × Int := if f ≥ 1000000 then (2, f - 1000000) else if f ≤ -1000000 then (0, f + 1000000) else (1, f)
  { s with now := sat (2 ^ 64 - 1) (s.now + d), time := { s.time with frac := f } }

/-- Device time passes; it stands at 0 until PORST_N is released (R386). -/
def idle (s : State) : Out := if s.inReset || s.railsLow then done s s else done s (tickTime s)

end Sys2Proof.Machine
end

