-- ==== Sys2Proof/Machine/Registers.lean ====
section
/-!
DEFINITION. What a read of each register returns (R6, R381, R383, Table 17.19, Table 17.1): BAR0 and the expert area of BAR2, word by word.
-/

namespace Sys2Proof.Machine

/-! ## One block -/

/-- A word from its fields: the lowest bit of each and its value. -/
def pack (fs : List (Nat × Nat)) : Nat := fs.foldl (fun a f => a + f.2 * 2 ^ f.1) 0

/-- The lower or upper word of a 64-bit register. -/
def half (v o : Nat) : Nat := if o % 8 = 0 then v % 2 ^ 32 else v / 2 ^ 32 % 2 ^ 32

/-- HUB_CAL. -/
def regCal (s : State) (o : Nat) : Nat :=
  let c := s.cal
  match o with
  | 0x000 => pack [(16, c.eveGuardUs), (0, c.periodReg)]
  | 0x004 => c.phaseUs
  | 0x008 => c.holidayUs
  | 0x010 => c.frame % 2 ^ 32
  | 0x014 => c.frameHi
  | 0x018 => pack [(25, c.lastOutcome), (24, b2n c.slewing), (0, twos 24 (c.phaseErrNs / 1000))]
  | _ =>
    if 0x100 ≤ o && o < 0x130 then
      let t := tget s.trig ((o - 0x100) / 4) {}
      pack [(31, b2n t.en), (30, b2n t.pol), (20, t.widthUs), (0, t.offsetUs)]
    else 0

/-- SEQ: SEQ_CTX_READY shows readiness whether resident or not (R66). -/
def regSeq (u : SeqUnit) (o : Nat) : Nat :=
  match o with
  | 0x000 => ctxMask u (fun c => c.resident)
  | 0x004 => ctxMask u (ctxReady u)
  | 0x008 => ctxMask u (fun c => c.pinned)
  | 0x00C => regSwapStatus u
  | 0x010 => regTokenErr u
  | _ => 0

/-- CLU_TWIN_CFG of a cluster, from the twin contexts it holds. -/
def regTwinCfg (u : SeqUnit) : Nat :=
  match u.ctxs.find? (fun p => p.2.twin ≠ 0) with
  | some p => pack [(31, 1), (30, p.2.twin - 1), (0, gOf p.2.partner)]
  | none => 0

/-- SEQ, CLU, WLK and LDE of a cluster. -/
def regCluster (s : State) (g o : Nat) : Nat :=
  let u := unitOf s (rClu g)
  let c := cluOf s g
  match o with
  | 0x200 => pack [(24, c.arithNanLost), (16, c.arithInexact), (8, c.arithNan), (0, c.arithSat)]
  | 0x204 => pack [(24, c.drain), (16, c.tol), (8, c.row), (0, c.col)]
  | 0x208 => pack [(17, c.lastArray), (15, c.lastKind), (5, c.lastRow), (0, c.lastCol)]
  | 0x20C => pack [(12, c.lastCtx), (0, c.lastCmd)]
  | 0x210 => c.lastFrame
  | 0x214 => regTwinCfg u
  | 0x218 => pack [(16, c.compared), (0, c.mismatch)]
  | 0x21C => c.sramStall
  | 0x400 => pack [(31, b2n c.wlkBusy), (16, c.wlkOpcode), (8, c.wlkLayer), (0, c.wlkSeq)]
  | 0x404 => pack [(24, c.wlkCheckFails), (16, c.wlkSeqErrors), (0, c.wlkEmpty)]
  | 0x408 => c.wlkBusyCycles
  | 0x800 => pack [(24, c.ldeFail), (16, c.ldeReserve), (0, c.ldeRefetch)]
  | 0x808 => half (c.ldeLastStage * 2 ^ 62 + c.ldeLastAddr) 0
  | 0x80C => half (c.ldeLastStage * 2 ^ 62 + c.ldeLastAddr) 4
  | _ => regSeq u o

/-- NLE. -/
def regNle (n : Nle) (o : Nat) : Nat :=
  match o with
  | 0 => pack [(31, b2n n.busy), (24, n.ctx), (12, n.cmd), (0, n.opcode)]
  | 4 => pack [(24, n.dup), (12, n.empty), (0, n.clipped)]
  | 8 => n.busyCycles
  | _ => 0

/-- STC of a store die. -/
def regStc (c : Stc) (now o : Nat) : Nat :=
  let ch (b d : Nat) : Chan := tget c.chans ((o - b) / d) {}
  match o with
  | 0x050 => c.log2InvP
  | 0x054 => pack [(30, c.window), (29, b2n c.overtemp), (0, c.postMax)]
  | 0x058 => pack [(4, c.panicOn), (0, c.panicOff)]
  | 0x05C => pack [(31, b2n c.panic), (0, c.level)]
  | 0x060 => pack [(31, b2n c.retaining), (0, c.retained)]
  | 0x064 => pack [(24, twos 8 (c.tempHalf / 2)), (8, b2n c.dlySource), (0, c.band)]
  | 0x068 => c.leapRows
  | 0x06C => pack [(24, c.entries), (0, sat 0xFFFFFF ((c.panicNs + (if c.panic then now - c.panicSince else 0)) / 1000))]
  | 0x440 => pack [(8, c.redOn % 64), (0, c.amberOn)]
  | _ =>
    if o < 0x028 then half (c.xorCh.getD (o / 8) 0) o
    else if o < 0x050 then half (c.xorBank.getD ((o - 0x028) / 8) 0) o
    else if 0x100 ≤ o && o < 0x180 then pack [(16, (ch 0x100 4).ca), (8, (ch 0x100 4).wr), (0, (ch 0x100 4).rd)]
    else if 0x200 ≤ o && o < 0x400 then
      (match o % 0x10 with | 0 => (ch 0x200 0x10).busyNow now | 4 => (ch 0x200 0x10).data | 8 => (ch 0x200 0x10).act | _ => 0)
    else if 0x400 ≤ o && o < 0x440 then half (tget (if o % 0x10 < 8 then c.bytesRd else c.bytesWr) ((o - 0x400) / 0x10) 0) o
    else if 0x480 ≤ o && o < 0x4C0 then half (tget (if o % 0x10 < 8 then c.comRd else c.comWr) ((o - 0x480) / 0x10) 0) o
    else 0

/-- HUB_TIME: OFFSET_NS stays within ±32,767. -/
def regTime (s : State) (o : Nat) : Nat :=
  match o with
  | 0 => s.now % 2 ^ 32
  | 4 => s.time.hi
  | 8 => pack [(31, b2n s.time.gmPresent), (30, b2n s.time.holdover), (29, b2n s.time.slewBack), (16, s.time.timePort), (0, twos 16 (clampAbs 32767 s.time.offset))]
  | _ => 0

/-- HUB_ING of a stream. -/
def regIng (t : Stream) (o : Nat) : Nat :=
  if o % 8 = 0 then t.seq else pack [(24, t.damaged), (16, t.overflow), (8, t.dropRetain), (0, t.late)]

/-- HUB_FUS. -/
def regFus (f : Fus) (o : Nat) : Nat :=
  match o with
  | 0 => pack [(31, b2n f.busy), (24, f.ctx), (12, f.cmd), (0, (f.tracks.filter (fun p => p.2.used)).length)]
  | 4 => pack [(24, f.greedy), (16, f.outOfOrder), (8, f.skipped), (0, f.dup)]
  | _ => 0

/-- HUB_PLN. -/
def regPln (p : Pln) (o : Nat) : Nat :=
  match o with
  | 0x00 => pack [(31, b2n p.checkBusy), (30, b2n p.gridBusy), (29, b2n (tget p.grids 1 {}).bad), (28, b2n (tget p.grids 0 {}).bad), (27, p.newest), (24, p.ctx),
                  (12, p.cmd), (3, p.active), (2, b2n p.mapValid), (1, b2n (tget p.slots 1 {}).loaded), (0, b2n (tget p.slots 0 {}).loaded)]
  | 0x04 => p.gridGen
  | 0x08 => pack [(24, p.fallbacks), (16, p.contestOver), (8, p.disagree), (0, p.dup)]
  | 0x0C => p.lastChecker
  | 0x10 => p.busyCycles
  | _ => 0

/-- HUB_ID. -/
def regId (i : Ident) (o : Nat) : Nat :=
  match o with
  | 0x00 => half i.serial 0
  | 0x04 => half i.serial 4
  | 0x08 => i.hwType
  | 0x10 => regIdRevQ i
  | 0x14 => regIdRevS i
  | 0x18 => regIdRevHub i
  | 0x1C => regIdStatus i
  | 0x20 => i.features
  | _ => 0

/-- One RGL instance. -/
def regRgl (s : State) (i o : Nat) : Nat :=
  let r := rglOf s i
  let tb (p : Nat) : Nat := pack [(31, b2n (tget r.tbEn p false)), (16, tget r.tbBurst p 0), (0, tget r.tbRate p 0)]
  match o with
  | 0x00 => pack [(24, r.baseRT), (16, r.baseSAF), (8, r.baseSTD), (0, r.baseBKG)]
  | 0x04 => pack [(8, r.stdMin), (0, r.bkgMin)]
  | 0x08 => (List.range 4).foldl (fun a n => a + b2n (anyStale r n) * 2 ^ (16 + n) + b2n (stcOf s n).panic * 2 ^ (8 + n) + tget r.level n 0 * 4 ^ n) 0
  | 0x10 => tb 1
  | 0x14 => tb 2
  | 0x18 => tb 3
  | 0x20 => if i = 0 then r.slowReport else 0
  | _ => 0

/-- HUB_SW. -/
def regSw (s : State) (o : Nat) : Nat :=
  let k := 4 * (o / 0x40) + o % 0x40 / 0x10
  half (tget (if o % 0x10 < 8 then s.swIn else s.swOut) k 0) o

/-- HUB_VG, instance 0 Vigil A, 1 Vigil B. -/
def regVg (s : State) (i o : Nat) : Nat :=
  let x := if i = 0 then s.islA else s.islB
  match o with
  | 0x00 => regVgStatus x
  | 0x08 => half x.flagged 0
  | 0x0C => half x.flagged 4
  | 0x10 => regVgRestart x
  | 0x18 => if i = 0 then pack [(14, b2n s.vg.queueOvf), (0, s.vg.queuePeak)] else 0
  | 0x1C => if i = 0 then regVgBudget s.vg else 0
  | 0x20 => if i = 1 then s.vg.rail else 0
  | _ => 0

/-- HUB_HLT. -/
def regHlt (s : State) (o : Nat) : Nat :=
  if o < 0x480 then regHltClu s (o / 4) else if o < 0x490 then regHltQ s ((o - 0x480) / 4) else if o = 0x490 then regHltCount s else 0

/-- HUB_ST. -/
def regSt (s : State) (o : Nat) : Nat :=
  if o = 0 then regStInj s.st
  else if 0x10 ≤ o && o < 0x20 then regStRot (rotOf s ((o - 0x10) / 4))
  else if o = 0x20 then regStSeg s.st
  else if 0x40 ≤ o && o < 0x58 then regStDebt s ((o - 0x40) / 4)
  else 0

/-- HUB_CVU: START and the data port read 0. -/
def regCvu (v : Cvu) (o : Nat) : Nat :=
  match o with
  | 0x00 => pack [(31, b2n v.busy), (30, b2n v.done), (29, b2n v.mismatch), (28, b2n v.fault), (0, v.ctrl)]
  | 0x04 => v.len
  | 0x08 => v.seq
  | 0x10 => half v.addr 0
  | 0x14 => half v.addr 4
  | 0x18 => half (v.run % 2 ^ cvuWidth v.poly) 0
  | 0x1C => half (v.run % 2 ^ cvuWidth v.poly) 4
  | 0x20 => half v.result 0
  | 0x24 => half v.result 4
  | 0x28 => half v.expect 0
  | 0x2C => half v.expect 4
  | _ => 0

/-- HUB_SCRUB_STATUS. -/
def regScrub (s : State) : Nat :=
  let t := scrubTotal s
  pack [(24, s.st.scrubFails), (16, if t = 0 then 0 else min 100 (s.st.scrubDone * 100 / t)), (0, s.st.scrubCycleS)]

/-- HUB_PM. -/
def regPm (s : State) (o : Nat) : Nat :=
  let m := s.pm
  let mask (f : PmQ → Bool) : Nat := m.q.foldl (fun a p => a + b2n (f p.2) * 2 ^ p.1) 0
  match o with
  | 0x00 => pack [(30, m.state), (29, b2n m.flowPresent), (28, b2n m.coolantSrc), (27, b2n m.rthNominal), (23, mask (fun x => x.warmX10 ≠ 0)),
                  (19, mask (fun x => x.warmShort)), (0, m.capW)]
  | 0x04 => pack [(16, m.peakX10), (0, m.meanX10)]
  | 0x08 => pack [(16, m.rthS), (0, m.rthJ)]
  | 0x0C => pack [(16, twos 16 (tcHalf s)), (0, twos 16 m.tjMax)]
  | 0x20 => half (sfail s 0 32) 0
  | 0x24 => half (sfail s 0 32) 4
  | 0x28 => sfail s 32 4
  | 0x30 => pack [(12, m.opHours), (0, m.toReplan)]
  | 0x34 => pack [(16, m.replans), (0, m.short)]
  | _ =>
    if 0x10 ≤ o && o < 0x20 then
      let q := (o - 0x10) / 4
      let x := pmQ s q
      pack [(29, x.step), (26, x.ceiling), (16, x.vqc), (8, twos 8 (tget m.tj q 0 / 2)), (0, twos 8 (tget m.ts q 0 / 2))]
    else 0

/-- HUB_ALM. -/
def regAlm (a : Alm) (o : Nat) : Nat :=
  match o with
  | 0x00 => a.head % 2 ^ 32
  | 0x04 => a.headHi
  | 0x08 => regAlmStatus a
  | 0x30 => regAlmJournal a
  | 0x34 => regAlmClear a
  | _ => if 0x10 ≤ o && o < 0x24 then tget a.drops ((o - 0x10) / 4) 0 else 0

/-- HUB_HOST. -/
def regHost (s : State) (o : Nat) : Nat :=
  let h := s.host
  match o with
  | 0x00 => pack [(16, 1), (0, s.ident.hwType)]
  | 0x04 => pack [(31, b2n h.ready), (30, b2n h.mbxReady), (29, b2n h.serviceOnly), (28, b2n h.expertOn), (27, b2n h.expertScope), (24, h.bootStage), (22, h.season)]
  | 0x08 => h.fw
  | 0x0C => h.refused
  | 0x10 => half (h.aperBase * 2 ^ 20) 0
  | 0x14 => half (h.aperBase * 2 ^ 20) 4
  | 0x18 => pack [(24, h.bootError), (16, h.bootCause), (12, h.seasonSrc), (0, h.readyMs)]
  | _ => 0

/-- HUB_MBX. -/
def regMbx (h : HostS) (o : Nat) : Nat :=
  match o with
  | 0x00 => h.sqTail
  | 0x04 => h.sqHead
  | 0x08 => h.cqTail
  | 0x0C => h.cqHead
  | 0x10 => regMbxStatus h
  | _ => 0

/-! ## The windows -/

/-- The word at an offset of BAR0 (Table 17.1): registers, ring memories, the Almanac's ring, the MSI-X table and its pending bits. -/
def bar0Read (s : State) (o : Nat) : Nat :=
  if o < 0x20 then regHost s o
  else if 0x10000 ≤ o && o < 0x11000 then leNat (ringBytes s.host.sq (o - 0x10000) 4)
  else if 0x20000 ≤ o && o < 0x20800 then leNat (ringBytes s.host.cq (o - 0x20000) 4)
  else if 0x30000 ≤ o && o < 0x30014 then regMbx s.host (o - 0x30000)
  else if 0x40000 ≤ o && o < 0x40038 then regAlm s.alm (o - 0x40000)
  else if 0x50000 ≤ o && o < 0x150000 then
    leNat (hubRead s (ringBase + (o - 0x50000)) 4)
  else if 0xF00000 ≤ o && o < 0xF00400 then
    let w := (o - 0xF00000) / 4
    if o % 16 = 12 then b2n (tget s.host.msixMask (w / 4) true) else tget s.host.msixTab w 0
  else if o = 0xF01000 || o = 0xF01004 then
    half ((List.range 64).foldl (fun a v => a + b2n (tget s.host.msixPend v false) * 2 ^ v) 0) (o - 0xF01000)
  else 0

/-- The byte at an offset of the result window (Table 17.3): the directory, then the buffers. -/
def resultByte (s : State) (o : Nat) : Byte :=
  if o < 0x10000 then (dirBytes (tget s.host.dir (o / 64) {})).getD (o % 64) 0
  else
    (s.host.dir.findSome? (fun p => (List.range 3).findSome? (fun k =>
      let b := p.2.bufOfs.getD k 0
      if b ≠ 0 && b ≤ o && o < b + bufSize p.2.length then some ((bufBytes p.1 p.2 (tget p.2.bufs k {})).getD (o - b) 0) else none))).getD 0

/-- The word at an offset of the expert area (Table 17.19). -/
def expertRead (s : State) (o : Nat) : Nat :=
  if o < 0x1000000 then 0
  else if o < 0x1010000 then regCal s (o - 0x1000000)
  else if o < 0x1020000 then regTime s (o - 0x1010000)
  else if o < 0x1020100 then regIng (streamOf s ((o - 0x1020000) / 8)) o
  else if o < 0x1030000 then 0
  else if o < 0x1040000 then regFus s.fus (o - 0x1030000)
  else if o < 0x1050000 then regPln s.pln (o - 0x1040000)
  else if o < 0x1060000 then regId s.ident (o - 0x1050000)
  else if o < 0x1060500 then regRgl s ((o - 0x1060000) / 0x100) (o % 0x100)
  else if o < 0x1070000 then 0
  else if o < 0x10702C0 then regSw s (o - 0x1070000)
  else if o < 0x1080000 then 0
  else if o < 0x1080200 then regVg s ((o - 0x1080000) / 0x100) (o % 0x100)
  else if o < 0x1090000 then 0
  else if o < 0x10A0000 then regHlt s (o - 0x1090000)
  else if o < 0x10B0000 then regSt s (o - 0x10A0000)
  else if o < 0x10B0400 then regCvu (cvuOf s ((o - 0x10B0000) / 0x40)) (o % 0x40)
  else if o = 0x10B0400 then regScrub s
  else if o < 0x10C0000 then 0
  else if o < 0x10C0038 then regPm s (o - 0x10C0000)
  else if o < 0x1100000 then 0
  else if o < 0x1102000 then fld (seqOf s ((o - 0x1100000) / 128)).image (o % 128) 4
  else if o < 0x1200000 then 0
  else if o < 0x1240000 then
    let q := (o - 0x1200000) / 0x10000
    if o % 0x10000 < 0x1000 then regNle (tget s.nle q {}) (o % 0x10000) else if o % 0x10000 < 0x2000 then regStc (stcOf s q) s.now (o % 0x1000) else 0
  else if o < 0x1400000 then 0
  else if o < 0x1520000 then regCluster s ((o - 0x1400000) / 0x1000) (o % 0x1000)
  else 0

end Sys2Proof.Machine
end

