-- ==== Sys2Proof/Safety.lean ====
section
/-!
DEFINITION. The words the statements are written in: runs, the commands Xiuth accepts and how they end, the commands a sequencer issues.
-/

namespace Sys2Proof.Machine

/-- The next state of an outcome, if it is one. -/
def nextOf (o : Out) : Option State :=
  match o with
  | .next t => some t
  | _ => none

/-- The step goes on. -/
def Goes (s : State) : Prop := ∃ t, step s = .next t

/-- `t` is reached from `s` by `n` steps. -/
def reaches : Nat → State → State → Prop
  | 0, s, t => s = t
  | n + 1, s, t => ∃ u, step s = .next u ∧ reaches n u t

/-! ## Mailbox commands -/

/-- Xiuth runs the entry now: the mailbox is up, no earlier command of the family is unfinished (R363), the checks of R365 pass, and the
buffer can move. -/
def Accepted (k : MbxCmd) (e : SubEntry) (s : State) : Prop :=
  s.host.mbxReady = true ∧ waitsTurn s e = false ∧ k.check e s = stOk ∧ dmaHeld k e s = false

/-- A command that was accepted in `s` and left `t` ends: its completion waits with STATUS and RESULT. -/
def answered (s t : State) (e : SubEntry) (status : Nat) (result : List Byte) : Out :=
  done s (settleStray (complete t e status result) 64)

/-- The completion of a command. -/
def completionOf (e : SubEntry) (status : Nat) (result : List Byte) : MbxDone :=
  { tag := e.tag, opcode := e.opcode, status := status, result := padTo 20 result, noIrq := bit e.flags 0 }

end Sys2Proof.Machine
end

