-- ==== Sys2Proof/WellFormed.lean ====
section
/-!
DEFINITION. Which commands can be sent: every operand within the width or range the spec gives it.
-/

namespace Sys2Proof

/-- A RESOURCE_ID of a cluster, an NLE, the fusion engine or the planning engine (Table 2.4). -/
def okUnit (r : Nat) : Bool :=
  (r / 2 ^ 24 = 1 && r / 65536 % 256 < 4 && r % 65536 < 72) || r = 0x05000000 || r = 0x06000000
    || (r / 2 ^ 24 = 7 && r / 65536 % 256 < 4 && r % 65536 = 0)

/-- A token whose fields fit their widths (Table 3.2). -/
def okToken (t : Token) : Bool :=
  t.frame < 2 ^ 48 && t.tileId < 2 ^ 32 && t.gen < 2 ^ 16 && t.slot < 64 && t.ctx < 32

/-- A submission entry whose fields fit their widths (Table 17.4). -/
def okEntry (e : SubEntry) : Bool :=
  e.opcode < 2 ^ 16 && e.flags < 256 && e.tag < 2 ^ 32 && e.bufAddr < 2 ^ 64 && e.bufLen < 2 ^ 32 && e.rsv < 2 ^ 40
    && e.param.length = 40

/-- The PARAM byte that picks one row of several with an opcode. -/
def pickByte (e : SubEntry) (o v : Nat) : Bool := e.param.getD o 0 = BitVec.ofNat 8 v

/-- The operands of a command fit their widths and ranges. -/
def Instr.wf (i : Instr) : Bool :=
  match i with
  | .calend => true
  | .trigPulseStart k => k < 12
  | .trigPulseEnd k => k < 12
  | .seasonEpoch => true
  | .eveCheck => true
  | .eveDeadline => true
  | .safeEdge _ => true
  | .frameReportPublish => true
  | .nop e => okEntry e && e.opcode = 0x0100
  | .getEvents e => okEntry e && e.opcode = 0x0101
  | .setSeason e => okEntry e && e.opcode = 0x0102
  | .seasonStore e _ => okEntry e && e.opcode = 0x0103
  | .seasonRead e => okEntry e && e.opcode = 0x0104
  | .getSurroundings e => okEntry e && e.opcode = 0x0105
  | .getIdentity e => okEntry e && e.opcode = 0x0B00
  | .attest e => okEntry e && e.opcode = 0x0B01
  | .getCerts e => okEntry e && e.opcode = 0x0B02
  | .planLoad e => okEntry e && e.opcode = 0x0200
  | .planAdmit e => okEntry e && e.opcode = 0x0201
  | .planSelect e => okEntry e && e.opcode = 0x0202
  | .planRetire e => okEntry e && e.opcode = 0x0203
  | .queueStatus e => okEntry e && e.opcode = 0x0204
  | .dataWriteCreate e => okEntry e && e.opcode = 0x0300 && pickByte e 2 0
  | .dataWriteRewrite e => okEntry e && e.opcode = 0x0300 && pickByte e 2 1
  | .dataWriteRepair e => okEntry e && e.opcode = 0x0300 && pickByte e 2 2
  | .dataWriteDelete e => okEntry e && e.opcode = 0x0300 && pickByte e 2 3
  | .dataRead e => okEntry e && e.opcode = 0x0301
  | .dataCheck e => okEntry e && e.opcode = 0x0302
  | .storeRetain e => okEntry e && e.opcode = 0x0303
  | .storeResume e => okEntry e && e.opcode = 0x0304
  | .mapLoad e => okEntry e && e.opcode = 0x0305
  | .mapSelect e => okEntry e && e.opcode = 0x0306
  | .mapStatus e => okEntry e && e.opcode = 0x0307
  | .seqDefine e => okEntry e && e.opcode = 0x0400
  | .seqEditTruncate e => okEntry e && e.opcode = 0x0401 && pickByte e 1 0
  | .seqEditSetWindow e => okEntry e && e.opcode = 0x0401 && pickByte e 1 1
  | .seqEditSetGlobals e => okEntry e && e.opcode = 0x0401 && pickByte e 1 2
  | .seqEditReset e => okEntry e && e.opcode = 0x0401 && pickByte e 1 3
  | .seqRead e => okEntry e && e.opcode = 0x0402
  | .seqDelete e => okEntry e && e.opcode = 0x0403
  | .resultRingSet e => okEntry e && e.opcode = 0x0500 && pickByte e 1 0
  | .resultRingRemove e => okEntry e && e.opcode = 0x0500 && pickByte e 1 1
  | .resultAck e => okEntry e && e.opcode = 0x0501
  | .resultRingStatus e => okEntry e && e.opcode = 0x0502
  | .healthStatus e => okEntry e && e.opcode = 0x0600
  | .fenceClusterFence e => okEntry e && e.opcode = 0x0601 && pickByte e 2 0
  | .fenceClusterRelease e => okEntry e && e.opcode = 0x0601 && pickByte e 2 1
  | .clusterRestrictRestrict e => okEntry e && e.opcode = 0x0602 && pickByte e 2 0
  | .clusterRestrictUnrestrict e => okEntry e && e.opcode = 0x0602 && pickByte e 2 1
  | .healthResume e => okEntry e && e.opcode = 0x0603
  | .vigilStatus e => okEntry e && e.opcode = 0x0604
  | .vigilDebugEnable e => okEntry e && e.opcode = 0x0605 && pickByte e 1 1
  | .vigilDebugDisable e => okEntry e && e.opcode = 0x0605 && pickByte e 1 0
  | .getSafetyReport e => okEntry e && e.opcode = 0x0606
  | .almRead e => okEntry e && e.opcode = 0x0700
  | .almInfo e => okEntry e && e.opcode = 0x0701
  | .almClear e _ => okEntry e && e.opcode = 0x0702
  | .updLoad e _ => okEntry e && e.opcode = 0x0800
  | .updSchedule e => okEntry e && e.opcode = 0x0801
  | .updConfirm e => okEntry e && e.opcode = 0x0802
  | .updStatus e => okEntry e && e.opcode = 0x0803
  | .updCancel e => okEntry e && e.opcode = 0x0804
  | .pwrStatus e => okEntry e && e.opcode = 0x0900
  | .pwrLimit e => okEntry e && e.opcode = 0x0901
  | .expertUnlockP3 e => okEntry e && e.opcode = 0x0A00 && pickByte e 0 0
  | .expertUnlockService e => okEntry e && e.opcode = 0x0A00 && pickByte e 0 1
  | .expertLock e => okEntry e && e.opcode = 0x0A01
  | .sqTailDoorbell v => v < 2 ^ 32
  | .cqHeadDoorbell v => v < 2 ^ 32
  | .submissionFetch => true
  | .completionPost => true
  | .registerWrite addr size value => addr < 2 ^ 29 && 1 ≤ size && size ≤ 4096 && value < 2 ^ (8 * size)
  | .frameLoRead => true
  | .timeLoRead => true
  | .almHeadLoRead => true
  | .apertureRead ofs len => ofs < 2 ^ 30 && len < 2 ^ 13
  | .apertureWrite ofs bytes => ofs < 2 ^ 30 && bytes.length < 2 ^ 13
  | .cvuStart k ctrl => k < 16 && ctrl < 2 ^ 32
  | .cvuDataWrite k len value => k < 16 && (len = 1 || len = 2 || len = 4) && value < 2 ^ (8 * len)
  | .cvuRunDone k => k < 16
  | .inputVoidComplete u ctx => okUnit u && ctx < 32
  | .load u ctx _ => okUnit u && ctx < 32
  | .store u ctx _ => okUnit u && ctx < 32
  | .sync u ctx _ => okUnit u && ctx < 32
  | .matmul u ctx _ => okUnit u && ctx < 32
  | .matmulDx u ctx _ => okUnit u && ctx < 32
  | .matmulDw u ctx _ => okUnit u && ctx < 32
  | .vec u ctx _ => okUnit u && ctx < 32
  | .sfu u ctx _ => okUnit u && ctx < 32
  | .optStep u ctx _ => okUnit u && ctx < 32
  | .conv u ctx _ => okUnit u && ctx < 32
  | .convFused u ctx _ => okUnit u && ctx < 32
  | .dwconv u ctx _ => okUnit u && ctx < 32
  | .pool u ctx _ => okUnit u && ctx < 32
  | .layout u ctx _ => okUnit u && ctx < 32
  | .nleConvIn u ctx _ => okUnit u && ctx < 32
  | .nleConvOut u ctx _ => okUnit u && ctx < 32
  | .nleCrop u ctx _ => okUnit u && ctx < 32
  | .nlePool u ctx _ => okUnit u && ctx < 32
  | .nleResample u ctx _ => okUnit u && ctx < 32
  | .attnStep u ctx _ => okUnit u && ctx < 32
  | .attnPrefill u ctx _ => okUnit u && ctx < 32
  | .attnCommit u ctx _ => okUnit u && ctx < 32
  | .fusEgo u ctx _ => okUnit u && ctx < 32
  | .fusUpdate u ctx _ => okUnit u && ctx < 32
  | .fusPublish u ctx _ => okUnit u && ctx < 32
  | .plnGrid u ctx _ => okUnit u && ctx < 32
  | .plnCheck u ctx _ => okUnit u && ctx < 32
  | .plnCommit u ctx _ => okUnit u && ctx < 32
  | .commandComplete u ctx => okUnit u && ctx < 32
  | .tokenArrival dst t => okUnit dst && okToken t
  | .creditArrival dst c => okUnit dst && c.frame < 2 ^ 48 && c.counter < 32 && c.ctx < 32
  | .commandLapse u ctx => okUnit u && ctx < 32
  | .contextSwapStart u ctx => okUnit u && ctx < 32
  | .contextSwapComplete u => okUnit u
  | .twinNote u ctx => okUnit u && ctx < 32
  | .resultToken planId t => planId < 2 ^ 64 && okToken t
  | .variantSwitch planId => planId < 2 ^ 64
  | .exclusionSwitch planId => planId < 2 ^ 64
  | .mapSwitch => true
  | .quarantine g => g < 288
  | .deferredExpulsion q => q < 4
  | .hardFault g _ => g < 288
  | .busTimeout g => g < 288
  | .seqHeartbeat u => okUnit u
  | .heartbeatDeadline => true
  | .checkAttribution k => 4 ≤ k && k < 8
  | .weightRepair addr => addr < 2 ^ 48
  | .cleanRunCredit g => g < 288
  | .probationEnd g => g < 288
  | .deepSelfTestStart g => g < 288
  | .deepSelfTestDone g _ _ => g < 288
  | .rotationStepStart q => q < 4
  | .rotationTestDone q _ => q < 4
  | .rotationStepEnd q => q < 4
  | .holidaySegmentStart kind _ _ => 1 ≤ kind && kind ≤ 5
  | .holidaySegmentEnd _ _ => true
  | .segmentWatchdog => true
  | .testDebtWarning kind => kind < 6
  | .testOverdue kind => kind < 6
  | .budgetExceeded u ctx count => okUnit u && ctx < 32 && count < 2 ^ 32
  | .vigilEvent e => okUnit e.unit && e.frame < 2 ^ 48
  | .vigilWatchdogExpiry _ => true
  | .vigilHeartbeatSend _ => true
  | .vigilHeartbeat _ => true
  | .peerLossTimeout _ cause => cause < 3
  | .lossNotice _ => true
  | .comparatorMismatch _ group _ => group < 64
  | .restartRetry _ => true
  | .islandResetRelease _ flagged _ => flagged < 2 ^ 64
  | .islandBrownOut _ => true
  | .vigilInputChange _ level => level < 8
  | .vigilBBreach _ _ => true
  | .readStatus => true
  | .hold => true
  | .release => true
  | .spiBadCommand cmd arg crc => cmd < 256 && arg < 256 && crc < 2 ^ 16
  | .debugAttach _ => true
  | .debugRegisterWrite _ _ _ => true
  | .debugResume _ => true
  | .debugDetach _ => true
  | .storeRequest die ch => die < 4 && ch < 32
  | .refreshDue die ch bank => die < 4 && ch < 32 && bank < 32
  | .refreshWindowReturn die => die < 4
  | .ingestWrite die _ => die < 4
  | .levelBroadcast die => die < 4
  | .levelStale _ die => die < 4
  | .transactionIssue _ r => r.die < 4 && r.addr < 2 ^ 33 && r.part < 4
  | .transactionComplete _ die cls => die < 4 && cls < 4
  | .bucketRefill => true
  | .delayUpdate die => die < 4
  | .csi2FrameStart port vc frameNo => port < 12 && vc < 16 && frameNo < 2 ^ 16
  | .csi2Packet port p => port < 12 && p.vc < 16 && p.dt < 64
  | .csi2FrameEnd port vc frameNo => port < 12 && vc < 16 && frameNo < 2 ^ 16
  | .ethernetFrame port _ => port < 4
  | .gapExpiry k => k < 32
  | .ingestTileMove k => k < 32
  | .sampleComplete k => k < 32
  | .gptpSync _ _ _ => true
  | .gptpHoldover _ => true
  | .almanacEvent e => e.severity < 5
  | .journalFlush _ => true
  | .almanacSummary => true
  | .settingsJournalWrite => true
  | .porstRelease => true
  | .porstAssert => true
  | .hubRailLow => true
  | .hubClockLock _ => true
  | .imageLoad _ => true
  | .discovery _ => true
  | .delaySetup _ => true
  | .errorInjection _ => true
  | .seasonSelection _ => true
  | .ready => true
  | .perstRelease => true
  | .hostInterfaceReset _ => true
  | .pciePowerState _ => true
  | .dmaCompletion tag _ => tag < 2 ^ 32
  | .dmaTimeout tag => tag < 2 ^ 32
  | .pmSample _ => true
  | .survivalP0Stop => true
  | .survivalExit => true
  | .thermtrip => true
  | .capControl => true
  | .dvfsStepComplete q => q < 4
  | .capLawUpdate => true
  | .coolantRead _ => true
  | .coolantLost => true
  | .coolFlowPulse => true
  | .flowTimeout => true
  | .warmHoldAdjust => true
  | .warmShort q => q < 4
  | .rthJournal => true
  | .ageingReplan => true
  | .updateEpoch => true
  | .confirmWindowExpiry => true
  | .fallbackEpoch => true
  | .keyDerivationDone => true
  | .islandResetAssert _ => true
  | .pairRestartDone _ flagged _ => flagged < 2 ^ 64
  | .hubRailRecover => true
  | .linkTraining _ _ => true
  | .ethLinkDown mac => mac < 4
  | .debugHalt _ => true
  | .debugSingleStep _ => true
  | .debugMemoryWrite _ _ _ => true
  | .rowClose die ch bank => die < 4 && ch < 32 && bank < 32

end Sys2Proof
end

