-- ==== Sys2Proof/Certificates/Slice0/Obligations.lean ====
section
/-!
DEFINITION. The statements for the provers.
-/

open Sys2Proof Sys2Proof.Machine

/-! ## The queue -/

/-- A step with a command at the front of the queue runs it on the state with the queue's rest (the block's form of a step). -/
def Obligations.StepRunsTheFrontCommand : Prop :=
  ∀ (s : State) (c : Instr) (q : List Instr), step { s with pending := c :: q } = exec c { s with pending := q }

/-- Every step goes on and takes exactly one waiting command: no command stops the machine and none touches the queue behind it. On an
empty queue time passes (the model's choice, log 3). -/
def Obligations.EveryStepGoesOn : Prop :=
  ∀ s : State, ∃ t, step s = .next t ∧ t.pending = s.pending.tail

/-! ## The mailbox -/

/-- How a command ends: the outcome of `answered` differs from the state the command left only in the queue, which is the step's, and in
Xiuth's own book-keeping (the commands taken, the DMA channels they hold); of that, the completions that waited still wait, in order, behind them the command's own, and behind it only
completions of entries that no row of the command tables covers. -/
def Obligations.AnsweredCommandCompletes : Prop :=
  ∀ (s t : State) (e : SubEntry) (status : Nat) (result : List Byte), ∃ (tk : List SubEntry) (dd : List Nat) (dc : Tbl Nat) (w : List MbxDone),
    answered s t e status result = .next { t with
      pending := s.pending
      host := { t.host with taken := tk, dmaDone := dd, dmaChan := dc, waiting := t.host.waiting ++ completionOf e status result :: w } } ∧
    (∀ x ∈ tk, x ∈ t.host.taken) ∧
    (∀ d ∈ w, d.result = padTo 20 [] ∧ (d.status = stBadOpcode ∨ d.status = stRange ∨ d.status = stNotReady))

/-- A command whose checks of R365 fail ends with the first failing status and no effect; one held back by an earlier command of its
family (R363), one whose buffer cannot move yet (R360, R373), or one before the mailbox runs waits. The checks go in R365's order: unknown opcode,
before Ready, ranges, Season, held object; BUSY also where a command of another family holds an object that this one needs (R364). Said of the
shared mailbox operation that every mailbox row runs through. -/
def Obligations.MailboxChecksComeFirst : Prop :=
  (∀ (k : MbxCmd) (e : SubEntry) (body : State → Answer) (s : State),
    (s.host.mbxReady = true → waitsTurn s e = false → k.check e s ≠ stOk → mailbox k e body s = answered s s e (k.check e s) []) ∧
    (Accepted k e s → mailbox k e body s = answered s (body s).st e (body s).status (body s).result) ∧
    (s.host.mbxReady = false → mailbox k e body s = .next s) ∧
    (k.check e s = stOk → dmaHeld k e s = true → mailbox k e body s = .next s) ∧
    (waitsTurn s e = true → mailbox k e body s = .next s)) ∧
  (∀ (k : MbxCmd) (e : SubEntry) (s : State),
    (e.opcode ≠ k.opcode → k.check e s = stBadOpcode) ∧
    (e.opcode = k.opcode → s.host.ready = false → k.early = false → k.check e s = stNotReady) ∧
    (e.opcode = k.opcode → (s.host.ready = true ∨ k.early = true) → k.reservedOk e = false → k.check e s = stRange) ∧
    (k.check e s = stWrongSeason → k.reservedOk e = true ∧ k.ranged (parOf e) = true ∧ k.season s = false) ∧
    (k.check e s = stBusy → k.reservedOk e = true ∧ k.ranged (parOf e) = true ∧ k.season s = true ∧
      (k.busy s (parOf e) = true ∨ objectHeld s e = true)) ∧
    (k.check e s = stOk → e.opcode = k.opcode ∧ k.reservedOk e = true ∧ k.ranged (parOf e) = true ∧ k.season s = true ∧
      k.busy s (parOf e) = false ∧ objectHeld s e = false))

/-- The commands that report: each ends OK, with its output in the host's buffer and its RESULT, and changes nothing else of the device.
GET_EVENTS takes what it returns out of the notification queue (R372); GET_SURROUNDINGS draws the values the spec leaves open (log 40). -/
def Obligations.ReportCommandsAnswer : Prop :=
  ∀ (s : State) (e : SubEntry),
    (Accepted cmdNop e s → exec (.nop e) s = answered s s e stOk []) ∧
    (Accepted cmdGetEvents e s → 32 ≤ bufLenOf e →
      exec (.getEvents e) s =
        (let n := min (min (fld (parOf e) 0 2) (bufLenOf e / 32)) s.host.notifs.length
         let t := bufOut s e ((s.host.notifs.take n).flatMap notifBytes)
         answered s { t with host := { t.host with notifs := s.host.notifs.drop n, lost := 0 } } e stOk (natLe 4 n ++ natLe 4 s.host.lost))) ∧
    (Accepted cmdGetEvents e s → bufLenOf e < 32 → exec (.getEvents e) s = answered s s e stRange []) ∧
    (Accepted cmdSeasonRead e s →
      exec (.seasonRead e) s = answered s (bufOut s e ((slotImage s (parByte e 0)).getD [])) e stOk []) ∧
    (Accepted cmdGetSurroundings e s →
      exec (.getSurroundings e) s = answered s (bufOut (surroundings s).2 e (surroundings s).1) e stOk []) ∧
    (Accepted cmdGetIdentity e s → exec (.getIdentity e) s = answered s (bufOut s e (identityBytes s)) e stOk []) ∧
    (Accepted cmdGetCerts e s →
      exec (.getCerts e) s = answered s (bufOut s e (certChain s)) e stOk (natLe 4 (certChain s).length)) ∧
    (Accepted cmdQueueStatus e s →
      exec (.queueStatus e) s =
        (let u := unitOf s (rClu (fld (parOf e) 0 2))
         answered s (bufOut s e (seqRegs u ++ u.records.flatMap completionRec)) e stOk [])) ∧
    (Accepted cmdMapStatus e s →
      exec (.mapStatus e) s = answered s s e stOk (natLe 1 (slotState s 0) ++ natLe 8 (slotOf s 0).mapId ++
        natLe 1 (slotState s 1) ++ natLe 8 (slotOf s 1).mapId)) ∧
    (Accepted cmdHealthStatus e s → exec (.healthStatus e) s = answered s (bufOut s e (healthReport s)) e stOk []) ∧
    (Accepted cmdVigilStatus e s →
      exec (.vigilStatus e) s = answered s s e stOk (natLe 4 (regVgStatus s.islA) ++ natLe 4 (regVgStatus s.islB) ++
        natLe 4 (regVgRestart s.islA) ++ natLe 4 (regVgRestart s.islB))) ∧
    (Accepted cmdGetSafetyReport e s → exec (.getSafetyReport e) s = answered s (bufOut s e (safetyReport s)) e stOk []) ∧
    (Accepted cmdUpdStatus e s → exec (.updStatus e) s = answered s s e stOk (updStatus s)) ∧
    (Accepted cmdPwrStatus e s → exec (.pwrStatus e) s = answered s (bufOut s e (powerReport s)) e stOk [])

/-- The commands that read memory, sequences, result rings and the Almanac: the output is what the device holds, and a command whose object does
not exist, or whose buffer is too short, is refused without effect. ATTEST signs with two draws of randomness (log 26). -/
def Obligations.ReadCommandsAnswer : Prop :=
  ∀ (s : State) (e : SubEntry),
    (Accepted cmdDataRead e s → mapped (fld (parOf e) 0 6) (bufLenOf e) = true →
      exec (.dataRead e) s = answered s (bufOut (countBytes s 5 3 (fld (parOf e) 0 6) (bufLenOf e) false) e (hubRead s (fld (parOf e) 0 6) (bufLenOf e))) e stOk []) ∧
    (Accepted cmdDataRead e s → mapped (fld (parOf e) 0 6) (bufLenOf e) = false → exec (.dataRead e) s = answered s s e stRange []) ∧
    (Accepted cmdDataCheck e s → (∀ k, 8 ≤ k → k < 16 → (cvuOf s k).busy = true) → exec (.dataCheck e) s = answered s s e stBusy []) ∧
    (∀ k, Accepted cmdDataCheck e s → (List.range 16).find? (fun k => 8 ≤ k && !(cvuOf s k).busy) = some k →
      exec (.dataCheck e) s =
        (let p := parOf e
         let v : Cvu := { cvuOf s k with addr := fld p 0 6, len := fld p 6 4, seq := fld p 12 4, expect := fld p 16 8 }
         let ok (u : Nat) : Bool := (memLevel (u * 65536)).isSome
         let t := countRun s ok (v.begin (fld p 10 2))
         let v := (v.begin (fld p 10 2)).run' t ok
         answered s (putCvu t k v) e (if v.fault then stRange else stOk) (natLe 8 v.result ++ natLe 1 (b2n v.mismatch)))) ∧
    (Accepted cmdSeqRead e s → (seqOf s (parByte e 0)).valid = true →
      exec (.seqRead e) s = answered s (bufOut s e (seqOf s (parByte e 0)).image) e stOk []) ∧
    (Accepted cmdSeqRead e s → (seqOf s (parByte e 0)).valid = false → exec (.seqRead e) s = answered s s e stNotFound []) ∧
    (Accepted cmdResultRingStatus e s → (tget s.host.rings (parByte e 0) {}).isSet = false →
      exec (.resultRingStatus e) s = answered s s e stNotFound []) ∧
    (Accepted cmdAlmRead e s → bufLenOf e < 64 → exec (.almRead e) s = answered s s e stRange []) ∧
    (Accepted cmdResultRingStatus e s → (tget s.host.rings (parByte e 0) {}).isSet = true →
      exec (.resultRingStatus e) s =
        (let r := tget s.host.rings (parByte e 0) {}
         answered s s e stOk (natLe 4 r.tail ++ natLe 4 r.head ++ natLe 4 r.dropped ++ natLe 4 r.tooBig))) ∧
    (Accepted cmdAlmRead e s → 64 ≤ bufLenOf e →
      exec (.almRead e) s =
        (let rs := recordsFrom s.alm (fld (parOf e) 0 6)
         let n := min (bufLenOf e / 64) rs.length
         let next := match rs.drop n with | r :: _ => r.seq | [] => s.alm.head + 1
         answered s (bufOut s e ((rs.take n).flatMap recBytes)) e stOk (natLe 4 n ++ natLe 6 next))) ∧
    (Accepted cmdAlmInfo e s →
      exec (.almInfo e) s =
        (let t := Config.almInfo (tget s.upd.components 1 [])
         let n := min (t.length / 32) (bufLenOf e / 32)
         answered s (bufOut s e (t.take (32 * n))) e stOk (natLe 4 n))) ∧
    (Accepted cmdAttest e s →
      exec (.attest e) s =
        (let body := attestBody s (slice (parOf e) 0 32)
         let rep := body ++ padTo 384 (Config.sign s.upd.cdi 0 s.fresh body) ++ padTo 16224 (Config.sign s.upd.cdi 1 (s.fresh + 1) body)
         answered s (bufOut { s with fresh := s.fresh + 2 } e rep) e stOk (natLe 4 rep.length)))

/-- What a reporting command changes: the bytes of its buffer in host memory, and nothing else. Bytes outside the buffer's segments read as
before. -/
def Obligations.BufferOutputFrame : Prop :=
  ∀ (s : State) (e : SubEntry) (bs : List Byte),
    (∃ m, bufOut s e bs = { s with hostMem := m }) ∧
    (∀ a, (∀ g ∈ (segments s e).getD [], a < g.1 ∨ g.1 + g.2 ≤ a) →
      mget (bufOut s e bs).hostMem a = mget s.hostMem a)

/-- The plan commands (R47, R48, R368, R384): loading adds an entry with its result space, admission binds, selection and retirement wait for the
Calend; of several selections for one Calend the last accepted stands. A command that is refused changes nothing. -/
def Obligations.PlanCommandsTakeEffect : Prop :=
  ∀ (s : State) (e : SubEntry),
    (∀ id, Accepted cmdPlanLoad e s → id = ph (bufAll s e) 8 8 → loadOk (bufAll s e) = true → oldFmtOk s 0 (ph (bufAll s e) 4 2) = true →
      ((∃ p ∈ s.plans, p.planId = id) → exec (.planLoad e) s = answered s s e stBusy []) ∧
      ((∀ p ∈ s.plans, p.planId ≠ id) → 16 ≤ s.plans.length → exec (.planLoad e) s = answered s s e stNoSlot []) ∧
      ((∀ p ∈ s.plans, p.planId ≠ id) → s.plans.length < 16 →
        (reserveDir s.host id ((List.range (outputCount (bufAll s e))).map (outAt (bufAll s e))) = none →
          exec (.planLoad e) s = answered s s e stNoSlot []) ∧
        (∀ first h, reserveDir s.host id ((List.range (outputCount (bufAll s e))).map (outAt (bufAll s e))) = some (first, h) →
          exec (.planLoad e) s = answered s
            { s with host := h, plans := s.plans ++ [{ planId := id, image := bufAll s e, dirFirst := first }] } e stOk
            (natLe 8 id ++ natLe 2 first)))) ∧
    (Accepted cmdPlanLoad e s → (loadOk (bufAll s e) = false ∨ oldFmtOk s 0 (ph (bufAll s e) 4 2) = false) →
      exec (.planLoad e) s = answered s s e stRange []) ∧
    (∀ p t, Accepted cmdPlanAdmit e s → livePlan s (fld (parOf e) 0 8) = some p → admitPlan s p = (t, none) →
      exec (.planAdmit e) s = answered s t e stOk (planNoBytes { reason := 0, variant := 0 })) ∧
    (∀ p t x, Accepted cmdPlanAdmit e s → livePlan s (fld (parOf e) 0 8) = some p → admitPlan s p = (t, some x) →
      exec (.planAdmit e) s = answered s s e stPlanRefused (planNoBytes x)) ∧
    (∀ p, Accepted cmdPlanSelect e s → livePlan s (fld (parOf e) 0 8) = some p → p.admitted = true →
      (variantCount p.image ≤ parByte e 8 → exec (.planSelect e) s = answered s s e stRange []) ∧
      (parByte e 8 < variantCount p.image →
        (∀ r, selectBar s p.image (parByte e 8) (effectFrame s) = some r → exec (.planSelect e) s =
          answered s s e stPlanRefused (planNoBytes { reason := rsVariant, variant := parByte e 8, res := r })) ∧
        (selectBar s p.image (parByte e 8) (effectFrame s) = none → exec (.planSelect e) s = answered s (modPlan s p.planId (fun q =>
          { q with select := q.select.filter (fun x => x.2 ≠ effectFrame s) ++ [(parByte e 8, effectFrame s)] })) e stOk
          (natLe 6 (effectFrame s))))) ∧
    (∀ p, Accepted cmdPlanRetire e s → livePlan s (fld (parOf e) 0 8) = some p →
      exec (.planRetire e) s =
        if p.admitted then answered s (modPlan s p.planId (fun q => { q with retiring := true })) e stOk (natLe 6 (s.cal.frame + 1))
        else answered s { s with plans := s.plans.filter (fun q => q.planId ≠ p.planId), host := freeDir s.host p.planId } e stOk
          (natLe 6 s.cal.frame)) ∧
    (livePlan s (fld (parOf e) 0 8) = none →
      (Accepted cmdPlanAdmit e s → exec (.planAdmit e) s = answered s s e stNotFound []) ∧
      (Accepted cmdPlanSelect e s → exec (.planSelect e) s = answered s s e stNotFound []) ∧
      (Accepted cmdPlanRetire e s → exec (.planRetire e) s = answered s s e stNotFound []))

/-- The weight-region and store commands (R168, R171, R186, R187, R213, R214): CREATE allocates, a REWRITE writes every tile with the next
generation (of a bound region only where every tile is invalid, with its own), a REPAIR writes the invalid tiles of its run, DELETE frees; a
command that is refused changes nothing. The dies retain and resume together. -/
def Obligations.DataCommandsTakeEffect : Prop :=
  ∀ (s : State) (e : SubEntry) (id : Nat) (r : Region), id = fld (parOf e) 0 2 → r = tget s.regions id {} →
    (Accepted cmdDataWriteCreate e s →
      ((createRegion e).log2Tile < 8 ∨ 16 < (createRegion e).log2Tile ∨ 3 < (createRegion e).part ∨ r.valid = true →
        exec (.dataWriteCreate e) s = answered s s e stRange []) ∧
      (8 ≤ (createRegion e).log2Tile → (createRegion e).log2Tile ≤ 16 → (createRegion e).part ≤ 3 → r.valid = false →
        (overlapsRegion s (createRegion e) (fun x => x.mapSlot.isSome) = true → exec (.dataWriteCreate e) s = answered s s e stInUse []) ∧
        (overlapsRegion s (createRegion e) (fun x => x.mapSlot.isSome) = false →
          (regionPlaced s (createRegion e) = false ∨ overlapsRegion s (createRegion e) (fun _ => true) = true →
            exec (.dataWriteCreate e) s = answered s s e stRange []) ∧
          (regionPlaced s (createRegion e) = true → overlapsRegion s (createRegion e) (fun _ => true) = false →
            (1024 ≤ (s.regions.filter (fun p => p.2.valid && p.2.mapSlot.isNone)).length →
              exec (.dataWriteCreate e) s = answered s s e stNoSlot []) ∧
            ((s.regions.filter (fun p => p.2.valid && p.2.mapSlot.isNone)).length < 1024 →
              (openRegion s id (createRegion e) = none → exec (.dataWriteCreate e) s = answered s s e stRange []) ∧
              (∀ t, openRegion s id (createRegion e) = some t → exec (.dataWriteCreate e) s = answered s t e stOk (natLe 2 1))))))) ∧
    (Accepted cmdDataWriteRewrite e s → r.valid = true →
      (bufLenOf e ≠ r.size → exec (.dataWriteRewrite e) s = answered s s e stRange []) ∧
      (bufLenOf e = r.size → regionBound s r = true → (∃ i, i < r.tiles ∧ weightInvalid s r i = false) →
        exec (.dataWriteRewrite e) s = answered s s e stInUse []) ∧
      (∀ gen, bufLenOf e = r.size → (regionBound s r = true → ∀ i, i < r.tiles → weightInvalid s r i = true) →
        gen = (if regionBound s r = true then r.gen else (r.gen + 1) % 65536) →
        exec (.dataWriteRewrite e) s =
          (let t := writeTiles s r 0 gen (bufAll s e)
           answered s { t with regions := tput t.regions id { r with gen := gen, asked := [] } } e stOk (natLe 2 gen)))) ∧
    (∀ ofs, Accepted cmdDataWriteRepair e s → r.valid = true → ofs = fld (parOf e) 26 8 →
      (ofs % 2 ^ r.log2Tile ≠ 0 ∨ bufLenOf e % 2 ^ r.log2Tile ≠ 0 ∨ bufLenOf e = 0 ∨ r.size < ofs + bufLenOf e →
        exec (.dataWriteRepair e) s = answered s s e stRange []) ∧
      (∀ is, ofs % 2 ^ r.log2Tile = 0 → bufLenOf e % 2 ^ r.log2Tile = 0 → bufLenOf e ≠ 0 → ofs + bufLenOf e ≤ r.size →
        is = (List.range (bufLenOf e / 2 ^ r.log2Tile)).map (· + ofs / 2 ^ r.log2Tile) →
        (regionBound s r = true → (∃ i ∈ is, weightInvalid s r i = false) → exec (.dataWriteRepair e) s = answered s s e stInUse []) ∧
        ((regionBound s r = true → ∀ i ∈ is, weightInvalid s r i = true) →
          exec (.dataWriteRepair e) s = answered s (settleAsked ((is.filter (weightInvalid s r)).foldl (fun t i =>
            putWeight t r i r.gen (slice (bufAll s e) (i * 2 ^ r.log2Tile - ofs) (2 ^ r.log2Tile))) s) id is) e stOk (natLe 2 r.gen)))) ∧
    (Accepted cmdDataWriteDelete e s → r.valid = true →
      (regionBound s r = true → exec (.dataWriteDelete e) s = answered s s e stInUse []) ∧
      (regionBound s r = false → exec (.dataWriteDelete e) s = answered s (closeRegion s id) e stOk (natLe 2 r.gen))) ∧
    (r.valid = false →
      (Accepted cmdDataWriteRewrite e s → exec (.dataWriteRewrite e) s = answered s s e stNotFound []) ∧
      (Accepted cmdDataWriteRepair e s → exec (.dataWriteRepair e) s = answered s s e stNotFound []) ∧
      (Accepted cmdDataWriteDelete e s → exec (.dataWriteDelete e) s = answered s s e stNotFound [])) ∧
    (Accepted cmdStoreRetain e s → anyAdmitted s = true → exec (.storeRetain e) s = answered s s e stInUse []) ∧
    (Accepted cmdStoreRetain e s → anyAdmitted s = false → ∃ t, exec (.storeRetain e) s = answered s t e stOk [] ∧
      ∀ d, d < 4 → (stcOf t d).retaining = true) ∧
    (Accepted cmdStoreRetain e s → anyAdmitted s = false → (∀ d, d < 4 → fld (parOf e) d 1 = 0xFF) →
      exec (.storeRetain e) s = answered s ([0, 1, 2, 3].foldl (fun t d =>
        modStc t d (fun c => { c with retaining := true, retained := if c.retaining then c.retained &&& 0xFF else 0xFF }))
        { s with streams := tmap s.streams Stream.dropForRetain }) e stOk []) ∧
    (Accepted cmdStoreResume e s → (∀ d, d < 4 → (stcOf s d).retaining = false) → exec (.storeResume e) s = answered s s e stRange []) ∧
    (∀ d, Accepted cmdStoreResume e s → d < 4 → (stcOf s d).retaining = true →
      (∃ t, exec (.storeResume e) s = answered s t e stOk [] ∧ ∀ d, d < 4 → (stcOf t d).retaining = false) ∧
      (s.regions = [] → s.seqs = [] → exec (.storeResume e) s =
        answered s ([0, 1, 2, 3].foldl (fun t d => modStc t d (fun c => { c with retaining := false })) s) e stOk []))

/-- How a SEQ_EDIT with operation `op`, value `v` and run words `runs` ends on a sequence: a value out of range or a sequence that does not exist is
RANGE; while its round is open it is kept for the round's end with DEFER, and BUSY without or while another waits; else it is made at once
(R162, R163). -/
def EditEnds (s : State) (e : SubEntry) (c : Instr) (op v : Nat) (runs : List Nat) (ok : Prop) : Prop :=
  let id := fld (parOf e) 0 1
  let d := seqOf s id
  let defer := bit (fld (parOf e) 2 1) 0
  (d.valid = false ∨ ¬ ok → exec c s = answered s s e stRange []) ∧
  (d.valid = true → ok → d.isOpen = true → defer = true → d.pendingEdit = none →
    exec c s = answered s (putSeq s id { d with pendingEdit := some (op, v, runs) }) e stDeferred []) ∧
  (d.valid = true → ok → d.isOpen = true → defer = false ∨ d.pendingEdit ≠ none → exec c s = answered s s e stBusy []) ∧
  (d.valid = true → ok → d.isOpen = false →
    exec c s = answered s (putSeq s id (applyEdit d op v runs)) e stOk (natLe 4 (applyEdit d op v runs).gen))

/-- The map, sequence and result-ring commands (R144, R162, R163, R252, R253, R379), with the statuses of those that are refused. -/
def Obligations.ObjectCommandsTakeEffect : Prop :=
  (∀ (s : State) (e : SubEntry) (k : Nat) (img : List Byte), Accepted cmdMapLoad e s → k = fld (parOf e) 0 1 → img = bufAll s e →
    (slotInUse s k = true → exec (.mapLoad e) s = answered s s e stInUse []) ∧
    (slotInUse s k = false → fmtVersionOk s 1 (fld img 4 2) = true → oldFmtOk s 1 (fld img 4 2) = false →
      exec (.mapLoad e) s = answered s s e stRange []) ∧
    (∀ t o, slotInUse s k = false → (fmtVersionOk s 1 (fld img 4 2) = false ∨ oldFmtOk s 1 (fld img 4 2) = true) →
      loadMap s k (fld (parOf e) 1 1) (fld (parOf e) 2 6) (fld (parOf e) 8 6) img = (t, o) →
      exec (.mapLoad e) s = (match o with
        | none => answered s t e stOk []
        | some (d, i) => answered s (alm t 0x4000 .mapFault 2 [k, d, i]) e stRange (natLe 1 d ++ natLe 3 0 ++ natLe 4 i)))) ∧
  (∀ (s : State) (e : SubEntry), Accepted cmdMapSelect e s →
    ((slotOf s (parByte e 0)).loaded = false → exec (.mapSelect e) s = answered s s e stRange []) ∧
    ((slotOf s (parByte e 0)).loaded = true → exec (.mapSelect e) s = answered s { s with pln := { s.pln with
      select := s.pln.select.filter (fun x => x.2 ≠ effectFrame s) ++ [(parByte e 0, effectFrame s)] } } e stOk (natLe 6 (effectFrame s)))) ∧
  (∀ (s : State) (e : SubEntry) (d : SeqDesc), Accepted cmdSeqDefine e s → d = seqDesc (bufAll s e) →
    (bufLenOf e ≠ 128 ∨ seqRanged (bufAll s e) = false ∨ seqFits d = false ∨ seqPlaced s d = false →
      exec (.seqDefine e) s = answered s s e stRange []) ∧
    (bufLenOf e = 128 → seqRanged (bufAll s e) = true → seqFits d = true → seqPlaced s d = true →
      ((∀ i, i < 64 → (seqOf s i).valid = true) → exec (.seqDefine e) s = answered s s e stNoSlot []) ∧
      (∀ id, (List.range 64).find? (fun i => !(seqOf s i).valid) = some id →
        (seqFines s id d = none → exec (.seqDefine e) s = answered s s e stRange []) ∧
        (∀ t, seqFines s id d = some t →
          exec (.seqDefine e) s = answered s (putSeq (claim t (keySeq id) d.part (unitsOf d.base d.bytes)) id d) e stOk (natLe 1 id))))) ∧
  (∀ (s : State) (e : SubEntry),
    (Accepted cmdSeqEditTruncate e s → EditEnds s e (.seqEditTruncate e) 0 (fld (parOf e) 4 4) []
      (fld (parOf e) 4 4 ≤ (seqOf s (fld (parOf e) 0 1)).curLen)) ∧
    (Accepted cmdSeqEditSetWindow e s → EditEnds s e (.seqEditSetWindow e) 1 (fld (parOf e) 4 4) [] (fld (parOf e) 4 4 ≤ 8192)) ∧
    (Accepted cmdSeqEditSetGlobals e s → EditEnds s e (.seqEditSetGlobals e) 2 (fld (parOf e) 3 1) (runWords (bufAll s e))
      (bufLenOf e = 64 ∧ runsOk (seqOf s (fld (parOf e) 0 1)).maxLen ((runWords (bufAll s e)).take (fld (parOf e) 3 1)) = true)) ∧
    (Accepted cmdSeqEditReset e s → EditEnds s e (.seqEditReset e) 3 (fld (parOf e) 4 4) [] True)) ∧
  (∀ (s : State) (e : SubEntry), Accepted cmdSeqDelete e s →
    ((seqOf s (parByte e 0)).valid = false → exec (.seqDelete e) s = answered s s e stNotFound []) ∧
    ((seqOf s (parByte e 0)).valid = true →
      exec (.seqDelete e) s = if (seqOf s (parByte e 0)).boundPlan = none
        then answered s (release (putSeq s (parByte e 0) {}) (keySeq (parByte e 0))) e stOk []
        else answered s s e stInUse [])) ∧
  (∀ (s : State) (e : SubEntry),
    (Accepted cmdResultRingSet e s → (tget s.host.rings (fld (parOf e) 0 1) {}).isSet = true →
      exec (.resultRingSet e) s = answered s s e stInUse []) ∧
    (Accepted cmdResultRingSet e s → (tget s.host.rings (fld (parOf e) 0 1) {}).isSet = false →
      exec (.resultRingSet e) s =
        (let p := parOf e
         let r : Ring := { isSet := true, log2Entry := fld p 2 1, log2Count := fld p 3 1, base := fld p 4 8, tailAddr := fld p 12 8,
                           outFirst := fld p 20 2, outCount := fld p 22 2 }
         answered s { s with host := { s.host with rings := tput s.host.rings (fld p 0 1) r } } e stOk [])) ∧
    (Accepted cmdResultRingRemove e s → (tget s.host.rings (parByte e 0) {}).isSet = false →
      exec (.resultRingRemove e) s = answered s s e stNotFound []) ∧
    (Accepted cmdResultRingRemove e s → (tget s.host.rings (parByte e 0) {}).isSet = true →
      exec (.resultRingRemove e) s = answered s { s with host := { s.host with rings := tdel s.host.rings (parByte e 0) } } e stOk []) ∧
    (∀ r h n, Accepted cmdResultAck e s → tget s.host.rings (parByte e 0) {} = r → h = fld (parOf e) 4 4 → n = 2 ^ r.log2Count →
      (r.isSet = false → exec (.resultAck e) s = answered s s e stNotFound []) ∧
      (r.isSet = true → (n ≤ h ∨ (r.tail + n - r.head) % n < (h + n - r.head) % n) → exec (.resultAck e) s = answered s s e stRange []) ∧
      (r.isSet = true → h < n → (h + n - r.head) % n ≤ (r.tail + n - r.head) % n →
        exec (.resultAck e) s = answered s { s with host := { s.host with rings := tput s.host.rings (parByte e 0) { r with head := h } } } e stOk [])))

/-- The health, Vigil and expert commands take effect (R303, R320, R325, R326, R337, R381). A FENCE of a cluster under a rotation test abandons the
test first. -/
def Obligations.ServiceCommandsTakeEffect : Prop :=
  ∀ (s : State) (e : SubEntry),
    (∀ g t, Accepted cmdFenceClusterFence e s → fld (parOf e) 0 2 = g →
      t = fenceClu (if (healthOf s g).state = .inTest then abandonTest s g else s) g →
      exec (.fenceClusterFence e) s = answered s t e stOk (natLe 1 (stateCode (healthOf t g).state))) ∧
    (∀ g, Accepted cmdFenceClusterRelease e s → fld (parOf e) 0 2 = g →
      exec (.fenceClusterRelease e) s = if (healthOf s g).state = .fenced
        then answered s (releaseClu s g) e stOk (natLe 1 (stateCode (healthOf (releaseClu s g) g).state)) else answered s s e stRange []) ∧
    (∀ g, Accepted cmdClusterRestrictRestrict e s → fld (parOf e) 0 2 = g →
      exec (.clusterRestrictRestrict e) s = if (healthOf s g).state = .quarantined ∧ (healthOf s g).hardQ = false
        then answered s (alm (modHealth s g (fun h => { h with
          state := .restricted, testing := false, passes := 0, fails := 0, lastTest := none })) (srcClu g) .health 2 [5, (healthOf s g).score])
          e stOk (natLe 1 5)
        else answered s s e stRange []) ∧
    (∀ g, Accepted cmdClusterRestrictUnrestrict e s → fld (parOf e) 0 2 = g →
      exec (.clusterRestrictUnrestrict e) s = if (healthOf s g).state = .restricted
        then answered s (quarantineNow s g false) e stOk (natLe 1 3) else answered s s e stRange []) ∧
    (∀ q, Accepted cmdHealthResume e s → parByte e 0 = q →
      exec (.healthResume e) s = if (hltQOf s q).suspended = true
        then answered s (modHltQ s q (fun h => { h with suspended := false })) e stOk [] else answered s s e stRange []) ∧
    (Accepted cmdVigilDebugEnable e s →
      exec (.vigilDebugEnable e) s = answered s (modIsl s (debugIsl e) (fun x => { x with debugEn := true })) e stOk []) ∧
    (Accepted cmdVigilDebugDisable e s →
      exec (.vigilDebugDisable e) s = answered s (modIsl s (debugIsl e) (fun x => { x with debugEn := false })) e stOk []) ∧
    (Accepted cmdExpertUnlockP3 e s →
      exec (.expertUnlockP3 e) s = answered s (alm { s with host := { s.host with expertOn := true, expertScope := false } } srcHost .expert 2
        [1, 0]) e stOk []) ∧
    (Accepted cmdExpertUnlockService e s →
      exec (.expertUnlockService e) s = answered s (alm { s with host := { s.host with expertOn := true, expertScope := true } } srcHost .expert 2
        [1, 1]) e stOk []) ∧
    (Accepted cmdExpertLock e s →
      exec (.expertLock e) s = answered s (alm { s with host := { s.host with expertOn := false, expertScope := false } } srcHost .expert 2
        [2, 0]) e stOk [])

/-- The Season, update, power and Almanac commands (R354, R355, R399, R403, R407, R408, R411, R413, R416), with the statuses of those that are
refused. The authorisation of ALM_CLEAR includes a signature check the model leaves open (log 26). -/
def Obligations.SystemCommandsTakeEffect : Prop :=
  (∀ (s : State) (e : SubEntry) (n : Nat), Accepted (cmdSetSeason s) e s →
    n = (if fld (parOf e) 1 6 = 0 then s.cal.frame + 2 else fld (parOf e) 1 6) →
    (seasonOf s (parByte e 0) = none → exec (.setSeason e) s = answered s s e stRange []) ∧
    (∀ c, seasonOf s (parByte e 0) = some c →
      (c.xor ≠ s.season.cfg.xor ∨ c.dlyTrim ≠ s.season.cfg.dlyTrim → exec (.setSeason e) s = answered s s e stRestart []) ∧
      (c.xor = s.season.cfg.xor → c.dlyTrim = s.season.cfg.dlyTrim →
        exec (.setSeason e) s = if s.host.serviceOnly = true ∧ parByte e 0 ≠ 3 then answered s s e stUnqualified []
          else answered s { s with season := { s.season with pending := some (parByte e 0, n) } } e stOk (natLe 6 n)))) ∧
  (∀ (s : State) (e : SubEntry) (fail : Bool) (d k : Nat), Accepted cmdSeasonStore e s → k = parByte e 0 →
    d = seasonBadBy (unitHeld s) s k (bufAll s e) →
    (d ≠ 0 → exec (.seasonStore e fail) s = answered s s e stRange (natLe 1 d)) ∧
    (d = 0 → k = s.season.cfg.num ∨ (∃ f, s.season.pending = some (k, f)) → exec (.seasonStore e fail) s = answered s s e stInUse []) ∧
    (d = 0 → k ≠ s.season.cfg.num → (∀ f, s.season.pending ≠ some (k, f)) →
      exec (.seasonStore e fail) s =
        if fail then answered s (tornSlot s k (bufAll s e)) e stFlashFail []
        else answered s { s with season := { s.season with slots := tput s.season.slots k (bufAll s e) } } e stOk (natLe 1 0))) ∧
  (∀ (s t : State) (e : SubEntry) (relay : List Nat), Accepted cmdUpdLoad e s →
    t = modBank s (otherBank s) (fun x => { x with image := x.image ++ bufAll s e }) →
    (s.upd.state = 1 →
      (fld (parOf e) 0 4 ≠ (bankOf s (otherBank s)).image.length ∨ 16777216 < (bankOf s (otherBank s)).image.length + (bufAll s e).length →
        exec (.updLoad e relay) s = answered s (discardUpdate s) e stRange []) ∧
      (fld (parOf e) 0 4 = (bankOf s (otherBank s)).image.length → (bankOf s (otherBank s)).image.length + (bufAll s e).length ≤ 16777216 →
        exec (.updLoad e relay) s = if bit (fld (parOf e) 4 1) 0 = true
          then answered s (lastPart t relay).st e (lastPart t relay).status (lastPart t relay).result
          else answered s t e stOk [])) ∧
    (s.upd.state ≠ 1 → (fld (parOf e) 0 4 ≠ 0 ∨ (bufAll s e).length < fwBodyStart ∨ 16777216 < (bufAll s e).length) →
      exec (.updLoad e relay) s = answered s s e stRange []) ∧
    (∀ u, s.upd.state ≠ 1 → fld (parOf e) 0 4 = 0 → fwBodyStart ≤ (bufAll s e).length → (bufAll s e).length ≤ 16777216 →
      u = writeDir s (fun b => tput b (otherBank s) {}) →
      (∀ st k, fwFail u (bufAll s e) = some (st, k) →
        exec (.updLoad e relay) s = answered s (alm (discardUpdate u) 0xC000 .updRefused 2 [k]) e st []) ∧
      (∀ v, fwFail u (bufAll s e) = none → v = modUpd (modBank u (otherBank s) (fun x => { x with image := bufAll s e }))
          (fun u => { u with state := 1, staged := [], epoch := none, handover := 0 }) →
        exec (.updLoad e relay) s = if bit (fld (parOf e) 4 1) 0 = true
          then answered s (lastPart v relay).st e (lastPart v relay).status (lastPart v relay).result
          else answered s v e stOk []))) ∧
  (∀ (s : State) (e : SubEntry) (n : Nat), Accepted (cmdUpdSchedule s) e s →
    n = (if fld (parOf e) 0 6 = 0 then s.cal.frame + 2 else fld (parOf e) 0 6) →
    (s.upd.state ≠ 2 → exec (.updSchedule e) s = answered s s e stRange []) ∧
    (s.upd.state = 2 → s.upd.handover = 1 → bit (fld (parOf e) 6 1) 0 = false → exec (.updSchedule e) s = answered s s e stRestart []) ∧
    (s.upd.state = 2 → s.upd.handover ≠ 1 ∨ bit (fld (parOf e) 6 1) 0 = true →
      exec (.updSchedule e) s = answered s (modUpd s (fun u => { u with state := 3, epoch := some n })) e stOk (natLe 6 n))) ∧
  (∀ (s : State) (e : SubEntry), Accepted cmdUpdConfirm e s →
    ((s.upd.state ≠ 4 ∨ s.upd.windowEnd = none ∨ (∃ w, s.upd.windowEnd = some w ∧ w ≤ s.cal.frame)) →
      exec (.updConfirm e) s = answered s s e stRange []) ∧
    (∀ w t, s.upd.state = 4 → s.upd.windowEnd = some w → s.cal.frame < w →
      t = modUpd (writeDir s (fun t => tmod (tmod t s.upd.bank {} (fun x => { x with state := 3, attempts := 0 })) (1 - s.upd.bank) {}
           (fun x => if x.state = 3 then { x with state := 1 } else x)))
         (fun u => { u with state := 0, windowEnd := none, staged := [], restartKind := false }) →
      (fwRaise (fwHeader (bankOf s s.upd.bank).image) = false → exec (.updConfirm e) s = answered s t e stOk []) ∧
      (fwRaise (fwHeader (bankOf s s.upd.bank).image) = true →
        ∃ mask, exec (.updConfirm e) s = answered s (blowFloor t (fwSecVer (fwHeader (bankOf s s.upd.bank).image)) mask) e stOk [] ∧
          ∀ k, k < 4 → bit mask k = (bit (fld (fwHeader (bankOf s s.upd.bank).image) 0x27 1) k && decide (k ≠ fwKey (bankOf s s.upd.bank).image))))) ∧
  (∀ (s s1 : State) (e : SubEntry), Accepted cmdUpdCancel e s1 → cmdUpdCancel.check e s = stOk → s.host.mbxReady = true →
    s1 = (unfinishedLoads s e).foldl (fun t x => complete t x stAborted []) s →
    (1 ≤ s1.upd.state → s1.upd.state ≤ 3 → exec (.updCancel e) s = answered s1 (discardUpdate s1) e stOk []) ∧
    (s1.upd.state = 4 → exec (.updCancel e) s = answered s1 (scheduleFallback s1 (s1.cal.frame + 2)) e stOk []) ∧
    (s1.upd.state = 0 ∨ 4 < s1.upd.state →
      exec (.updCancel e) s = answered s1 s1 e (if unfinishedLoads s e = [] then stRange else stOk) [])) ∧
  (∀ (s : State) (e : SubEntry) (w : Nat), Accepted cmdPwrLimit e s → w = fld (parOf e) 0 2 →
    (w ≠ 0 → w < 20 ∨ s.season.cfg.capW < w → exec (.pwrLimit e) s = answered s s e stRange []) ∧
    (w = 0 ∨ (20 ≤ w ∧ w ≤ s.season.cfg.capW) →
      exec (.pwrLimit e) s =
        (let t := moveCap (modPm s (fun m => { m with pwrLimit := if w = 0 then none else some w }))
         answered s t e stOk (natLe 2 t.pm.capW)))) ∧
  (∀ (s : State) (e : SubEntry) (fail : Bool), Accepted cmdAlmClear e s →
    (bufLenOf e ≠ 16672 → exec (.almClear e fail) s = answered s s e stRange []) ∧
    (bufLenOf e = 16672 → tokenOk s (bufIn s e 16672) = false → exec (.almClear e fail) s = answered s s e stAuthFail []) ∧
    (bufLenOf e = 16672 → tokenOk s (bufIn s e 16672) = true → p0Admitted s = true → exec (.almClear e fail) s = answered s s e stInUse []) ∧
    (bufLenOf e = 16672 → tokenOk s (bufIn s e 16672) = true → p0Admitted s = false →
      let t := beginClear s e fail
      exec (.almClear e fail) s = done s t ∧ t.alm.clearing = true ∧ t.alm.ring = s.alm.ring ∧ t.alm.halves = s.alm.halves ∧
        (∀ f : FlushFail, exec (.journalFlush f) t =
          (let bad := fail || f.program || f.compact
           answered t (closeClear t bad) e (if bad then stFlashFail else stOk) [])) ∧
        (closeClear t true).alm.halves = s.alm.halves ∧ (closeClear t true).alm.clearGen = s.alm.clearGen ∧
        (closeClear t true).alm.clearing = false ∧ (closeClear t false).alm.clearing = false ∧
        (closeClear t false).alm.clearGen = (s.alm.clearGen + 1) % 2 ^ 15 ∧ (closeClear t false).alm.head = s.alm.head + 1 ∧
        (∃ r, (closeClear t false).alm.ring = [(0, r)] ∧ r.isClear = true ∧ r.severity = 4 ∧ r.seq = s.alm.head + 1) ∧
        (∀ k, tget (closeClear t false).alm.drops k 0 = 0))) ∧
  (∀ (s : State) (e : SubEntry), s.alm.clearing = true ∨ s.alm.compacting = true → cmdAlmClear.check e s ≠ stOk)
/-! ## Frames and triggers -/

/-- The frame instants: CALEND starts the next frame at the instant fixed before it, once the package is ready (R25, R26); EVE_DEADLINE applies
what Eve + 150 µs brings (R309, R314); FRAME_REPORT_PUBLISH publishes the latched report in directory index 0 and signals vector 3 (R380);
SEASON_EPOCH applies a pending Season whose epoch has come (R28, R403). Before its instant each leaves the state as it is. At the start of a frame FRAME rises, the next Calend and Eve are fixed, and
neither island has judged yet (R26, R33). -/
def Obligations.FrameInstantsTakeEffect : Prop :=
  (∀ s : State,
    (s.host.ready = true → s.inReset = false → s.railsLow = false →
      exec .calend s = done s (calend s (s.cal.frame + 1) s.cal.next)) ∧
    (s.host.ready = false ∨ s.inReset = true ∨ s.railsLow = true → exec .calend s = .next s) ∧
    (s.cal.frame = 0 → exec .eveDeadline s = .next s) ∧
    (s.reportPend = false → exec .frameReportPublish s = .next s) ∧
    (s.season.pending = none ∨ s.host.ready = false → exec .seasonEpoch s = .next s) ∧
    (∀ k f, s.season.pending = some (k, f) → s.cal.frame < f → exec .seasonEpoch s = .next s) ∧
    (∀ k f, s.season.pending = some (k, f) → s.host.ready = true → f ≤ s.cal.frame → seasonOf s k = none →
      exec .seasonEpoch s = .next { s with season := { s.season with pending := none }
                                           plans := s.plans.map (fun p => if p.admitted && !p.retired then { p with pendingSeason := false } else p) }) ∧
    (s.cal.frame ≠ 0 → exec .eveDeadline s = done s (eveDeadline { s with now := max s.now (s.cal.eve + 150000) })) ∧
    (s.reportPend = true → exec .frameReportPublish s = done s (msix { publish s 0
      { valid := true, report := true, frame := s.cal.frame - 1, length := 65536, completeTime := s.now, payload := s.reportRaw } with
        reportPend := false } 3)) ∧
    (∀ k f c, s.season.pending = some (k, f) → s.host.ready = true → f ≤ s.cal.frame → seasonOf s k = some c →
      exec .seasonEpoch s = done s
        (let s0 := { s with season := { s.season with pending := none }
                            plans := s.plans.map (fun p => if p.admitted && !p.retired then { p with pendingSeason := false } else p) }
         let s2 := epochSteps (powerSeason (newSchedule (applySeason s0 c)) false) (pmActives s)
         let s3 := (s2.streams.filter (fun p => p.2.defd && tget s.streams p.1 {} ≠ p.2)).foldl (fun s p => placeholder s p.1) s2
         startPlans (moveSnapTable s3 s.streams (rd s (s.season.cfg.tableBase + s.cal.frame % 4 * 2048) 2048))))) ∧
  (∀ (s : State) (n t : Nat),
    let u := startFrame s n t
    u.cal.frame = n ∧ u.cal.calend = t ∧ u.cal.prevCalend = s.cal.calend ∧ u.cal.prevEve = s.cal.eve ∧
      u.cal.eve = u.cal.next - s.cal.eveGuardUs * 1000 ∧ u.cal.evalDone = false ∧
      u.islA.judged = false ∧ u.islB.judged = false ∧ u.mem = s.mem ∧ u.plans = s.plans ∧ u.units = s.units)

/-- R27: the period that a Calend fixes differs from P by at most P/400, and an error no larger than that is taken away whole. -/
def Obligations.CalendSlewIsBounded : Prop :=
  ∀ (s : State) (t : Nat), 400 ≤ s.cal.periodReg * 100000 →
    let u := schedule s t
    let p := s.cal.periodReg * 100000
    t + p - p / 400 ≤ u.cal.next ∧ u.cal.next ≤ t + p + p / 400 ∧
      (u.cal.phaseErrNs.natAbs ≤ p / 400 → (u.cal.next : Int) = t + p - u.cal.phaseErrNs)

/-- R30: the pulse of an enabled trigger, its pin driven (R451), starts at Calend + OFFSET_US, once in a frame and whatever became of the last frame's,
and ends after WIDTH_US or at the next Calend if that is earlier, which ends whatever still pulses; one that is not enabled stays at its inactive level. Nothing but the trigger and
device time changes. -/
def Obligations.TriggerPulses : Prop :=
  ∀ (s : State) (k : Nat) (t : Trig), tget s.trig k {} = t →
    (k < 12 → t.en = true → t.driven = true → t.active = false → s.cal.frame ≠ 0 → t.pulseStart ≠ s.cal.calend + t.offsetUs * 1000 →
      s.cal.calend + t.offsetUs * 1000 < s.cal.next →
      exec (.trigPulseStart k) s = .next { s with
        now := max s.now (s.cal.calend + t.offsetUs * 1000)
        trig := tput s.trig k { t with active := true, pulseStart := s.cal.calend + t.offsetUs * 1000 } }) ∧
    (t.en = false → exec (.trigPulseStart k) s = .next s) ∧
    (t.active = false → exec (.trigPulseEnd k) s = .next s) ∧ (s.cal.frame ≠ 0 → (tget (endFrame s).trig k {}).active = false) ∧
    (t.active = true →
      exec (.trigPulseEnd k) s = .next { s with
        now := max s.now (min (t.pulseStart + t.widthUs * 1000) s.cal.next)
        trig := tput s.trig k { t with active := false } })

/-! ## Doorbells, rings, registers and windows -/

/-- R362: a doorbell value is taken if it lies at or between the present pointer and as far as the ring allows; any other is ignored, sets
DOORBELL_ERR and writes a warning record; before MBX_READY a doorbell is ignored without an error. -/
def Obligations.DoorbellsMoveThePointers : Prop :=
  ∀ (s : State) (v : Nat),
    (s.host.mbxReady = true →
      exec (.sqTailDoorbell v) s =
        (if (v % 64 + 64 - s.host.sqTail) % 64 ≤ 63 - (s.host.sqTail + 64 - s.host.sqHead) % 64
        then .next { s with host := { s.host with sqTail := v % 64 } }
        else done s (alm { s with host := { s.host with doorbellErr := true } } srcHost .doorbell 2 [0, v % 64])) ∧
      exec (.cqHeadDoorbell v) s =
        (if (v % 64 + 64 - s.host.cqHead) % 64 ≤ (s.host.cqTail + 64 - s.host.cqHead) % 64
        then .next { s with host := { s.host with cqHead := v % 64 } }
        else done s (alm { s with host := { s.host with doorbellErr := true } } srcHost .doorbell 2 [1, v % 64]))) ∧
    (s.host.mbxReady = false → exec (.sqTailDoorbell v) s = .next s ∧ exec (.cqHeadDoorbell v) s = .next s)

/-- R363: SUBMISSION_FETCH copies the entry at SQ_HEAD behind the commands taken and advances the head; an entry of a table's command
waits there, with a DMA channel of its own where its buffer needs one and one is free (R373), one that no row covers ends by itself. A channel is
never taken from the command that holds it. -/
def Obligations.SubmissionFetchTakesTheHead : Prop :=
  (∀ s : State, ∃ dc, grantChannels s = { s with host := { s.host with dmaChan := dc } } ∧
    (∀ c tag, tfind s.host.dmaChan c = some tag → tfind dc c = some tag) ∧
    (∀ c, tfind dc c ≠ tfind s.host.dmaChan c → 2 ≤ c ∧ c ≤ 7 ∧ tfind s.host.dmaChan c = none)) ∧
  (∀ s : State, s.host.mbxReady = false ∨ s.host.sqHead = s.host.sqTail → exec .submissionFetch s = .next s) ∧
  ∀ (s : State) (x : SubEntry), s.host.mbxReady = true → s.host.sqHead ≠ s.host.sqTail →
    x = entryOf (ringBytes s.host.sq (64 * s.host.sqHead) 64) →
    exec .submissionFetch s = done s (settleStray (grantChannels { s with
      host := { s.host with sqHead := (s.host.sqHead + 1) % 64, taken := s.host.taken ++ [x] } }) 64)

/-- COMPLETION_POST writes the oldest waiting completion into the ring at CQ_TAIL and advances the tail while the ring has room (R363, R364).
The bytes of a completion are 32, with TAG first (Table 17.5). -/
def Obligations.CompletionPostWritesTheOldest : Prop :=
  (∀ (s : State) (d : MbxDone) (rest : List MbxDone), s.host.waiting = d :: rest → (s.host.cqTail + 1) % 64 ≠ s.host.cqHead →
    ∃ t, exec .completionPost s = .next t ∧ t.host.waiting = rest ∧ t.host.cqTail = (s.host.cqTail + 1) % 64 ∧
      t.host.cq = ringWrite s.host.cq (32 * s.host.cqTail) (completionBytes s.host d) ∧
      (d.noIrq = true → t = { s with host := t.host }) ∧ t.host.notifs = s.host.notifs ∧ t.mem = s.mem ∧ t.hostMem = s.hostMem ∧
      (d.noIrq = true → t.host.msix = s.host.msix)) ∧
  (∀ (h : HostS) (d : MbxDone), (completionBytes h d).length = 32 ∧ fld (completionBytes h d) 0 4 = d.tag % 2 ^ 32 ∧
    fld (completionBytes h d) 4 2 = d.opcode % 2 ^ 16 ∧ fld (completionBytes h d) 8 2 = h.sqHead % 2 ^ 16)

/-- The reads that latch the upper half of a 48-bit or 64-bit register, and the windows (R6, R26, R169, R361, R381): an aligned write of 4 or 8 bytes
in BAR0 or BAR2 acts word by word, any other does nothing; an aperture read returns the bytes as stored, or all ones; an aperture write with expert
access changes bytes and no checksum, and what lies in a unit of another owner is dropped and recorded. -/
def Obligations.HostAccessesTakeEffect : Prop :=
  ∀ s : State,
    exec .frameLoRead s = .next { s with
      cal := { s.cal with frameHi := bits s.cal.frame 47 32 }, host := { s.host with readData := natLe 4 s.cal.frame } } ∧
    exec .timeLoRead s = .next { s with
      time := { s.time with hi := s.now / 2 ^ 32 }, host := { s.host with readData := natLe 4 s.now } } ∧
    exec .almHeadLoRead s = .next { s with
      alm := { s.alm with headHi := bits s.alm.head 47 32 }, host := { s.host with readData := natLe 4 s.alm.head } } ∧
    (∀ ofs len a, a = aperAddr s ofs →
      (s.host.expertOn = false ∨ 512 < len →
        exec (.apertureRead ofs len) s = .next { s with host := { s.host with readData := List.replicate len 0xFF } }) ∧
      (s.host.expertOn = true → len ≤ 512 →
        exec (.apertureRead ofs len) s =
          (let t : State := { s with host := { s.host with readData := aperBytes s ofs len } }
           done s (if mapped a len then countBytes t 5 3 a len false else alm t srcHost .aperture 2 [a, 0])))) ∧
    (∀ ofs bs a, a = aperAddr s ofs →
      (512 < bs.length → exec (.apertureWrite ofs bs) s = .next s) ∧
      (s.host.expertOn = true → bs.length ≤ 512 →
        (mapped a bs.length = false → exec (.apertureWrite ofs bs) s = done s (alm s srcHost .aperture 2 [a, 1])) ∧
        (mapped a bs.length = true → firstBarred s (expertOwner s) a bs.length = none →
          exec (.apertureWrite ofs bs) s = done s (countBytes (hubWrite s (expertOwner s) a bs) 5 3 a bs.length true)) ∧
        (∀ x, mapped a bs.length = true → firstBarred s (expertOwner s) a bs.length = some x →
          exec (.apertureWrite ofs bs) s =
            done s (alm (hubWrite s (expertOwner s) a bs) srcHost .unmapped 3 [x, expertOwner s, tagOf s x])))) ∧
    (∀ addr value, addr < 2 ^ 24 → addr < 0x10000 ∨ 0x11000 ≤ addr → s.host.expertOn = true ∨ (addr ≠ 0x10 ∧ addr ≠ 0x14) →
      (addr % 4 = 0 → exec (.registerWrite addr 4 value) s = done s (bar0Word s (addr, value % 2 ^ 32))) ∧
      (addr % 8 = 0 → exec (.registerWrite addr 8 value) s = done s (bar0Word (bar0Word s (addr, value % 2 ^ 32)) (addr + 4, value / 2 ^ 32)))) ∧
    (∀ addr value, 0x1000000 ≤ addr → addr < 0x8000000 → s.host.expertOn = true →
      (addr % 4 = 0 → exec (.registerWrite (2 ^ 28 + addr) 4 value) s = done s (expertWord s (addr, value % 2 ^ 32))) ∧
      (addr % 8 = 0 → exec (.registerWrite (2 ^ 28 + addr) 8 value) s =
        done s (expertWord (expertWord s (addr, value % 2 ^ 32)) (addr + 4, value / 2 ^ 32)))) ∧
    (∀ addr size value, size ≠ 4 → size ≠ 8 → addr < 0x10000 ∨ (0x11000 ≤ addr ∧ addr < 2 ^ 24) ∨
        (2 ^ 28 + 0x1000000 ≤ addr ∧ addr < 2 ^ 28 + 0x8000000) → exec (.registerWrite addr size value) s = .next s) ∧
    (∀ addr size value, 0x10000 ≤ addr → addr < 0x11000 → size ≤ 512 →
      exec (.registerWrite addr size value) s = .next { s with
        host := { s.host with sq := ringWrite s.host.sq (addr - 0x10000) ((natLe size value).take (0x11000 - addr)) } })

/-- Without expert access open, an access to the expert area or a CVU of the host changes nothing but the count and the record of the
refusal (R381). -/
def Obligations.ExpertAccessIsRefused : Prop :=
  ∀ (s : State), s.host.expertOn = false →
    (∀ k ctrl, 8 ≤ k → exec (.cvuStart k ctrl) s = done s (expertRefuse s (0x10B0000 + 0x40 * k))) ∧
    (∀ k len v, 8 ≤ k → exec (.cvuDataWrite k len v) s = done s (expertRefuse s (0x10B000C + 0x40 * k))) ∧
    (∀ ofs bs, bs.length ≤ 512 → exec (.apertureWrite ofs bs) s = done s (expertRefuse s (0x8000000 + ofs))) ∧
    (∀ addr value, 0x1000000 ≤ addr → addr < 0x8000000 → addr % 4 = 0 →
      exec (.registerWrite (2 ^ 28 + addr) 4 value) s = done s (expertRefuse s addr)) ∧
    (∀ ofs, ∃ h a, expertRefuse s ofs = { s with host := h, alm := a } ∧ h.refused = sat 0xFFFFFFFF (s.host.refused + 1) ∧
      h.expertOn = false ∧ h.taken = s.host.taken ∧ h.sqTail = s.host.sqTail)

/-- The check-value units (R191, R193): START takes the fields and begins a run, or during a run clears only the W1C bits; the data port hashes at
most the bytes it waits for; the end gives RESULT and clears BUSY, once no holiday segment holds what the run needs (R338). -/
def Obligations.CheckValueRuns : Prop :=
  ∀ (s : State) (k : Nat), (k < 8 ∨ s.host.expertOn = true) →
    (∀ ctrl, exec (.cvuStart k ctrl) s = .next (putCvu s k ((cvuOf s k).writeCtrl (ctrl ||| 0x400)))) ∧
    (∀ x, ((cvuOf s k).busy = true → (cvuOf s k).writeCtrl x = { cvuOf s k with
        done := (cvuOf s k).done && !bit x 30, mismatch := (cvuOf s k).mismatch && !bit x 29, fault := (cvuOf s k).fault && !bit x 28 }) ∧
      ((cvuOf s k).busy = false → bit x 10 = true → ((cvuOf s k).writeCtrl x).busy = true ∧ ((cvuOf s k).writeCtrl x).done = false ∧
        ((cvuOf s k).writeCtrl x).mismatch = false ∧ ((cvuOf s k).writeCtrl x).fault = false)) ∧
    (∀ len value, (cvuOf s k).busy = true → (cvuOf s k).port = true →
      exec (.cvuDataWrite k len value) s = .next (putCvu s k { cvuOf s k with
        run := cvuHash (cvuOf s k).poly (cvuOf s k).run ((natLe (min len 4) value).take (cvuOf s k).left)
        left := (cvuOf s k).left - min len 4 })) ∧
    (∀ len value, (cvuOf s k).busy = false ∨ (cvuOf s k).port = false →
      exec (.cvuDataWrite k len value) s = .next (putCvu s k (cvuOf s k))) ∧
    ((cvuOf s k).busy = true → ((cvuOf s k).port = true → (cvuOf s k).left = 0) → cvuHeld s k (cvuOf s k) = false →
      ∃ v, exec (.cvuRunDone k) s = .next (putCvu (countRun s (cvuMayRead s k) (cvuOf s k)) k v) ∧ v.busy = false ∧ v.done = true) ∧
    ((cvuOf s k).busy = false ∨ cvuHeld s k (cvuOf s k) = true → exec (.cvuRunDone k) s = .next s)

/-- The resets and power states of the host interface empty the mailbox and the result rings and end expert access (R360, R389); in D3hot no
DMA starts. A device DMA read that fails or times out ends its command with HOST_DMA; a good one lets it run (R359). -/
def Obligations.InterfaceResetsAndDma : Prop :=
  (∀ s : State,
    (∀ kind, kind ≠ 2 → exec (.hostInterfaceReset kind) s = done s (resetInterface s kind)) ∧
    exec (.hostInterfaceReset 2) s =
      done s { resetInterface s 2 with host := { (resetInterface s 2).host with linkUp := false, crs := true } } ∧
    (∃ h, exec (.pciePowerState false) s = .next { s with host := h } ∧ h.d3hot = false ∧ h.dmaOn = true) ∧
    exec .perstRelease s = done s (resetInterface s 3) ∧
    exec (.pciePowerState true) s = .next { s with host := { s.host with d3hot := true, dmaOn := false } } ∧
    (∀ kind, ∃ t, resetInterface s kind = t ∧ t.host.sqTail = 0 ∧ t.host.sqHead = 0 ∧ t.host.cqTail = 0 ∧ t.host.cqHead = 0 ∧
      t.host.taken = [] ∧ t.host.waiting = [] ∧ t.host.rings = [] ∧ t.host.expertOn = false ∧ t.host.d3hot = false ∧
      t.plans = s.plans ∧ t.cal = s.cal)) ∧
  (∀ (s : State) (tag : Nat), dmaEntry s tag = none →
    (∀ good, exec (.dmaCompletion tag good) s = .next s) ∧ exec (.dmaTimeout tag) s = .next s) ∧
  (∀ (s : State) (tag : Nat) (e : SubEntry), dmaEntry s tag = some e →
    exec (.dmaCompletion tag true) s = .next { s with host := { s.host with dmaDone := s.host.dmaDone ++ [tag] } } ∧
    exec (.dmaCompletion tag false) s = done s (dmaFail s e) ∧
    exec (.dmaTimeout tag) s = done s (dmaFail s e) ∧
    (begunRewrite s e = false → ∃ tk dd dc w, dmaFail s e = { s with host := { s.host with
      aer := sat 0xFFFFFFFF (s.host.aer + 1), taken := tk, dmaDone := dd, dmaChan := dc, waiting := s.host.waiting ++ completionOf e stHostDma [] :: w } }))

/-! ## The sequencer -/

/-- The head command of a context issues: the sequencer chooses the context (R67), whose oldest command `a` has this opcode. -/
def Issues (op u ctx : Nat) (s : State) (c : Ctx) (a : Armed) : Prop :=
  nextIssue s u = some ctx ∧ ctxOf s u ctx = some c ∧ c.queue.head? = some a ∧ dOp a.desc = op

/-- The commands of the sequencers: the head command of the chosen context issues, its meaning acts on the state in which it starts, and it
runs for the cycles its form takes and its stalls (R65–R67, R108, R113–R117, R179). One clause for each row of the clusters, the convolution and
attention units, the NLEs and the fusion and planning engines. -/
def Obligations.SequencerCommandsIssue : Prop :=
  (∀ (s : State) (u ctx : Nat) (ph : Phys) (c : Ctx) (a : Armed),
    (Issues 0x01 u ctx s c a → exec (.load u ctx ph) s = done s (issueNow 0x01 loadBody u ctx ph s c a)) ∧
    (Issues 0x02 u ctx s c a → exec (.store u ctx ph) s = done s (issueNow 0x02 storeBody u ctx ph s c a)) ∧
    (Issues 0x03 u ctx s c a → exec (.sync u ctx ph) s = done s (issueNow 0x03 syncBody u ctx ph s c a)) ∧
    (Issues 0x10 u ctx s c a → exec (.matmul u ctx ph) s = done s (issueNow 0x10 (matBody 0x10) u ctx ph s c a)) ∧
    (Issues 0x11 u ctx s c a → exec (.matmulDx u ctx ph) s = done s (issueNow 0x11 (matBody 0x11) u ctx ph s c a)) ∧
    (Issues 0x12 u ctx s c a → exec (.matmulDw u ctx ph) s = done s (issueNow 0x12 (matBody 0x12) u ctx ph s c a)) ∧
    (Issues 0x20 u ctx s c a → exec (.vec u ctx ph) s = done s (issueNow 0x20 vecBody u ctx ph s c a)) ∧
    (Issues 0x21 u ctx s c a → exec (.sfu u ctx ph) s = done s (issueNow 0x21 sfuBody u ctx ph s c a)) ∧
    (Issues 0x22 u ctx s c a → exec (.optStep u ctx ph) s = done s (issueNow 0x22 optBody u ctx ph s c a))) ∧
  (∀ (s : State) (u ctx : Nat) (ph : Phys) (c : Ctx) (a : Armed),
    (Issues 0x30 u ctx s c a → exec (.conv u ctx ph) s = done s (issueNow 0x30 (convBody false) u ctx ph s c a)) ∧
    (Issues 0x31 u ctx s c a → exec (.convFused u ctx ph) s = done s (issueNow 0x31 fusedBody u ctx ph s c a)) ∧
    (Issues 0x32 u ctx s c a → exec (.dwconv u ctx ph) s = done s (issueNow 0x32 (convBody true) u ctx ph s c a)) ∧
    (Issues 0x33 u ctx s c a → exec (.pool u ctx ph) s = done s (issueNow 0x33 poolBody u ctx ph s c a)) ∧
    (Issues 0x34 u ctx s c a → exec (.layout u ctx ph) s = done s (issueNow 0x34 layoutBody u ctx ph s c a)) ∧
    (Issues 0x38 u ctx s c a → exec (.nleConvIn u ctx ph) s = done s (issueNow 0x38 nleConvBody u ctx ph s c a)) ∧
    (Issues 0x39 u ctx s c a → exec (.nleConvOut u ctx ph) s = done s (issueNow 0x39 nleConvBody u ctx ph s c a)) ∧
    (Issues 0x3A u ctx s c a → exec (.nleCrop u ctx ph) s = done s (issueNow 0x3A nleCropBody u ctx ph s c a)) ∧
    (Issues 0x3B u ctx s c a → exec (.nlePool u ctx ph) s = done s (issueNow 0x3B nlePoolBody u ctx ph s c a)) ∧
    (Issues 0x3C u ctx s c a → exec (.nleResample u ctx ph) s = done s (issueNow 0x3C nleResampleBody u ctx ph s c a)) ∧
    (Issues 0x40 u ctx s c a → exec (.attnStep u ctx ph) s =
      done s (issueNow 0x40 (walkerBody (fun c => walkSeq c false)) u ctx ph s c a)) ∧
    (Issues 0x41 u ctx s c a → exec (.attnPrefill u ctx ph) s =
      done s (issueNow 0x41 (walkerBody (fun c => walkSeq c true)) u ctx ph s c a)) ∧
    (Issues 0x42 u ctx s c a → exec (.attnCommit u ctx ph) s = done s (issueNow 0x42 (walkerBody commitSeq) u ctx ph s c a))) ∧
  (∀ (s : State) (u ctx : Nat) (ph : Phys) (c : Ctx) (a : Armed),
    (Issues 0x60 u ctx s c a → exec (.fusEgo u ctx ph) s = done s (issueNow 0x60 fusEgoBody u ctx ph s c a)) ∧
    (Issues 0x61 u ctx s c a → exec (.fusUpdate u ctx ph) s = done s (issueNow 0x61 fusUpdateBody u ctx ph s c a)) ∧
    (Issues 0x62 u ctx s c a → exec (.fusPublish u ctx ph) s = done s (issueNow 0x62 fusPublishBody u ctx ph s c a)) ∧
    (Issues 0x70 u ctx s c a → exec (.plnGrid u ctx ph) s = done s (issueNow 0x70 plnGridBody u ctx ph s c a)) ∧
    (Issues 0x71 u ctx s c a → exec (.plnCheck u ctx ph) s = done s (issueNow 0x71 plnCheckBody u ctx ph s c a)) ∧
    (Issues 0x72 u ctx s c a → exec (.plnCommit u ctx ph) s = done s (issueNow 0x72 plnCommitBody u ctx ph s c a)))

/-- R65: a command that issues takes the tokens of its frame out of its input slots, lowers each of its output counters by 1, and claims its
execution units. -/
def Obligations.IssueTakesTokensAndCredits : Prop :=
  ∀ (s : State) (u ctx : Nat) (ph : Phys) (c : Ctx) (a : Armed) (op : Nat),
    ∃ x, ctxOf (startCmd s u ctx c a op ph) u ctx = some x ∧
      (∀ k ∈ dIns a.desc, ∀ t ∈ tget x.slots k [], t.frame ≠ a.frame) ∧
      (∀ k, k ∉ dIns a.desc → tget x.slots k [] = tget c.slots k []) ∧
      (∀ k, k ∉ dOuts a.desc → tget x.credits k 0 = tget c.credits k 0) ∧
      ((dOuts a.desc).Nodup → ∀ k ∈ dOuts a.desc, tget x.credits k 0 = tget c.credits k 0 - 1) ∧
      x.run = some { cmd := a, unitsClaimed := opUnits op, issuedAt := s.now } ∧ x.queue = c.queue ∧
      (startCmd s u ctx c a op ph).mem = s.mem ∧ (startCmd s u ctx c a op ph).plans = s.plans

/-- R66, R67: a context the sequencer chooses is resident, runs nothing, has a head command with a READY token of its frame in every input
slot, a credit in every output counter and its units free, and no such context has a lower partition. -/
def Obligations.IssueRule : Prop :=
  ∀ (s : State) (u ctx : Nat), nextIssue s u = some ctx →
    ∃ c, (ctx, c) ∈ (unitOf s u).ctxs ∧ c.resident = true ∧ c.run = none ∧
      (∃ a, c.queue.head? = some a ∧ readyIn c a = true ∧ voidIn c a = false ∧ creditsOk c a = true ∧
        unitsFree (unitOf s u) (dOp a.desc) = true) ∧
      ∀ k d, (k, d) ∈ (unitOf s u).ctxs → d.resident = true → ctxReady (unitOf s u) d = true → partMayIssue s d.part = true →
        gridHeld s d = false → c.part ≤ d.part

/-- SYNC moves no data: memory, its checks and its tags stay as they are (R114). -/
def Obligations.SyncMovesNoData : Prop :=
  ∀ (s : State) (u ctx : Nat) (ph : Phys) (c : Ctx) (a : Armed), Issues 0x03 u ctx s c a →
    ∃ t x, exec (.sync u ctx ph) s = .next t ∧ t.mem = s.mem ∧ t.side = s.side ∧ t.tags = s.tags ∧ t.seqs = s.seqs ∧ t.host = s.host ∧
      ctxOf t u ctx = some x ∧ ∃ r, x.run = some r ∧ r.cmd = a ∧ r.status = none ∧ r.outs = [] ∧ r.cycles = ph.cycles + ph.stall

/-- R63: a token that arrives at a unit with a matching context: below the slot's floor it is stale, in a full slot it is discarded, else the
slot holds it. A discarded one is counted and recorded. R64: a credit raises its counter by 1, never above its initial value; one for an undefined
context is stale. A message that is on the control channel leaves it as it arrives, and does not arrive before an older one of its source (R62). -/
def Obligations.MessagesArrive : Prop :=
  (∀ (s : State) (dst : Nat) (t : Token), inFlight s.flights (fun f => f.dst = dst && f.tok = some t) = false →
    (ctxOf s dst t.ctx = none → exec (.tokenArrival dst t) s = done s (discardStale s dst t.ctx t.frame)) ∧
    (∀ c, ctxOf s dst t.ctx = some c →
      (t.frame < slotFloor c t.slot → exec (.tokenArrival dst t) s = done s (discardStale s dst t.ctx t.frame)) ∧
      (slotFloor c t.slot ≤ t.frame → 2 ≤ (tget c.slots t.slot []).length →
        exec (.tokenArrival dst t) s = done s (discardFull s dst t.ctx t.slot t.frame)) ∧
      (slotFloor c t.slot ≤ t.frame → (tget c.slots t.slot []).length < 2 →
        exec (.tokenArrival dst t) s =
          .next (putCtx s dst t.ctx { c with slots := tput c.slots t.slot (slotInsert (tget c.slots t.slot []) t) })))) ∧
  (∀ (s : State) (dst : Nat) (t : Token), inFlight s.flights (fun f => f.dst = dst && f.tok = some t) = true →
    (∀ f fs, takeFlight s.flights (fun f => f.dst = dst && f.tok = some t) = some (f, fs) →
      exec (.tokenArrival dst t) s = done s (hear (recvToken { s with flights := fs } dst t) dst f.src)) ∧
    (takeFlight s.flights (fun f => f.dst = dst && f.tok = some t) = none → exec (.tokenArrival dst t) s = .next s)) ∧
  (∀ (s : State) (dst : Nat) (cr : Credit), inFlight s.flights (fun f => f.dst = dst && f.cred = some cr) = true →
    (∀ f fs, takeFlight s.flights (fun f => f.dst = dst && f.cred = some cr) = some (f, fs) →
      exec (.creditArrival dst cr) s = done s (hear (recvCredit { s with flights := fs } dst cr) dst f.src)) ∧
    (takeFlight s.flights (fun f => f.dst = dst && f.cred = some cr) = none → exec (.creditArrival dst cr) s = .next s)) ∧
  (∀ (s : State) (dst : Nat) (cr : Credit), inFlight s.flights (fun f => f.dst = dst && f.cred = some cr) = false →
    ctxOf s dst cr.ctx = none → exec (.creditArrival dst cr) s = done s (discardStale s dst cr.ctx cr.frame)) ∧
  (∀ (s : State) (dst : Nat) (cr : Credit) (c : Ctx), inFlight s.flights (fun f => f.dst = dst && f.cred = some cr) = false →
    ctxOf s dst cr.ctx = some c →
    (tget c.credits cr.counter 0 < tget c.creditInit cr.counter 0 →
      exec (.creditArrival dst cr) s =
        .next (putCtx s dst cr.ctx { c with credits := tput c.credits cr.counter (tget c.credits cr.counter 0 + 1) })) ∧
    (tget c.creditInit cr.counter 0 ≤ tget c.credits cr.counter 0 →
      exec (.creditArrival dst cr) s = done s (discardCredit s dst cr.ctx cr.counter cr.frame)))

/-- A message on the control channel reaches its unit only when no older one of the same source and destination is on its way (R62), and
leaves the channel as it does. -/
def Obligations.ChannelKeepsOrder : Prop :=
  ∀ (fs rest : List Flight) (p : Flight → Bool) (f : Flight), takeFlight fs p = some (f, rest) →
    p f = true ∧ rest = fs.erase f ∧ ∃ pre post, fs = pre ++ f :: post ∧ ∀ g ∈ pre, ¬ (g.src = f.src ∧ g.dst = f.dst)

/-- The ends of commands: VOID inputs complete the head command without running (R66), a released running command completes unless a holiday segment
tests its comparator (R61, R113, R338), and the oldest unissued command lapses two Calends after its own (R68). A completion record holds FRAME, CMD_INDEX, the context, STATUS and the
arithmetic flags, and a unit keeps the last 64 (R113). -/
def Obligations.CommandsEnd : Prop :=
  (∀ (s : State) (u ctx : Nat) (c : Ctx), ctxOf s u ctx = some c →
    (∀ a, c.queue.head? = some a → c.resident = true → c.run = none → voidIn c a = true →
      exec (.inputVoidComplete u ctx) s = done s (inputVoid s u ctx c a)) ∧
    (∀ r, c.run = some r → r.released = true → (∀ k, comparatorOf u (dOp r.cmd.desc) = some k → comparatorHeld s k = false) →
      exec (.commandComplete u ctx) s = done s (modUnit (finish s u ctx c r) u residePending)) ∧
    (∀ r, c.run = some r → r.released = false ∨ (∃ k, comparatorOf u (dOp r.cmd.desc) = some k ∧ comparatorHeld s k = true) →
      exec (.commandComplete u ctx) s = .next s) ∧
    (∀ a, (unissued c).find? (fun a => a.frame + 2 ≤ s.cal.frame) = some a →
      exec (.commandLapse u ctx) s = done s (lapseOne s u ctx a 0)) ∧
    ((unissued c).find? (fun a => a.frame + 2 ≤ s.cal.frame) = none → exec (.commandLapse u ctx) s = .next s) ∧
    (c.run = none → exec (.commandComplete u ctx) s = .next s)) ∧
  (∀ (s : State) (u ctx : Nat), ctxOf s u ctx = none → exec (.inputVoidComplete u ctx) s = .next s ∧ exec (.commandComplete u ctx) s = .next s ∧
    exec (.commandLapse u ctx) s = .next s ∧ exec (.twinNote u ctx) s = .next s) ∧
  (∀ (s : State) (u ctx : Nat) (a : Armed) (st : Option VoidReason) (arith us : Nat),
    let e : Completion := { frame := a.frame, idx := a.idx, ctx := ctx, status := statusCode st, arith := arith, unitStatus := us }
    let old := (unitOf s u).records
    (unitOf (record s u ctx a st arith us) u).records = (old ++ [e]).drop (old.length + 1 - 64) ∧
      (old.length ≤ 64 → (unitOf (record s u ctx a st arith us) u).records.length ≤ 64) ∧
      (unitOf (record s u ctx a st arith us) u).ctxs = (unitOf s u).ctxs ∧ (record s u ctx a st arith us).mem = s.mem)

/-- Context swaps (R73–R75): where 8 contexts are resident and all are blocked, a chosen ready context comes in for the least recently issued one
that may go, and where none may go a starvation episode opens; where a place is free it comes in alone. It becomes resident as the swap ends, and
R73 applies again. The context records that move are counted (R284). An NLE or hub engine never swaps. -/
def Obligations.ContextSwaps : Prop :=
  (∀ (s : State) (u ctx : Nat), isClu u = false → exec (.contextSwapStart u ctx) s = .next s) ∧
  ∀ (s : State) (u ctx : Nat), isClu u = true →
    ((unitOf s u).swap = none → swapIn (unitOf s u) = some ctx →
      (residents (unitOf s u) < 8 → exec (.contextSwapStart u ctx) s =
        done s (countSwap (putUnit s u { unitOf s u with swap := some (ctx, none), inCtx := ctx }) u)) ∧
      (8 ≤ residents (unitOf s u) → allBlocked (unitOf s u) = false → exec (.contextSwapStart u ctx) s = .next s) ∧
      (8 ≤ residents (unitOf s u) → allBlocked (unitOf s u) = true →
        (swapOut (unitOf s u) = none → exec (.contextSwapStart u ctx) s = done s (starve s u ctx)) ∧
        (∀ o, swapOut (unitOf s u) = some o → exec (.contextSwapStart u ctx) s = done s (countSwap (putUnit s u { unitOf s u with
          swap := some (ctx, some o), inCtx := ctx, outCtx := o
          ctxs := tmod (unitOf s u).ctxs o {} (fun c => { c with resident := false }) }) u)))) ∧
    ((unitOf s u).swap ≠ none ∨ swapIn (unitOf s u) ≠ some ctx → exec (.contextSwapStart u ctx) s = .next s) ∧
    ((unitOf s u).swap = none → exec (.contextSwapComplete u) s = .next s) ∧
    ((unitOf s u).swap ≠ none →
      (swapIn (unitOf (endSwap s u) u) = none → exec (.contextSwapComplete u) s = done s (endSwap s u)) ∧
      (∀ k, swapIn (unitOf (endSwap s u) u) = some k → exec (.contextSwapComplete u) s = done s (beginSwap (endSwap s u) u k))) ∧
    (∀ c o, (unitOf s u).swap = some (ctx, o) → ctxOf s u ctx = some c →
      ctxOf (endSwap s u) u ctx = some { c with resident := true, issuedSinceIn := false } ∧ (unitOf (endSwap s u) u).swap = none) ∧
    (∀ t, (countSwap t u).units = t.units ∧ (countSwap t u).mem = t.mem)

/-- The twin comparator (R120, R121): the first note of a pair waits; notes that agree release both twins and write the primary's deferred
bytes; notes that differ end both with TWIN_MISMATCH; a partner that ended without a note gives its STATUS. While a
holiday segment tests the comparator a note waits (R338). -/
def Obligations.TwinNotesMeet : Prop :=
  ∀ (s : State) (u ctx : Nat) (c : Ctx) (r : Run), ctxOf s u ctx = some c → c.run = some r → c.twin ≠ 0 → dTwin r.cmd.desc = true →
    r.noted = false → r.released = false → r.status = none →
    (comparatorHeld s 0 = true → exec (.twinNote u ctx) s = .next s) ∧
    (comparatorHeld s 0 = false →
    let s1 := modCtx s u ctx (fun c => { c with run := some { r with noted := true } })
    let other := s1.twinNotes.find? (fun n => n.1 = c.partner && n.2.1 = ctx && n.2.2.cmd.frame = r.cmd.frame && n.2.2.cmd.idx = r.cmd.idx)
    (other = none → exec (.twinNote u ctx) s = .next { s1 with twinNotes := s1.twinNotes ++ [(u, ctx, r)], pending := s.pending }) ∧
    (∀ n, other = some n →
      (∀ st, n.2.2.status = some st → exec (.twinNote u ctx) s =
        done s (releaseRun { s1 with twinNotes := s1.twinNotes.erase n } u ctx r.cmd (fun x => x.takes st))) ∧
      (n.2.2.status = none → exec (.twinNote u ctx) s = done s
        (if n.2.2.notes = r.notes then twinAgree { s1 with twinNotes := s1.twinNotes.erase n } u c.partner ctx r n.2.2
         else twinDiffer { s1 with twinNotes := s1.twinNotes.erase n } u c.partner ctx r))))

/-! ## Results -/

/-- The result unit takes an output's token, from the control channel where it is on its way, and publishes (R376): a VOID token its reason; a valid
one the bytes of the output, unless one of its tiles fails its check (the model's choice, log 28), or, of a safety output, the command completed at Eve
or later: then it is late and carries no bytes. Another output that is late is counted and published. A token of no admitted plan's output publishes
nothing. -/
def Obligations.ResultTokensPublish : Prop :=
  (∀ (s : State) (planId : Nat) (t : Token),
    (∀ f rest, takeFlight s.flights (fun f => f.dst = rResult && f.planId = planId && f.tok = some t) = some (f, rest) →
      exec (.resultToken planId t) s = done s (publishOutput { s with flights := rest } planId t f.stamp)) ∧
    (takeFlight s.flights (fun f => f.dst = rResult && f.planId = planId && f.tok = some t) = none →
      exec (.resultToken planId t) s = done s (publishOutput s planId t s.now))) ∧
  (∀ (s : State) (planId : Nat) (t : Token) (stamp : Nat),
    (planOf s planId = none ∨ outputDir s.host planId (t.ctx * 64 + t.slot) = none ∨
        (∃ p, planOf s planId = some p ∧ (p.admitted = false ∨ p.retired = true)) → publishOutput s planId t stamp = s) ∧
    ∀ (p : Plan) (i : Nat), planOf s planId = some p → outputDir s.host planId (t.ctx * 64 + t.slot) = some i → p.admitted = true →
      p.retired = false →
      (∀ v, t.void = some v → publishOutput s planId t stamp =
        publish s i { frame := t.frame, gen := t.gen, completeTime := stamp, reason := statusCode (some v) }) ∧
      (t.void = none →
        let o := outAt p.image (t.ctx * 64 + t.slot)
        let r := readOutput s (resultReader planId p.image t []) o t.gen
        let late := eveOf s t.frame ≤ stamp
        (r.1.ok = true → ¬ late → publishOutput s planId t stamp =
          publish r.1.s i { frame := t.frame, gen := t.gen, completeTime := stamp, valid := true, length := o.length, payload := r.2 }) ∧
        (r.1.ok = true → late → o.safety = true → publishOutput s planId t stamp =
          publish r.1.s i { frame := t.frame, gen := t.gen, completeTime := stamp, late := true }) ∧
        (r.1.ok = true → late → o.safety = false → publishOutput s planId t stamp =
          publish (modStats r.1.s (fun f => { f with lateP1P3 := sat 0xFFFFFFFF (f.lateP1P3 + 1) })) i
            { frame := t.frame, gen := t.gen, completeTime := stamp, valid := true, length := o.length, payload := r.2 }) ∧
        (r.1.ok = false → ¬ late → publishOutput s planId t stamp =
          publish r.1.s i { frame := t.frame, gen := t.gen, completeTime := stamp, reason := statusCode (some .checkFail) })))

/-- R377: a publication goes into the buffer that is neither CUR nor LAST_VALID, so what a reader was pointed at stays whole; it becomes CUR, and
LAST_VALID where it is valid. -/
def Obligations.PublicationSparesTheReader : Prop :=
  ∀ (d : Dir) (b : Buf), d.cur < 3 → d.lastValid < 3 →
    let e := publishDir d b
    e.cur ≠ d.cur ∧ e.cur ≠ d.lastValid ∧ e.cur < 3 ∧ tget e.bufs d.cur {} = tget d.bufs d.cur {} ∧
      tget e.bufs d.lastValid {} = tget d.bufs d.lastValid {} ∧ e.lastValid = (if b.valid then e.cur else d.lastValid) ∧
      e.pub = (d.pub + 1) % 2 ^ 32 ∧ (tget e.bufs e.cur {}).seqStart = e.pub ∧ (tget e.bufs e.cur {}).payload = b.payload

/-- A full result ring, one whose entries are too small, or any ring while the device is in D3hot keeps what it holds and counts the publication;
otherwise the entry at TAIL takes the
bytes and TAIL advances (R379). -/
def Obligations.ResultRingsFill : Prop :=
  ∀ (s : State) (r : Nat) (bs : List Byte) (g : Ring), tget s.host.rings r {} = g →
    (2 ^ g.log2Entry < bs.length →
      pushRing s r bs = { s with host := { s.host with rings := tput s.host.rings r { g with tooBig := sat 0xFFFFFFFF (g.tooBig + 1) } } }) ∧
    (bs.length ≤ 2 ^ g.log2Entry → s.host.d3hot = true ∨ (g.tail + 1) % 2 ^ g.log2Count = g.head →
      pushRing s r bs = { s with host := { s.host with rings := tput s.host.rings r { g with dropped := sat 0xFFFFFFFF (g.dropped + 1) } } }) ∧
    (bs.length ≤ 2 ^ g.log2Entry → s.host.d3hot = false → (g.tail + 1) % 2 ^ g.log2Count ≠ g.head →
      ∃ h, pushRing s r bs = { s with
          hostMem := mwrite (mwrite s.hostMem (g.base + g.tail * 2 ^ g.log2Entry) bs) g.tailAddr (natLe 4 ((g.tail + 1) % 2 ^ g.log2Count)),
          host := h } ∧
        tget h.rings r {} = { g with tail := (g.tail + 1) % 2 ^ g.log2Count })

/-! ## Switches at a Calend -/

/-- The switches that take effect at a Calend (R47, R49, R253, R316, R317): sent before it, they act at its instant. A selected variant becomes
the active one, and a selection for a later Calend stays; where it would use an excluded cluster, the lowest variant without one does instead. Of
several selections for one Calend only the last accepted is kept. Where nothing is due, nothing changes. -/
def Obligations.SwitchesTakeEffect : Prop :=
  (∀ s : State,
    (∀ id p, livePlan s id = some p → (selectDue p (s.cal.frame + 1)).isSome = true → exclusionDue s p (s.cal.frame + 1) = false →
      exec (.variantSwitch id) s = done s (extendSteps (selectSwitch (atCalend s) p (s.cal.frame + 1)))) ∧
    (∀ id p, livePlan s id = some p → exclusionDue s p (s.cal.frame + 1) = true →
      exec (.exclusionSwitch id) s = done s (extendSteps (exclusionSwitch (atCalend s) p (s.cal.frame + 1)))) ∧
    (∀ k, dueSelect s.pln.select (s.cal.frame + 1) = some k →
      exec .mapSwitch s = .next { s with
        now := max s.now s.cal.next
        pln := { s.pln with select := s.pln.select.filter (fun x => s.cal.frame + 1 < x.2), active := k, mapValid := true } }) ∧
    (dueSelect s.pln.select (s.cal.frame + 1) = none → exec .mapSwitch s = .next s) ∧
    (∀ g, quarantineDue s g (s.cal.frame + 1) (max s.now s.cal.next) = true →
      exec (.quarantine g) s = done s (carryOut (atCalend s) g)) ∧
    (∀ q g, deferredDue s q (max s.now s.cal.next) = some g → exec (.deferredExpulsion q) s = done s (carryOut (atCalend s) g)) ∧
    (∀ id, livePlan s id = none → exec (.variantSwitch id) s = .next s ∧ exec (.exclusionSwitch id) s = .next s) ∧
    (∀ id p, livePlan s id = some p → selectDue p (s.cal.frame + 1) = none ∨ exclusionDue s p (s.cal.frame + 1) = true →
      exec (.variantSwitch id) s = .next s) ∧
    (∀ id p, livePlan s id = some p → exclusionDue s p (s.cal.frame + 1) = false → exec (.exclusionSwitch id) s = .next s) ∧
    (∀ g, quarantineDue s g (s.cal.frame + 1) (max s.now s.cal.next) = false → exec (.quarantine g) s = .next s) ∧
    (∀ q, deferredDue s q (max s.now s.cal.next) = none → exec (.deferredExpulsion q) s = .next s)) ∧
  (∀ (l : List (Nat × Nat)) (v f n : Nat),
    (∀ x ∈ setSelect l v f, x.2 = f → x.1 = v) ∧ (v, f) ∈ setSelect l v f ∧ (∀ x ∈ l, x.2 ≠ f → x ∈ setSelect l v f) ∧
    (∀ w, dueSelect l n = some w → ∃ g, (w, g) ∈ l ∧ g ≤ n) ∧ (dueSelect l n = none → ∀ x ∈ l, n < x.2)) ∧
  (∀ (s : State) (p : Plan) (n : Nat), p ∈ s.plans →
    (∀ v, selectDue p n = some v → ∀ q ∈ (selectSwitch s p n).plans, q.planId = p.planId → q.variant = v ∧ ∀ x ∈ q.select, n < x.2) ∧
    (∀ w, (List.range (variantCount p.image)).find? (fun v => (variantExcluded s p.image v).isEmpty) = some w →
      ∀ q ∈ (exclusionSwitch s p n).plans, q.planId = p.planId → q.variant = w))

/-! ## Vigil -/

/-- The Eve check (R308, R309): between Eve + 5 µs and Eve + 150 µs Vigil A, where its cores run, fixes the outcome of the frame, which is the
worst of its outputs' states, then Vigil B its own judgement; one already fixed stands. After that window nothing is judged, and what Eve + 150 µs
finds unfixed is not good: Vigil A's outcome is FAILED. -/
def Obligations.EveCheckJudges : Prop :=
  ∀ s : State,
    (s.cal.frame ≠ 0 → s.now ≤ s.cal.eve + 150000 → s.islA.works = true → s.islA.judged = false →
      let s0 : State := { s with now := max s.now (s.cal.eve + 5000) }
      let s1 := judgeA s0
      exec .eveCheck s = done s (if s1.islB.works && !s1.islB.judged then judgeB s1 else s1) ∧ s1.islA.judged = true ∧
        s1.cal.outcome = frameOutcome s0 (outputStates s0) ∧ s1.cal.lastOutcome = s1.cal.outcome ∧
        (s1.cal.outcome ≠ 0 → s1.islA.good = false)) ∧
    (s.cal.frame ≠ 0 → s.now ≤ s.cal.eve + 150000 → s.islA.judged = true →
      exec .eveCheck s = done s (if s.islB.works && !s.islB.judged then judgeB { s with now := max s.now (s.cal.eve + 5000) }
        else { s with now := max s.now (s.cal.eve + 5000) })) ∧
    (s.cal.frame = 0 ∨ s.cal.eve + 150000 < s.now → exec .eveCheck s = .next s) ∧
    (s.islA.judged = false → s.islB.judged = true → s.cal.evalDone = true →
      (eveDeadline s).cal.outcome = 2 ∧ (eveDeadline s).cal.lastOutcome = 2 ∧ (eveDeadline s).islA.judged = true ∧ (eveDeadline s).islA.good = false ∧
        (eveDeadline s).islB = s.islB) ∧
    (s.islA.judged = true → s.islB.judged = false → s.cal.evalDone = true → s.islB.works = false ∨ s.cal.eve + 150000 < s.now →
      (eveDeadline s).islB.judged = true ∧ (eveDeadline s).islB.good = false ∧ (eveDeadline s).islA = s.islA ∧ (eveDeadline s).cal = s.cal)

/-- R294, R296: an island toggles its SAFE output once for a frame that qualifies, after its judgement, between Eve + 10 µs and Eve + 200 µs, while
what R294 asks of it and of its partner still holds; otherwise it makes no edge and nothing changes. Of an edge only the island and device time
change. -/
def Obligations.SafeEdges : Prop :=
  ∀ (s : State) (isl : Isl),
    let x := islOf s isl
    let ok := s.cal.frame ≠ 0 ∧ x.judged = true ∧ x.good = true ∧ mayEdge s isl = true ∧ x.edged = false ∧ x.held = false ∧ x.works = true ∧
      s.now ≤ s.cal.eve + 200000
    (ok → exec (.safeEdge isl) s = .next (modIsl { s with now := max s.now (s.cal.eve + 10000) } isl (fun x =>
        { x with edged := true, safe := !x.safe, toggles := (x.toggles + 1) % 65536 }))) ∧
    (¬ ok → exec (.safeEdge isl) s = .next s) ∧
    (mayEdge s isl = true ↔ x.heldHard = false ∧ (islOf s (peer isl)).hCmpFail = false ∧ (islOf s (peer isl)).hRestartFail = false ∧
      x.lostSinceEve = false)

/-- A judgement never lets a held island, or one whose partner failed its comparator test or its restarts, make an edge; one that qualifies ends
the RESET hold (R294, R295). -/
def Obligations.JudgementRespectsHolds : Prop :=
  ∀ (s : State) (i : Isl) (ok : Bool),
    let t := judgeIsl s i ok
    (islOf t i).judged = true ∧
      ((islOf t i).good = true → ok = true ∧ (islOf s i).heldHard = false ∧ (islOf s (peer i)).hCmpFail = false ∧
        (islOf s (peer i)).hRestartFail = false ∧ (islOf s i).lostSinceEve = false ∧ (islOf t i).hReset = false) ∧
      ((islOf t i).good = false → (islOf t i).hReset = (islOf s i).hReset) ∧ islOf t (peer i) = islOf s (peer i)

/-- Restarts (R290, R297–R299): on a mismatch, a brown-out, or a watchdog service that comes outside its window or not at all, an island whose cores
run restarts its pair, at once or once its partner's restart has ended; after a failed restart it tries again 1 ms later. A restart ends well if the
comparator test passes and a running partner that is not lost supplies its snapshot, from which the state is restored, Vigil A processing what the
queue holds beyond it; the third failure in a row holds the island with RESTART_FAIL. An island released from its reset starts with a comparator test
whose failure holds it with CMP_FAIL; while in reset it holds under RESET. -/
def Obligations.PairRestarts : Prop :=
  (∀ (s : State) (i : Isl),
    (∀ group async, (islOf s i).works = true →
      exec (.comparatorMismatch i group async) s =
        done s (restartIsl (modIsl s i (fun x => { x with lastGroup := group % 64 })) i (if async then 1 else 0))) ∧
    (∀ group async, (islOf s i).works = false → exec (.comparatorMismatch i group async) s = .next s) ∧
    (exec (.vigilWatchdogExpiry { isl := i }) s = done s (restartIsl { s with now := max s.now ((islOf s i).lastWdog + 120000) } i 2)) ∧
    ((islOf s i).works = true → (islOf s i).lastWdog + 80000 ≤ s.now → s.now ≤ (islOf s i).lastWdog + 120000 →
      exec (.vigilWatchdogExpiry { isl := i, serviced := true }) s = .next (modIsl s i (fun x => { x with lastWdog := s.now }))) ∧
    ((islOf s i).works = true → s.now < (islOf s i).lastWdog + 80000 ∨ (islOf s i).lastWdog + 120000 < s.now →
      exec (.vigilWatchdogExpiry { isl := i, serviced := true }) s = done s (restartIsl s i 2)) ∧
    (exec (.islandBrownOut i) s = done s (restartIsl s i 2)) ∧
    (∀ cause, (islOf s i).running = true → (islOf s i).restarting = false → (islOf s i).waiting = false → (islOf s i).deferred = false →
      restartIsl s i cause = beginRestart s i cause false) ∧
    (∀ cause, (islOf s i).running = false ∨ (islOf s i).restarting = true ∨ (islOf s i).waiting = true ∨ (islOf s i).deferred = true →
      restartIsl s i cause = s) ∧
    ((islOf s i).waiting = true →
      exec (.restartRetry i) s = done s (beginRestart { s with now := max s.now ((islOf s i).failedAt + 1000000) } i (islOf s i).cause true)) ∧
    (∀ cause retry, (islOf s (peer i)).restarting = true ∨ (islOf s (peer i)).waiting = true →
      beginRestart s i cause retry = modIsl s i (fun x => { x with deferred := true, cause := cause, waiting := false })) ∧
    (∀ cause retry, (islOf s (peer i)).restarting = false → (islOf s (peer i)).waiting = false →
      let t := beginRestart s i cause retry
      (islOf t i).restarting = true ∧ (islOf t i).regsMain = [] ∧ (islOf t i).regsChk = [] ∧ (islOf t i).replay = [] ∧
        (islOf t i).safe = (islOf s i).safe ∧ islOf t (peer i) = islOf s (peer i) ∧ t.vg = s.vg)) ∧
  (∀ (s : State) (i : Isl) (flagged : Nat) (clean : Bool),
    ((islOf s i).restarting = false → exec (.pairRestartDone i flagged clean) s = .next s) ∧
    ((islOf s i).restarting = true → restartOk s i flagged clean = true →
      exec (.pairRestartDone i flagged clean) s = done s (resumeIsl (modIsl s i (fun x => { x with flagged := flagged % 2 ^ 64 })) i)) ∧
    ((islOf s i).restarting = true → restartOk s i flagged clean = false →
      exec (.pairRestartDone i flagged clean) s = done s (failRestart (modIsl s i (fun x => { x with flagged := flagged % 2 ^ 64 })) i)) ∧
    (restartOk s i flagged clean = true ↔ cmpPass flagged clean = true ∧ (islOf s (peer i)).running = true ∧ (islOf s (peer i)).restarting = false ∧
      (islOf s (peer i)).waiting = false ∧ (islOf s i).hPeerLost = false) ∧
    ((islOf s (peer i)).deferred = false → (islOf s i).detach ≠ 1 →
      (islOf (resumeIsl s i) i).restarting = false ∧ (islOf (resumeIsl s i) i).fails = 0 ∧ (islOf (resumeIsl s i) (peer i)).peerCmpOk = true ∧
      (∀ p, i = .a → (islOf s (peer i)).snapshot = some p →
        (resumeIsl s i).vg.events = p.events.filter (fun e => decide (s.cal.frame ≤ e.frame + 1)) ++ s.vg.queue ∧
          (resumeIsl s i).vg.processed = s.vg.queue.length ∧ (resumeIsl s i).vg.queue = s.vg.queue) ∧
      (∀ p, i = .b → (islOf s (peer i)).snapshot = some p →
        (resumeIsl s i).vg = { s.vg with breached := p.breached, breachedNext := p.breachedNext })) ∧
    (2 ≤ (islOf s i).fails → (islOf (failRestart s i) i).hRestartFail = true ∧ (islOf (failRestart s i) i).running = false ∧
      (islOf (failRestart s i) i).safe = false) ∧
    ((islOf s i).fails < 2 → (islOf (failRestart s i) i).waiting = true ∧ (islOf (failRestart s i) i).fails = (islOf s i).fails + 1 ∧
      (islOf (failRestart s i) i).failedAt = s.now) ∧
    ((islOf s i).running = true → exec (.islandResetRelease i flagged clean) s = .next s) ∧
    ((islOf s i).running = false → ∃ t, exec (.islandResetRelease i flagged clean) s = .next t ∧ (islOf t i).running = true ∧
      (islOf t i).hReset = true ∧ (islOf t i).safe = false ∧ (islOf t i).hCmpFail = !cmpPass flagged clean ∧
      (islOf t i).flagged = flagged % 2 ^ 64 ∧ t.mem = s.mem ∧ t.units = s.units) ∧
    (∃ t, exec (.islandResetAssert i) s = .next t ∧ (islOf t i).running = false ∧ (islOf t i).hReset = true ∧ (islOf t i).safe = false ∧
      (islOf t i).snapshot = none ∧ t.mem = s.mem ∧ t.units = s.units ∧
      ((islOf s (peer i)).deferred = false → islOf t (peer i) = islOf s (peer i) ∧
        t = { s with islA := t.islA, islB := t.islB, vg := { s.vg with events := t.vg.events, processed := t.vg.processed
                                                                       breached := t.vg.breached, breachedNext := t.vg.breachedNext } })))

/-- Heartbeats and loss (R291–R293): an island whose cores run sends its state every time and takes its partner's, Vigil B's copy freeing the queue
entries it covers; 300 µs without one (unless the partner is under debug), the partner's clock or rail, or its notice holds it with PEER_LOST; one
that declares the loss sends a notice. -/
def Obligations.HeartbeatsAndLoss : Prop :=
  ∀ (s : State) (i : Isl), (islOf s i).works = true →
    (exec (.vigilHeartbeatSend i) s = .next (modIsl s i (fun x => { x with hbOut := some (snapshotOf s i) }))) ∧
    (∀ snap, (islOf s (peer i)).hbOut = some snap ∨
        ((islOf s (peer i)).hbOut = none ∧ (islOf s (peer i)).works = true ∧ snap = snapshotOf s (peer i)) →
      ∃ t, exec (.vigilHeartbeat i) s = .next t ∧ (islOf t (peer i)).hbOut = none ∧
        islOf t i = hearBeat (islOf s i) s.now snap ∧ (i = .b → t.vg.queue = s.vg.queue.drop snap.covers) ∧ (i = .a → t.vg = s.vg) ∧
        t = { s with islA := t.islA, islB := t.islB, vg := t.vg }) ∧
    ((islOf s (peer i)).hbOut = none → (islOf s (peer i)).works = false → exec (.vigilHeartbeat i) s = .next s) ∧
    (∀ cause, (islOf s i).hPeerLost = false → (cause = 0 → (islOf s i).peerDebug = false ∧ (islOf s i).lastHb + 300000 ≤ s.now) →
      exec (.peerLossTimeout i cause) s = done s (declareLost s i cause)) ∧
    ((islOf s i).hPeerLost = true ∨ (islOf s i).peerDebug = true ∨ s.now < (islOf s i).lastHb + 300000 →
      exec (.peerLossTimeout i 0) s = .next s) ∧
    ((islOf s i).noticeIn = true →
      exec (.lossNotice i) s = done s (takeLoss (modIsl s i (fun x => { x with noticeIn := false })) i 3)) ∧
    ((islOf s i).noticeIn = false → exec (.lossNotice i) s = .next s) ∧
    (∀ cause, (islOf (takeLoss s i cause) i).hPeerLost = true ∧ (islOf (takeLoss s i cause) i).lostSinceEve = true ∧
      (islOf (takeLoss s i cause) i).safe = false ∧ (islOf (declareLost s i cause) i).hPeerLost = true ∧
      (islOf (declareLost s i cause) i).lostSinceEve = true ∧ (islOf (declareLost s i cause) i).safe = false ∧
      (islOf (declareLost s i cause) (peer i)).noticeIn = (islOf s (peer i)).running)

/-- What the islands watch (R292, R293, R300, R305–R307). From Ready a reading that breaches its condition of Table 13.2, such as a rail off its
nominal by more than 5 %, writes an error record, and of Vigil B's items the frame is breached; any other reading does nothing. The event queue takes
an event while it holds fewer than 8,192, and notes its overflow otherwise; its entries keep their order. A running command that takes its task's
count past the budget raises one budget event in a frame: P0 is recorded only, any other task is throttled and stopped, on both twins. -/
def Obligations.VigilWatches : Prop :=
  (∀ s : State,
    (∀ item reading, s.host.ready = true → (∀ q, itemQuarter item = some q → quarterOn s q = true) → (islOf s (itemWatcher item)).works = true →
      itemBreached s item reading = true →
      exec (.vigilBBreach item reading) s = done s
        (if item = 9 then alm (railBit s 9) 0x8000 .vigilBreach 3 [9, twos 16 reading]
         else if item < 13 then alm (breach (railBit s item)) 0x9000 .vigilBreach 3 [item, twos 16 reading]
         else alm (breach s) 0x9000 .vigilBreach 3 [item, twos 16 reading])) ∧
    (∀ item reading, itemBreached s item reading = false ∨ s.host.ready = false → exec (.vigilBBreach item reading) s = .next s) ∧
    (∀ item (reading : Int), 4 ≤ item → item < 13 →
      (itemBreached s item reading = true ↔ railNominal item < 20 * (reading - railNominal item).natAbs)) ∧
    (∀ reading : Int, (itemBreached s 19 reading = true ↔ 250 ≤ reading) ∧ (itemBreached s 20 reading = true ↔ 230 < reading)) ∧
    (∀ i level, (islOf s i).works = true → (islOf s i).inp ≠ level % 8 →
      exec (.vigilInputChange i level) s = done s (alm (modIsl s i (fun x => { x with inp := level % 8 })) (srcIsl i) .vigilInput 1 [level % 8])) ∧
    (∀ i level, (islOf s i).works = false ∨ (islOf s i).inp = level % 8 → exec (.vigilInputChange i level) s = .next s) ∧
    (∀ e, vgPasses e = false → exec (.vigilEvent e) s = .next s) ∧
    (∀ e, vgPasses e = true → startsStopped (vgPush s e) e = false → exec (.vigilEvent e) s = done s (vgPush s e)) ∧
    (∀ e, vgPasses e = true → startsStopped (vgPush s e) e = true → exec (.vigilEvent e) s = done s (hardFaultUnit (vgPush s e) e.unit 3)) ∧
    (∀ u ctx n c r t, ctxOf s u ctx = some c → c.run = some r → budgetAt s u c r n = some t → c.overrun ≠ some r.cmd.frame → c.part = 0 →
      exec (.budgetExceeded u ctx n) s =
        (let s0 : State := { s with now := max s.now t }
         let s1 := putCtx s0 u ctx { c with overrun := some r.cmd.frame, throttled := false, stopPending := false }
         let s2 := alm (cmdEvent s1 .budget u ctx r.cmd 0) (srcOf u) .budget 2 [c.planId, c.task, 0, n]
         done s { s2 with vg := { s2.vg with p0Overrun := sat 255 (s2.vg.p0Overrun + 1) } })) ∧
    (∀ u ctx n c r t, ctxOf s u ctx = some c → c.run = some r → budgetAt s u c r n = some t → c.overrun ≠ some r.cmd.frame → c.part ≠ 0 →
      exec (.budgetExceeded u ctx n) s =
        (let s0 : State := { s with now := max s.now t }
         let s1 := putCtx s0 u ctx { c with overrun := some r.cmd.frame, throttled := true, stopPending := true }
         let s2 := alm (cmdEvent s1 .budget u ctx r.cmd 0) (srcOf u) .budget 2 [c.planId, c.task, 1, n]
         let s3 : State := { s2 with vg := { s2.vg with throttles := sat 0xFFF (s2.vg.throttles + 1) } }
         done s (if c.twin = 0 then s3 else stopAtBoundary s3 c.partner ctx))) ∧
    (∀ u ctx n c r, ctxOf s u ctx = some c → c.run = some r → budgetAt s u c r n = none ∨ c.overrun = some r.cmd.frame →
      exec (.budgetExceeded u ctx n) s = .next s) ∧
    (∀ u c r, (∀ n, budgetAt s u c r n = none) ↔ tget c.count r.cmd.frame 0 + r.cycles ≤ c.budget)) ∧
  (∀ (s : State) (e : VgEvent),
    (s.vg.queue.length < 8192 → (vgPush s e).vg.queue = s.vg.queue ++ [e] ∧ (vgPush s e).vg.queueOvf = s.vg.queueOvf ∧
      (s.islA.works = true → (vgPush s e).vg.processed = s.vg.queue.length + 1)) ∧
    (8192 ≤ s.vg.queue.length → vgPush s e = { s with vg := { s.vg with queueOvf := true } }) ∧
    (vgPush s e).mem = s.mem ∧ (vgPush s e).units = s.units ∧ (vgPush s e).host = s.host ∧ (vgPush s e).alm = s.alm)

/-- The board safety link (R302): while Vigil B runs, READ_STATUS sends the latest status frame, HOLD holds both islands, RELEASE ends that hold, and
an unknown command or one with a wrong CRC is counted; while it does not, none has an effect. Every status frame is 32 bytes whose last two are the CRC of the first thirty. -/
def Obligations.BoardLink : Prop :=
  (∀ s : State, s.islB.running = true →
    exec .readStatus s = .next { s with vg := { s.vg with spiOut := s.vg.statusFrame } } ∧
    (∃ t, exec .hold s = .next t ∧ t.islA.hBoard = true ∧ t.islB.hBoard = true ∧ t.islA.safe = false ∧ t.islB.safe = false ∧
      t = { s with islA := t.islA, islB := t.islB, alm := t.alm, host := t.host }) ∧
    exec .release s = .next { s with islA := { s.islA with hBoard := false }, islB := { s.islB with hBoard := false } } ∧
    (∀ cmd arg crc, spiBad cmd arg crc = true →
      exec (.spiBadCommand cmd arg crc) s = .next { s with vg := { s.vg with badCmds := sat 255 (s.vg.badCmds + 1) } })) ∧
  (∀ s : State, s.islB.running = false →
    exec .readStatus s = .next s ∧ exec .hold s = .next s ∧ exec .release s = .next s ∧
      ∀ cmd arg crc, exec (.spiBadCommand cmd arg crc) s = .next s) ∧
  (∀ (bs : List Byte), (sealFrame bs).length = 32 ∧ (sealFrame bs).take 30 = padTo 30 bs ∧
    (sealFrame bs).drop 30 = natLe 2 (crc16 (padTo 30 bs)))

/-- Debug of an island (R289, R303, R304): a debugger attaches only while debug is enabled, and the island then holds; the cores halt and resume
together; register writes reach the main core at once and the checker core in order at the next resume or step, the 257th unreplayed one being refused;
a step keeps the cores equal where they are; memory writes reach the SRAM of 512 KiB once, whose words a SECDED code guards; a detach restarts the
pair before DEBUG clears. -/
def Obligations.DebugOfAnIsland : Prop :=
  ∀ (s : State) (i : Isl),
    ((islOf s i).debugEn = true → (islOf s i).running = true → (islOf s i).attached = false →
      ∃ t, exec (.debugAttach i) s = .next t ∧ (islOf t i).attached = true ∧ (islOf t i).hDebug = true ∧ (islOf t i).safe = false ∧
        (islOf t (peer i)).peerDebug = true ∧ t = { s with islA := t.islA, islB := t.islB }) ∧
    ((islOf s i).debugEn = false → exec (.debugAttach i) s = .next s) ∧
    ((islOf s i).dbg = false → exec (.debugHalt i) s = .next s ∧ exec (.debugResume i) s = .next s ∧ exec (.debugSingleStep i) s = .next s ∧
      (∀ reg value, exec (.debugRegisterWrite i reg value) s = .next s) ∧ ∀ addr bs, exec (.debugMemoryWrite i addr bs) s = .next s) ∧
    ((islOf s i).dbg = true →
      ((islOf s i).halted = false → exec (.debugHalt i) s = .next (modIsl (freshCores s i) i (fun x => { x with halted := true }))) ∧
      (∀ reg value, (islOf s i).replay.length < 256 →
        exec (.debugRegisterWrite i reg value) s = .next (modIsl s i (fun x =>
          { x with
            abstractBusy := false, replay := x.replay ++ [(reg, value % 2 ^ 32)], regsMain := tput x.regsMain reg (value % 2 ^ 32) }))) ∧
      (∀ reg value, 256 ≤ (islOf s i).replay.length →
        exec (.debugRegisterWrite i reg value) s = .next (modIsl s i (fun x => { x with abstractBusy := true }))) ∧
      (∀ addr bs, addr + bs.length ≤ 0x80000 →
        exec (.debugMemoryWrite i addr bs) s = .next (modIsl s i (fun x =>
          { x with
            sram := (bs.zipIdx addr).foldl (fun t p => tput t p.2 p.1) x.sram, wrongBits := leftWrong x.wrongBits addr bs.length }))) ∧
      (∀ addr bs, 0x80000 < addr + bs.length → exec (.debugMemoryWrite i addr bs) s = .next s) ∧
      ((islOf s i).halted = true →
        (∃ t, exec (.debugResume i) s = .next t ∧ islOf t i = { (islOf s i).replayed with halted := false } ∧
          islOf t (peer i) = islOf s (peer i) ∧ t = { s with islA := t.islA, islB := t.islB, vg := t.vg } ∧ t.vg.queue = s.vg.queue ∧
          (i = .b → t.vg = s.vg)) ∧
        (∃ t, exec (.debugSingleStep i) s = .next t ∧ (islOf t i).steps = (islOf s i).steps + 1 ∧ (islOf t i).replay = [] ∧
          ((islOf s i).replayed.regsMain = (islOf s i).replayed.regsChk → (islOf t i).regsMain = (islOf t i).regsChk) ∧
          (islOf t i).sram = (islOf s i).sram ∧ islOf t (peer i) = islOf s (peer i) ∧
          t = { s with islA := t.islA, islB := t.islB, fresh := t.fresh }))) ∧
    ((islOf s i).attached = true →
      exec (.debugDetach i) s = done s (restartIsl (modIsl (modIsl s i (fun x => { x with attached := false, halted := false, detach := 1 })) (peer i)
        (fun y => { y with peerDebug := false, lastHb := s.now })) i 3)) ∧
    ((islOf s i).attached = false → exec (.debugDetach i) s = .next s) ∧
    (∀ a, ones 72 (tget (islOf s i).wrongBits (a / 4) 0) ≤ 1 → (islOf s i).byteAt a = tget (islOf s i).sram a 0)
/-! ## Health and tests -/

/-- The health events (R313, R318, R319, R324): a hard fault takes a cluster's score to 0 and a cluster in work out of it at once; a unit's
heartbeat clears what was suspected; missing ones are judged once a frame; 1,000 clean frames raise the score and 10,000 end PROBATION, fewer do
nothing. -/
def Obligations.HealthEventsTakeEffect : Prop :=
  ∀ (s : State) (g : Nat),
    (∀ cause, exec (.hardFault g cause) s = done s (hardFault s g cause)) ∧
    exec (.busTimeout g) s = done s (hardFault s g 1) ∧
    (∀ cause, (healthOf (hardFault s g cause) g).score = 0 ∧ (hardFault s g cause).hards = sat 255 (s.hards + 1) ∧
      ((healthOf s g).state = .inService ∨ (healthOf s g).state = .inTest ∨ (healthOf s g).state = .probation ∨
        (healthOf s g).state = .restricted →
        (healthOf (hardFault s g cause) g).state = .quarantined ∧ (healthOf (hardFault s g cause) g).hardQ = true)) ∧
    (∀ u heard, isClu u = true → (unitOf s u).hbOut = some heard →
      ∃ t, exec (.seqHeartbeat u) s = .next t ∧ t = { s with units := t.units, health := t.health } ∧ (unitOf t u).hbOut = none ∧
        (healthOf t (gOf u)).hbSeen = true ∧ (healthOf t (gOf u)).suspect = false ∧ (healthOf t (gOf u)).dead = false) ∧
    (∀ u, (unitOf s u).hbOut = none → exec (.seqHeartbeat u) s = .next s) ∧
    (∀ u heard, isClu u = false → (unitOf s u).hbOut = some heard →
      ∃ t, exec (.seqHeartbeat u) s = .next t ∧ t = { s with units := t.units, health := t.health } ∧ (unitOf t u).hbOut = none) ∧
    (s.cal.frame = 0 ∨ s.hbJudged = s.cal.frame → exec .heartbeatDeadline s = .next s) ∧
    ((healthOf s g).clean < 1000 → exec (.cleanRunCredit g) s = .next s) ∧
    ((healthOf s g).state ≠ .probation ∨ (healthOf s g).cleanRun < 10000 → exec (.probationEnd g) s = .next s) ∧
    (s.cal.frame ≠ 0 → s.hbJudged ≠ s.cal.frame →
      exec .heartbeatDeadline s = done s (judgeHeartbeats { s with now := max s.now (s.cal.calend + 100000), hbJudged := s.cal.frame })) ∧
    (1000 ≤ (healthOf s g).clean →
      exec (.cleanRunCredit g) s = .next (modHealth s g (fun h => { h with clean := 0, score := min 1000 (h.score + 10) }))) ∧
    ((healthOf s g).state = .probation → 10000 ≤ (healthOf s g).cleanRun →
      exec (.probationEnd g) s = done s (alm (modHealth s g (fun h => { h with state := .inService, cleanRun := 0 })) (srcClu g) .health 1
        [0, (healthOf s g).score]))

/-- Attribution and repair (R185, R312): the re-check of the oldest stage-3 failure with a free CVU of 4–7 charges the reading cluster where
the stored tile passes and the owner of a cluster's SRAM where it does not, and counts any other; a repair copies a good copy over the failed
one, in mapped memory that the tile's partition may write, and elsewhere leaves a record; with nothing to do either does nothing. -/
def Obligations.AttributionAndRepair : Prop :=
  ∀ s : State,
    (∀ k f rest, s.tileFails = f :: rest → 4 ≤ k → k ≤ 7 → (cvuOf s k).busy = false →
      ∃ t, exec (.checkAttribution k) s = .next t ∧ t.tileFails = rest ∧ t.health = s.health ∧ t.mem = s.mem ∧ (cvuOf t k).busy = false ∧
        (recheck s f = true → isClu f.unit = true → t.stats = s.stats ∧ t.hEvents = s.hEvents ++
          [{ atT := s.now, row := 2, unit := rClu (gOf f.unit), frame := f.frame, kind := 5, opcode := f.opcode }]) ∧
        (recheck s f = true → isClu f.unit = false → t.stats = s.stats ∧ t.hEvents = s.hEvents) ∧
        (recheck s f = false → memLevel f.loc = some 0 → t.stats = s.stats ∧ t.hEvents = s.hEvents ++
          [{ atT := s.now, row := 2, unit := rClu ((f.loc - 0x120000000000) / 0x200000), frame := f.frame, kind := 5, opcode := f.opcode }]) ∧
        (recheck s f = false → memLevel f.loc ≠ some 0 →
          t.stats = { s.stats with unattributed := s.stats.unattributed + 1 } ∧ t.hEvents = s.hEvents)) ∧
    (∀ k, s.tileFails = [] ∨ k < 4 ∨ 7 < k ∨ (cvuOf s k).busy = true → exec (.checkAttribution k) s = .next s) ∧
    (∀ addr, s.repairs.find? (fun r => r.1 = addr) = none → exec (.weightRepair addr) s = .next s) ∧
    (∀ bad good k gen part, mapped bad (2 ^ k) = false → repairTile s bad good k gen part = alm s 0x0000 .unmapped 3 [bad, part, 0]) ∧
    (∀ bad good k gen part, mapped bad (2 ^ k) = true → mayWrite s part bad (2 ^ k) = false →
      repairTile s bad good k gen part = alm s 0x0000 .unmapped 3 [bad, part, tagOf s bad]) ∧
    (∀ bad good k gen part, mapped bad (2 ^ k) = true → mayWrite s part bad (2 ^ k) = true → tilePass s good k gen = false →
      repairTile s bad good k gen part = s) ∧
    (∀ addr bad good k gen part, s.repairs.find? (fun r => r.1 = addr) = some (bad, good, k, gen, part) →
      exec (.weightRepair addr) s = done s (repairTile { s with repairs := s.repairs.filter (fun r => r.1 ≠ addr) } bad good k gen part)) ∧
    (∀ bad good k gen part, mapped bad (2 ^ k) = true → mayWrite s part bad (2 ^ k) = true → tilePass s good k gen = true →
      repairTile s bad good k gen part =
        alm (putTile (countBytes (countBytes s 9 3 good (2 ^ k) false) 9 3 bad (2 ^ k) true) bad k gen (tileCrc bad gen (rd s good (2 ^ k))) (rd s good (2 ^ k))) 0x0000 .weightRepair 1 [bad, good])

/-- Self-tests (R323, R334–R336): a quarantined or fenced cluster starts a deep self-test run and its end is counted, the eighth failure in a row
retiring it; the rotation tests the cluster at each Quarter's pointer for four frames, its slots on a substitute where it carries any (the step is
skipped where there is none), a pass lowering the debt of kind 0 and a failure being a hard fault. -/
def Obligations.SelfTestsTakeEffect : Prop :=
  ∀ (s : State) (g q : Nat),
    (mayTest s g = true →
      exec (.deepSelfTestStart g) s = .next (modHealth s g (fun h => { h with testing := true, lastTest := some s.now }))) ∧
    (mayTest s g = false → exec (.deepSelfTestStart g) s = .next s) ∧
    (∀ pass lbist, (healthOf s g).testing = false → exec (.deepSelfTestDone g pass lbist) s = .next s) ∧
    (∀ lbist, (healthOf s g).testing = true → (healthOf s g).state = .quarantined → relayGood s g = true →
      exec (.deepSelfTestDone g true lbist) s = done s (alm
        (modHealth s g (fun h => { h with testing := false, passes := min 3 (h.passes + 1), fails := 0 })) (srcClu g) .health 1
        [7, 1, min 3 ((healthOf s g).passes + 1), 0])) ∧
    ((healthOf s g).testing = true → (healthOf s g).state = .quarantined → 7 ≤ (healthOf s g).fails →
      exec (.deepSelfTestDone g false false) s = done s (alm
        (modHealth s g (fun h => { h with testing := false, passes := 0, fails := 8, state := .retired })) (srcClu g) .health 2 [7, 0, 0, 8])) ∧
    (quarterOn s q = false ∨ (rotOf s q).active = true → exec (.rotationStepStart q) s = .next s) ∧
    (quarterOn s q = true → (rotOf s q).active = false →
      testable (passOver (atCalend s) q 72) q (rotOf (passOver (atCalend s) q 72) q).pointer = true →
      exec (.rotationStepStart q) s = done s (beginStep (passOver (atCalend s) q 72) q (s.cal.frame + 1))) ∧
    ((rotOf s q).active = true → (healthOf s (72 * q + (rotOf s q).pointer)).state = .inTest → (rotOf s q).passed = none →
      exec (.rotationTestDone q true) s = .next (settleDebt (modRot s q (fun r =>
        { r with passed := some s.now, lastPass := tput r.lastPass r.pointer s.now })) 0) ∧
      exec (.rotationTestDone q false) s = done s (hardFault s (72 * q + (rotOf s q).pointer) 5)) ∧
    (stepOver s q s.cal.frame = true → exec (.rotationStepEnd q) s = done s (endStep s q false)) ∧
    ((usedClusters s).contains (72 * q + (rotOf s q).pointer) = false → ∀ n,
      (healthOf (beginStep s q n) (72 * q + (rotOf s q).pointer)).state = .inTest ∧ (rotOf (beginStep s q n) q).active = true ∧
      (rotOf (beginStep s q n) q).startFrame = n ∧ (rotOf (beginStep s q n) q).substituted = false ∧ (beginStep s q n).mem = s.mem) ∧
    ((usedClusters s).contains (72 * q + (rotOf s q).pointer) = true → substituteFor s (72 * q + (rotOf s q).pointer) = none → ∀ n,
      beginStep s q n = modRot s q skipStep) ∧
    (∀ h, (usedClusters s).contains (72 * q + (rotOf s q).pointer) = true → substituteFor s (72 * q + (rotOf s q).pointer) = some h → ∀ n,
      (healthOf (beginStep s q n) (72 * q + (rotOf s q).pointer)).state = .inTest ∧ (rotOf (beginStep s q n) q).active = true ∧
      (rotOf (beginStep s q n) q).startFrame = n ∧ (rotOf (beginStep s q n) q).substituted = true ∧
      (rotOf (beginStep s q n) q).substitute = h ∧ (beginStep s q n).mem = s.mem)

/-- Holiday segments and test debt (R338–R342): the scheduler's segment starts under its conditions and no other; it ends at its declared length or
later, the item having passed or failed, and past 60 µs the watchdog aborts it, so that its item waits for a later frame and the third abort in a row
is its failure; a debt is told once at 75 % and once at 100 % of its interval. A failure of any kind but a mesh line's makes every frame FAILED. -/
def Obligations.SegmentsAndDebt : Prop :=
  ∀ s : State,
    (∀ kind item len, segmentMayStart s kind item len = true → scheduled s kind item = true →
      exec (.holidaySegmentStart kind item len) s = .next { s with
        st := { s.st with seg := some { kind := kind, item := item, start := s.now, len := len
                                        die := if kind = 5 then segmentDie s kind item else none }, run := sat 255 (s.st.run + 1) } }) ∧
    (∀ kind item len, segmentMayStart s kind item len = false ∨ scheduled s kind item = false →
      exec (.holidaySegmentStart kind item len) s = .next s) ∧
    (∀ kind item len, segmentMayStart s kind item len = true → s.st.seg = none ∧ s.cal.calend + 20000 ≤ s.now ∧ s.now + len ≤ s.cal.eve ∧
      s.now + largestRemaining s + len + 20000 ≤ s.cal.eve ∧ tfind s.st.abortFrame (itemKey kind item) ≠ some s.cal.frame) ∧
    (s.st.seg = none → (∀ pass f, exec (.holidaySegmentEnd pass f) s = .next s) ∧ exec .segmentWatchdog s = .next s) ∧
    (∀ g f, s.st.seg = some g → max s.now (g.start + g.len) ≤ g.start + 60000 →
      let t := max s.now (g.start + g.len)
      let s1 := marchTraffic (itemTested (endSegment s g t) g) g
      exec (.holidaySegmentEnd true f) s = done s (itemPassed s1 g f) ∧
      exec (.holidaySegmentEnd false f) s = done s (holidayFailure s1 g.kind g.item)) ∧
    (∀ g pass f, s.st.seg = some g → g.start + 60000 < max s.now (g.start + g.len) →
      exec (.holidaySegmentEnd pass f) s = done s (abortSegment s g)) ∧
    (∀ g, s.st.seg = some g → exec .segmentWatchdog s = done s (abortSegment s g)) ∧
    (∀ g t, (endSegment s g t).now = t ∧ (endSegment s g t).st = { s.st with seg := none, busyNs := s.st.busyNs + (t - g.start) } ∧
      (endSegment s g t).mem = s.mem) ∧
    (∀ g f, g.kind ≠ 5 → itemPassed s g f =
      settleDebt { s with st := { s.st with lastPass := tput s.st.lastPass (itemKey g.kind g.item) s.now } } g.kind) ∧
    (∀ g, let k := itemKey g.kind g.item
      let t := max s.now (g.start + 60000)
      let n := tget s.st.abortRun k 0 + 1
      let s0 := endSegment s g t
      let s1 := alm { s0 with st := { s0.st with
          aborts := sat 255 (s.st.aborts + 1), abortFrame := tput s.st.abortFrame k s.cal.frame
          abortRun := if n ≥ 3 then tdel s.st.abortRun k else tput s.st.abortRun k n } } 0x0000 .segmentAbort 3 [g.kind, g.item]
      abortSegment s g = if n ≥ 3 then holidayFailure s1 g.kind g.item else s1) ∧
    (∀ kind, debtLevel (debtOf s kind) (kindInterval kind) ≠ 0 → tget s.st.debtState kind 0 = 0 →
      exec (.testDebtWarning kind) s =
        (let s1 := alm { s with st := { s.st with debtState := tput s.st.debtState kind 1 } } 0x0000 .testDebt 2 [kind]
         done s (notify s1 6 kind s1.alm.head))) ∧
    (∀ kind, debtLevel (debtOf s kind) (kindInterval kind) = 0 ∨ tget s.st.debtState kind 0 ≠ 0 →
      exec (.testDebtWarning kind) s = .next s) ∧
    (∀ kind, debtLevel (debtOf s kind) (kindInterval kind) = 2 → tget s.st.debtState kind 0 ≠ 2 →
      exec (.testOverdue kind) s =
        (let s1 := alm { s with st := { s.st with debtState := tput s.st.debtState kind 2 } } 0x0000 .testOverdue 4 [kind]
         done s (notify s1 7 kind s1.alm.head))) ∧
    (∀ kind, debtLevel (debtOf s kind) (kindInterval kind) ≠ 2 ∨ tget s.st.debtState kind 0 = 2 →
      exec (.testOverdue kind) s = .next s) ∧
    (∀ kind item, kind ≠ 1 → (holidayFailure s kind item).vg.holidayFailed = true)

/-! ## The store, sensors, time and links -/

/-- The store controllers act (R203, R204, R209, R215): a refresh is postponed at most four times, the window lengthens a second after the die has
cooled, ingest fills the write buffer, and delays follow the temperature band. A die in self-refresh takes no refresh and no ingest, a full buffer none
either, and a holiday segment that holds the die holds ingest. -/
def Obligations.StoreControllersAct : Prop :=
  ∀ (s : State) (die ch bank : Nat),
    (∀ c k b, stcOf s die = c → c.retaining = false → tget c.chans ch {} = k → tget k.banks bank {} = b →
      exec (.refreshDue die ch bank) s =
        (let d : Stc := if k.queue.any (fun q => decBank c q.addr = bank) && decide (b.postponed < 4) then
            { c with
              chans := tput c.chans ch { k with banks := tput k.banks bank { b with postponed := b.postponed + 1 } }
              postMax := max c.postMax (b.postponed + 1) }
          else issueRefresh s.now c ch bank (b.postponed + 1)
         .next { s with stc := tput s.stc die d })) ∧
    ((stcOf s die).retaining = true → exec (.refreshDue die ch bank) s = .next s) ∧
    (∀ t, (stcOf s die).belowSince = some t → t + 1000000000 ≤ s.now → (stcOf s die).window ≠ 0 →
      exec (.refreshWindowReturn die) s = .next (modStc s die (fun c =>
        { c with
          window := c.window - 1
          belowSince := if c.window - 1 ≠ 0 && decide (c.tempHalf < returnBelow (c.window - 1)) then some s.now else none }))) ∧
    ((stcOf s die).belowSince = none ∨ (stcOf s die).window = 0 ∨ (∃ t, (stcOf s die).belowSince = some t ∧ s.now < t + 1000000000) →
      exec (.refreshWindowReturn die) s = .next s) ∧
    (∀ bytes, segmentHolds s 580 die = false → (stcOf s die).retaining = false → (stcOf s die).level + bytes ≤ 131072 →
      ∃ t, exec (.ingestWrite die bytes) s = .next t ∧ (stcOf t die).level = (stcOf s die).level + bytes ∧
        ((stcOf s die).panicOn * 8192 ≤ (stcOf s die).level + bytes → (stcOf t die).panic = true) ∧
        ((stcOf s die).level + bytes < (stcOf s die).panicOn * 8192 → (stcOf t die).panic = (stcOf s die).panic) ∧
        t = { s with stc := t.stc, alm := t.alm, host := t.host }) ∧
    (∀ bytes, segmentHolds s 580 die = true ∨ (stcOf s die).retaining = true ∨ 131072 < (stcOf s die).level + bytes →
      exec (.ingestWrite die bytes) s = .next s) ∧
    (nextBand (stcOf s die).band (stcOf s die).tempHalf ≠ (stcOf s die).band →
      exec (.delayUpdate die) s = done s (setDelays s die (nextBand (stcOf s die).band (stcOf s die).tempHalf))) ∧
    (nextBand (stcOf s die).band (stcOf s die).tempHalf = (stcOf s die).band → exec (.delayUpdate die) s = .next s) ∧
    (∀ (c : Stc) (n : Nat), (tget (tget (issueRefresh s.now c ch bank n).chans ch {}).banks bank {}).postponed = 0 ∧
      (tget (tget (issueRefresh s.now c ch bank n).chans ch {}).banks bank {}).openRow = none)

/-- R199: a channel serves an ingest write first while its controller is in panic, then the oldest request aged 8 µs or more (row hit or not: the model's
reading, log 20), then the request of the lowest class; within a step row hits come before row misses, and the oldest first; it never leaves a queue of the four classes unserved. The
refreshes at their limit go before the choice and leave none at it; a channel that a holiday segment holds serves none (R338); a row closes once it has
been idle for 64 cycles of 900 MHz (72 ns, log 20), not before. Before the channel a switch port takes, by R269, the oldest of those that have waited 8 µs, then
RT, then SAF, then STD and BKG three to one, each class in order of age. -/
def Obligations.SchedulerChoice : Prop :=
  (∀ (c : Stc) (ch : Chan) (now : Nat),
    let hit (q : Req) : Bool := decide ((tget ch.banks (decBank c q.addr) {}).openRow = some (rowOf q.addr))
    let first (q x : Req) : Prop := (hit x = true → hit q = true) ∧ (hit x = hit q → q.atT ≤ x.atT)
    (∀ q, chooseReq c ch now = some q →
      q ∈ ch.queue ∧
      ((c.panic = true ∧ ∃ x ∈ ch.queue, x.ingest = true) → q.ingest = true ∧ ∀ x ∈ ch.queue, x.ingest = true → first q x) ∧
      (¬ (c.panic = true ∧ ∃ x ∈ ch.queue, x.ingest = true) → (∃ x ∈ ch.queue, x.atT + 8000 ≤ now) →
        q.atT + 8000 ≤ now ∧ ∀ x ∈ ch.queue, x.atT + 8000 ≤ now → q.atT ≤ x.atT) ∧
      (¬ (c.panic = true ∧ ∃ x ∈ ch.queue, x.ingest = true) → ¬ (∃ x ∈ ch.queue, x.atT + 8000 ≤ now) →
        ∀ x ∈ ch.queue, q.cls ≤ x.cls ∧ (x.cls = q.cls → first q x))) ∧
    ((∃ x ∈ ch.queue, x.cls ≤ 3) → (chooseReq c ch now).isSome = true)) ∧
  (∀ (now turn : Nat) (w : List Req),
    (∀ q, switchNext now turn w = some q →
      q ∈ w ∧
      ((∃ x ∈ w, x.atT + 8000 ≤ now) → q.atT + 8000 ≤ now ∧ ∀ x ∈ w, q.atT ≤ x.atT) ∧
      (¬ (∃ x ∈ w, x.atT + 8000 ≤ now) →
        (∀ x ∈ w, x.cls = q.cls → q.atT ≤ x.atT) ∧ ((∃ x ∈ w, x.cls = 0) → q.cls = 0) ∧
        ((∀ x ∈ w, x.cls ≠ 0) → (∃ x ∈ w, x.cls = 1) → q.cls = 1) ∧
        ((∀ x ∈ w, 2 ≤ x.cls) → (∃ x ∈ w, x.cls = 2) → (∃ x ∈ w, x.cls = 3) → q.cls = if turn < 3 then 2 else 3))) ∧
    ((∃ x ∈ w, x.cls ≤ 3) → (switchNext now turn w).isSome = true)) ∧
  (∀ (s : State) (die ch bank : Nat),
    (∀ q, (stcOf s die).retaining = false → segmentHoldsCh s die ch = false →
      chooseReq (refreshFirst s.now (stcOf s die) ch) (tget (refreshFirst s.now (stcOf s die) ch).chans ch {}) s.now = some q →
      exec (.storeRequest die ch) s = done s
        (let s1 := serveReq s die ch (refreshFirst s.now (stcOf s die) ch) q
         drainSwitch (tget s1.swWait die []).length die s1)) ∧
    ((stcOf s die).retaining = false →
      segmentHoldsCh s die ch = true ∨
        chooseReq (refreshFirst s.now (stcOf s die) ch) (tget (refreshFirst s.now (stcOf s die) ch).chans ch {}) s.now = none →
      exec (.storeRequest die ch) s = .next { s with stc := tput s.stc die (refreshFirst s.now (stcOf s die) ch) }) ∧
    ((stcOf s die).retaining = true → exec (.storeRequest die ch) s = .next s) ∧
    (∀ r, (tget (tget (stcOf s die).chans ch {}).banks bank {}).openRow = some r →
      (tget (tget (stcOf s die).chans ch {}).banks bank {}).lastUse + 72 ≤ s.now →
      ∃ t, exec (.rowClose die ch bank) s = .next t ∧ t = { s with stc := t.stc } ∧
        (tget (tget (stcOf t die).chans ch {}).banks bank {}).openRow = none) ∧
    ((tget (tget (stcOf s die).chans ch {}).banks bank {}).openRow = none ∨
        s.now < (tget (tget (stcOf s die).chans ch {}).banks bank {}).lastUse + 72 → exec (.rowClose die ch bank) s = .next s) ∧
    (tget (tget (refreshFirst s.now (stcOf s die) ch).chans ch {}).banks bank {}).postponed < 4)

/-- Traffic regulation (R279–R283, R287): a transaction issues while its port's count and its bucket allow it, into its channel, where there must be
room, or, from behind another switch port than the die's own link, into the switch; otherwise it waits and nothing changes. A completion lowers the
count; buckets refill up to their burst; every RGL instance hears a die's level; a port that has heard nothing of a die for 32 windows says so and
takes it for red until the next broadcast. -/
def Obligations.TrafficRegulation : Prop :=
  ∀ (s : State) (port die cls : Nat),
    (∀ r : StoreTx, mayIssueTx s port r.die r.part = true → (stcOf s r.die).retaining = false →
      (swOfPort port = r.die → channelRoom (stcOf s r.die) (reqOf s port r) = true) →
      ∃ s1, exec (.transactionIssue port r) s = done s (sendReq s1 r.die (reqOf s port r)) ∧ s1 = { s with rgl := s1.rgl, ports := s1.ports } ∧
        tget s1.ports (portKey port r.die (clsOfTx port r.part)) 0 = tget s.ports (portKey port r.die (clsOfTx port r.part)) 0 + 1 ∧
        (bucketed s port r.part = false → s1.rgl = s.rgl) ∧
        (bucketed s port r.part = true →
          tget (rglOf s1 (rglOfPort port)).tbLevel r.part 0 = tget (rglOf s (rglOfPort port)).tbLevel r.part 0 - 128)) ∧
    (∀ q : Req, (swOfPort q.port = die → sendReq s die q = modStc s die (fun c => enqueue s.now c q)) ∧
      (swOfPort q.port ≠ die →
        sendReq s die q = drainSwitch (tget s.swWait die [] ++ [q]).length die { s with swWait := tput s.swWait die (tget s.swWait die [] ++ [q]) })) ∧
    (∀ (c : Stc) (q : Req),
      (tget (enqueue s.now c q).chans (decCh c q.addr) {}).queue = (tget c.chans (decCh c q.addr) {}).queue ++ [q]) ∧
    (∀ r : StoreTx, mayIssueTx s port r.die r.part = false ∨ (stcOf s r.die).retaining = true ∨
        (swOfPort port = r.die ∧ channelRoom (stcOf s r.die) (reqOf s port r) = false) →
      exec (.transactionIssue port r) s = .next s) ∧
    (exec (.transactionComplete port die cls) s = .next { s with ports := tmod s.ports (portKey port die cls) 0 (· - 1) }) ∧
    (∃ t, exec .bucketRefill s = .next t ∧ t = { s with rgl := t.rgl } ∧ ∀ i p, i < 5 → 1 ≤ p → p ≤ 3 → tget (rglOf s i).tbEn p false = true →
      tget (rglOf t i).tbLevel p 0 =
        min (tget (rglOf s i).tbLevel p 0 + tget (rglOf s i).tbRate p 0 * 64) (tget (rglOf s i).tbBurst p 0 * 1024)) ∧
    (∃ t, exec (.levelBroadcast die) s = .next t ∧ t = { s with rgl := t.rgl, stc := t.stc } ∧ ∀ i, i < 5 →
      tget (rglOf t i).level die 0 = levelFor (stcOf s die) ∧ tget (rglOf t i).lastLevel die 0 = s.now ∧
        anyStale (rglOf t i) die = false) ∧
    (max (tget (rglOf s (rglOfPort port)).lastLevel die 0) (tget (rglOf s (rglOfPort port)).stale (staleKey port die) 0) + 9103 ≤ s.now →
      exec (.levelStale port die) s =
        (let g := rglOf s (rglOfPort port)
         let g1 : Rgl := { g with stale := tput g.stale (staleKey port die) s.now }
         done s (alm { s with rgl := tput s.rgl (rglOfPort port) g1 } (0x7000 + swOfPort port) .levelStale 2 [port, die]))) ∧
    (s.now < max (tget (rglOf s (rglOfPort port)).lastLevel die 0) (tget (rglOf s (rglOfPort port)).stale (staleKey port die) 0) + 9103 →
      exec (.levelStale port die) s = .next s) ∧
    (∀ (g : Rgl) (n : Nat), levelOf { g with stale := tput g.stale (staleKey port die) n } port die = 2)

/-- Samples (R221–R229): Frame Start opens a sample and Frame End closes it, packets and datagrams fill it, silence ends one in GAP mode; tiles
move to the store die's ring slot and the sample completes behind its header, neither while the die retains its contents or a holiday segment holds
the way. Before Ready nothing is received. A slot that the input set, the latest sample or a sample on its way uses is never given out. -/
def Obligations.SensorSamples : Prop :=
  ∀ (s : State) (port vc n k : Nat) (t : Stream), streamOf s k = t →
    (s.host.ready = true →
      exec (.csi2FrameStart port vc n) s = done s ((csiStreams (csiSeen s port false) port vc).foldl startSample (csiSeen s port false))) ∧
    (∀ p, exec (.csi2Packet port p) s =
      done s ((csiStreams s port p.vc).foldl (fun s k => takeLine s k p) (csiSeen s port (p.badHeader || p.badCrc)))) ∧
    (exec (.csi2FrameEnd port vc n) s = done s ((csiStreams s port vc).foldl endSample s)) ∧
    (s.host.ready = false → exec (.csi2FrameStart port vc n) s = done s (csiSeen s port false)) ∧
    (∀ f, let s1 := if f.fcsOk || decide (s.host.bootStage < 3) || decide (4 ≤ port) then s
            else modLink s (16 + port) (fun l => { l with errors := sat 0xFFFFFFFF (l.errors + 1) })
      (s.host.ready = false ∨ parseUdp f.bytes = none → exec (.ethernetFrame port f) s = done s s1) ∧
      ∀ d, s.host.ready = true → parseUdp f.bytes = some d →
        exec (.ethernetFrame port f) s = done s ((s.streams.filter (fun p => p.2.defd && p.2.kind = 1 && p.2.udp = d.dport)).foldl
          (fun s p => takeDatagram s p.1 d f.fcsOk) s1)) ∧
    (t.cur = none → (stcOf s t.die).retaining = false →
      ∃ x, (streamOf (startSample s k) k).cur = some x ∧ x.seq = t.opened + 1 ∧ x.gen = sampleGen (t.opened + 1) ∧ x.start = s.now ∧
        x.fail = 0 ∧ x.data = []) ∧
    (∀ x, t.cur = some x → x.fail = 0 → x.rows = t.height → x.emb = t.embLines →
      endSample s k = modStream s k (fun t => { t with
        cur := none
        closing := t.closing ++ [{ x with last := s.now, sensorTs := sensorTs t x, instant := sampleInstant t x }] })) ∧
    (∀ x, t.cur = some x → x.fail = 0 → (x.rows ≠ t.height ∨ x.emb ≠ t.embLines) →
      (streamOf (endSample s k) k).cur = none ∧ (streamOf (endSample s k) k).closing = t.closing ∧
        (streamOf (endSample s k) k).damaged = sat 255 (t.damaged + 1)) ∧
    (∀ x, t.cur = some x → t.kind = 1 → t.gapMode = true → x.lastAt + t.gapUs * 1000 ≤ s.now →
      exec (.gapExpiry k) s = done s (closeSample s k (x.lastAt + t.gapUs * 1000))) ∧
    (t.cur = none ∨ t.kind ≠ 1 ∨ t.gapMode = false ∨ (∃ x, t.cur = some x ∧ s.now < x.lastAt + t.gapUs * 1000) →
      exec (.gapExpiry k) s = .next s) ∧
    ((stcOf s t.die).retaining = true ∨ segmentHolds s 580 t.die = true →
      exec (.ingestTileMove k) s = .next s ∧ exec (.sampleComplete k) s = .next s) ∧
    (t.closing = [] → exec (.sampleComplete k) s = .next s) ∧
    (∀ x s1 y, (stcOf s t.die).retaining = false → segmentHolds s 580 t.die = false → t.closing = [] → t.cur = some x →
      moveTile s k x false = some (s1, y) → exec (.ingestTileMove k) s = done s (modStream s1 k (fun t => { t with cur := some y }))) ∧
    (∀ x s1 y, (stcOf s t.die).retaining = false → segmentHolds s 580 t.die = false → t.closing.find? (fun x => x.moved < x.data.length) = some x →
      moveTile s k x true = some (s1, y) →
      exec (.ingestTileMove k) s = done s (modStream s1 k (fun t =>
        { t with closing := t.closing.map (fun z => if z.seq = x.seq then y else z) }))) ∧
    (∀ x z rest, t.closing = x :: rest → x.data.length ≤ x.moved → (stcOf s t.die).retaining = false → segmentHolds s 580 t.die = false →
      (stcOf s t.die).level + 256 ≤ 131072 → placeSample t x = some z →
      exec (.sampleComplete k) s =
        (let y := { z with complete := s.now }
         done s (modStream (putIngest (ingestIn s t.die 256) k (slotAddr t y.slot) 8 y.gen (sampleHeader t k y false)) k
           (fun t => { t with closing := rest, prev := t.latest, latest := some y, seq := max t.seq y.seq })))) ∧
    (∀ x, sampleInstant t x = if t.tsSrc ≠ 0 then sensorTs t x else if t.trig < 12 ∧ x.trigTime ≠ 0 then x.trigTime else x.start) ∧
    (∀ i, freeSampleSlot t = some i → i < t.slots ∧ (∀ x, t.snap = some x → i ≠ x.slot) ∧ (∀ x, t.latest = some x → i ≠ x.slot) ∧
      ∀ x ∈ t.closing, x.placed = true → i ≠ x.slot) ∧
    (3 ≤ t.slots → (∀ x ∈ t.closing, x.placed = false) → (freeSampleSlot t).isSome = true)

/-- Time and links (R217, R218, R455): a Sync steps, steers or slews device time, a lost grandmaster brings holdover, training measures a link and
a MAC's link goes down. -/
def Obligations.TimeAndLinks : Prop :=
  ∀ (s : State) (off : Int) (gm steps : Nat), s.inReset = false →
    (let s1 : State := { s with time := { s.time with
        gmPresent := true, holdover := false, slewBack := false, offset := off, lastSync := s.now, gmId := gm, stepsRemoved := steps } }
     (s.host.ready = false → s.time.locked = false → off ≠ 0 →
       exec (.gptpSync off gm steps) s = done s (inSync (stepTime s1 (-off)))) ∧
     (s.host.ready = true → 1000000 < off →
       exec (.gptpSync off gm steps) s = .next { s1 with time := { s1.time with ppm := -500, slewBack := true } }) ∧
     (s.host.ready = true → off < -1000000 → exec (.gptpSync off gm steps) s = done s (inSync (stepTime s1 (-off)))) ∧
     (s.host.ready = true → -1000000 ≤ off → off ≤ 1000000 →
       ∃ p : Int, -500 ≤ p ∧ p ≤ 500 ∧
         exec (.gptpSync off gm steps) s = .next { s1 with fresh := s.fresh + 1, time := { s1.time with ppm := p } })) ∧
    (s.time.gmPresent = true → exec (.gptpHoldover true) s = .next { s with
      time := { s.time with gmPresent := false, holdover := true, slewBack := false } }) ∧
    (∀ link m, s.railsLow = false → link < 12 ∨ (16 ≤ link ∧ link < 20) →
      exec (.linkTraining link m) s = .next (modLink s link (fun l =>
        { l with
          up := l.up || decide (12 ≤ link), lanes := m.lanes, rate := m.rate, skewPs := m.skewPs, lossX10 := m.lossX10
          lengthMm := lengthMm link m, pSpeed := m.pSpeed, pWidth := m.pWidth, lp11 := m.lp11 }))) ∧
    (∀ m, s.railsLow = false → ∃ t, exec (.linkTraining 32 m) s = .next t ∧ t.host.linkUp = true ∧
      t = { s with links := t.links, host := { s.host with linkUp := true, crs := t.host.crs } }) ∧
    (∀ mac, mac < 4 → exec (.ethLinkDown mac) s = .next (modLink s (16 + mac) (fun l => { l with up := false })))

/-! ## The Almanac, start-up, power and update -/

/-- The Almanac (R344, R346, R348, R350, R351, R353) and the settings journal (R396, R429): an event repeats the newest record of its source and
code or makes a new one with the next SEQ, and one that finds no slot takes no SEQ; only a record of the same or a lower severity, never the CLEAR
record, gives way. The journal takes what is due; a write that fails waits for the next whole second. A half of 49,152 entries starts a
compaction into the other half, which ends with the image of every slot there and the old half erased. While a clear is in progress events wait in a
buffer of 256 (R355), and the flash work of the clear ends it. -/
def Obligations.AlmanacEventsAndJournal : Prop :=
  ∀ s : State,
    (∀ (e : AlmMsg) (k : Nat), s.alm.ready = true → s.alm.clearing = false → repeatSlot s.alm e.source e.code e.severity e.payload e.time = none →
      placeSlot s.alm e.severity = some k →
      ∃ t r, exec (.almanacEvent e) s = .next t ∧ tfind t.alm.ring k = some r ∧ r.seq = s.alm.head + 1 ∧ r.source = e.source ∧
        r.code = e.code ∧ r.severity = e.severity ∧ r.payload = e.payload ∧ r.time = e.time ∧ r.repeats = 1 ∧
        t.alm.head = s.alm.head + 1 ∧ t = { s with alm := t.alm, host := t.host }) ∧
    (∀ (e : AlmMsg), s.alm.ready = true → s.alm.clearing = false → repeatSlot s.alm e.source e.code e.severity e.payload e.time = none →
      placeSlot s.alm e.severity = none →
      exec (.almanacEvent e) s = .next { s with alm := { s.alm with
        drops := tmod s.alm.drops e.severity 0 (fun n => sat 0xFFFFFFFF (n + 1)) } }) ∧
    (∀ (e : AlmMsg) (k : Nat) (r : AlmRec), s.alm.ready = true → s.alm.clearing = false →
      repeatSlot s.alm e.source e.code e.severity e.payload e.time = some (k, r) →
      ∃ t r', exec (.almanacEvent e) s = .next t ∧ tfind t.alm.ring k = some r' ∧ r'.seq = r.seq ∧ r'.repeats = r.repeats + 1 ∧
        r'.lastTime = e.time ∧ r'.time = r.time ∧ t.alm.head = s.alm.head ∧ t = { s with alm := t.alm }) ∧
    (∀ (a : Alm) (sev k : Nat), placeSlot a sev = some k →
      tfind a.ring k = none ∨ ∃ r, (k, r) ∈ a.ring ∧ r.severity ≤ sev ∧ r.isClear = false) ∧
    (∀ (e : AlmMsg), s.alm.ready = false → ∃ t, exec (.almanacEvent e) s = .next t ∧ t.alm.head = s.alm.head ∧ t.alm.ring = s.alm.ring) ∧
    (∀ (e : AlmMsg), s.alm.ready = true → s.alm.clearing = true →
      (s.alm.clearBuffer.length < 256 →
        exec (.almanacEvent e) s = .next { s with alm := { s.alm with clearBuffer := s.alm.clearBuffer ++ [e] } }) ∧
      (256 ≤ s.alm.clearBuffer.length →
        exec (.almanacEvent e) s = .next { s with alm := { s.alm with clearDrops := tmod s.alm.clearDrops e.severity 0 (· + 1) } })) ∧
    (∀ fail : FlushFail, s.alm.clearing = true →
      exec (.journalFlush fail) s = done s (endClear s (s.alm.clearFails || fail.program || fail.compact))) ∧
    (∀ fail : FlushFail, s.alm.clearing = false → ∃ s1 s2, s1 = programDue s (if s.alm.compacting then 1 - s.alm.half else s.alm.half) fail.program ∧
      s2 = (if s.alm.compacting then endCompaction s1 fail.compact else beginCompaction s1) ∧
      exec (.journalFlush fail) s = done s (if retryWaits s2.alm then s2 else { s2 with alm := { s2.alm with journalFault := false } })) ∧
    (∀ h fail, s.alm.due.filter (fun e => decide (e.due ≤ s.now)) = [] → programDue s h fail = s) ∧
    (∀ h, s.alm.due.filter (fun e => decide (e.due ≤ s.now)) ≠ [] →
      programDue s h false = { s with alm := { s.alm with
        due := s.alm.due.filter (fun e => decide (s.now < e.due))
        halves := tput s.alm.halves h (tget s.alm.halves h [] ++ s.alm.due.filter (fun e => decide (e.due ≤ s.now))) } } ∧
      programDue s h true = alm { s with alm := { s.alm with
        due := s.alm.due.map (fun e => if e.due ≤ s.now then { e with due := (s.now / 1000000000 + 1) * 1000000000, retry := true } else e)
        journalFault := true, faults := sat 0xFFFF (s.alm.faults + 1) } } srcAlm .journalFail 3 [s.alm.half]) ∧
    (s.alm.compacting = false → 49152 ≤ (tget s.alm.halves s.alm.half []).length →
      (beginCompaction s).alm.compacting = true ∧ tget (beginCompaction s).alm.halves (1 - s.alm.half) [] = [] ∧
        (beginCompaction s).alm.ring = s.alm.ring) ∧
    ((tget s.alm.halves s.alm.half []).length < 49152 → beginCompaction s = s) ∧
    (s.alm.compacting = true → s.alm.compactAt ≤ s.now → s.alm.half < 2 →
      let o := 1 - s.alm.half
      let t := endCompaction s false
      t.alm.compacting = false ∧ t.alm.half = o ∧ tget t.alm.halves s.alm.half [] = [] ∧ t.alm.ring = s.alm.ring ∧
        (tget t.alm.halves o []).map (·.img) = (tget s.alm.halves o []).map (·.img) ++ s.alm.ring.map (·.2) ∧
        t.alm.compactions = sat 0xFFFF (s.alm.compactions + 1)) ∧
    (s.alm.compacting = true → s.alm.compactAt ≤ s.now →
      (endCompaction s true).alm.compacting = true ∧ (endCompaction s true).alm.journalFault = true ∧
        (endCompaction s true).alm.half = s.alm.half ∧ (endCompaction s true).alm.halves = s.alm.halves ∧
        (endCompaction s true).alm.compactAt = (s.now / 1000000000 + 1) * 1000000000) ∧
    (s.alm.ready = true → ∃ t, exec .almanacSummary s = .next t ∧ t.now = max s.now (s.alm.lastSummary + 60000000000) ∧
      t.alm.lastSummary = t.now ∧ t.alm.head ≤ s.alm.head + 1 ∧ t = { s with now := t.now, alm := t.alm, host := t.host }) ∧
    (s.inReset = false → s.railsLow = false →
      (4 ≤ s.host.bootStage → exec .settingsJournalWrite s = done s (writeSettings s)) ∧
      (s.season.applied = true → exec .rthJournal s = done s (writeSetting s 2 0 [s.pm.rthJ, s.pm.rthS])))

/-- Resets and the boot stages (R386–R394): a reset leaves the boot flash, the fuses and the host's memory; a lost supply holds the device in reset;
each stage runs at its place, and only there, and passes to the next, and the last makes the package ready; a bad fuse block, an unknown hardware type,
a flash that does not answer or no bank that passes stops the boot. -/
def Obligations.ResetsAndBootStages : Prop :=
  ∀ (s : State) (ph : BootPhys),
    let s0 (s : State) : State := foundFlash ph s
    (exec .porstAssert s = done s { deviceReset s 2 with
      inReset := true, vg := { (deviceReset s 2).vg with tripped := false } }) ∧
    (s.inReset = true → exec .porstRelease s = .next { s with
      inReset := false, now := 0
      host := { s.host with bootCause := if s.host.bootCause = 2 then 2 else 1, bootStage := if s.railsLow then 0 else 1 } }) ∧
    (exec .hubRailLow s = done s { deviceReset s (if s.inReset then 0 else 3) with railsLow := true }) ∧
    (s.railsLow = true → exec .hubRailRecover s = .next { s with
      railsLow := false, now := 0, host := { s.host with bootStage := if s.inReset then 0 else 1 } }) ∧
    (∀ cause, (deviceReset s cause).flash = s.flash ∧ (deviceReset s cause).hostMem = s.hostMem ∧ (deviceReset s cause).mem = [] ∧
      (deviceReset s cause).plans = [] ∧ (deviceReset s cause).host.ready = false ∧ (deviceReset s cause).now = 0 ∧
      (deviceReset s cause).upd.banks = s.upd.banks ∧ (deviceReset s cause).host.bootCause = cause) ∧
    (∀ ok, atStage s 1 = true →
      exec (.hubClockLock ok) s = .next { s with ident := { s.ident with hubFuseOk := ok }, host := { s.host with bootStage := 2 } }) ∧
    (∀ s2 mask b, atStage s 2 = true → s.ident.hubFuseOk = true → knownType s.ident.hwType = true → ph.flashOk = true → 256 ≤ s.flash.mib →
      tryBanks (bootOrder (rejectTried (s0 s)).1) (rejectTried (s0 s)).1 (rejectTried (s0 s)).2 = (s2, mask, some b) →
      exec (.imageLoad ph) s = done s (bootBank s2 mask b)) ∧
    (∀ s2 mask, atStage s 2 = true → s.ident.hubFuseOk = true → knownType s.ident.hwType = true → ph.flashOk = true → 256 ≤ s.flash.mib →
      tryBanks (bootOrder (rejectTried (s0 s)).1) (rejectTried (s0 s)).1 (rejectTried (s0 s)).2 = (s2, mask, none) →
      exec (.imageLoad ph) s = done s (bootStop s2 2)) ∧
    (atStage s 2 = true → s.ident.hubFuseOk = false → exec (.imageLoad ph) s = done s (bootStop s 4)) ∧
    (atStage s 2 = true → s.ident.hubFuseOk = true → knownType s.ident.hwType = false → exec (.imageLoad ph) s = done s (bootStop s 1)) ∧
    (atStage s 2 = true → s.ident.hubFuseOk = true → knownType s.ident.hwType = true → ph.flashOk = false ∨ s.flash.mib < 256 →
      exec (.imageLoad ph) s = done s (bootStop s 3)) ∧
    (s.inReset = false → exec .porstRelease s = .next s) ∧ (s.railsLow = false → exec .hubRailRecover s = .next s) ∧
    (∀ ok, atStage s 1 = false → exec (.hubClockLock ok) s = .next s) ∧ (atStage s 2 = false → exec (.imageLoad ph) s = .next s) ∧
    (atStage s 3 = false → exec (.discovery ph) s = .next s) ∧ (atStage s 4 = false → exec (.delaySetup ph) s = .next s) ∧
    (atStage s 5 = false → exec (.errorInjection ph) s = .next s) ∧ (atStage s 6 = false → exec (.seasonSelection ph) s = .next s) ∧
    (atStage s 7 = false ∨ s.host.ready = true → exec .ready s = .next s) ∧
    (atStage s 3 = true → exec (.discovery ph) s = done s (toStage (discover ph s) 4)) ∧
    (atStage s 4 = true → exec (.delaySetup ph) s = done s (toStage (setupDelays ph s) 5)) ∧
    (atStage s 5 = true → exec (.errorInjection ph) s = done s (toStage (injectErrors ph s) 6)) ∧
    (atStage s 6 = true → exec (.seasonSelection ph) s = done s (toStage (startSeason ph s) 7)) ∧
    (atStage s 7 = true → s.host.ready = false →
      ∃ t, exec .ready s = .next t ∧ t = { becomeReady s with pending := s.pending } ∧ t.host.ready = true ∧ t.cal.frame = 0 ∧
        s.now < t.cal.next ∧
        (0 < s.cal.periodReg → ((t.cal.next : Int) - s.cal.phaseUs * 1000) % (s.cal.periodReg * 100000) = 0))

/-- Cooling, power and ageing (R424–R443): samples, the cap and its control, coolant and flow, SURVIVAL and its end, warm hold and the re-plan. A
falling cap takes effect at once, a rising one by at most 1 W each 100 ms. In reset, before a Season is applied, or where its condition does not hold,
an event does nothing. -/
def Obligations.PowerEventsTakeEffect : Prop :=
  ∀ s : State,
    (s.inReset = false → s.railsLow = false →
      (∀ x, exec (.pmSample x) s = done s (pmSample x s)) ∧ exec .ageingReplan s = done s (ageingReplan s) ∧
      exec .coolantLost s = done s (loseCoolant { s with now := max s.now (s.pm.lastCoolant + 1000000000) }) ∧
      (s.season.cfg.flowMon = true → exec .coolFlowPulse s = .next (modPm s (fun m =>
        { m with
          flowCount := m.flowCount + 1, flowPeriodNs := if m.flowCount = 0 then 0 else s.now - m.lastFlow
          lastFlow := s.now, flowPresent := true })))) ∧
    (s.inReset = true ∨ s.railsLow = true →
      (∀ x, exec (.pmSample x) s = .next s) ∧ exec .ageingReplan s = .next s ∧ exec .coolantLost s = .next s ∧ exec .coolFlowPulse s = .next s) ∧
    (s.season.cfg.flowMon = false → exec .coolFlowPulse s = .next s ∧ exec .flowTimeout s = .next s) ∧
    (s.season.applied = false → exec .capLawUpdate s = .next s ∧ exec .warmHoldAdjust s = .next s ∧ exec .flowTimeout s = .next s ∧
      exec .capControl s = .next s) ∧
    ((∀ q, (pmQ s q).pendingStep = none → exec (.dvfsStepComplete q) s = .next s) ∧
      ∀ q, (pmQ s q).warmBelow = none → exec (.warmShort q) s = .next s) ∧
    (s.pm.state ≠ 3 → exec .survivalP0Stop s = .next s ∧ exec .survivalExit s = .next s) ∧
    (s.vg.tripped = true ∨ s.pm.pairs.any (fun p => decide (2 ≤ p.2.tripRun)) = false → exec .thermtrip s = .next s) ∧
    (exec (.coolantRead none) s = .next s) ∧
    (∀ v : Int, v < -5120 ∨ 14080 < v → exec (.coolantRead (some v)) s = done s (loseCoolant s)) ∧
    (∀ v : Int, -5120 ≤ v → v ≤ 14080 → exec (.coolantRead (some v)) s = .next (modPm s (fun m =>
      { m with tc := v, coolantSrc := false, lastGood := some v, lastCoolant := s.now }))) ∧
    (∀ s1, s1 = { s with now := max s.now (s.pm.survAt + 20000000) } → s.pm.state = 3 → s.pm.p0Stopped = false →
      survivalCap s * 10 * (powerOver s1 10000000).2 < (powerOver s1 10000000).1 →
      exec .survivalP0Stop s = .next (modPm s1 (fun m => { m with p0Stopped := true }))) ∧
    (∀ t, s.pm.coolSince = some t → s.pm.state = 3 → t + 10000000000 ≤ s.now →
      exec .survivalExit s = done s (alm (modPm s (fun m =>
        { m with state := 0, p0Stopped := false, coolSince := none, capRiseAt := s.now })) 0xA000 .pmState 2 [0, s.pm.capW])) ∧
    (s.vg.tripped = false → s.pm.pairs.any (fun p => decide (2 ≤ p.2.tripRun)) = true →
      exec .thermtrip s = done s (tempBreach { s with vg := { s.vg with tripped := true } } 21 s.pm.tjMax)) ∧
    (s.season.applied = true →
      exec .capLawUpdate s = done s (capLawUpdate s) ∧
      (warmMayRun s = true → exec .warmHoldAdjust s = done s (warmHold s)) ∧
      (warmMayRun s = false → exec .warmHoldAdjust s = done s (stopWarm s)) ∧
      (s.season.cfg.flowMon = true →
        ∃ s1 : State, s1 = { s with now := max s.now (s.pm.lastFlow + s.season.cfg.flowTimeout * 1000000) } ∧
          exec .flowTimeout s = done s (enterSurvival (alm (modPm s1 (fun m => { m with flowPresent := false })) 0xA000 .coolant 2
            [s.season.cfg.flowTimeout]))) ∧
      ((powerOver s 10000000).2 = 0 → exec .capControl s = .next s) ∧
      (s.pm.state = 3 → (powerOver s 10000000).2 ≠ 0 →
        exec .capControl s = done s (modPm (divFree s (powerOver s 10000000).1 (powerOver s 10000000).2).2 (fun m =>
            { m with peakX10 := max m.peakX10 (sat 0xFFFF (divFree s (powerOver s 10000000).1 (powerOver s 10000000).2).1) }))) ∧
      (s.pm.state ≠ 3 → (powerOver s 10000000).2 ≠ 0 →
        ∃ s1, s1 = modPm (divFree s (powerOver s 10000000).1 (powerOver s 10000000).2).2 (fun m =>
            { m with peakX10 := max m.peakX10 (sat 0xFFFF (divFree s (powerOver s 10000000).1 (powerOver s 10000000).2).1) }) ∧
          exec .capControl s = done s (judgeState
            (if s.pm.capW * 10 * (powerOver s 10000000).2 < (powerOver s 10000000).1 then lowerOne s1
             else if (powerOver s 10000000).1 * 10 < s.pm.capW * 90 * (powerOver s 10000000).2 then raiseOne s1 else s1)))) ∧
    (∀ q k, (pmQ s q).pendingStep = some k →
      exec (.dvfsStepComplete q) s = done s (modPmQ (clockAt s q k) q (fun x => { setVqc s (vTarget s q k) x with pendingStep := none }))) ∧
    (∀ q t, (pmQ s q).warmBelow = some t →
      exec (.warmShort q) s = .next (modPmQ { s with now := max s.now (t + 10000000000) } q (fun x => { x with warmShort := true }))) ∧
    (∀ q k, vTarget s q k ≤ 850) ∧
    (capTarget s ≤ s.pm.capW → (moveCap s).pm.capW = capTarget s) ∧
    (s.pm.capW < capTarget s → (moveCap s).pm.capW ≤ capTarget s ∧ (moveCap s).pm.capW ≤ s.pm.capW + (s.now - s.pm.capRiseAt) / 100000000)

/-- The ways of an update (R413–R417) and the keys (R420): at its epoch a loaded update takes over or restarts the device; a window without
confirmation schedules the fallback, which brings the old bank back. Before their frames, or in another state of the update, none of these happens. -/
def Obligations.UpdateEpochsTakeEffect : Prop :=
  ∀ (s : State) (n : Nat),
    (s.host.ready = true → s.upd.state = 3 → s.upd.epoch = some n → n ≤ s.cal.frame →
      (s.upd.handover = 1 → exec .updateEpoch s = done s (restartDevice (setBank s (otherBank s) 2 0) 4)) ∧
      (s.upd.handover ≠ 1 → exec .updateEpoch s = done s (seamless s n)) ∧
      (seamless s n).upd.state = 4 ∧ (seamless s n).upd.bank = otherBank s ∧
      (seamless s n).upd.windowEnd = some (n + (seamless s n).upd.confirmFrames)) ∧
    (s.upd.epoch = none ∨ s.host.ready = false ∨ s.upd.state ≠ 3 ∨ (s.upd.epoch = some n ∧ s.cal.frame < n) → exec .updateEpoch s = .next s) ∧
    (s.upd.windowEnd = none ∨ s.upd.state ≠ 4 ∨ (s.upd.windowEnd = some n ∧ s.cal.frame < n) → exec .confirmWindowExpiry s = .next s) ∧
    (s.upd.fallback = none ∨ s.host.ready = false ∨ s.upd.state ≠ 5 ∨ (s.upd.fallback = some n ∧ s.cal.frame < n) →
      exec .fallbackEpoch s = .next s) ∧
    (s.host.ready = false ∨ s.upd.keysReady = true → exec .keyDerivationDone s = .next s) ∧
    (∀ w, s.upd.windowEnd = some w → s.upd.state = 4 → w ≤ s.cal.frame →
      exec .confirmWindowExpiry s = done s (scheduleFallback s (w + 2))) ∧
    (s.upd.fallback = some n → s.host.ready = true → s.upd.state = 5 → n ≤ s.cal.frame →
      (s.upd.restartKind = true → exec .fallbackEpoch s = done s (restartDevice s 4)) ∧
      (s.upd.restartKind = false → exec .fallbackEpoch s = done s (modUpd (handOver s (otherBank s)) (fun u =>
        { u with state := 6, fallback := none, staged := [] })))) ∧
    (∀ k, (scheduleFallback s k).upd.state = 5 ∧ (scheduleFallback s k).upd.fallback = some k ∧
      (bankOf (scheduleFallback s k) s.upd.bank).state = 4) ∧
    (s.host.ready = true → s.upd.keysReady = false → exec .keyDerivationDone s = .next (modUpd s (fun u =>
      { u with keysReady := true, aliasCerts := [Config.aliasCert s.upd.devSeed s.upd.cdi 0, Config.aliasCert s.upd.devSeed s.upd.cdi 1]
               devSeed := [] })))

/-! ## Memory, checks and reset -/

/-- Whatever command runs, device memory and host memory keep their canonical form: addresses strictly rising, and no listed byte equal to what an
unlisted one reads as. -/
def Obligations.MemoryStaysCanonical : Prop :=
  ∀ s t : State, Memory.wf s.mem = true → Memory.wf s.hostMem = true → step s = .next t →
    Memory.wf t.mem = true ∧ Memory.wf t.hostMem = true

/-- R178: the checksum a moved copy carries, derived from the stored one, is the one its bytes give at the destination: a good tile stays good. -/
def Obligations.MovedCopiesKeepTheirCheck : Prop :=
  ∀ (bs : List Byte) (src gs dst gd : Nat),
    movedCrc (tileCrc src gs bs) src gs dst gd bs.length = tileCrc dst gd bs

/-- One step of a CRC register of `w` bits, most significant bit first, as Table 8.6's columns define it: the next message bit meets the top bit. -/
def crcRefStep (w poly c : Nat) (b : Bool) : Nat :=
  if xor (bit c (w - 1)) b then ((c * 2) % 2 ^ w) ^^^ poly else (c * 2) % 2 ^ w

/-- The bits of a message in the order they enter the register: each byte from its lowest bit up where the CRC is reflected, else from its highest. -/
def crcRefBits (refl : Bool) (bs : List Byte) : List Bool :=
  bs.flatMap (fun b => (List.range 8).map (fun i => bit b.toNat (if refl then i else 7 - i)))

/-- A number of `w` bits with their order reversed. -/
def crcRefMirror (w c : Nat) : Nat := (List.range w).foldl (fun a i => a + b2n (bit c i) * 2 ^ (w - 1 - i)) 0

/-- A check value by the columns of Table 8.6: width, polynomial, initial value, reflection, final XOR. -/
def crcRef (w poly init : Nat) (refl : Bool) (fin : Nat) (bs : List Byte) : Nat :=
  let c := (crcRefBits refl bs).foldl (crcRefStep w poly) init
  (if refl then crcRefMirror w c else c) ^^^ fin

/-- The CRC of row `p` of Table 8.6. -/
def crcTable86 (p : Nat) (bs : List Byte) : Nat :=
  match p with
  | 0 => crcRef 32 0x1EDC6F41 0xFFFFFFFF true 0xFFFFFFFF bs
  | 1 => crcRef 32 0x04C11DB7 0xFFFFFFFF true 0xFFFFFFFF bs
  | 2 => crcRef 16 0x1021 0xFFFF false 0 bs
  | _ => crcRef 64 0x42F0E1EBA9EA3693 0 false 0 bs

/-- R190: a run of a CVU with FINAL over bytes from the data port, without folding, ends with the CRC of Table 8.6 that POLY selects, and over the
nine ASCII bytes "123456789" with the table's check value. -/
def Obligations.CheckValueUnitsComputeTheirCrcs : Prop :=
  ∀ (v : Cvu) (p : Nat) (bs : List Byte), p < 4 →
    let run (bs : List Byte) : Cvu := (({ v with len := bs.length }.begin (p + 0x140)).feed bs).finish false
    (run bs).result = crcTable86 p bs ∧ (run bs).busy = false ∧ (run bs).done = true ∧
      (run ((List.range 9).map (fun i => BitVec.ofNat 8 (0x31 + i)))).result =
        [0xE3069283, 0xCBF43926, 0x29B1, 0x6C40DF5F0B497347].getD p 0

/-- The machine right after reset: nothing waits, no time has passed, both memories are empty and canonical, no island runs and no safety output is
raised, the package is not ready, nothing is armed, and the registers whose reset values the spec gives as other than 0 read them (chapters 2, 9
and 12). -/
def Obligations.ResetState : Prop :=
  let s := State.reset
  s.pending = [] ∧ s.now = 0 ∧ s.mem = [] ∧ s.hostMem = [] ∧ Memory.wf s.mem = true ∧ Memory.wf s.hostMem = true ∧
    s.host.ready = false ∧ s.host.mbxReady = false ∧ s.islA.running = false ∧ s.islB.running = false ∧ s.islA.safe = false ∧
    s.islB.safe = false ∧ s.plans = [] ∧ s.units = [] ∧ s.cal.frame = 0 ∧
    expertRead s 0x1000000 = 0x01F400FA ∧ expertRead s 0x1000008 = 0x12C ∧ expertRead s 0x1000018 = 0x0E000000 ∧
    (∀ n, n < 12 → expertRead s (0x1000100 + 4 * n) = 0x06400000) ∧
    (∀ i, i < 5 → expertRead s (0x1060000 + 0x100 * i) = 0x40201808 ∧ expertRead s (0x1060004 + 0x100 * i) = 0x0202) ∧
    expertRead s 0x1060020 = 0x011A ∧
    (∀ q, q < 4 → expertRead s (0x1201050 + 0x10000 * q) = 7 ∧ expertRead s (0x1201058 + 0x10000 * q) = 0xC4 ∧
      expertRead s (0x1201060 + 0x10000 * q) = 0xFF ∧ expertRead s (0x1201440 + 0x10000 * q) = 0x3018)
end

