-- ==== Sys2Proof/Laws/Mailbox.lean ====
section
/-! SUPPORT. The shared mailbox operation: what a command that is accepted, refused or held back does. -/

namespace Sys2Proof.Machine

/-- A command that Xiuth runs now ends as its body says. -/
theorem mailbox_accepted (k : MbxCmd) (e : SubEntry) (s : State) (body : State → Answer) (h : Accepted k e s) :
    mailbox k e body s = answered s (body s).st e (body s).status (body s).result := by
  obtain ⟨h1, h2, h3, h4⟩ := h
  simp [mailbox, h1, h2, h3, h4, stOk, answered] at *

/-- Granting DMA channels changes nothing but which channels carry which commands. -/
theorem grantChannels_chan (s : State) : ∃ x, grantChannels s = { s with host := { s.host with dmaChan := x } } := by
  unfold grantChannels
  generalize s.host.taken = l
  induction l generalizing s with
  | nil => exact ⟨_, rfl⟩
  | cons e l ih =>
    simp only [List.foldl_cons]
    split
    · exact ih s
    · split
      · exact (ih _).imp fun _ h => h
      · exact ih s

/-- A command that ends puts its completion behind those that wait. -/
theorem complete_waiting (s : State) (e : SubEntry) (st : Nat) (r : List Byte) :
    (complete s e st r).host.waiting = s.host.waiting ++ [completionOf e st r] := by
  unfold complete
  rw [(grantChannels_chan _).choose_spec]
  rfl

/-- A completion that waits stays in its place while later entries end. -/
theorem settleStray_waiting (s : State) (n : Nat) : ∃ w, (settleStray s n).host.waiting = s.host.waiting ++ w := by
  induction n generalizing s with
  | zero => exact ⟨[], by simp [settleStray]⟩
  | succ n ih =>
    unfold settleStray
    split
    · obtain ⟨w, hw⟩ := ih (complete s _ _ [])
      exact ⟨_, by rw [hw, complete_waiting, List.append_assoc]⟩
    · exact ⟨[], by simp⟩

end Sys2Proof.Machine
end

