-- ==== Sys2Proof/Laws/Memory.lean ====
section
/-!
SUPPORT. The byte memory: read after write, the bytes a write leaves alone, and the canonical form, which every memory operation keeps.
-/

namespace Sys2Proof.Machine

/-! ## Read after write -/

theorem mget_mset_ne (m : Memory) (a b : Nat) (v : Byte) (h : b ≠ a) : mget (mset m a v) b = mget m b := by
  induction m with
  | nil =>
    unfold mset
    split <;> simp_all [mget, Ne.symm h]
  | cons p r ih =>
    obtain ⟨c, w⟩ := p
    unfold mset
    split
    · split <;> simp [mget, Ne.symm h]
    · split
      · next h2 => subst h2; split <;> simp [mget, Ne.symm h]
      · simp only [mget]; split
        · rfl
        · exact ih

/-- In a canonical memory an address below every listed one is unlisted. -/
theorem mget_below (m : Memory) (lo a : Nat) (h : Memory.wfFrom (some lo) m = true) (ha : a ≤ lo) : mget m a = Memory.unlisted := by
  induction m generalizing lo with
  | nil => rfl
  | cons p r ih =>
    obtain ⟨c, w⟩ := p
    simp only [Memory.wfFrom, Bool.and_eq_true, decide_eq_true_eq] at h
    have hc : c ≠ a := by omega
    simp only [mget, hc, if_false]
    exact ih c h.2 (by omega)

theorem mget_mset_self_from (m : Memory) (lo : Option Nat) (a : Nat) (v : Byte) (h : Memory.wfFrom lo m = true) :
    mget (mset m a v) a = v := by
  induction m generalizing lo with
  | nil =>
    unfold mset
    split
    · next h2 => simp [mget, h2]
    · simp [mget]
  | cons p r ih =>
    obtain ⟨c, w⟩ := p
    simp only [Memory.wfFrom, Bool.and_eq_true] at h
    unfold mset
    split
    · next h1 =>
      split
      · next h2 =>
        have hc : c ≠ a := by omega
        simp only [mget, hc, if_false]
        rw [h2]
        exact mget_below r c a h.2 (by omega)
      · simp [mget]
    · split
      · next h1 =>
        subst h1
        split
        · next h2 => rw [h2]; exact mget_below r a a h.2 (Nat.le_refl a)
        · simp [mget]
      · next h1 h2 =>
        simp only [mget, Ne.symm h2, if_false]
        exact ih _ h.2

theorem mget_mset_self (m : Memory) (a : Nat) (v : Byte) (h : Memory.wf m = true) : mget (mset m a v) a = v :=
  mget_mset_self_from m none a v h

/-- A write leaves every byte outside its range as it was. -/
theorem mget_mwrite_outside (m : Memory) (a b : Nat) (bs : List Byte) (h : b < a ∨ a + bs.length ≤ b) :
    mget (mwrite m a bs) b = mget m b := by
  induction bs generalizing m a with
  | nil => rfl
  | cons v r ih =>
    simp only [List.length_cons] at h
    simp only [mwrite]
    rw [ih (mset m a v) (a + 1) (by omega)]
    exact mget_mset_ne m a b v (by omega)

/-! ## The canonical form -/

theorem wfFrom_weaken (m : Memory) (lo : Option Nat) (l : Nat) (h : Memory.wfFrom (some l) m = true) (hlo : ∀ k, lo = some k → k ≤ l) :
    Memory.wfFrom lo m = true := by
  cases m with
  | nil => rfl
  | cons p r =>
    obtain ⟨c, w⟩ := p
    simp only [Memory.wfFrom, Bool.and_eq_true, decide_eq_true_eq] at *
    refine ⟨⟨?_, h.1.2⟩, h.2⟩
    cases lo with
    | none => rfl
    | some k => have := hlo k rfl; simp; omega

theorem wfFrom_cons (lo : Option Nat) (a : Nat) (v : Byte) (r : Memory) :
    Memory.wfFrom lo ((a, v) :: r) = true ↔ (∀ k, lo = some k → k < a) ∧ v ≠ Memory.unlisted ∧ Memory.wfFrom (some a) r = true := by
  cases lo <;> simp [Memory.wfFrom, and_assoc]

theorem wfFrom_mset (m : Memory) (lo : Option Nat) (a : Nat) (v : Byte) (h : Memory.wfFrom lo m = true) (hlo : ∀ k, lo = some k → k < a) :
    Memory.wfFrom lo (mset m a v) = true := by
  induction m generalizing lo with
  | nil =>
    unfold mset
    split
    · rfl
    · next h2 => exact (wfFrom_cons _ _ _ _).2 ⟨hlo, h2, rfl⟩
  | cons p r ih =>
    obtain ⟨c, w⟩ := p
    obtain ⟨h1, h2, h3⟩ := (wfFrom_cons _ _ _ _).1 h
    unfold mset
    split
    · next hac =>
      split
      · exact h
      · next hv => exact (wfFrom_cons _ _ _ _).2 ⟨hlo, hv, (wfFrom_cons _ _ _ _).2 ⟨by rintro k ⟨⟩; exact hac, h2, h3⟩⟩
    · split
      · next hac =>
        subst hac
        split
        · exact wfFrom_weaken r lo a h3 (fun k hk => Nat.le_of_lt (hlo k hk))
        · next hv => exact (wfFrom_cons _ _ _ _).2 ⟨hlo, hv, h3⟩
      · exact (wfFrom_cons _ _ _ _).2 ⟨h1, h2, ih (some c) h3 (by rintro k ⟨⟩; omega)⟩

/-- A write of one byte keeps the canonical form. -/
theorem wf_mset (m : Memory) (a : Nat) (v : Byte) (h : Memory.wf m = true) : Memory.wf (mset m a v) = true :=
  wfFrom_mset m none a v h (by simp)

/-- A write keeps the canonical form. -/
theorem wf_mwrite (m : Memory) (a : Nat) (bs : List Byte) (h : Memory.wf m = true) : Memory.wf (mwrite m a bs) = true := by
  induction bs generalizing m a with
  | nil => exact h
  | cons v r ih => exact ih (mset m a v) (a + 1) (wf_mset m a v h)

/-- Bytes written in any order, one by one, keep the canonical form. -/
theorem wf_foldl_mset (ps : List (Nat × Byte)) (m : Memory) (h : Memory.wf m = true) :
    Memory.wf (ps.foldl (fun m p => mset m p.1 p.2) m) = true := by
  induction ps generalizing m with
  | nil => exact h
  | cons p r ih => exact ih _ (wf_mset m p.1 p.2 h)

theorem wfFrom_filter (m : Memory) (lo : Option Nat) (f : Nat × Byte → Bool) (h : Memory.wfFrom lo m = true) :
    Memory.wfFrom lo (m.filter f) = true := by
  induction m generalizing lo with
  | nil => rfl
  | cons p r ih =>
    obtain ⟨c, w⟩ := p
    obtain ⟨h1, h2, h3⟩ := (wfFrom_cons _ _ _ _).1 h
    simp only [List.filter]
    split
    · exact (wfFrom_cons _ _ _ _).2 ⟨h1, h2, ih _ h3⟩
    · exact wfFrom_weaken _ lo c (ih _ h3) (fun k hk => Nat.le_of_lt (h1 k hk))

/-- Clearing a range keeps the canonical form. -/
theorem wf_mclear (m : Memory) (a n : Nat) (h : Memory.wf m = true) : Memory.wf (mclear m a n) = true :=
  wfFrom_filter m none _ h

/-- A cleared range reads as unlisted, and every other byte as before. -/
theorem mget_mclear_outside (m : Memory) (a n b : Nat) (h : b < a ∨ a + n ≤ b) : mget (mclear m a n) b = mget m b := by
  induction m with
  | nil => rfl
  | cons p r ih =>
    obtain ⟨c, w⟩ := p
    unfold mclear at *
    simp only [List.filter]
    split
    · simp only [mget]; split
      · rfl
      · exact ih
    · next hf =>
      have hc : c ≠ b := by
        intro e; subst e
        simp at hf; omega
      simp only [mget, hc, if_false]; exact ih

/-- The bytes a write stored read back. -/
theorem mget_mwrite_inside (m : Memory) (a : Nat) (bs : List Byte) (i : Nat) (hi : i < bs.length) (h : Memory.wf m = true) :
    mget (mwrite m a bs) (a + i) = bs[i] := by
  induction bs generalizing m a i with
  | nil => exact absurd hi (by simp)
  | cons v r ih =>
    cases i with
    | zero =>
      simp only [mwrite, Nat.add_zero, List.getElem_cons_zero]
      rw [mget_mwrite_outside _ _ _ _ (by omega)]
      exact mget_mset_self m a v h
    | succ j =>
      have := ih (mset m a v) (a + 1) j (by simpa using hi) (wf_mset m a v h)
      simpa [mwrite, Nat.add_assoc, Nat.add_comm 1 j] using this

/-- A read of what a write stored gives it back. -/
theorem mread_mwrite (m : Memory) (a : Nat) (bs : List Byte) (h : Memory.wf m = true) : mread (mwrite m a bs) a bs.length = bs := by
  apply List.ext_getElem
  · simp [mread]
  · intro i h1 h2
    simp only [mread, List.getElem_map, List.getElem_range]
    exact mget_mwrite_inside m a bs i h2 h

theorem wf_scatter (m : Memory) (gs : List (Nat × Nat)) (bs : List Byte) (h : Memory.wf m = true) : Memory.wf (scatter m gs bs) = true := by
  induction gs generalizing m bs with
  | nil => simpa [scatter] using h
  | cons g r ih =>
    simp only [scatter]
    split
    · exact h
    · exact ih _ _ (wf_mwrite _ _ _ h)

/-! ## Operations of the machine -/

theorem wr_wf (s : State) (a : Nat) (bs : List Byte) (h : Memory.wf s.mem = true) : Memory.wf (wr s a bs).mem = true := wf_mwrite _ _ _ h

theorem wrBit_wf (s : State) (a b : Nat) (v : Bool) (h : Memory.wf s.mem = true) : Memory.wf (wrBit s a b v).mem = true := wr_wf _ _ _ h

theorem putCheck_wf (s : State) (a k g c : Nat) (h : Memory.wf s.mem = true) : Memory.wf (putCheck s a k g c).mem = true := by
  unfold putCheck
  split
  · exact wrBit_wf _ _ _ _ (wr_wf _ _ _ h)
  · exact h

/-- Writing a tile keeps the canonical form. -/
theorem putTile_wf (s : State) (a k g c : Nat) (bs : List Byte) (h : Memory.wf s.mem = true) : Memory.wf (putTile s a k g c bs).mem = true :=
  putCheck_wf _ _ _ _ _ (wr_wf _ _ _ h)

theorem dropCheck_wf (s : State) (a k : Nat) (h : Memory.wf s.mem = true) : Memory.wf (dropCheck s a k).mem = true := by
  unfold dropCheck
  split
  · exact wrBit_wf _ _ _ _ h
  · exact h

/-- A report in the host's buffer keeps host memory's canonical form. -/
theorem bufOut_wf (s : State) (e : SubEntry) (bs : List Byte) (h : Memory.wf s.hostMem = true) : Memory.wf (bufOut s e bs).hostMem = true :=
  wf_scatter _ _ _ h

/-- If each step of a fold keeps a property, so does the fold. -/
theorem foldl_keeps {α σ : Type} (P : σ → Prop) (f : σ → α → σ) (hf : ∀ s x, P s → P (f s x)) (l : List α) (s : σ) (h : P s) : P (l.foldl f s) := by
  induction l generalizing s with
  | nil => exact h
  | cons x r ih => exact ih _ (hf s x h)

end Sys2Proof.Machine
end

