-- ==== Sys2Proof/Laws/State.lean ====
section
/-!
SUPPORT. What each plain update of the state leaves: one lemma for every field and update, true by definition, so that no proof unfolds an update.
Generated text; the fields an update changes stand first.
-/

namespace Sys2Proof.Machine

/-! ## putUnit -/

@[simp] theorem putUnit_units (s : State) (r : Nat) (u : SeqUnit) : (putUnit s r u).units = tput s.units r u := rfl
@[simp] theorem putUnit_pending (s : State) (r : Nat) (u : SeqUnit) : (putUnit s r u).pending = s.pending := rfl
@[simp] theorem putUnit_now (s : State) (r : Nat) (u : SeqUnit) : (putUnit s r u).now = s.now := rfl
@[simp] theorem putUnit_fresh (s : State) (r : Nat) (u : SeqUnit) : (putUnit s r u).fresh = s.fresh := rfl
@[simp] theorem putUnit_inReset (s : State) (r : Nat) (u : SeqUnit) : (putUnit s r u).inReset = s.inReset := rfl
@[simp] theorem putUnit_railsLow (s : State) (r : Nat) (u : SeqUnit) : (putUnit s r u).railsLow = s.railsLow := rfl
@[simp] theorem putUnit_boot0 (s : State) (r : Nat) (u : SeqUnit) : (putUnit s r u).boot0 = s.boot0 := rfl
@[simp] theorem putUnit_cal (s : State) (r : Nat) (u : SeqUnit) : (putUnit s r u).cal = s.cal := rfl
@[simp] theorem putUnit_trig (s : State) (r : Nat) (u : SeqUnit) : (putUnit s r u).trig = s.trig := rfl
@[simp] theorem putUnit_stats (s : State) (r : Nat) (u : SeqUnit) : (putUnit s r u).stats = s.stats := rfl
@[simp] theorem putUnit_reportPend (s : State) (r : Nat) (u : SeqUnit) : (putUnit s r u).reportPend = s.reportPend := rfl
@[simp] theorem putUnit_reportRaw (s : State) (r : Nat) (u : SeqUnit) : (putUnit s r u).reportRaw = s.reportRaw := rfl
@[simp] theorem putUnit_plans (s : State) (r : Nat) (u : SeqUnit) : (putUnit s r u).plans = s.plans := rfl
@[simp] theorem putUnit_flights (s : State) (r : Nat) (u : SeqUnit) : (putUnit s r u).flights = s.flights := rfl
@[simp] theorem putUnit_clu (s : State) (r : Nat) (u : SeqUnit) : (putUnit s r u).clu = s.clu := rfl
@[simp] theorem putUnit_nle (s : State) (r : Nat) (u : SeqUnit) : (putUnit s r u).nle = s.nle := rfl
@[simp] theorem putUnit_mem (s : State) (r : Nat) (u : SeqUnit) : (putUnit s r u).mem = s.mem := rfl
@[simp] theorem putUnit_side (s : State) (r : Nat) (u : SeqUnit) : (putUnit s r u).side = s.side := rfl
@[simp] theorem putUnit_tags (s : State) (r : Nat) (u : SeqUnit) : (putUnit s r u).tags = s.tags := rfl
@[simp] theorem putUnit_tagPend (s : State) (r : Nat) (u : SeqUnit) : (putUnit s r u).tagPend = s.tagPend := rfl
@[simp] theorem putUnit_tagUse (s : State) (r : Nat) (u : SeqUnit) : (putUnit s r u).tagUse = s.tagUse := rfl
@[simp] theorem putUnit_seqs (s : State) (r : Nat) (u : SeqUnit) : (putUnit s r u).seqs = s.seqs := rfl
@[simp] theorem putUnit_regions (s : State) (r : Nat) (u : SeqUnit) : (putUnit s r u).regions = s.regions := rfl
@[simp] theorem putUnit_fines (s : State) (r : Nat) (u : SeqUnit) : (putUnit s r u).fines = s.fines := rfl
@[simp] theorem putUnit_cvu (s : State) (r : Nat) (u : SeqUnit) : (putUnit s r u).cvu = s.cvu := rfl
@[simp] theorem putUnit_stc (s : State) (r : Nat) (u : SeqUnit) : (putUnit s r u).stc = s.stc := rfl
@[simp] theorem putUnit_streams (s : State) (r : Nat) (u : SeqUnit) : (putUnit s r u).streams = s.streams := rfl
@[simp] theorem putUnit_fus (s : State) (r : Nat) (u : SeqUnit) : (putUnit s r u).fus = s.fus := rfl
@[simp] theorem putUnit_pln (s : State) (r : Nat) (u : SeqUnit) : (putUnit s r u).pln = s.pln := rfl
@[simp] theorem putUnit_ident (s : State) (r : Nat) (u : SeqUnit) : (putUnit s r u).ident = s.ident := rfl
@[simp] theorem putUnit_rgl (s : State) (r : Nat) (u : SeqUnit) : (putUnit s r u).rgl = s.rgl := rfl
@[simp] theorem putUnit_ports (s : State) (r : Nat) (u : SeqUnit) : (putUnit s r u).ports = s.ports := rfl
@[simp] theorem putUnit_swIn (s : State) (r : Nat) (u : SeqUnit) : (putUnit s r u).swIn = s.swIn := rfl
@[simp] theorem putUnit_swOut (s : State) (r : Nat) (u : SeqUnit) : (putUnit s r u).swOut = s.swOut := rfl
@[simp] theorem putUnit_swWait (s : State) (r : Nat) (u : SeqUnit) : (putUnit s r u).swWait = s.swWait := rfl
@[simp] theorem putUnit_swTurn (s : State) (r : Nat) (u : SeqUnit) : (putUnit s r u).swTurn = s.swTurn := rfl
@[simp] theorem putUnit_islA (s : State) (r : Nat) (u : SeqUnit) : (putUnit s r u).islA = s.islA := rfl
@[simp] theorem putUnit_islB (s : State) (r : Nat) (u : SeqUnit) : (putUnit s r u).islB = s.islB := rfl
@[simp] theorem putUnit_vg (s : State) (r : Nat) (u : SeqUnit) : (putUnit s r u).vg = s.vg := rfl
@[simp] theorem putUnit_twinNotes (s : State) (r : Nat) (u : SeqUnit) : (putUnit s r u).twinNotes = s.twinNotes := rfl
@[simp] theorem putUnit_health (s : State) (r : Nat) (u : SeqUnit) : (putUnit s r u).health = s.health := rfl
@[simp] theorem putUnit_hltQ (s : State) (r : Nat) (u : SeqUnit) : (putUnit s r u).hltQ = s.hltQ := rfl
@[simp] theorem putUnit_hEvents (s : State) (r : Nat) (u : SeqUnit) : (putUnit s r u).hEvents = s.hEvents := rfl
@[simp] theorem putUnit_hRecent (s : State) (r : Nat) (u : SeqUnit) : (putUnit s r u).hRecent = s.hRecent := rfl
@[simp] theorem putUnit_engDisp (s : State) (r : Nat) (u : SeqUnit) : (putUnit s r u).engDisp = s.engDisp := rfl
@[simp] theorem putUnit_repairs (s : State) (r : Nat) (u : SeqUnit) : (putUnit s r u).repairs = s.repairs := rfl
@[simp] theorem putUnit_tileFails (s : State) (r : Nat) (u : SeqUnit) : (putUnit s r u).tileFails = s.tileFails := rfl
@[simp] theorem putUnit_hbJudged (s : State) (r : Nat) (u : SeqUnit) : (putUnit s r u).hbJudged = s.hbJudged := rfl
@[simp] theorem putUnit_quarantines (s : State) (r : Nat) (u : SeqUnit) : (putUnit s r u).quarantines = s.quarantines := rfl
@[simp] theorem putUnit_hards (s : State) (r : Nat) (u : SeqUnit) : (putUnit s r u).hards = s.hards := rfl
@[simp] theorem putUnit_commons (s : State) (r : Nat) (u : SeqUnit) : (putUnit s r u).commons = s.commons := rfl
@[simp] theorem putUnit_suspects (s : State) (r : Nat) (u : SeqUnit) : (putUnit s r u).suspects = s.suspects := rfl
@[simp] theorem putUnit_moved (s : State) (r : Nat) (u : SeqUnit) : (putUnit s r u).moved = s.moved := rfl
@[simp] theorem putUnit_exclDone (s : State) (r : Nat) (u : SeqUnit) : (putUnit s r u).exclDone = s.exclDone := rfl
@[simp] theorem putUnit_st (s : State) (r : Nat) (u : SeqUnit) : (putUnit s r u).st = s.st := rfl
@[simp] theorem putUnit_alm (s : State) (r : Nat) (u : SeqUnit) : (putUnit s r u).alm = s.alm := rfl
@[simp] theorem putUnit_host (s : State) (r : Nat) (u : SeqUnit) : (putUnit s r u).host = s.host := rfl
@[simp] theorem putUnit_hostMem (s : State) (r : Nat) (u : SeqUnit) : (putUnit s r u).hostMem = s.hostMem := rfl
@[simp] theorem putUnit_flash (s : State) (r : Nat) (u : SeqUnit) : (putUnit s r u).flash = s.flash := rfl
@[simp] theorem putUnit_season (s : State) (r : Nat) (u : SeqUnit) : (putUnit s r u).season = s.season := rfl
@[simp] theorem putUnit_upd (s : State) (r : Nat) (u : SeqUnit) : (putUnit s r u).upd = s.upd := rfl
@[simp] theorem putUnit_pm (s : State) (r : Nat) (u : SeqUnit) : (putUnit s r u).pm = s.pm := rfl
@[simp] theorem putUnit_links (s : State) (r : Nat) (u : SeqUnit) : (putUnit s r u).links = s.links := rfl
@[simp] theorem putUnit_time (s : State) (r : Nat) (u : SeqUnit) : (putUnit s r u).time = s.time := rfl

/-! ## modUnit -/

@[simp] theorem modUnit_units (s : State) (r : Nat) (f : SeqUnit → SeqUnit) : (modUnit s r f).units = tput s.units r (f (unitOf s r)) := rfl
@[simp] theorem modUnit_pending (s : State) (r : Nat) (f : SeqUnit → SeqUnit) : (modUnit s r f).pending = s.pending := rfl
@[simp] theorem modUnit_now (s : State) (r : Nat) (f : SeqUnit → SeqUnit) : (modUnit s r f).now = s.now := rfl
@[simp] theorem modUnit_fresh (s : State) (r : Nat) (f : SeqUnit → SeqUnit) : (modUnit s r f).fresh = s.fresh := rfl
@[simp] theorem modUnit_inReset (s : State) (r : Nat) (f : SeqUnit → SeqUnit) : (modUnit s r f).inReset = s.inReset := rfl
@[simp] theorem modUnit_railsLow (s : State) (r : Nat) (f : SeqUnit → SeqUnit) : (modUnit s r f).railsLow = s.railsLow := rfl
@[simp] theorem modUnit_boot0 (s : State) (r : Nat) (f : SeqUnit → SeqUnit) : (modUnit s r f).boot0 = s.boot0 := rfl
@[simp] theorem modUnit_cal (s : State) (r : Nat) (f : SeqUnit → SeqUnit) : (modUnit s r f).cal = s.cal := rfl
@[simp] theorem modUnit_trig (s : State) (r : Nat) (f : SeqUnit → SeqUnit) : (modUnit s r f).trig = s.trig := rfl
@[simp] theorem modUnit_stats (s : State) (r : Nat) (f : SeqUnit → SeqUnit) : (modUnit s r f).stats = s.stats := rfl
@[simp] theorem modUnit_reportPend (s : State) (r : Nat) (f : SeqUnit → SeqUnit) : (modUnit s r f).reportPend = s.reportPend := rfl
@[simp] theorem modUnit_reportRaw (s : State) (r : Nat) (f : SeqUnit → SeqUnit) : (modUnit s r f).reportRaw = s.reportRaw := rfl
@[simp] theorem modUnit_plans (s : State) (r : Nat) (f : SeqUnit → SeqUnit) : (modUnit s r f).plans = s.plans := rfl
@[simp] theorem modUnit_flights (s : State) (r : Nat) (f : SeqUnit → SeqUnit) : (modUnit s r f).flights = s.flights := rfl
@[simp] theorem modUnit_clu (s : State) (r : Nat) (f : SeqUnit → SeqUnit) : (modUnit s r f).clu = s.clu := rfl
@[simp] theorem modUnit_nle (s : State) (r : Nat) (f : SeqUnit → SeqUnit) : (modUnit s r f).nle = s.nle := rfl
@[simp] theorem modUnit_mem (s : State) (r : Nat) (f : SeqUnit → SeqUnit) : (modUnit s r f).mem = s.mem := rfl
@[simp] theorem modUnit_side (s : State) (r : Nat) (f : SeqUnit → SeqUnit) : (modUnit s r f).side = s.side := rfl
@[simp] theorem modUnit_tags (s : State) (r : Nat) (f : SeqUnit → SeqUnit) : (modUnit s r f).tags = s.tags := rfl
@[simp] theorem modUnit_tagPend (s : State) (r : Nat) (f : SeqUnit → SeqUnit) : (modUnit s r f).tagPend = s.tagPend := rfl
@[simp] theorem modUnit_tagUse (s : State) (r : Nat) (f : SeqUnit → SeqUnit) : (modUnit s r f).tagUse = s.tagUse := rfl
@[simp] theorem modUnit_seqs (s : State) (r : Nat) (f : SeqUnit → SeqUnit) : (modUnit s r f).seqs = s.seqs := rfl
@[simp] theorem modUnit_regions (s : State) (r : Nat) (f : SeqUnit → SeqUnit) : (modUnit s r f).regions = s.regions := rfl
@[simp] theorem modUnit_fines (s : State) (r : Nat) (f : SeqUnit → SeqUnit) : (modUnit s r f).fines = s.fines := rfl
@[simp] theorem modUnit_cvu (s : State) (r : Nat) (f : SeqUnit → SeqUnit) : (modUnit s r f).cvu = s.cvu := rfl
@[simp] theorem modUnit_stc (s : State) (r : Nat) (f : SeqUnit → SeqUnit) : (modUnit s r f).stc = s.stc := rfl
@[simp] theorem modUnit_streams (s : State) (r : Nat) (f : SeqUnit → SeqUnit) : (modUnit s r f).streams = s.streams := rfl
@[simp] theorem modUnit_fus (s : State) (r : Nat) (f : SeqUnit → SeqUnit) : (modUnit s r f).fus = s.fus := rfl
@[simp] theorem modUnit_pln (s : State) (r : Nat) (f : SeqUnit → SeqUnit) : (modUnit s r f).pln = s.pln := rfl
@[simp] theorem modUnit_ident (s : State) (r : Nat) (f : SeqUnit → SeqUnit) : (modUnit s r f).ident = s.ident := rfl
@[simp] theorem modUnit_rgl (s : State) (r : Nat) (f : SeqUnit → SeqUnit) : (modUnit s r f).rgl = s.rgl := rfl
@[simp] theorem modUnit_ports (s : State) (r : Nat) (f : SeqUnit → SeqUnit) : (modUnit s r f).ports = s.ports := rfl
@[simp] theorem modUnit_swIn (s : State) (r : Nat) (f : SeqUnit → SeqUnit) : (modUnit s r f).swIn = s.swIn := rfl
@[simp] theorem modUnit_swOut (s : State) (r : Nat) (f : SeqUnit → SeqUnit) : (modUnit s r f).swOut = s.swOut := rfl
@[simp] theorem modUnit_swWait (s : State) (r : Nat) (f : SeqUnit → SeqUnit) : (modUnit s r f).swWait = s.swWait := rfl
@[simp] theorem modUnit_swTurn (s : State) (r : Nat) (f : SeqUnit → SeqUnit) : (modUnit s r f).swTurn = s.swTurn := rfl
@[simp] theorem modUnit_islA (s : State) (r : Nat) (f : SeqUnit → SeqUnit) : (modUnit s r f).islA = s.islA := rfl
@[simp] theorem modUnit_islB (s : State) (r : Nat) (f : SeqUnit → SeqUnit) : (modUnit s r f).islB = s.islB := rfl
@[simp] theorem modUnit_vg (s : State) (r : Nat) (f : SeqUnit → SeqUnit) : (modUnit s r f).vg = s.vg := rfl
@[simp] theorem modUnit_twinNotes (s : State) (r : Nat) (f : SeqUnit → SeqUnit) : (modUnit s r f).twinNotes = s.twinNotes := rfl
@[simp] theorem modUnit_health (s : State) (r : Nat) (f : SeqUnit → SeqUnit) : (modUnit s r f).health = s.health := rfl
@[simp] theorem modUnit_hltQ (s : State) (r : Nat) (f : SeqUnit → SeqUnit) : (modUnit s r f).hltQ = s.hltQ := rfl
@[simp] theorem modUnit_hEvents (s : State) (r : Nat) (f : SeqUnit → SeqUnit) : (modUnit s r f).hEvents = s.hEvents := rfl
@[simp] theorem modUnit_hRecent (s : State) (r : Nat) (f : SeqUnit → SeqUnit) : (modUnit s r f).hRecent = s.hRecent := rfl
@[simp] theorem modUnit_engDisp (s : State) (r : Nat) (f : SeqUnit → SeqUnit) : (modUnit s r f).engDisp = s.engDisp := rfl
@[simp] theorem modUnit_repairs (s : State) (r : Nat) (f : SeqUnit → SeqUnit) : (modUnit s r f).repairs = s.repairs := rfl
@[simp] theorem modUnit_tileFails (s : State) (r : Nat) (f : SeqUnit → SeqUnit) : (modUnit s r f).tileFails = s.tileFails := rfl
@[simp] theorem modUnit_hbJudged (s : State) (r : Nat) (f : SeqUnit → SeqUnit) : (modUnit s r f).hbJudged = s.hbJudged := rfl
@[simp] theorem modUnit_quarantines (s : State) (r : Nat) (f : SeqUnit → SeqUnit) : (modUnit s r f).quarantines = s.quarantines := rfl
@[simp] theorem modUnit_hards (s : State) (r : Nat) (f : SeqUnit → SeqUnit) : (modUnit s r f).hards = s.hards := rfl
@[simp] theorem modUnit_commons (s : State) (r : Nat) (f : SeqUnit → SeqUnit) : (modUnit s r f).commons = s.commons := rfl
@[simp] theorem modUnit_suspects (s : State) (r : Nat) (f : SeqUnit → SeqUnit) : (modUnit s r f).suspects = s.suspects := rfl
@[simp] theorem modUnit_moved (s : State) (r : Nat) (f : SeqUnit → SeqUnit) : (modUnit s r f).moved = s.moved := rfl
@[simp] theorem modUnit_exclDone (s : State) (r : Nat) (f : SeqUnit → SeqUnit) : (modUnit s r f).exclDone = s.exclDone := rfl
@[simp] theorem modUnit_st (s : State) (r : Nat) (f : SeqUnit → SeqUnit) : (modUnit s r f).st = s.st := rfl
@[simp] theorem modUnit_alm (s : State) (r : Nat) (f : SeqUnit → SeqUnit) : (modUnit s r f).alm = s.alm := rfl
@[simp] theorem modUnit_host (s : State) (r : Nat) (f : SeqUnit → SeqUnit) : (modUnit s r f).host = s.host := rfl
@[simp] theorem modUnit_hostMem (s : State) (r : Nat) (f : SeqUnit → SeqUnit) : (modUnit s r f).hostMem = s.hostMem := rfl
@[simp] theorem modUnit_flash (s : State) (r : Nat) (f : SeqUnit → SeqUnit) : (modUnit s r f).flash = s.flash := rfl
@[simp] theorem modUnit_season (s : State) (r : Nat) (f : SeqUnit → SeqUnit) : (modUnit s r f).season = s.season := rfl
@[simp] theorem modUnit_upd (s : State) (r : Nat) (f : SeqUnit → SeqUnit) : (modUnit s r f).upd = s.upd := rfl
@[simp] theorem modUnit_pm (s : State) (r : Nat) (f : SeqUnit → SeqUnit) : (modUnit s r f).pm = s.pm := rfl
@[simp] theorem modUnit_links (s : State) (r : Nat) (f : SeqUnit → SeqUnit) : (modUnit s r f).links = s.links := rfl
@[simp] theorem modUnit_time (s : State) (r : Nat) (f : SeqUnit → SeqUnit) : (modUnit s r f).time = s.time := rfl

/-! ## putCtx -/

@[simp] theorem putCtx_pending (s : State) (r k : Nat) (c : Ctx) : (putCtx s r k c).pending = s.pending := rfl
@[simp] theorem putCtx_now (s : State) (r k : Nat) (c : Ctx) : (putCtx s r k c).now = s.now := rfl
@[simp] theorem putCtx_fresh (s : State) (r k : Nat) (c : Ctx) : (putCtx s r k c).fresh = s.fresh := rfl
@[simp] theorem putCtx_inReset (s : State) (r k : Nat) (c : Ctx) : (putCtx s r k c).inReset = s.inReset := rfl
@[simp] theorem putCtx_railsLow (s : State) (r k : Nat) (c : Ctx) : (putCtx s r k c).railsLow = s.railsLow := rfl
@[simp] theorem putCtx_boot0 (s : State) (r k : Nat) (c : Ctx) : (putCtx s r k c).boot0 = s.boot0 := rfl
@[simp] theorem putCtx_cal (s : State) (r k : Nat) (c : Ctx) : (putCtx s r k c).cal = s.cal := rfl
@[simp] theorem putCtx_trig (s : State) (r k : Nat) (c : Ctx) : (putCtx s r k c).trig = s.trig := rfl
@[simp] theorem putCtx_stats (s : State) (r k : Nat) (c : Ctx) : (putCtx s r k c).stats = s.stats := rfl
@[simp] theorem putCtx_reportPend (s : State) (r k : Nat) (c : Ctx) : (putCtx s r k c).reportPend = s.reportPend := rfl
@[simp] theorem putCtx_reportRaw (s : State) (r k : Nat) (c : Ctx) : (putCtx s r k c).reportRaw = s.reportRaw := rfl
@[simp] theorem putCtx_plans (s : State) (r k : Nat) (c : Ctx) : (putCtx s r k c).plans = s.plans := rfl
@[simp] theorem putCtx_flights (s : State) (r k : Nat) (c : Ctx) : (putCtx s r k c).flights = s.flights := rfl
@[simp] theorem putCtx_clu (s : State) (r k : Nat) (c : Ctx) : (putCtx s r k c).clu = s.clu := rfl
@[simp] theorem putCtx_nle (s : State) (r k : Nat) (c : Ctx) : (putCtx s r k c).nle = s.nle := rfl
@[simp] theorem putCtx_mem (s : State) (r k : Nat) (c : Ctx) : (putCtx s r k c).mem = s.mem := rfl
@[simp] theorem putCtx_side (s : State) (r k : Nat) (c : Ctx) : (putCtx s r k c).side = s.side := rfl
@[simp] theorem putCtx_tags (s : State) (r k : Nat) (c : Ctx) : (putCtx s r k c).tags = s.tags := rfl
@[simp] theorem putCtx_tagPend (s : State) (r k : Nat) (c : Ctx) : (putCtx s r k c).tagPend = s.tagPend := rfl
@[simp] theorem putCtx_tagUse (s : State) (r k : Nat) (c : Ctx) : (putCtx s r k c).tagUse = s.tagUse := rfl
@[simp] theorem putCtx_seqs (s : State) (r k : Nat) (c : Ctx) : (putCtx s r k c).seqs = s.seqs := rfl
@[simp] theorem putCtx_regions (s : State) (r k : Nat) (c : Ctx) : (putCtx s r k c).regions = s.regions := rfl
@[simp] theorem putCtx_fines (s : State) (r k : Nat) (c : Ctx) : (putCtx s r k c).fines = s.fines := rfl
@[simp] theorem putCtx_cvu (s : State) (r k : Nat) (c : Ctx) : (putCtx s r k c).cvu = s.cvu := rfl
@[simp] theorem putCtx_stc (s : State) (r k : Nat) (c : Ctx) : (putCtx s r k c).stc = s.stc := rfl
@[simp] theorem putCtx_streams (s : State) (r k : Nat) (c : Ctx) : (putCtx s r k c).streams = s.streams := rfl
@[simp] theorem putCtx_fus (s : State) (r k : Nat) (c : Ctx) : (putCtx s r k c).fus = s.fus := rfl
@[simp] theorem putCtx_pln (s : State) (r k : Nat) (c : Ctx) : (putCtx s r k c).pln = s.pln := rfl
@[simp] theorem putCtx_ident (s : State) (r k : Nat) (c : Ctx) : (putCtx s r k c).ident = s.ident := rfl
@[simp] theorem putCtx_rgl (s : State) (r k : Nat) (c : Ctx) : (putCtx s r k c).rgl = s.rgl := rfl
@[simp] theorem putCtx_ports (s : State) (r k : Nat) (c : Ctx) : (putCtx s r k c).ports = s.ports := rfl
@[simp] theorem putCtx_swIn (s : State) (r k : Nat) (c : Ctx) : (putCtx s r k c).swIn = s.swIn := rfl
@[simp] theorem putCtx_swOut (s : State) (r k : Nat) (c : Ctx) : (putCtx s r k c).swOut = s.swOut := rfl
@[simp] theorem putCtx_swWait (s : State) (r k : Nat) (c : Ctx) : (putCtx s r k c).swWait = s.swWait := rfl
@[simp] theorem putCtx_swTurn (s : State) (r k : Nat) (c : Ctx) : (putCtx s r k c).swTurn = s.swTurn := rfl
@[simp] theorem putCtx_islA (s : State) (r k : Nat) (c : Ctx) : (putCtx s r k c).islA = s.islA := rfl
@[simp] theorem putCtx_islB (s : State) (r k : Nat) (c : Ctx) : (putCtx s r k c).islB = s.islB := rfl
@[simp] theorem putCtx_vg (s : State) (r k : Nat) (c : Ctx) : (putCtx s r k c).vg = s.vg := rfl
@[simp] theorem putCtx_twinNotes (s : State) (r k : Nat) (c : Ctx) : (putCtx s r k c).twinNotes = s.twinNotes := rfl
@[simp] theorem putCtx_health (s : State) (r k : Nat) (c : Ctx) : (putCtx s r k c).health = s.health := rfl
@[simp] theorem putCtx_hltQ (s : State) (r k : Nat) (c : Ctx) : (putCtx s r k c).hltQ = s.hltQ := rfl
@[simp] theorem putCtx_hEvents (s : State) (r k : Nat) (c : Ctx) : (putCtx s r k c).hEvents = s.hEvents := rfl
@[simp] theorem putCtx_hRecent (s : State) (r k : Nat) (c : Ctx) : (putCtx s r k c).hRecent = s.hRecent := rfl
@[simp] theorem putCtx_engDisp (s : State) (r k : Nat) (c : Ctx) : (putCtx s r k c).engDisp = s.engDisp := rfl
@[simp] theorem putCtx_repairs (s : State) (r k : Nat) (c : Ctx) : (putCtx s r k c).repairs = s.repairs := rfl
@[simp] theorem putCtx_tileFails (s : State) (r k : Nat) (c : Ctx) : (putCtx s r k c).tileFails = s.tileFails := rfl
@[simp] theorem putCtx_hbJudged (s : State) (r k : Nat) (c : Ctx) : (putCtx s r k c).hbJudged = s.hbJudged := rfl
@[simp] theorem putCtx_quarantines (s : State) (r k : Nat) (c : Ctx) : (putCtx s r k c).quarantines = s.quarantines := rfl
@[simp] theorem putCtx_hards (s : State) (r k : Nat) (c : Ctx) : (putCtx s r k c).hards = s.hards := rfl
@[simp] theorem putCtx_commons (s : State) (r k : Nat) (c : Ctx) : (putCtx s r k c).commons = s.commons := rfl
@[simp] theorem putCtx_suspects (s : State) (r k : Nat) (c : Ctx) : (putCtx s r k c).suspects = s.suspects := rfl
@[simp] theorem putCtx_moved (s : State) (r k : Nat) (c : Ctx) : (putCtx s r k c).moved = s.moved := rfl
@[simp] theorem putCtx_exclDone (s : State) (r k : Nat) (c : Ctx) : (putCtx s r k c).exclDone = s.exclDone := rfl
@[simp] theorem putCtx_st (s : State) (r k : Nat) (c : Ctx) : (putCtx s r k c).st = s.st := rfl
@[simp] theorem putCtx_alm (s : State) (r k : Nat) (c : Ctx) : (putCtx s r k c).alm = s.alm := rfl
@[simp] theorem putCtx_host (s : State) (r k : Nat) (c : Ctx) : (putCtx s r k c).host = s.host := rfl
@[simp] theorem putCtx_hostMem (s : State) (r k : Nat) (c : Ctx) : (putCtx s r k c).hostMem = s.hostMem := rfl
@[simp] theorem putCtx_flash (s : State) (r k : Nat) (c : Ctx) : (putCtx s r k c).flash = s.flash := rfl
@[simp] theorem putCtx_season (s : State) (r k : Nat) (c : Ctx) : (putCtx s r k c).season = s.season := rfl
@[simp] theorem putCtx_upd (s : State) (r k : Nat) (c : Ctx) : (putCtx s r k c).upd = s.upd := rfl
@[simp] theorem putCtx_pm (s : State) (r k : Nat) (c : Ctx) : (putCtx s r k c).pm = s.pm := rfl
@[simp] theorem putCtx_links (s : State) (r k : Nat) (c : Ctx) : (putCtx s r k c).links = s.links := rfl
@[simp] theorem putCtx_time (s : State) (r k : Nat) (c : Ctx) : (putCtx s r k c).time = s.time := rfl

/-! ## modClu -/

@[simp] theorem modClu_clu (s : State) (g : Nat) (f : Clu → Clu) : (modClu s g f).clu = tmod s.clu g {} f := rfl
@[simp] theorem modClu_pending (s : State) (g : Nat) (f : Clu → Clu) : (modClu s g f).pending = s.pending := rfl
@[simp] theorem modClu_now (s : State) (g : Nat) (f : Clu → Clu) : (modClu s g f).now = s.now := rfl
@[simp] theorem modClu_fresh (s : State) (g : Nat) (f : Clu → Clu) : (modClu s g f).fresh = s.fresh := rfl
@[simp] theorem modClu_inReset (s : State) (g : Nat) (f : Clu → Clu) : (modClu s g f).inReset = s.inReset := rfl
@[simp] theorem modClu_railsLow (s : State) (g : Nat) (f : Clu → Clu) : (modClu s g f).railsLow = s.railsLow := rfl
@[simp] theorem modClu_boot0 (s : State) (g : Nat) (f : Clu → Clu) : (modClu s g f).boot0 = s.boot0 := rfl
@[simp] theorem modClu_cal (s : State) (g : Nat) (f : Clu → Clu) : (modClu s g f).cal = s.cal := rfl
@[simp] theorem modClu_trig (s : State) (g : Nat) (f : Clu → Clu) : (modClu s g f).trig = s.trig := rfl
@[simp] theorem modClu_stats (s : State) (g : Nat) (f : Clu → Clu) : (modClu s g f).stats = s.stats := rfl
@[simp] theorem modClu_reportPend (s : State) (g : Nat) (f : Clu → Clu) : (modClu s g f).reportPend = s.reportPend := rfl
@[simp] theorem modClu_reportRaw (s : State) (g : Nat) (f : Clu → Clu) : (modClu s g f).reportRaw = s.reportRaw := rfl
@[simp] theorem modClu_plans (s : State) (g : Nat) (f : Clu → Clu) : (modClu s g f).plans = s.plans := rfl
@[simp] theorem modClu_units (s : State) (g : Nat) (f : Clu → Clu) : (modClu s g f).units = s.units := rfl
@[simp] theorem modClu_flights (s : State) (g : Nat) (f : Clu → Clu) : (modClu s g f).flights = s.flights := rfl
@[simp] theorem modClu_nle (s : State) (g : Nat) (f : Clu → Clu) : (modClu s g f).nle = s.nle := rfl
@[simp] theorem modClu_mem (s : State) (g : Nat) (f : Clu → Clu) : (modClu s g f).mem = s.mem := rfl
@[simp] theorem modClu_side (s : State) (g : Nat) (f : Clu → Clu) : (modClu s g f).side = s.side := rfl
@[simp] theorem modClu_tags (s : State) (g : Nat) (f : Clu → Clu) : (modClu s g f).tags = s.tags := rfl
@[simp] theorem modClu_tagPend (s : State) (g : Nat) (f : Clu → Clu) : (modClu s g f).tagPend = s.tagPend := rfl
@[simp] theorem modClu_tagUse (s : State) (g : Nat) (f : Clu → Clu) : (modClu s g f).tagUse = s.tagUse := rfl
@[simp] theorem modClu_seqs (s : State) (g : Nat) (f : Clu → Clu) : (modClu s g f).seqs = s.seqs := rfl
@[simp] theorem modClu_regions (s : State) (g : Nat) (f : Clu → Clu) : (modClu s g f).regions = s.regions := rfl
@[simp] theorem modClu_fines (s : State) (g : Nat) (f : Clu → Clu) : (modClu s g f).fines = s.fines := rfl
@[simp] theorem modClu_cvu (s : State) (g : Nat) (f : Clu → Clu) : (modClu s g f).cvu = s.cvu := rfl
@[simp] theorem modClu_stc (s : State) (g : Nat) (f : Clu → Clu) : (modClu s g f).stc = s.stc := rfl
@[simp] theorem modClu_streams (s : State) (g : Nat) (f : Clu → Clu) : (modClu s g f).streams = s.streams := rfl
@[simp] theorem modClu_fus (s : State) (g : Nat) (f : Clu → Clu) : (modClu s g f).fus = s.fus := rfl
@[simp] theorem modClu_pln (s : State) (g : Nat) (f : Clu → Clu) : (modClu s g f).pln = s.pln := rfl
@[simp] theorem modClu_ident (s : State) (g : Nat) (f : Clu → Clu) : (modClu s g f).ident = s.ident := rfl
@[simp] theorem modClu_rgl (s : State) (g : Nat) (f : Clu → Clu) : (modClu s g f).rgl = s.rgl := rfl
@[simp] theorem modClu_ports (s : State) (g : Nat) (f : Clu → Clu) : (modClu s g f).ports = s.ports := rfl
@[simp] theorem modClu_swIn (s : State) (g : Nat) (f : Clu → Clu) : (modClu s g f).swIn = s.swIn := rfl
@[simp] theorem modClu_swOut (s : State) (g : Nat) (f : Clu → Clu) : (modClu s g f).swOut = s.swOut := rfl
@[simp] theorem modClu_swWait (s : State) (g : Nat) (f : Clu → Clu) : (modClu s g f).swWait = s.swWait := rfl
@[simp] theorem modClu_swTurn (s : State) (g : Nat) (f : Clu → Clu) : (modClu s g f).swTurn = s.swTurn := rfl
@[simp] theorem modClu_islA (s : State) (g : Nat) (f : Clu → Clu) : (modClu s g f).islA = s.islA := rfl
@[simp] theorem modClu_islB (s : State) (g : Nat) (f : Clu → Clu) : (modClu s g f).islB = s.islB := rfl
@[simp] theorem modClu_vg (s : State) (g : Nat) (f : Clu → Clu) : (modClu s g f).vg = s.vg := rfl
@[simp] theorem modClu_twinNotes (s : State) (g : Nat) (f : Clu → Clu) : (modClu s g f).twinNotes = s.twinNotes := rfl
@[simp] theorem modClu_health (s : State) (g : Nat) (f : Clu → Clu) : (modClu s g f).health = s.health := rfl
@[simp] theorem modClu_hltQ (s : State) (g : Nat) (f : Clu → Clu) : (modClu s g f).hltQ = s.hltQ := rfl
@[simp] theorem modClu_hEvents (s : State) (g : Nat) (f : Clu → Clu) : (modClu s g f).hEvents = s.hEvents := rfl
@[simp] theorem modClu_hRecent (s : State) (g : Nat) (f : Clu → Clu) : (modClu s g f).hRecent = s.hRecent := rfl
@[simp] theorem modClu_engDisp (s : State) (g : Nat) (f : Clu → Clu) : (modClu s g f).engDisp = s.engDisp := rfl
@[simp] theorem modClu_repairs (s : State) (g : Nat) (f : Clu → Clu) : (modClu s g f).repairs = s.repairs := rfl
@[simp] theorem modClu_tileFails (s : State) (g : Nat) (f : Clu → Clu) : (modClu s g f).tileFails = s.tileFails := rfl
@[simp] theorem modClu_hbJudged (s : State) (g : Nat) (f : Clu → Clu) : (modClu s g f).hbJudged = s.hbJudged := rfl
@[simp] theorem modClu_quarantines (s : State) (g : Nat) (f : Clu → Clu) : (modClu s g f).quarantines = s.quarantines := rfl
@[simp] theorem modClu_hards (s : State) (g : Nat) (f : Clu → Clu) : (modClu s g f).hards = s.hards := rfl
@[simp] theorem modClu_commons (s : State) (g : Nat) (f : Clu → Clu) : (modClu s g f).commons = s.commons := rfl
@[simp] theorem modClu_suspects (s : State) (g : Nat) (f : Clu → Clu) : (modClu s g f).suspects = s.suspects := rfl
@[simp] theorem modClu_moved (s : State) (g : Nat) (f : Clu → Clu) : (modClu s g f).moved = s.moved := rfl
@[simp] theorem modClu_exclDone (s : State) (g : Nat) (f : Clu → Clu) : (modClu s g f).exclDone = s.exclDone := rfl
@[simp] theorem modClu_st (s : State) (g : Nat) (f : Clu → Clu) : (modClu s g f).st = s.st := rfl
@[simp] theorem modClu_alm (s : State) (g : Nat) (f : Clu → Clu) : (modClu s g f).alm = s.alm := rfl
@[simp] theorem modClu_host (s : State) (g : Nat) (f : Clu → Clu) : (modClu s g f).host = s.host := rfl
@[simp] theorem modClu_hostMem (s : State) (g : Nat) (f : Clu → Clu) : (modClu s g f).hostMem = s.hostMem := rfl
@[simp] theorem modClu_flash (s : State) (g : Nat) (f : Clu → Clu) : (modClu s g f).flash = s.flash := rfl
@[simp] theorem modClu_season (s : State) (g : Nat) (f : Clu → Clu) : (modClu s g f).season = s.season := rfl
@[simp] theorem modClu_upd (s : State) (g : Nat) (f : Clu → Clu) : (modClu s g f).upd = s.upd := rfl
@[simp] theorem modClu_pm (s : State) (g : Nat) (f : Clu → Clu) : (modClu s g f).pm = s.pm := rfl
@[simp] theorem modClu_links (s : State) (g : Nat) (f : Clu → Clu) : (modClu s g f).links = s.links := rfl
@[simp] theorem modClu_time (s : State) (g : Nat) (f : Clu → Clu) : (modClu s g f).time = s.time := rfl

/-! ## modNle -/

@[simp] theorem modNle_nle (s : State) (q : Nat) (f : Nle → Nle) : (modNle s q f).nle = tmod s.nle q {} f := rfl
@[simp] theorem modNle_pending (s : State) (q : Nat) (f : Nle → Nle) : (modNle s q f).pending = s.pending := rfl
@[simp] theorem modNle_now (s : State) (q : Nat) (f : Nle → Nle) : (modNle s q f).now = s.now := rfl
@[simp] theorem modNle_fresh (s : State) (q : Nat) (f : Nle → Nle) : (modNle s q f).fresh = s.fresh := rfl
@[simp] theorem modNle_inReset (s : State) (q : Nat) (f : Nle → Nle) : (modNle s q f).inReset = s.inReset := rfl
@[simp] theorem modNle_railsLow (s : State) (q : Nat) (f : Nle → Nle) : (modNle s q f).railsLow = s.railsLow := rfl
@[simp] theorem modNle_boot0 (s : State) (q : Nat) (f : Nle → Nle) : (modNle s q f).boot0 = s.boot0 := rfl
@[simp] theorem modNle_cal (s : State) (q : Nat) (f : Nle → Nle) : (modNle s q f).cal = s.cal := rfl
@[simp] theorem modNle_trig (s : State) (q : Nat) (f : Nle → Nle) : (modNle s q f).trig = s.trig := rfl
@[simp] theorem modNle_stats (s : State) (q : Nat) (f : Nle → Nle) : (modNle s q f).stats = s.stats := rfl
@[simp] theorem modNle_reportPend (s : State) (q : Nat) (f : Nle → Nle) : (modNle s q f).reportPend = s.reportPend := rfl
@[simp] theorem modNle_reportRaw (s : State) (q : Nat) (f : Nle → Nle) : (modNle s q f).reportRaw = s.reportRaw := rfl
@[simp] theorem modNle_plans (s : State) (q : Nat) (f : Nle → Nle) : (modNle s q f).plans = s.plans := rfl
@[simp] theorem modNle_units (s : State) (q : Nat) (f : Nle → Nle) : (modNle s q f).units = s.units := rfl
@[simp] theorem modNle_flights (s : State) (q : Nat) (f : Nle → Nle) : (modNle s q f).flights = s.flights := rfl
@[simp] theorem modNle_clu (s : State) (q : Nat) (f : Nle → Nle) : (modNle s q f).clu = s.clu := rfl
@[simp] theorem modNle_mem (s : State) (q : Nat) (f : Nle → Nle) : (modNle s q f).mem = s.mem := rfl
@[simp] theorem modNle_side (s : State) (q : Nat) (f : Nle → Nle) : (modNle s q f).side = s.side := rfl
@[simp] theorem modNle_tags (s : State) (q : Nat) (f : Nle → Nle) : (modNle s q f).tags = s.tags := rfl
@[simp] theorem modNle_tagPend (s : State) (q : Nat) (f : Nle → Nle) : (modNle s q f).tagPend = s.tagPend := rfl
@[simp] theorem modNle_tagUse (s : State) (q : Nat) (f : Nle → Nle) : (modNle s q f).tagUse = s.tagUse := rfl
@[simp] theorem modNle_seqs (s : State) (q : Nat) (f : Nle → Nle) : (modNle s q f).seqs = s.seqs := rfl
@[simp] theorem modNle_regions (s : State) (q : Nat) (f : Nle → Nle) : (modNle s q f).regions = s.regions := rfl
@[simp] theorem modNle_fines (s : State) (q : Nat) (f : Nle → Nle) : (modNle s q f).fines = s.fines := rfl
@[simp] theorem modNle_cvu (s : State) (q : Nat) (f : Nle → Nle) : (modNle s q f).cvu = s.cvu := rfl
@[simp] theorem modNle_stc (s : State) (q : Nat) (f : Nle → Nle) : (modNle s q f).stc = s.stc := rfl
@[simp] theorem modNle_streams (s : State) (q : Nat) (f : Nle → Nle) : (modNle s q f).streams = s.streams := rfl
@[simp] theorem modNle_fus (s : State) (q : Nat) (f : Nle → Nle) : (modNle s q f).fus = s.fus := rfl
@[simp] theorem modNle_pln (s : State) (q : Nat) (f : Nle → Nle) : (modNle s q f).pln = s.pln := rfl
@[simp] theorem modNle_ident (s : State) (q : Nat) (f : Nle → Nle) : (modNle s q f).ident = s.ident := rfl
@[simp] theorem modNle_rgl (s : State) (q : Nat) (f : Nle → Nle) : (modNle s q f).rgl = s.rgl := rfl
@[simp] theorem modNle_ports (s : State) (q : Nat) (f : Nle → Nle) : (modNle s q f).ports = s.ports := rfl
@[simp] theorem modNle_swIn (s : State) (q : Nat) (f : Nle → Nle) : (modNle s q f).swIn = s.swIn := rfl
@[simp] theorem modNle_swOut (s : State) (q : Nat) (f : Nle → Nle) : (modNle s q f).swOut = s.swOut := rfl
@[simp] theorem modNle_swWait (s : State) (q : Nat) (f : Nle → Nle) : (modNle s q f).swWait = s.swWait := rfl
@[simp] theorem modNle_swTurn (s : State) (q : Nat) (f : Nle → Nle) : (modNle s q f).swTurn = s.swTurn := rfl
@[simp] theorem modNle_islA (s : State) (q : Nat) (f : Nle → Nle) : (modNle s q f).islA = s.islA := rfl
@[simp] theorem modNle_islB (s : State) (q : Nat) (f : Nle → Nle) : (modNle s q f).islB = s.islB := rfl
@[simp] theorem modNle_vg (s : State) (q : Nat) (f : Nle → Nle) : (modNle s q f).vg = s.vg := rfl
@[simp] theorem modNle_twinNotes (s : State) (q : Nat) (f : Nle → Nle) : (modNle s q f).twinNotes = s.twinNotes := rfl
@[simp] theorem modNle_health (s : State) (q : Nat) (f : Nle → Nle) : (modNle s q f).health = s.health := rfl
@[simp] theorem modNle_hltQ (s : State) (q : Nat) (f : Nle → Nle) : (modNle s q f).hltQ = s.hltQ := rfl
@[simp] theorem modNle_hEvents (s : State) (q : Nat) (f : Nle → Nle) : (modNle s q f).hEvents = s.hEvents := rfl
@[simp] theorem modNle_hRecent (s : State) (q : Nat) (f : Nle → Nle) : (modNle s q f).hRecent = s.hRecent := rfl
@[simp] theorem modNle_engDisp (s : State) (q : Nat) (f : Nle → Nle) : (modNle s q f).engDisp = s.engDisp := rfl
@[simp] theorem modNle_repairs (s : State) (q : Nat) (f : Nle → Nle) : (modNle s q f).repairs = s.repairs := rfl
@[simp] theorem modNle_tileFails (s : State) (q : Nat) (f : Nle → Nle) : (modNle s q f).tileFails = s.tileFails := rfl
@[simp] theorem modNle_hbJudged (s : State) (q : Nat) (f : Nle → Nle) : (modNle s q f).hbJudged = s.hbJudged := rfl
@[simp] theorem modNle_quarantines (s : State) (q : Nat) (f : Nle → Nle) : (modNle s q f).quarantines = s.quarantines := rfl
@[simp] theorem modNle_hards (s : State) (q : Nat) (f : Nle → Nle) : (modNle s q f).hards = s.hards := rfl
@[simp] theorem modNle_commons (s : State) (q : Nat) (f : Nle → Nle) : (modNle s q f).commons = s.commons := rfl
@[simp] theorem modNle_suspects (s : State) (q : Nat) (f : Nle → Nle) : (modNle s q f).suspects = s.suspects := rfl
@[simp] theorem modNle_moved (s : State) (q : Nat) (f : Nle → Nle) : (modNle s q f).moved = s.moved := rfl
@[simp] theorem modNle_exclDone (s : State) (q : Nat) (f : Nle → Nle) : (modNle s q f).exclDone = s.exclDone := rfl
@[simp] theorem modNle_st (s : State) (q : Nat) (f : Nle → Nle) : (modNle s q f).st = s.st := rfl
@[simp] theorem modNle_alm (s : State) (q : Nat) (f : Nle → Nle) : (modNle s q f).alm = s.alm := rfl
@[simp] theorem modNle_host (s : State) (q : Nat) (f : Nle → Nle) : (modNle s q f).host = s.host := rfl
@[simp] theorem modNle_hostMem (s : State) (q : Nat) (f : Nle → Nle) : (modNle s q f).hostMem = s.hostMem := rfl
@[simp] theorem modNle_flash (s : State) (q : Nat) (f : Nle → Nle) : (modNle s q f).flash = s.flash := rfl
@[simp] theorem modNle_season (s : State) (q : Nat) (f : Nle → Nle) : (modNle s q f).season = s.season := rfl
@[simp] theorem modNle_upd (s : State) (q : Nat) (f : Nle → Nle) : (modNle s q f).upd = s.upd := rfl
@[simp] theorem modNle_pm (s : State) (q : Nat) (f : Nle → Nle) : (modNle s q f).pm = s.pm := rfl
@[simp] theorem modNle_links (s : State) (q : Nat) (f : Nle → Nle) : (modNle s q f).links = s.links := rfl
@[simp] theorem modNle_time (s : State) (q : Nat) (f : Nle → Nle) : (modNle s q f).time = s.time := rfl

/-! ## modStats -/

@[simp] theorem modStats_stats (s : State) (f : FrameStats → FrameStats) : (modStats s f).stats = f s.stats := rfl
@[simp] theorem modStats_pending (s : State) (f : FrameStats → FrameStats) : (modStats s f).pending = s.pending := rfl
@[simp] theorem modStats_now (s : State) (f : FrameStats → FrameStats) : (modStats s f).now = s.now := rfl
@[simp] theorem modStats_fresh (s : State) (f : FrameStats → FrameStats) : (modStats s f).fresh = s.fresh := rfl
@[simp] theorem modStats_inReset (s : State) (f : FrameStats → FrameStats) : (modStats s f).inReset = s.inReset := rfl
@[simp] theorem modStats_railsLow (s : State) (f : FrameStats → FrameStats) : (modStats s f).railsLow = s.railsLow := rfl
@[simp] theorem modStats_boot0 (s : State) (f : FrameStats → FrameStats) : (modStats s f).boot0 = s.boot0 := rfl
@[simp] theorem modStats_cal (s : State) (f : FrameStats → FrameStats) : (modStats s f).cal = s.cal := rfl
@[simp] theorem modStats_trig (s : State) (f : FrameStats → FrameStats) : (modStats s f).trig = s.trig := rfl
@[simp] theorem modStats_reportPend (s : State) (f : FrameStats → FrameStats) : (modStats s f).reportPend = s.reportPend := rfl
@[simp] theorem modStats_reportRaw (s : State) (f : FrameStats → FrameStats) : (modStats s f).reportRaw = s.reportRaw := rfl
@[simp] theorem modStats_plans (s : State) (f : FrameStats → FrameStats) : (modStats s f).plans = s.plans := rfl
@[simp] theorem modStats_units (s : State) (f : FrameStats → FrameStats) : (modStats s f).units = s.units := rfl
@[simp] theorem modStats_flights (s : State) (f : FrameStats → FrameStats) : (modStats s f).flights = s.flights := rfl
@[simp] theorem modStats_clu (s : State) (f : FrameStats → FrameStats) : (modStats s f).clu = s.clu := rfl
@[simp] theorem modStats_nle (s : State) (f : FrameStats → FrameStats) : (modStats s f).nle = s.nle := rfl
@[simp] theorem modStats_mem (s : State) (f : FrameStats → FrameStats) : (modStats s f).mem = s.mem := rfl
@[simp] theorem modStats_side (s : State) (f : FrameStats → FrameStats) : (modStats s f).side = s.side := rfl
@[simp] theorem modStats_tags (s : State) (f : FrameStats → FrameStats) : (modStats s f).tags = s.tags := rfl
@[simp] theorem modStats_tagPend (s : State) (f : FrameStats → FrameStats) : (modStats s f).tagPend = s.tagPend := rfl
@[simp] theorem modStats_tagUse (s : State) (f : FrameStats → FrameStats) : (modStats s f).tagUse = s.tagUse := rfl
@[simp] theorem modStats_seqs (s : State) (f : FrameStats → FrameStats) : (modStats s f).seqs = s.seqs := rfl
@[simp] theorem modStats_regions (s : State) (f : FrameStats → FrameStats) : (modStats s f).regions = s.regions := rfl
@[simp] theorem modStats_fines (s : State) (f : FrameStats → FrameStats) : (modStats s f).fines = s.fines := rfl
@[simp] theorem modStats_cvu (s : State) (f : FrameStats → FrameStats) : (modStats s f).cvu = s.cvu := rfl
@[simp] theorem modStats_stc (s : State) (f : FrameStats → FrameStats) : (modStats s f).stc = s.stc := rfl
@[simp] theorem modStats_streams (s : State) (f : FrameStats → FrameStats) : (modStats s f).streams = s.streams := rfl
@[simp] theorem modStats_fus (s : State) (f : FrameStats → FrameStats) : (modStats s f).fus = s.fus := rfl
@[simp] theorem modStats_pln (s : State) (f : FrameStats → FrameStats) : (modStats s f).pln = s.pln := rfl
@[simp] theorem modStats_ident (s : State) (f : FrameStats → FrameStats) : (modStats s f).ident = s.ident := rfl
@[simp] theorem modStats_rgl (s : State) (f : FrameStats → FrameStats) : (modStats s f).rgl = s.rgl := rfl
@[simp] theorem modStats_ports (s : State) (f : FrameStats → FrameStats) : (modStats s f).ports = s.ports := rfl
@[simp] theorem modStats_swIn (s : State) (f : FrameStats → FrameStats) : (modStats s f).swIn = s.swIn := rfl
@[simp] theorem modStats_swOut (s : State) (f : FrameStats → FrameStats) : (modStats s f).swOut = s.swOut := rfl
@[simp] theorem modStats_swWait (s : State) (f : FrameStats → FrameStats) : (modStats s f).swWait = s.swWait := rfl
@[simp] theorem modStats_swTurn (s : State) (f : FrameStats → FrameStats) : (modStats s f).swTurn = s.swTurn := rfl
@[simp] theorem modStats_islA (s : State) (f : FrameStats → FrameStats) : (modStats s f).islA = s.islA := rfl
@[simp] theorem modStats_islB (s : State) (f : FrameStats → FrameStats) : (modStats s f).islB = s.islB := rfl
@[simp] theorem modStats_vg (s : State) (f : FrameStats → FrameStats) : (modStats s f).vg = s.vg := rfl
@[simp] theorem modStats_twinNotes (s : State) (f : FrameStats → FrameStats) : (modStats s f).twinNotes = s.twinNotes := rfl
@[simp] theorem modStats_health (s : State) (f : FrameStats → FrameStats) : (modStats s f).health = s.health := rfl
@[simp] theorem modStats_hltQ (s : State) (f : FrameStats → FrameStats) : (modStats s f).hltQ = s.hltQ := rfl
@[simp] theorem modStats_hEvents (s : State) (f : FrameStats → FrameStats) : (modStats s f).hEvents = s.hEvents := rfl
@[simp] theorem modStats_hRecent (s : State) (f : FrameStats → FrameStats) : (modStats s f).hRecent = s.hRecent := rfl
@[simp] theorem modStats_engDisp (s : State) (f : FrameStats → FrameStats) : (modStats s f).engDisp = s.engDisp := rfl
@[simp] theorem modStats_repairs (s : State) (f : FrameStats → FrameStats) : (modStats s f).repairs = s.repairs := rfl
@[simp] theorem modStats_tileFails (s : State) (f : FrameStats → FrameStats) : (modStats s f).tileFails = s.tileFails := rfl
@[simp] theorem modStats_hbJudged (s : State) (f : FrameStats → FrameStats) : (modStats s f).hbJudged = s.hbJudged := rfl
@[simp] theorem modStats_quarantines (s : State) (f : FrameStats → FrameStats) : (modStats s f).quarantines = s.quarantines := rfl
@[simp] theorem modStats_hards (s : State) (f : FrameStats → FrameStats) : (modStats s f).hards = s.hards := rfl
@[simp] theorem modStats_commons (s : State) (f : FrameStats → FrameStats) : (modStats s f).commons = s.commons := rfl
@[simp] theorem modStats_suspects (s : State) (f : FrameStats → FrameStats) : (modStats s f).suspects = s.suspects := rfl
@[simp] theorem modStats_moved (s : State) (f : FrameStats → FrameStats) : (modStats s f).moved = s.moved := rfl
@[simp] theorem modStats_exclDone (s : State) (f : FrameStats → FrameStats) : (modStats s f).exclDone = s.exclDone := rfl
@[simp] theorem modStats_st (s : State) (f : FrameStats → FrameStats) : (modStats s f).st = s.st := rfl
@[simp] theorem modStats_alm (s : State) (f : FrameStats → FrameStats) : (modStats s f).alm = s.alm := rfl
@[simp] theorem modStats_host (s : State) (f : FrameStats → FrameStats) : (modStats s f).host = s.host := rfl
@[simp] theorem modStats_hostMem (s : State) (f : FrameStats → FrameStats) : (modStats s f).hostMem = s.hostMem := rfl
@[simp] theorem modStats_flash (s : State) (f : FrameStats → FrameStats) : (modStats s f).flash = s.flash := rfl
@[simp] theorem modStats_season (s : State) (f : FrameStats → FrameStats) : (modStats s f).season = s.season := rfl
@[simp] theorem modStats_upd (s : State) (f : FrameStats → FrameStats) : (modStats s f).upd = s.upd := rfl
@[simp] theorem modStats_pm (s : State) (f : FrameStats → FrameStats) : (modStats s f).pm = s.pm := rfl
@[simp] theorem modStats_links (s : State) (f : FrameStats → FrameStats) : (modStats s f).links = s.links := rfl
@[simp] theorem modStats_time (s : State) (f : FrameStats → FrameStats) : (modStats s f).time = s.time := rfl

/-! ## modHealth -/

@[simp] theorem modHealth_health (s : State) (g : Nat) (f : Health → Health) : (modHealth s g f).health = tmod s.health g {} f := rfl
@[simp] theorem modHealth_pending (s : State) (g : Nat) (f : Health → Health) : (modHealth s g f).pending = s.pending := rfl
@[simp] theorem modHealth_now (s : State) (g : Nat) (f : Health → Health) : (modHealth s g f).now = s.now := rfl
@[simp] theorem modHealth_fresh (s : State) (g : Nat) (f : Health → Health) : (modHealth s g f).fresh = s.fresh := rfl
@[simp] theorem modHealth_inReset (s : State) (g : Nat) (f : Health → Health) : (modHealth s g f).inReset = s.inReset := rfl
@[simp] theorem modHealth_railsLow (s : State) (g : Nat) (f : Health → Health) : (modHealth s g f).railsLow = s.railsLow := rfl
@[simp] theorem modHealth_boot0 (s : State) (g : Nat) (f : Health → Health) : (modHealth s g f).boot0 = s.boot0 := rfl
@[simp] theorem modHealth_cal (s : State) (g : Nat) (f : Health → Health) : (modHealth s g f).cal = s.cal := rfl
@[simp] theorem modHealth_trig (s : State) (g : Nat) (f : Health → Health) : (modHealth s g f).trig = s.trig := rfl
@[simp] theorem modHealth_stats (s : State) (g : Nat) (f : Health → Health) : (modHealth s g f).stats = s.stats := rfl
@[simp] theorem modHealth_reportPend (s : State) (g : Nat) (f : Health → Health) : (modHealth s g f).reportPend = s.reportPend := rfl
@[simp] theorem modHealth_reportRaw (s : State) (g : Nat) (f : Health → Health) : (modHealth s g f).reportRaw = s.reportRaw := rfl
@[simp] theorem modHealth_plans (s : State) (g : Nat) (f : Health → Health) : (modHealth s g f).plans = s.plans := rfl
@[simp] theorem modHealth_units (s : State) (g : Nat) (f : Health → Health) : (modHealth s g f).units = s.units := rfl
@[simp] theorem modHealth_flights (s : State) (g : Nat) (f : Health → Health) : (modHealth s g f).flights = s.flights := rfl
@[simp] theorem modHealth_clu (s : State) (g : Nat) (f : Health → Health) : (modHealth s g f).clu = s.clu := rfl
@[simp] theorem modHealth_nle (s : State) (g : Nat) (f : Health → Health) : (modHealth s g f).nle = s.nle := rfl
@[simp] theorem modHealth_mem (s : State) (g : Nat) (f : Health → Health) : (modHealth s g f).mem = s.mem := rfl
@[simp] theorem modHealth_side (s : State) (g : Nat) (f : Health → Health) : (modHealth s g f).side = s.side := rfl
@[simp] theorem modHealth_tags (s : State) (g : Nat) (f : Health → Health) : (modHealth s g f).tags = s.tags := rfl
@[simp] theorem modHealth_tagPend (s : State) (g : Nat) (f : Health → Health) : (modHealth s g f).tagPend = s.tagPend := rfl
@[simp] theorem modHealth_tagUse (s : State) (g : Nat) (f : Health → Health) : (modHealth s g f).tagUse = s.tagUse := rfl
@[simp] theorem modHealth_seqs (s : State) (g : Nat) (f : Health → Health) : (modHealth s g f).seqs = s.seqs := rfl
@[simp] theorem modHealth_regions (s : State) (g : Nat) (f : Health → Health) : (modHealth s g f).regions = s.regions := rfl
@[simp] theorem modHealth_fines (s : State) (g : Nat) (f : Health → Health) : (modHealth s g f).fines = s.fines := rfl
@[simp] theorem modHealth_cvu (s : State) (g : Nat) (f : Health → Health) : (modHealth s g f).cvu = s.cvu := rfl
@[simp] theorem modHealth_stc (s : State) (g : Nat) (f : Health → Health) : (modHealth s g f).stc = s.stc := rfl
@[simp] theorem modHealth_streams (s : State) (g : Nat) (f : Health → Health) : (modHealth s g f).streams = s.streams := rfl
@[simp] theorem modHealth_fus (s : State) (g : Nat) (f : Health → Health) : (modHealth s g f).fus = s.fus := rfl
@[simp] theorem modHealth_pln (s : State) (g : Nat) (f : Health → Health) : (modHealth s g f).pln = s.pln := rfl
@[simp] theorem modHealth_ident (s : State) (g : Nat) (f : Health → Health) : (modHealth s g f).ident = s.ident := rfl
@[simp] theorem modHealth_rgl (s : State) (g : Nat) (f : Health → Health) : (modHealth s g f).rgl = s.rgl := rfl
@[simp] theorem modHealth_ports (s : State) (g : Nat) (f : Health → Health) : (modHealth s g f).ports = s.ports := rfl
@[simp] theorem modHealth_swIn (s : State) (g : Nat) (f : Health → Health) : (modHealth s g f).swIn = s.swIn := rfl
@[simp] theorem modHealth_swOut (s : State) (g : Nat) (f : Health → Health) : (modHealth s g f).swOut = s.swOut := rfl
@[simp] theorem modHealth_swWait (s : State) (g : Nat) (f : Health → Health) : (modHealth s g f).swWait = s.swWait := rfl
@[simp] theorem modHealth_swTurn (s : State) (g : Nat) (f : Health → Health) : (modHealth s g f).swTurn = s.swTurn := rfl
@[simp] theorem modHealth_islA (s : State) (g : Nat) (f : Health → Health) : (modHealth s g f).islA = s.islA := rfl
@[simp] theorem modHealth_islB (s : State) (g : Nat) (f : Health → Health) : (modHealth s g f).islB = s.islB := rfl
@[simp] theorem modHealth_vg (s : State) (g : Nat) (f : Health → Health) : (modHealth s g f).vg = s.vg := rfl
@[simp] theorem modHealth_twinNotes (s : State) (g : Nat) (f : Health → Health) : (modHealth s g f).twinNotes = s.twinNotes := rfl
@[simp] theorem modHealth_hltQ (s : State) (g : Nat) (f : Health → Health) : (modHealth s g f).hltQ = s.hltQ := rfl
@[simp] theorem modHealth_hEvents (s : State) (g : Nat) (f : Health → Health) : (modHealth s g f).hEvents = s.hEvents := rfl
@[simp] theorem modHealth_hRecent (s : State) (g : Nat) (f : Health → Health) : (modHealth s g f).hRecent = s.hRecent := rfl
@[simp] theorem modHealth_engDisp (s : State) (g : Nat) (f : Health → Health) : (modHealth s g f).engDisp = s.engDisp := rfl
@[simp] theorem modHealth_repairs (s : State) (g : Nat) (f : Health → Health) : (modHealth s g f).repairs = s.repairs := rfl
@[simp] theorem modHealth_tileFails (s : State) (g : Nat) (f : Health → Health) : (modHealth s g f).tileFails = s.tileFails := rfl
@[simp] theorem modHealth_hbJudged (s : State) (g : Nat) (f : Health → Health) : (modHealth s g f).hbJudged = s.hbJudged := rfl
@[simp] theorem modHealth_quarantines (s : State) (g : Nat) (f : Health → Health) : (modHealth s g f).quarantines = s.quarantines := rfl
@[simp] theorem modHealth_hards (s : State) (g : Nat) (f : Health → Health) : (modHealth s g f).hards = s.hards := rfl
@[simp] theorem modHealth_commons (s : State) (g : Nat) (f : Health → Health) : (modHealth s g f).commons = s.commons := rfl
@[simp] theorem modHealth_suspects (s : State) (g : Nat) (f : Health → Health) : (modHealth s g f).suspects = s.suspects := rfl
@[simp] theorem modHealth_moved (s : State) (g : Nat) (f : Health → Health) : (modHealth s g f).moved = s.moved := rfl
@[simp] theorem modHealth_exclDone (s : State) (g : Nat) (f : Health → Health) : (modHealth s g f).exclDone = s.exclDone := rfl
@[simp] theorem modHealth_st (s : State) (g : Nat) (f : Health → Health) : (modHealth s g f).st = s.st := rfl
@[simp] theorem modHealth_alm (s : State) (g : Nat) (f : Health → Health) : (modHealth s g f).alm = s.alm := rfl
@[simp] theorem modHealth_host (s : State) (g : Nat) (f : Health → Health) : (modHealth s g f).host = s.host := rfl
@[simp] theorem modHealth_hostMem (s : State) (g : Nat) (f : Health → Health) : (modHealth s g f).hostMem = s.hostMem := rfl
@[simp] theorem modHealth_flash (s : State) (g : Nat) (f : Health → Health) : (modHealth s g f).flash = s.flash := rfl
@[simp] theorem modHealth_season (s : State) (g : Nat) (f : Health → Health) : (modHealth s g f).season = s.season := rfl
@[simp] theorem modHealth_upd (s : State) (g : Nat) (f : Health → Health) : (modHealth s g f).upd = s.upd := rfl
@[simp] theorem modHealth_pm (s : State) (g : Nat) (f : Health → Health) : (modHealth s g f).pm = s.pm := rfl
@[simp] theorem modHealth_links (s : State) (g : Nat) (f : Health → Health) : (modHealth s g f).links = s.links := rfl
@[simp] theorem modHealth_time (s : State) (g : Nat) (f : Health → Health) : (modHealth s g f).time = s.time := rfl

/-! ## modHltQ -/

@[simp] theorem modHltQ_hltQ (s : State) (q : Nat) (f : HltQ → HltQ) : (modHltQ s q f).hltQ = tmod s.hltQ q {} f := rfl
@[simp] theorem modHltQ_pending (s : State) (q : Nat) (f : HltQ → HltQ) : (modHltQ s q f).pending = s.pending := rfl
@[simp] theorem modHltQ_now (s : State) (q : Nat) (f : HltQ → HltQ) : (modHltQ s q f).now = s.now := rfl
@[simp] theorem modHltQ_fresh (s : State) (q : Nat) (f : HltQ → HltQ) : (modHltQ s q f).fresh = s.fresh := rfl
@[simp] theorem modHltQ_inReset (s : State) (q : Nat) (f : HltQ → HltQ) : (modHltQ s q f).inReset = s.inReset := rfl
@[simp] theorem modHltQ_railsLow (s : State) (q : Nat) (f : HltQ → HltQ) : (modHltQ s q f).railsLow = s.railsLow := rfl
@[simp] theorem modHltQ_boot0 (s : State) (q : Nat) (f : HltQ → HltQ) : (modHltQ s q f).boot0 = s.boot0 := rfl
@[simp] theorem modHltQ_cal (s : State) (q : Nat) (f : HltQ → HltQ) : (modHltQ s q f).cal = s.cal := rfl
@[simp] theorem modHltQ_trig (s : State) (q : Nat) (f : HltQ → HltQ) : (modHltQ s q f).trig = s.trig := rfl
@[simp] theorem modHltQ_stats (s : State) (q : Nat) (f : HltQ → HltQ) : (modHltQ s q f).stats = s.stats := rfl
@[simp] theorem modHltQ_reportPend (s : State) (q : Nat) (f : HltQ → HltQ) : (modHltQ s q f).reportPend = s.reportPend := rfl
@[simp] theorem modHltQ_reportRaw (s : State) (q : Nat) (f : HltQ → HltQ) : (modHltQ s q f).reportRaw = s.reportRaw := rfl
@[simp] theorem modHltQ_plans (s : State) (q : Nat) (f : HltQ → HltQ) : (modHltQ s q f).plans = s.plans := rfl
@[simp] theorem modHltQ_units (s : State) (q : Nat) (f : HltQ → HltQ) : (modHltQ s q f).units = s.units := rfl
@[simp] theorem modHltQ_flights (s : State) (q : Nat) (f : HltQ → HltQ) : (modHltQ s q f).flights = s.flights := rfl
@[simp] theorem modHltQ_clu (s : State) (q : Nat) (f : HltQ → HltQ) : (modHltQ s q f).clu = s.clu := rfl
@[simp] theorem modHltQ_nle (s : State) (q : Nat) (f : HltQ → HltQ) : (modHltQ s q f).nle = s.nle := rfl
@[simp] theorem modHltQ_mem (s : State) (q : Nat) (f : HltQ → HltQ) : (modHltQ s q f).mem = s.mem := rfl
@[simp] theorem modHltQ_side (s : State) (q : Nat) (f : HltQ → HltQ) : (modHltQ s q f).side = s.side := rfl
@[simp] theorem modHltQ_tags (s : State) (q : Nat) (f : HltQ → HltQ) : (modHltQ s q f).tags = s.tags := rfl
@[simp] theorem modHltQ_tagPend (s : State) (q : Nat) (f : HltQ → HltQ) : (modHltQ s q f).tagPend = s.tagPend := rfl
@[simp] theorem modHltQ_tagUse (s : State) (q : Nat) (f : HltQ → HltQ) : (modHltQ s q f).tagUse = s.tagUse := rfl
@[simp] theorem modHltQ_seqs (s : State) (q : Nat) (f : HltQ → HltQ) : (modHltQ s q f).seqs = s.seqs := rfl
@[simp] theorem modHltQ_regions (s : State) (q : Nat) (f : HltQ → HltQ) : (modHltQ s q f).regions = s.regions := rfl
@[simp] theorem modHltQ_fines (s : State) (q : Nat) (f : HltQ → HltQ) : (modHltQ s q f).fines = s.fines := rfl
@[simp] theorem modHltQ_cvu (s : State) (q : Nat) (f : HltQ → HltQ) : (modHltQ s q f).cvu = s.cvu := rfl
@[simp] theorem modHltQ_stc (s : State) (q : Nat) (f : HltQ → HltQ) : (modHltQ s q f).stc = s.stc := rfl
@[simp] theorem modHltQ_streams (s : State) (q : Nat) (f : HltQ → HltQ) : (modHltQ s q f).streams = s.streams := rfl
@[simp] theorem modHltQ_fus (s : State) (q : Nat) (f : HltQ → HltQ) : (modHltQ s q f).fus = s.fus := rfl
@[simp] theorem modHltQ_pln (s : State) (q : Nat) (f : HltQ → HltQ) : (modHltQ s q f).pln = s.pln := rfl
@[simp] theorem modHltQ_ident (s : State) (q : Nat) (f : HltQ → HltQ) : (modHltQ s q f).ident = s.ident := rfl
@[simp] theorem modHltQ_rgl (s : State) (q : Nat) (f : HltQ → HltQ) : (modHltQ s q f).rgl = s.rgl := rfl
@[simp] theorem modHltQ_ports (s : State) (q : Nat) (f : HltQ → HltQ) : (modHltQ s q f).ports = s.ports := rfl
@[simp] theorem modHltQ_swIn (s : State) (q : Nat) (f : HltQ → HltQ) : (modHltQ s q f).swIn = s.swIn := rfl
@[simp] theorem modHltQ_swOut (s : State) (q : Nat) (f : HltQ → HltQ) : (modHltQ s q f).swOut = s.swOut := rfl
@[simp] theorem modHltQ_swWait (s : State) (q : Nat) (f : HltQ → HltQ) : (modHltQ s q f).swWait = s.swWait := rfl
@[simp] theorem modHltQ_swTurn (s : State) (q : Nat) (f : HltQ → HltQ) : (modHltQ s q f).swTurn = s.swTurn := rfl
@[simp] theorem modHltQ_islA (s : State) (q : Nat) (f : HltQ → HltQ) : (modHltQ s q f).islA = s.islA := rfl
@[simp] theorem modHltQ_islB (s : State) (q : Nat) (f : HltQ → HltQ) : (modHltQ s q f).islB = s.islB := rfl
@[simp] theorem modHltQ_vg (s : State) (q : Nat) (f : HltQ → HltQ) : (modHltQ s q f).vg = s.vg := rfl
@[simp] theorem modHltQ_twinNotes (s : State) (q : Nat) (f : HltQ → HltQ) : (modHltQ s q f).twinNotes = s.twinNotes := rfl
@[simp] theorem modHltQ_health (s : State) (q : Nat) (f : HltQ → HltQ) : (modHltQ s q f).health = s.health := rfl
@[simp] theorem modHltQ_hEvents (s : State) (q : Nat) (f : HltQ → HltQ) : (modHltQ s q f).hEvents = s.hEvents := rfl
@[simp] theorem modHltQ_hRecent (s : State) (q : Nat) (f : HltQ → HltQ) : (modHltQ s q f).hRecent = s.hRecent := rfl
@[simp] theorem modHltQ_engDisp (s : State) (q : Nat) (f : HltQ → HltQ) : (modHltQ s q f).engDisp = s.engDisp := rfl
@[simp] theorem modHltQ_repairs (s : State) (q : Nat) (f : HltQ → HltQ) : (modHltQ s q f).repairs = s.repairs := rfl
@[simp] theorem modHltQ_tileFails (s : State) (q : Nat) (f : HltQ → HltQ) : (modHltQ s q f).tileFails = s.tileFails := rfl
@[simp] theorem modHltQ_hbJudged (s : State) (q : Nat) (f : HltQ → HltQ) : (modHltQ s q f).hbJudged = s.hbJudged := rfl
@[simp] theorem modHltQ_quarantines (s : State) (q : Nat) (f : HltQ → HltQ) : (modHltQ s q f).quarantines = s.quarantines := rfl
@[simp] theorem modHltQ_hards (s : State) (q : Nat) (f : HltQ → HltQ) : (modHltQ s q f).hards = s.hards := rfl
@[simp] theorem modHltQ_commons (s : State) (q : Nat) (f : HltQ → HltQ) : (modHltQ s q f).commons = s.commons := rfl
@[simp] theorem modHltQ_suspects (s : State) (q : Nat) (f : HltQ → HltQ) : (modHltQ s q f).suspects = s.suspects := rfl
@[simp] theorem modHltQ_moved (s : State) (q : Nat) (f : HltQ → HltQ) : (modHltQ s q f).moved = s.moved := rfl
@[simp] theorem modHltQ_exclDone (s : State) (q : Nat) (f : HltQ → HltQ) : (modHltQ s q f).exclDone = s.exclDone := rfl
@[simp] theorem modHltQ_st (s : State) (q : Nat) (f : HltQ → HltQ) : (modHltQ s q f).st = s.st := rfl
@[simp] theorem modHltQ_alm (s : State) (q : Nat) (f : HltQ → HltQ) : (modHltQ s q f).alm = s.alm := rfl
@[simp] theorem modHltQ_host (s : State) (q : Nat) (f : HltQ → HltQ) : (modHltQ s q f).host = s.host := rfl
@[simp] theorem modHltQ_hostMem (s : State) (q : Nat) (f : HltQ → HltQ) : (modHltQ s q f).hostMem = s.hostMem := rfl
@[simp] theorem modHltQ_flash (s : State) (q : Nat) (f : HltQ → HltQ) : (modHltQ s q f).flash = s.flash := rfl
@[simp] theorem modHltQ_season (s : State) (q : Nat) (f : HltQ → HltQ) : (modHltQ s q f).season = s.season := rfl
@[simp] theorem modHltQ_upd (s : State) (q : Nat) (f : HltQ → HltQ) : (modHltQ s q f).upd = s.upd := rfl
@[simp] theorem modHltQ_pm (s : State) (q : Nat) (f : HltQ → HltQ) : (modHltQ s q f).pm = s.pm := rfl
@[simp] theorem modHltQ_links (s : State) (q : Nat) (f : HltQ → HltQ) : (modHltQ s q f).links = s.links := rfl
@[simp] theorem modHltQ_time (s : State) (q : Nat) (f : HltQ → HltQ) : (modHltQ s q f).time = s.time := rfl

/-! ## modPlan -/

@[simp] theorem modPlan_pending (s : State) (id : Nat) (f : Plan → Plan) : (modPlan s id f).pending = s.pending := rfl
@[simp] theorem modPlan_now (s : State) (id : Nat) (f : Plan → Plan) : (modPlan s id f).now = s.now := rfl
@[simp] theorem modPlan_fresh (s : State) (id : Nat) (f : Plan → Plan) : (modPlan s id f).fresh = s.fresh := rfl
@[simp] theorem modPlan_inReset (s : State) (id : Nat) (f : Plan → Plan) : (modPlan s id f).inReset = s.inReset := rfl
@[simp] theorem modPlan_railsLow (s : State) (id : Nat) (f : Plan → Plan) : (modPlan s id f).railsLow = s.railsLow := rfl
@[simp] theorem modPlan_boot0 (s : State) (id : Nat) (f : Plan → Plan) : (modPlan s id f).boot0 = s.boot0 := rfl
@[simp] theorem modPlan_cal (s : State) (id : Nat) (f : Plan → Plan) : (modPlan s id f).cal = s.cal := rfl
@[simp] theorem modPlan_trig (s : State) (id : Nat) (f : Plan → Plan) : (modPlan s id f).trig = s.trig := rfl
@[simp] theorem modPlan_stats (s : State) (id : Nat) (f : Plan → Plan) : (modPlan s id f).stats = s.stats := rfl
@[simp] theorem modPlan_reportPend (s : State) (id : Nat) (f : Plan → Plan) : (modPlan s id f).reportPend = s.reportPend := rfl
@[simp] theorem modPlan_reportRaw (s : State) (id : Nat) (f : Plan → Plan) : (modPlan s id f).reportRaw = s.reportRaw := rfl
@[simp] theorem modPlan_units (s : State) (id : Nat) (f : Plan → Plan) : (modPlan s id f).units = s.units := rfl
@[simp] theorem modPlan_flights (s : State) (id : Nat) (f : Plan → Plan) : (modPlan s id f).flights = s.flights := rfl
@[simp] theorem modPlan_clu (s : State) (id : Nat) (f : Plan → Plan) : (modPlan s id f).clu = s.clu := rfl
@[simp] theorem modPlan_nle (s : State) (id : Nat) (f : Plan → Plan) : (modPlan s id f).nle = s.nle := rfl
@[simp] theorem modPlan_mem (s : State) (id : Nat) (f : Plan → Plan) : (modPlan s id f).mem = s.mem := rfl
@[simp] theorem modPlan_side (s : State) (id : Nat) (f : Plan → Plan) : (modPlan s id f).side = s.side := rfl
@[simp] theorem modPlan_tags (s : State) (id : Nat) (f : Plan → Plan) : (modPlan s id f).tags = s.tags := rfl
@[simp] theorem modPlan_tagPend (s : State) (id : Nat) (f : Plan → Plan) : (modPlan s id f).tagPend = s.tagPend := rfl
@[simp] theorem modPlan_tagUse (s : State) (id : Nat) (f : Plan → Plan) : (modPlan s id f).tagUse = s.tagUse := rfl
@[simp] theorem modPlan_seqs (s : State) (id : Nat) (f : Plan → Plan) : (modPlan s id f).seqs = s.seqs := rfl
@[simp] theorem modPlan_regions (s : State) (id : Nat) (f : Plan → Plan) : (modPlan s id f).regions = s.regions := rfl
@[simp] theorem modPlan_fines (s : State) (id : Nat) (f : Plan → Plan) : (modPlan s id f).fines = s.fines := rfl
@[simp] theorem modPlan_cvu (s : State) (id : Nat) (f : Plan → Plan) : (modPlan s id f).cvu = s.cvu := rfl
@[simp] theorem modPlan_stc (s : State) (id : Nat) (f : Plan → Plan) : (modPlan s id f).stc = s.stc := rfl
@[simp] theorem modPlan_streams (s : State) (id : Nat) (f : Plan → Plan) : (modPlan s id f).streams = s.streams := rfl
@[simp] theorem modPlan_fus (s : State) (id : Nat) (f : Plan → Plan) : (modPlan s id f).fus = s.fus := rfl
@[simp] theorem modPlan_pln (s : State) (id : Nat) (f : Plan → Plan) : (modPlan s id f).pln = s.pln := rfl
@[simp] theorem modPlan_ident (s : State) (id : Nat) (f : Plan → Plan) : (modPlan s id f).ident = s.ident := rfl
@[simp] theorem modPlan_rgl (s : State) (id : Nat) (f : Plan → Plan) : (modPlan s id f).rgl = s.rgl := rfl
@[simp] theorem modPlan_ports (s : State) (id : Nat) (f : Plan → Plan) : (modPlan s id f).ports = s.ports := rfl
@[simp] theorem modPlan_swIn (s : State) (id : Nat) (f : Plan → Plan) : (modPlan s id f).swIn = s.swIn := rfl
@[simp] theorem modPlan_swOut (s : State) (id : Nat) (f : Plan → Plan) : (modPlan s id f).swOut = s.swOut := rfl
@[simp] theorem modPlan_swWait (s : State) (id : Nat) (f : Plan → Plan) : (modPlan s id f).swWait = s.swWait := rfl
@[simp] theorem modPlan_swTurn (s : State) (id : Nat) (f : Plan → Plan) : (modPlan s id f).swTurn = s.swTurn := rfl
@[simp] theorem modPlan_islA (s : State) (id : Nat) (f : Plan → Plan) : (modPlan s id f).islA = s.islA := rfl
@[simp] theorem modPlan_islB (s : State) (id : Nat) (f : Plan → Plan) : (modPlan s id f).islB = s.islB := rfl
@[simp] theorem modPlan_vg (s : State) (id : Nat) (f : Plan → Plan) : (modPlan s id f).vg = s.vg := rfl
@[simp] theorem modPlan_twinNotes (s : State) (id : Nat) (f : Plan → Plan) : (modPlan s id f).twinNotes = s.twinNotes := rfl
@[simp] theorem modPlan_health (s : State) (id : Nat) (f : Plan → Plan) : (modPlan s id f).health = s.health := rfl
@[simp] theorem modPlan_hltQ (s : State) (id : Nat) (f : Plan → Plan) : (modPlan s id f).hltQ = s.hltQ := rfl
@[simp] theorem modPlan_hEvents (s : State) (id : Nat) (f : Plan → Plan) : (modPlan s id f).hEvents = s.hEvents := rfl
@[simp] theorem modPlan_hRecent (s : State) (id : Nat) (f : Plan → Plan) : (modPlan s id f).hRecent = s.hRecent := rfl
@[simp] theorem modPlan_engDisp (s : State) (id : Nat) (f : Plan → Plan) : (modPlan s id f).engDisp = s.engDisp := rfl
@[simp] theorem modPlan_repairs (s : State) (id : Nat) (f : Plan → Plan) : (modPlan s id f).repairs = s.repairs := rfl
@[simp] theorem modPlan_tileFails (s : State) (id : Nat) (f : Plan → Plan) : (modPlan s id f).tileFails = s.tileFails := rfl
@[simp] theorem modPlan_hbJudged (s : State) (id : Nat) (f : Plan → Plan) : (modPlan s id f).hbJudged = s.hbJudged := rfl
@[simp] theorem modPlan_quarantines (s : State) (id : Nat) (f : Plan → Plan) : (modPlan s id f).quarantines = s.quarantines := rfl
@[simp] theorem modPlan_hards (s : State) (id : Nat) (f : Plan → Plan) : (modPlan s id f).hards = s.hards := rfl
@[simp] theorem modPlan_commons (s : State) (id : Nat) (f : Plan → Plan) : (modPlan s id f).commons = s.commons := rfl
@[simp] theorem modPlan_suspects (s : State) (id : Nat) (f : Plan → Plan) : (modPlan s id f).suspects = s.suspects := rfl
@[simp] theorem modPlan_moved (s : State) (id : Nat) (f : Plan → Plan) : (modPlan s id f).moved = s.moved := rfl
@[simp] theorem modPlan_exclDone (s : State) (id : Nat) (f : Plan → Plan) : (modPlan s id f).exclDone = s.exclDone := rfl
@[simp] theorem modPlan_st (s : State) (id : Nat) (f : Plan → Plan) : (modPlan s id f).st = s.st := rfl
@[simp] theorem modPlan_alm (s : State) (id : Nat) (f : Plan → Plan) : (modPlan s id f).alm = s.alm := rfl
@[simp] theorem modPlan_host (s : State) (id : Nat) (f : Plan → Plan) : (modPlan s id f).host = s.host := rfl
@[simp] theorem modPlan_hostMem (s : State) (id : Nat) (f : Plan → Plan) : (modPlan s id f).hostMem = s.hostMem := rfl
@[simp] theorem modPlan_flash (s : State) (id : Nat) (f : Plan → Plan) : (modPlan s id f).flash = s.flash := rfl
@[simp] theorem modPlan_season (s : State) (id : Nat) (f : Plan → Plan) : (modPlan s id f).season = s.season := rfl
@[simp] theorem modPlan_upd (s : State) (id : Nat) (f : Plan → Plan) : (modPlan s id f).upd = s.upd := rfl
@[simp] theorem modPlan_pm (s : State) (id : Nat) (f : Plan → Plan) : (modPlan s id f).pm = s.pm := rfl
@[simp] theorem modPlan_links (s : State) (id : Nat) (f : Plan → Plan) : (modPlan s id f).links = s.links := rfl
@[simp] theorem modPlan_time (s : State) (id : Nat) (f : Plan → Plan) : (modPlan s id f).time = s.time := rfl

/-! ## wr -/

@[simp] theorem wr_mem (s : State) (a : Nat) (bs : List Byte) : (wr s a bs).mem = mwrite s.mem a bs := rfl
@[simp] theorem wr_pending (s : State) (a : Nat) (bs : List Byte) : (wr s a bs).pending = s.pending := rfl
@[simp] theorem wr_now (s : State) (a : Nat) (bs : List Byte) : (wr s a bs).now = s.now := rfl
@[simp] theorem wr_fresh (s : State) (a : Nat) (bs : List Byte) : (wr s a bs).fresh = s.fresh := rfl
@[simp] theorem wr_inReset (s : State) (a : Nat) (bs : List Byte) : (wr s a bs).inReset = s.inReset := rfl
@[simp] theorem wr_railsLow (s : State) (a : Nat) (bs : List Byte) : (wr s a bs).railsLow = s.railsLow := rfl
@[simp] theorem wr_boot0 (s : State) (a : Nat) (bs : List Byte) : (wr s a bs).boot0 = s.boot0 := rfl
@[simp] theorem wr_cal (s : State) (a : Nat) (bs : List Byte) : (wr s a bs).cal = s.cal := rfl
@[simp] theorem wr_trig (s : State) (a : Nat) (bs : List Byte) : (wr s a bs).trig = s.trig := rfl
@[simp] theorem wr_stats (s : State) (a : Nat) (bs : List Byte) : (wr s a bs).stats = s.stats := rfl
@[simp] theorem wr_reportPend (s : State) (a : Nat) (bs : List Byte) : (wr s a bs).reportPend = s.reportPend := rfl
@[simp] theorem wr_reportRaw (s : State) (a : Nat) (bs : List Byte) : (wr s a bs).reportRaw = s.reportRaw := rfl
@[simp] theorem wr_plans (s : State) (a : Nat) (bs : List Byte) : (wr s a bs).plans = s.plans := rfl
@[simp] theorem wr_units (s : State) (a : Nat) (bs : List Byte) : (wr s a bs).units = s.units := rfl
@[simp] theorem wr_flights (s : State) (a : Nat) (bs : List Byte) : (wr s a bs).flights = s.flights := rfl
@[simp] theorem wr_clu (s : State) (a : Nat) (bs : List Byte) : (wr s a bs).clu = s.clu := rfl
@[simp] theorem wr_nle (s : State) (a : Nat) (bs : List Byte) : (wr s a bs).nle = s.nle := rfl
@[simp] theorem wr_side (s : State) (a : Nat) (bs : List Byte) : (wr s a bs).side = s.side := rfl
@[simp] theorem wr_tags (s : State) (a : Nat) (bs : List Byte) : (wr s a bs).tags = s.tags := rfl
@[simp] theorem wr_tagPend (s : State) (a : Nat) (bs : List Byte) : (wr s a bs).tagPend = s.tagPend := rfl
@[simp] theorem wr_tagUse (s : State) (a : Nat) (bs : List Byte) : (wr s a bs).tagUse = s.tagUse := rfl
@[simp] theorem wr_seqs (s : State) (a : Nat) (bs : List Byte) : (wr s a bs).seqs = s.seqs := rfl
@[simp] theorem wr_regions (s : State) (a : Nat) (bs : List Byte) : (wr s a bs).regions = s.regions := rfl
@[simp] theorem wr_fines (s : State) (a : Nat) (bs : List Byte) : (wr s a bs).fines = s.fines := rfl
@[simp] theorem wr_cvu (s : State) (a : Nat) (bs : List Byte) : (wr s a bs).cvu = s.cvu := rfl
@[simp] theorem wr_stc (s : State) (a : Nat) (bs : List Byte) : (wr s a bs).stc = s.stc := rfl
@[simp] theorem wr_streams (s : State) (a : Nat) (bs : List Byte) : (wr s a bs).streams = s.streams := rfl
@[simp] theorem wr_fus (s : State) (a : Nat) (bs : List Byte) : (wr s a bs).fus = s.fus := rfl
@[simp] theorem wr_pln (s : State) (a : Nat) (bs : List Byte) : (wr s a bs).pln = s.pln := rfl
@[simp] theorem wr_ident (s : State) (a : Nat) (bs : List Byte) : (wr s a bs).ident = s.ident := rfl
@[simp] theorem wr_rgl (s : State) (a : Nat) (bs : List Byte) : (wr s a bs).rgl = s.rgl := rfl
@[simp] theorem wr_ports (s : State) (a : Nat) (bs : List Byte) : (wr s a bs).ports = s.ports := rfl
@[simp] theorem wr_swIn (s : State) (a : Nat) (bs : List Byte) : (wr s a bs).swIn = s.swIn := rfl
@[simp] theorem wr_swOut (s : State) (a : Nat) (bs : List Byte) : (wr s a bs).swOut = s.swOut := rfl
@[simp] theorem wr_swWait (s : State) (a : Nat) (bs : List Byte) : (wr s a bs).swWait = s.swWait := rfl
@[simp] theorem wr_swTurn (s : State) (a : Nat) (bs : List Byte) : (wr s a bs).swTurn = s.swTurn := rfl
@[simp] theorem wr_islA (s : State) (a : Nat) (bs : List Byte) : (wr s a bs).islA = s.islA := rfl
@[simp] theorem wr_islB (s : State) (a : Nat) (bs : List Byte) : (wr s a bs).islB = s.islB := rfl
@[simp] theorem wr_vg (s : State) (a : Nat) (bs : List Byte) : (wr s a bs).vg = s.vg := rfl
@[simp] theorem wr_twinNotes (s : State) (a : Nat) (bs : List Byte) : (wr s a bs).twinNotes = s.twinNotes := rfl
@[simp] theorem wr_health (s : State) (a : Nat) (bs : List Byte) : (wr s a bs).health = s.health := rfl
@[simp] theorem wr_hltQ (s : State) (a : Nat) (bs : List Byte) : (wr s a bs).hltQ = s.hltQ := rfl
@[simp] theorem wr_hEvents (s : State) (a : Nat) (bs : List Byte) : (wr s a bs).hEvents = s.hEvents := rfl
@[simp] theorem wr_hRecent (s : State) (a : Nat) (bs : List Byte) : (wr s a bs).hRecent = s.hRecent := rfl
@[simp] theorem wr_engDisp (s : State) (a : Nat) (bs : List Byte) : (wr s a bs).engDisp = s.engDisp := rfl
@[simp] theorem wr_repairs (s : State) (a : Nat) (bs : List Byte) : (wr s a bs).repairs = s.repairs := rfl
@[simp] theorem wr_tileFails (s : State) (a : Nat) (bs : List Byte) : (wr s a bs).tileFails = s.tileFails := rfl
@[simp] theorem wr_hbJudged (s : State) (a : Nat) (bs : List Byte) : (wr s a bs).hbJudged = s.hbJudged := rfl
@[simp] theorem wr_quarantines (s : State) (a : Nat) (bs : List Byte) : (wr s a bs).quarantines = s.quarantines := rfl
@[simp] theorem wr_hards (s : State) (a : Nat) (bs : List Byte) : (wr s a bs).hards = s.hards := rfl
@[simp] theorem wr_commons (s : State) (a : Nat) (bs : List Byte) : (wr s a bs).commons = s.commons := rfl
@[simp] theorem wr_suspects (s : State) (a : Nat) (bs : List Byte) : (wr s a bs).suspects = s.suspects := rfl
@[simp] theorem wr_moved (s : State) (a : Nat) (bs : List Byte) : (wr s a bs).moved = s.moved := rfl
@[simp] theorem wr_exclDone (s : State) (a : Nat) (bs : List Byte) : (wr s a bs).exclDone = s.exclDone := rfl
@[simp] theorem wr_st (s : State) (a : Nat) (bs : List Byte) : (wr s a bs).st = s.st := rfl
@[simp] theorem wr_alm (s : State) (a : Nat) (bs : List Byte) : (wr s a bs).alm = s.alm := rfl
@[simp] theorem wr_host (s : State) (a : Nat) (bs : List Byte) : (wr s a bs).host = s.host := rfl
@[simp] theorem wr_hostMem (s : State) (a : Nat) (bs : List Byte) : (wr s a bs).hostMem = s.hostMem := rfl
@[simp] theorem wr_flash (s : State) (a : Nat) (bs : List Byte) : (wr s a bs).flash = s.flash := rfl
@[simp] theorem wr_season (s : State) (a : Nat) (bs : List Byte) : (wr s a bs).season = s.season := rfl
@[simp] theorem wr_upd (s : State) (a : Nat) (bs : List Byte) : (wr s a bs).upd = s.upd := rfl
@[simp] theorem wr_pm (s : State) (a : Nat) (bs : List Byte) : (wr s a bs).pm = s.pm := rfl
@[simp] theorem wr_links (s : State) (a : Nat) (bs : List Byte) : (wr s a bs).links = s.links := rfl
@[simp] theorem wr_time (s : State) (a : Nat) (bs : List Byte) : (wr s a bs).time = s.time := rfl

/-! ## putCvu -/

@[simp] theorem putCvu_cvu (s : State) (k : Nat) (v : Cvu) : (putCvu s k v).cvu = tput s.cvu k v := rfl
@[simp] theorem putCvu_pending (s : State) (k : Nat) (v : Cvu) : (putCvu s k v).pending = s.pending := rfl
@[simp] theorem putCvu_now (s : State) (k : Nat) (v : Cvu) : (putCvu s k v).now = s.now := rfl
@[simp] theorem putCvu_fresh (s : State) (k : Nat) (v : Cvu) : (putCvu s k v).fresh = s.fresh := rfl
@[simp] theorem putCvu_inReset (s : State) (k : Nat) (v : Cvu) : (putCvu s k v).inReset = s.inReset := rfl
@[simp] theorem putCvu_railsLow (s : State) (k : Nat) (v : Cvu) : (putCvu s k v).railsLow = s.railsLow := rfl
@[simp] theorem putCvu_boot0 (s : State) (k : Nat) (v : Cvu) : (putCvu s k v).boot0 = s.boot0 := rfl
@[simp] theorem putCvu_cal (s : State) (k : Nat) (v : Cvu) : (putCvu s k v).cal = s.cal := rfl
@[simp] theorem putCvu_trig (s : State) (k : Nat) (v : Cvu) : (putCvu s k v).trig = s.trig := rfl
@[simp] theorem putCvu_stats (s : State) (k : Nat) (v : Cvu) : (putCvu s k v).stats = s.stats := rfl
@[simp] theorem putCvu_reportPend (s : State) (k : Nat) (v : Cvu) : (putCvu s k v).reportPend = s.reportPend := rfl
@[simp] theorem putCvu_reportRaw (s : State) (k : Nat) (v : Cvu) : (putCvu s k v).reportRaw = s.reportRaw := rfl
@[simp] theorem putCvu_plans (s : State) (k : Nat) (v : Cvu) : (putCvu s k v).plans = s.plans := rfl
@[simp] theorem putCvu_units (s : State) (k : Nat) (v : Cvu) : (putCvu s k v).units = s.units := rfl
@[simp] theorem putCvu_flights (s : State) (k : Nat) (v : Cvu) : (putCvu s k v).flights = s.flights := rfl
@[simp] theorem putCvu_clu (s : State) (k : Nat) (v : Cvu) : (putCvu s k v).clu = s.clu := rfl
@[simp] theorem putCvu_nle (s : State) (k : Nat) (v : Cvu) : (putCvu s k v).nle = s.nle := rfl
@[simp] theorem putCvu_mem (s : State) (k : Nat) (v : Cvu) : (putCvu s k v).mem = s.mem := rfl
@[simp] theorem putCvu_side (s : State) (k : Nat) (v : Cvu) : (putCvu s k v).side = s.side := rfl
@[simp] theorem putCvu_tags (s : State) (k : Nat) (v : Cvu) : (putCvu s k v).tags = s.tags := rfl
@[simp] theorem putCvu_tagPend (s : State) (k : Nat) (v : Cvu) : (putCvu s k v).tagPend = s.tagPend := rfl
@[simp] theorem putCvu_tagUse (s : State) (k : Nat) (v : Cvu) : (putCvu s k v).tagUse = s.tagUse := rfl
@[simp] theorem putCvu_seqs (s : State) (k : Nat) (v : Cvu) : (putCvu s k v).seqs = s.seqs := rfl
@[simp] theorem putCvu_regions (s : State) (k : Nat) (v : Cvu) : (putCvu s k v).regions = s.regions := rfl
@[simp] theorem putCvu_fines (s : State) (k : Nat) (v : Cvu) : (putCvu s k v).fines = s.fines := rfl
@[simp] theorem putCvu_stc (s : State) (k : Nat) (v : Cvu) : (putCvu s k v).stc = s.stc := rfl
@[simp] theorem putCvu_streams (s : State) (k : Nat) (v : Cvu) : (putCvu s k v).streams = s.streams := rfl
@[simp] theorem putCvu_fus (s : State) (k : Nat) (v : Cvu) : (putCvu s k v).fus = s.fus := rfl
@[simp] theorem putCvu_pln (s : State) (k : Nat) (v : Cvu) : (putCvu s k v).pln = s.pln := rfl
@[simp] theorem putCvu_ident (s : State) (k : Nat) (v : Cvu) : (putCvu s k v).ident = s.ident := rfl
@[simp] theorem putCvu_rgl (s : State) (k : Nat) (v : Cvu) : (putCvu s k v).rgl = s.rgl := rfl
@[simp] theorem putCvu_ports (s : State) (k : Nat) (v : Cvu) : (putCvu s k v).ports = s.ports := rfl
@[simp] theorem putCvu_swIn (s : State) (k : Nat) (v : Cvu) : (putCvu s k v).swIn = s.swIn := rfl
@[simp] theorem putCvu_swOut (s : State) (k : Nat) (v : Cvu) : (putCvu s k v).swOut = s.swOut := rfl
@[simp] theorem putCvu_swWait (s : State) (k : Nat) (v : Cvu) : (putCvu s k v).swWait = s.swWait := rfl
@[simp] theorem putCvu_swTurn (s : State) (k : Nat) (v : Cvu) : (putCvu s k v).swTurn = s.swTurn := rfl
@[simp] theorem putCvu_islA (s : State) (k : Nat) (v : Cvu) : (putCvu s k v).islA = s.islA := rfl
@[simp] theorem putCvu_islB (s : State) (k : Nat) (v : Cvu) : (putCvu s k v).islB = s.islB := rfl
@[simp] theorem putCvu_vg (s : State) (k : Nat) (v : Cvu) : (putCvu s k v).vg = s.vg := rfl
@[simp] theorem putCvu_twinNotes (s : State) (k : Nat) (v : Cvu) : (putCvu s k v).twinNotes = s.twinNotes := rfl
@[simp] theorem putCvu_health (s : State) (k : Nat) (v : Cvu) : (putCvu s k v).health = s.health := rfl
@[simp] theorem putCvu_hltQ (s : State) (k : Nat) (v : Cvu) : (putCvu s k v).hltQ = s.hltQ := rfl
@[simp] theorem putCvu_hEvents (s : State) (k : Nat) (v : Cvu) : (putCvu s k v).hEvents = s.hEvents := rfl
@[simp] theorem putCvu_hRecent (s : State) (k : Nat) (v : Cvu) : (putCvu s k v).hRecent = s.hRecent := rfl
@[simp] theorem putCvu_engDisp (s : State) (k : Nat) (v : Cvu) : (putCvu s k v).engDisp = s.engDisp := rfl
@[simp] theorem putCvu_repairs (s : State) (k : Nat) (v : Cvu) : (putCvu s k v).repairs = s.repairs := rfl
@[simp] theorem putCvu_tileFails (s : State) (k : Nat) (v : Cvu) : (putCvu s k v).tileFails = s.tileFails := rfl
@[simp] theorem putCvu_hbJudged (s : State) (k : Nat) (v : Cvu) : (putCvu s k v).hbJudged = s.hbJudged := rfl
@[simp] theorem putCvu_quarantines (s : State) (k : Nat) (v : Cvu) : (putCvu s k v).quarantines = s.quarantines := rfl
@[simp] theorem putCvu_hards (s : State) (k : Nat) (v : Cvu) : (putCvu s k v).hards = s.hards := rfl
@[simp] theorem putCvu_commons (s : State) (k : Nat) (v : Cvu) : (putCvu s k v).commons = s.commons := rfl
@[simp] theorem putCvu_suspects (s : State) (k : Nat) (v : Cvu) : (putCvu s k v).suspects = s.suspects := rfl
@[simp] theorem putCvu_moved (s : State) (k : Nat) (v : Cvu) : (putCvu s k v).moved = s.moved := rfl
@[simp] theorem putCvu_exclDone (s : State) (k : Nat) (v : Cvu) : (putCvu s k v).exclDone = s.exclDone := rfl
@[simp] theorem putCvu_st (s : State) (k : Nat) (v : Cvu) : (putCvu s k v).st = s.st := rfl
@[simp] theorem putCvu_alm (s : State) (k : Nat) (v : Cvu) : (putCvu s k v).alm = s.alm := rfl
@[simp] theorem putCvu_host (s : State) (k : Nat) (v : Cvu) : (putCvu s k v).host = s.host := rfl
@[simp] theorem putCvu_hostMem (s : State) (k : Nat) (v : Cvu) : (putCvu s k v).hostMem = s.hostMem := rfl
@[simp] theorem putCvu_flash (s : State) (k : Nat) (v : Cvu) : (putCvu s k v).flash = s.flash := rfl
@[simp] theorem putCvu_season (s : State) (k : Nat) (v : Cvu) : (putCvu s k v).season = s.season := rfl
@[simp] theorem putCvu_upd (s : State) (k : Nat) (v : Cvu) : (putCvu s k v).upd = s.upd := rfl
@[simp] theorem putCvu_pm (s : State) (k : Nat) (v : Cvu) : (putCvu s k v).pm = s.pm := rfl
@[simp] theorem putCvu_links (s : State) (k : Nat) (v : Cvu) : (putCvu s k v).links = s.links := rfl
@[simp] theorem putCvu_time (s : State) (k : Nat) (v : Cvu) : (putCvu s k v).time = s.time := rfl

/-! ## modStc -/

@[simp] theorem modStc_stc (s : State) (q : Nat) (f : Stc → Stc) : (modStc s q f).stc = tmod s.stc q {} f := rfl
@[simp] theorem modStc_pending (s : State) (q : Nat) (f : Stc → Stc) : (modStc s q f).pending = s.pending := rfl
@[simp] theorem modStc_now (s : State) (q : Nat) (f : Stc → Stc) : (modStc s q f).now = s.now := rfl
@[simp] theorem modStc_fresh (s : State) (q : Nat) (f : Stc → Stc) : (modStc s q f).fresh = s.fresh := rfl
@[simp] theorem modStc_inReset (s : State) (q : Nat) (f : Stc → Stc) : (modStc s q f).inReset = s.inReset := rfl
@[simp] theorem modStc_railsLow (s : State) (q : Nat) (f : Stc → Stc) : (modStc s q f).railsLow = s.railsLow := rfl
@[simp] theorem modStc_boot0 (s : State) (q : Nat) (f : Stc → Stc) : (modStc s q f).boot0 = s.boot0 := rfl
@[simp] theorem modStc_cal (s : State) (q : Nat) (f : Stc → Stc) : (modStc s q f).cal = s.cal := rfl
@[simp] theorem modStc_trig (s : State) (q : Nat) (f : Stc → Stc) : (modStc s q f).trig = s.trig := rfl
@[simp] theorem modStc_stats (s : State) (q : Nat) (f : Stc → Stc) : (modStc s q f).stats = s.stats := rfl
@[simp] theorem modStc_reportPend (s : State) (q : Nat) (f : Stc → Stc) : (modStc s q f).reportPend = s.reportPend := rfl
@[simp] theorem modStc_reportRaw (s : State) (q : Nat) (f : Stc → Stc) : (modStc s q f).reportRaw = s.reportRaw := rfl
@[simp] theorem modStc_plans (s : State) (q : Nat) (f : Stc → Stc) : (modStc s q f).plans = s.plans := rfl
@[simp] theorem modStc_units (s : State) (q : Nat) (f : Stc → Stc) : (modStc s q f).units = s.units := rfl
@[simp] theorem modStc_flights (s : State) (q : Nat) (f : Stc → Stc) : (modStc s q f).flights = s.flights := rfl
@[simp] theorem modStc_clu (s : State) (q : Nat) (f : Stc → Stc) : (modStc s q f).clu = s.clu := rfl
@[simp] theorem modStc_nle (s : State) (q : Nat) (f : Stc → Stc) : (modStc s q f).nle = s.nle := rfl
@[simp] theorem modStc_mem (s : State) (q : Nat) (f : Stc → Stc) : (modStc s q f).mem = s.mem := rfl
@[simp] theorem modStc_side (s : State) (q : Nat) (f : Stc → Stc) : (modStc s q f).side = s.side := rfl
@[simp] theorem modStc_tags (s : State) (q : Nat) (f : Stc → Stc) : (modStc s q f).tags = s.tags := rfl
@[simp] theorem modStc_tagPend (s : State) (q : Nat) (f : Stc → Stc) : (modStc s q f).tagPend = s.tagPend := rfl
@[simp] theorem modStc_tagUse (s : State) (q : Nat) (f : Stc → Stc) : (modStc s q f).tagUse = s.tagUse := rfl
@[simp] theorem modStc_seqs (s : State) (q : Nat) (f : Stc → Stc) : (modStc s q f).seqs = s.seqs := rfl
@[simp] theorem modStc_regions (s : State) (q : Nat) (f : Stc → Stc) : (modStc s q f).regions = s.regions := rfl
@[simp] theorem modStc_fines (s : State) (q : Nat) (f : Stc → Stc) : (modStc s q f).fines = s.fines := rfl
@[simp] theorem modStc_cvu (s : State) (q : Nat) (f : Stc → Stc) : (modStc s q f).cvu = s.cvu := rfl
@[simp] theorem modStc_streams (s : State) (q : Nat) (f : Stc → Stc) : (modStc s q f).streams = s.streams := rfl
@[simp] theorem modStc_fus (s : State) (q : Nat) (f : Stc → Stc) : (modStc s q f).fus = s.fus := rfl
@[simp] theorem modStc_pln (s : State) (q : Nat) (f : Stc → Stc) : (modStc s q f).pln = s.pln := rfl
@[simp] theorem modStc_ident (s : State) (q : Nat) (f : Stc → Stc) : (modStc s q f).ident = s.ident := rfl
@[simp] theorem modStc_rgl (s : State) (q : Nat) (f : Stc → Stc) : (modStc s q f).rgl = s.rgl := rfl
@[simp] theorem modStc_ports (s : State) (q : Nat) (f : Stc → Stc) : (modStc s q f).ports = s.ports := rfl
@[simp] theorem modStc_swIn (s : State) (q : Nat) (f : Stc → Stc) : (modStc s q f).swIn = s.swIn := rfl
@[simp] theorem modStc_swOut (s : State) (q : Nat) (f : Stc → Stc) : (modStc s q f).swOut = s.swOut := rfl
@[simp] theorem modStc_swWait (s : State) (q : Nat) (f : Stc → Stc) : (modStc s q f).swWait = s.swWait := rfl
@[simp] theorem modStc_swTurn (s : State) (q : Nat) (f : Stc → Stc) : (modStc s q f).swTurn = s.swTurn := rfl
@[simp] theorem modStc_islA (s : State) (q : Nat) (f : Stc → Stc) : (modStc s q f).islA = s.islA := rfl
@[simp] theorem modStc_islB (s : State) (q : Nat) (f : Stc → Stc) : (modStc s q f).islB = s.islB := rfl
@[simp] theorem modStc_vg (s : State) (q : Nat) (f : Stc → Stc) : (modStc s q f).vg = s.vg := rfl
@[simp] theorem modStc_twinNotes (s : State) (q : Nat) (f : Stc → Stc) : (modStc s q f).twinNotes = s.twinNotes := rfl
@[simp] theorem modStc_health (s : State) (q : Nat) (f : Stc → Stc) : (modStc s q f).health = s.health := rfl
@[simp] theorem modStc_hltQ (s : State) (q : Nat) (f : Stc → Stc) : (modStc s q f).hltQ = s.hltQ := rfl
@[simp] theorem modStc_hEvents (s : State) (q : Nat) (f : Stc → Stc) : (modStc s q f).hEvents = s.hEvents := rfl
@[simp] theorem modStc_hRecent (s : State) (q : Nat) (f : Stc → Stc) : (modStc s q f).hRecent = s.hRecent := rfl
@[simp] theorem modStc_engDisp (s : State) (q : Nat) (f : Stc → Stc) : (modStc s q f).engDisp = s.engDisp := rfl
@[simp] theorem modStc_repairs (s : State) (q : Nat) (f : Stc → Stc) : (modStc s q f).repairs = s.repairs := rfl
@[simp] theorem modStc_tileFails (s : State) (q : Nat) (f : Stc → Stc) : (modStc s q f).tileFails = s.tileFails := rfl
@[simp] theorem modStc_hbJudged (s : State) (q : Nat) (f : Stc → Stc) : (modStc s q f).hbJudged = s.hbJudged := rfl
@[simp] theorem modStc_quarantines (s : State) (q : Nat) (f : Stc → Stc) : (modStc s q f).quarantines = s.quarantines := rfl
@[simp] theorem modStc_hards (s : State) (q : Nat) (f : Stc → Stc) : (modStc s q f).hards = s.hards := rfl
@[simp] theorem modStc_commons (s : State) (q : Nat) (f : Stc → Stc) : (modStc s q f).commons = s.commons := rfl
@[simp] theorem modStc_suspects (s : State) (q : Nat) (f : Stc → Stc) : (modStc s q f).suspects = s.suspects := rfl
@[simp] theorem modStc_moved (s : State) (q : Nat) (f : Stc → Stc) : (modStc s q f).moved = s.moved := rfl
@[simp] theorem modStc_exclDone (s : State) (q : Nat) (f : Stc → Stc) : (modStc s q f).exclDone = s.exclDone := rfl
@[simp] theorem modStc_st (s : State) (q : Nat) (f : Stc → Stc) : (modStc s q f).st = s.st := rfl
@[simp] theorem modStc_alm (s : State) (q : Nat) (f : Stc → Stc) : (modStc s q f).alm = s.alm := rfl
@[simp] theorem modStc_host (s : State) (q : Nat) (f : Stc → Stc) : (modStc s q f).host = s.host := rfl
@[simp] theorem modStc_hostMem (s : State) (q : Nat) (f : Stc → Stc) : (modStc s q f).hostMem = s.hostMem := rfl
@[simp] theorem modStc_flash (s : State) (q : Nat) (f : Stc → Stc) : (modStc s q f).flash = s.flash := rfl
@[simp] theorem modStc_season (s : State) (q : Nat) (f : Stc → Stc) : (modStc s q f).season = s.season := rfl
@[simp] theorem modStc_upd (s : State) (q : Nat) (f : Stc → Stc) : (modStc s q f).upd = s.upd := rfl
@[simp] theorem modStc_pm (s : State) (q : Nat) (f : Stc → Stc) : (modStc s q f).pm = s.pm := rfl
@[simp] theorem modStc_links (s : State) (q : Nat) (f : Stc → Stc) : (modStc s q f).links = s.links := rfl
@[simp] theorem modStc_time (s : State) (q : Nat) (f : Stc → Stc) : (modStc s q f).time = s.time := rfl

/-! ## modStream -/

@[simp] theorem modStream_streams (s : State) (k : Nat) (f : Stream → Stream) : (modStream s k f).streams = tmod s.streams k {} f := rfl
@[simp] theorem modStream_pending (s : State) (k : Nat) (f : Stream → Stream) : (modStream s k f).pending = s.pending := rfl
@[simp] theorem modStream_now (s : State) (k : Nat) (f : Stream → Stream) : (modStream s k f).now = s.now := rfl
@[simp] theorem modStream_fresh (s : State) (k : Nat) (f : Stream → Stream) : (modStream s k f).fresh = s.fresh := rfl
@[simp] theorem modStream_inReset (s : State) (k : Nat) (f : Stream → Stream) : (modStream s k f).inReset = s.inReset := rfl
@[simp] theorem modStream_railsLow (s : State) (k : Nat) (f : Stream → Stream) : (modStream s k f).railsLow = s.railsLow := rfl
@[simp] theorem modStream_boot0 (s : State) (k : Nat) (f : Stream → Stream) : (modStream s k f).boot0 = s.boot0 := rfl
@[simp] theorem modStream_cal (s : State) (k : Nat) (f : Stream → Stream) : (modStream s k f).cal = s.cal := rfl
@[simp] theorem modStream_trig (s : State) (k : Nat) (f : Stream → Stream) : (modStream s k f).trig = s.trig := rfl
@[simp] theorem modStream_stats (s : State) (k : Nat) (f : Stream → Stream) : (modStream s k f).stats = s.stats := rfl
@[simp] theorem modStream_reportPend (s : State) (k : Nat) (f : Stream → Stream) : (modStream s k f).reportPend = s.reportPend := rfl
@[simp] theorem modStream_reportRaw (s : State) (k : Nat) (f : Stream → Stream) : (modStream s k f).reportRaw = s.reportRaw := rfl
@[simp] theorem modStream_plans (s : State) (k : Nat) (f : Stream → Stream) : (modStream s k f).plans = s.plans := rfl
@[simp] theorem modStream_units (s : State) (k : Nat) (f : Stream → Stream) : (modStream s k f).units = s.units := rfl
@[simp] theorem modStream_flights (s : State) (k : Nat) (f : Stream → Stream) : (modStream s k f).flights = s.flights := rfl
@[simp] theorem modStream_clu (s : State) (k : Nat) (f : Stream → Stream) : (modStream s k f).clu = s.clu := rfl
@[simp] theorem modStream_nle (s : State) (k : Nat) (f : Stream → Stream) : (modStream s k f).nle = s.nle := rfl
@[simp] theorem modStream_mem (s : State) (k : Nat) (f : Stream → Stream) : (modStream s k f).mem = s.mem := rfl
@[simp] theorem modStream_side (s : State) (k : Nat) (f : Stream → Stream) : (modStream s k f).side = s.side := rfl
@[simp] theorem modStream_tags (s : State) (k : Nat) (f : Stream → Stream) : (modStream s k f).tags = s.tags := rfl
@[simp] theorem modStream_tagPend (s : State) (k : Nat) (f : Stream → Stream) : (modStream s k f).tagPend = s.tagPend := rfl
@[simp] theorem modStream_tagUse (s : State) (k : Nat) (f : Stream → Stream) : (modStream s k f).tagUse = s.tagUse := rfl
@[simp] theorem modStream_seqs (s : State) (k : Nat) (f : Stream → Stream) : (modStream s k f).seqs = s.seqs := rfl
@[simp] theorem modStream_regions (s : State) (k : Nat) (f : Stream → Stream) : (modStream s k f).regions = s.regions := rfl
@[simp] theorem modStream_fines (s : State) (k : Nat) (f : Stream → Stream) : (modStream s k f).fines = s.fines := rfl
@[simp] theorem modStream_cvu (s : State) (k : Nat) (f : Stream → Stream) : (modStream s k f).cvu = s.cvu := rfl
@[simp] theorem modStream_stc (s : State) (k : Nat) (f : Stream → Stream) : (modStream s k f).stc = s.stc := rfl
@[simp] theorem modStream_fus (s : State) (k : Nat) (f : Stream → Stream) : (modStream s k f).fus = s.fus := rfl
@[simp] theorem modStream_pln (s : State) (k : Nat) (f : Stream → Stream) : (modStream s k f).pln = s.pln := rfl
@[simp] theorem modStream_ident (s : State) (k : Nat) (f : Stream → Stream) : (modStream s k f).ident = s.ident := rfl
@[simp] theorem modStream_rgl (s : State) (k : Nat) (f : Stream → Stream) : (modStream s k f).rgl = s.rgl := rfl
@[simp] theorem modStream_ports (s : State) (k : Nat) (f : Stream → Stream) : (modStream s k f).ports = s.ports := rfl
@[simp] theorem modStream_swIn (s : State) (k : Nat) (f : Stream → Stream) : (modStream s k f).swIn = s.swIn := rfl
@[simp] theorem modStream_swOut (s : State) (k : Nat) (f : Stream → Stream) : (modStream s k f).swOut = s.swOut := rfl
@[simp] theorem modStream_swWait (s : State) (k : Nat) (f : Stream → Stream) : (modStream s k f).swWait = s.swWait := rfl
@[simp] theorem modStream_swTurn (s : State) (k : Nat) (f : Stream → Stream) : (modStream s k f).swTurn = s.swTurn := rfl
@[simp] theorem modStream_islA (s : State) (k : Nat) (f : Stream → Stream) : (modStream s k f).islA = s.islA := rfl
@[simp] theorem modStream_islB (s : State) (k : Nat) (f : Stream → Stream) : (modStream s k f).islB = s.islB := rfl
@[simp] theorem modStream_vg (s : State) (k : Nat) (f : Stream → Stream) : (modStream s k f).vg = s.vg := rfl
@[simp] theorem modStream_twinNotes (s : State) (k : Nat) (f : Stream → Stream) : (modStream s k f).twinNotes = s.twinNotes := rfl
@[simp] theorem modStream_health (s : State) (k : Nat) (f : Stream → Stream) : (modStream s k f).health = s.health := rfl
@[simp] theorem modStream_hltQ (s : State) (k : Nat) (f : Stream → Stream) : (modStream s k f).hltQ = s.hltQ := rfl
@[simp] theorem modStream_hEvents (s : State) (k : Nat) (f : Stream → Stream) : (modStream s k f).hEvents = s.hEvents := rfl
@[simp] theorem modStream_hRecent (s : State) (k : Nat) (f : Stream → Stream) : (modStream s k f).hRecent = s.hRecent := rfl
@[simp] theorem modStream_engDisp (s : State) (k : Nat) (f : Stream → Stream) : (modStream s k f).engDisp = s.engDisp := rfl
@[simp] theorem modStream_repairs (s : State) (k : Nat) (f : Stream → Stream) : (modStream s k f).repairs = s.repairs := rfl
@[simp] theorem modStream_tileFails (s : State) (k : Nat) (f : Stream → Stream) : (modStream s k f).tileFails = s.tileFails := rfl
@[simp] theorem modStream_hbJudged (s : State) (k : Nat) (f : Stream → Stream) : (modStream s k f).hbJudged = s.hbJudged := rfl
@[simp] theorem modStream_quarantines (s : State) (k : Nat) (f : Stream → Stream) : (modStream s k f).quarantines = s.quarantines := rfl
@[simp] theorem modStream_hards (s : State) (k : Nat) (f : Stream → Stream) : (modStream s k f).hards = s.hards := rfl
@[simp] theorem modStream_commons (s : State) (k : Nat) (f : Stream → Stream) : (modStream s k f).commons = s.commons := rfl
@[simp] theorem modStream_suspects (s : State) (k : Nat) (f : Stream → Stream) : (modStream s k f).suspects = s.suspects := rfl
@[simp] theorem modStream_moved (s : State) (k : Nat) (f : Stream → Stream) : (modStream s k f).moved = s.moved := rfl
@[simp] theorem modStream_exclDone (s : State) (k : Nat) (f : Stream → Stream) : (modStream s k f).exclDone = s.exclDone := rfl
@[simp] theorem modStream_st (s : State) (k : Nat) (f : Stream → Stream) : (modStream s k f).st = s.st := rfl
@[simp] theorem modStream_alm (s : State) (k : Nat) (f : Stream → Stream) : (modStream s k f).alm = s.alm := rfl
@[simp] theorem modStream_host (s : State) (k : Nat) (f : Stream → Stream) : (modStream s k f).host = s.host := rfl
@[simp] theorem modStream_hostMem (s : State) (k : Nat) (f : Stream → Stream) : (modStream s k f).hostMem = s.hostMem := rfl
@[simp] theorem modStream_flash (s : State) (k : Nat) (f : Stream → Stream) : (modStream s k f).flash = s.flash := rfl
@[simp] theorem modStream_season (s : State) (k : Nat) (f : Stream → Stream) : (modStream s k f).season = s.season := rfl
@[simp] theorem modStream_upd (s : State) (k : Nat) (f : Stream → Stream) : (modStream s k f).upd = s.upd := rfl
@[simp] theorem modStream_pm (s : State) (k : Nat) (f : Stream → Stream) : (modStream s k f).pm = s.pm := rfl
@[simp] theorem modStream_links (s : State) (k : Nat) (f : Stream → Stream) : (modStream s k f).links = s.links := rfl
@[simp] theorem modStream_time (s : State) (k : Nat) (f : Stream → Stream) : (modStream s k f).time = s.time := rfl

/-! ## modLink -/

@[simp] theorem modLink_links (s : State) (k : Nat) (f : LinkS → LinkS) : (modLink s k f).links = tmod s.links k {} f := rfl
@[simp] theorem modLink_pending (s : State) (k : Nat) (f : LinkS → LinkS) : (modLink s k f).pending = s.pending := rfl
@[simp] theorem modLink_now (s : State) (k : Nat) (f : LinkS → LinkS) : (modLink s k f).now = s.now := rfl
@[simp] theorem modLink_fresh (s : State) (k : Nat) (f : LinkS → LinkS) : (modLink s k f).fresh = s.fresh := rfl
@[simp] theorem modLink_inReset (s : State) (k : Nat) (f : LinkS → LinkS) : (modLink s k f).inReset = s.inReset := rfl
@[simp] theorem modLink_railsLow (s : State) (k : Nat) (f : LinkS → LinkS) : (modLink s k f).railsLow = s.railsLow := rfl
@[simp] theorem modLink_boot0 (s : State) (k : Nat) (f : LinkS → LinkS) : (modLink s k f).boot0 = s.boot0 := rfl
@[simp] theorem modLink_cal (s : State) (k : Nat) (f : LinkS → LinkS) : (modLink s k f).cal = s.cal := rfl
@[simp] theorem modLink_trig (s : State) (k : Nat) (f : LinkS → LinkS) : (modLink s k f).trig = s.trig := rfl
@[simp] theorem modLink_stats (s : State) (k : Nat) (f : LinkS → LinkS) : (modLink s k f).stats = s.stats := rfl
@[simp] theorem modLink_reportPend (s : State) (k : Nat) (f : LinkS → LinkS) : (modLink s k f).reportPend = s.reportPend := rfl
@[simp] theorem modLink_reportRaw (s : State) (k : Nat) (f : LinkS → LinkS) : (modLink s k f).reportRaw = s.reportRaw := rfl
@[simp] theorem modLink_plans (s : State) (k : Nat) (f : LinkS → LinkS) : (modLink s k f).plans = s.plans := rfl
@[simp] theorem modLink_units (s : State) (k : Nat) (f : LinkS → LinkS) : (modLink s k f).units = s.units := rfl
@[simp] theorem modLink_flights (s : State) (k : Nat) (f : LinkS → LinkS) : (modLink s k f).flights = s.flights := rfl
@[simp] theorem modLink_clu (s : State) (k : Nat) (f : LinkS → LinkS) : (modLink s k f).clu = s.clu := rfl
@[simp] theorem modLink_nle (s : State) (k : Nat) (f : LinkS → LinkS) : (modLink s k f).nle = s.nle := rfl
@[simp] theorem modLink_mem (s : State) (k : Nat) (f : LinkS → LinkS) : (modLink s k f).mem = s.mem := rfl
@[simp] theorem modLink_side (s : State) (k : Nat) (f : LinkS → LinkS) : (modLink s k f).side = s.side := rfl
@[simp] theorem modLink_tags (s : State) (k : Nat) (f : LinkS → LinkS) : (modLink s k f).tags = s.tags := rfl
@[simp] theorem modLink_tagPend (s : State) (k : Nat) (f : LinkS → LinkS) : (modLink s k f).tagPend = s.tagPend := rfl
@[simp] theorem modLink_tagUse (s : State) (k : Nat) (f : LinkS → LinkS) : (modLink s k f).tagUse = s.tagUse := rfl
@[simp] theorem modLink_seqs (s : State) (k : Nat) (f : LinkS → LinkS) : (modLink s k f).seqs = s.seqs := rfl
@[simp] theorem modLink_regions (s : State) (k : Nat) (f : LinkS → LinkS) : (modLink s k f).regions = s.regions := rfl
@[simp] theorem modLink_fines (s : State) (k : Nat) (f : LinkS → LinkS) : (modLink s k f).fines = s.fines := rfl
@[simp] theorem modLink_cvu (s : State) (k : Nat) (f : LinkS → LinkS) : (modLink s k f).cvu = s.cvu := rfl
@[simp] theorem modLink_stc (s : State) (k : Nat) (f : LinkS → LinkS) : (modLink s k f).stc = s.stc := rfl
@[simp] theorem modLink_streams (s : State) (k : Nat) (f : LinkS → LinkS) : (modLink s k f).streams = s.streams := rfl
@[simp] theorem modLink_fus (s : State) (k : Nat) (f : LinkS → LinkS) : (modLink s k f).fus = s.fus := rfl
@[simp] theorem modLink_pln (s : State) (k : Nat) (f : LinkS → LinkS) : (modLink s k f).pln = s.pln := rfl
@[simp] theorem modLink_ident (s : State) (k : Nat) (f : LinkS → LinkS) : (modLink s k f).ident = s.ident := rfl
@[simp] theorem modLink_rgl (s : State) (k : Nat) (f : LinkS → LinkS) : (modLink s k f).rgl = s.rgl := rfl
@[simp] theorem modLink_ports (s : State) (k : Nat) (f : LinkS → LinkS) : (modLink s k f).ports = s.ports := rfl
@[simp] theorem modLink_swIn (s : State) (k : Nat) (f : LinkS → LinkS) : (modLink s k f).swIn = s.swIn := rfl
@[simp] theorem modLink_swOut (s : State) (k : Nat) (f : LinkS → LinkS) : (modLink s k f).swOut = s.swOut := rfl
@[simp] theorem modLink_swWait (s : State) (k : Nat) (f : LinkS → LinkS) : (modLink s k f).swWait = s.swWait := rfl
@[simp] theorem modLink_swTurn (s : State) (k : Nat) (f : LinkS → LinkS) : (modLink s k f).swTurn = s.swTurn := rfl
@[simp] theorem modLink_islA (s : State) (k : Nat) (f : LinkS → LinkS) : (modLink s k f).islA = s.islA := rfl
@[simp] theorem modLink_islB (s : State) (k : Nat) (f : LinkS → LinkS) : (modLink s k f).islB = s.islB := rfl
@[simp] theorem modLink_vg (s : State) (k : Nat) (f : LinkS → LinkS) : (modLink s k f).vg = s.vg := rfl
@[simp] theorem modLink_twinNotes (s : State) (k : Nat) (f : LinkS → LinkS) : (modLink s k f).twinNotes = s.twinNotes := rfl
@[simp] theorem modLink_health (s : State) (k : Nat) (f : LinkS → LinkS) : (modLink s k f).health = s.health := rfl
@[simp] theorem modLink_hltQ (s : State) (k : Nat) (f : LinkS → LinkS) : (modLink s k f).hltQ = s.hltQ := rfl
@[simp] theorem modLink_hEvents (s : State) (k : Nat) (f : LinkS → LinkS) : (modLink s k f).hEvents = s.hEvents := rfl
@[simp] theorem modLink_hRecent (s : State) (k : Nat) (f : LinkS → LinkS) : (modLink s k f).hRecent = s.hRecent := rfl
@[simp] theorem modLink_engDisp (s : State) (k : Nat) (f : LinkS → LinkS) : (modLink s k f).engDisp = s.engDisp := rfl
@[simp] theorem modLink_repairs (s : State) (k : Nat) (f : LinkS → LinkS) : (modLink s k f).repairs = s.repairs := rfl
@[simp] theorem modLink_tileFails (s : State) (k : Nat) (f : LinkS → LinkS) : (modLink s k f).tileFails = s.tileFails := rfl
@[simp] theorem modLink_hbJudged (s : State) (k : Nat) (f : LinkS → LinkS) : (modLink s k f).hbJudged = s.hbJudged := rfl
@[simp] theorem modLink_quarantines (s : State) (k : Nat) (f : LinkS → LinkS) : (modLink s k f).quarantines = s.quarantines := rfl
@[simp] theorem modLink_hards (s : State) (k : Nat) (f : LinkS → LinkS) : (modLink s k f).hards = s.hards := rfl
@[simp] theorem modLink_commons (s : State) (k : Nat) (f : LinkS → LinkS) : (modLink s k f).commons = s.commons := rfl
@[simp] theorem modLink_suspects (s : State) (k : Nat) (f : LinkS → LinkS) : (modLink s k f).suspects = s.suspects := rfl
@[simp] theorem modLink_moved (s : State) (k : Nat) (f : LinkS → LinkS) : (modLink s k f).moved = s.moved := rfl
@[simp] theorem modLink_exclDone (s : State) (k : Nat) (f : LinkS → LinkS) : (modLink s k f).exclDone = s.exclDone := rfl
@[simp] theorem modLink_st (s : State) (k : Nat) (f : LinkS → LinkS) : (modLink s k f).st = s.st := rfl
@[simp] theorem modLink_alm (s : State) (k : Nat) (f : LinkS → LinkS) : (modLink s k f).alm = s.alm := rfl
@[simp] theorem modLink_host (s : State) (k : Nat) (f : LinkS → LinkS) : (modLink s k f).host = s.host := rfl
@[simp] theorem modLink_hostMem (s : State) (k : Nat) (f : LinkS → LinkS) : (modLink s k f).hostMem = s.hostMem := rfl
@[simp] theorem modLink_flash (s : State) (k : Nat) (f : LinkS → LinkS) : (modLink s k f).flash = s.flash := rfl
@[simp] theorem modLink_season (s : State) (k : Nat) (f : LinkS → LinkS) : (modLink s k f).season = s.season := rfl
@[simp] theorem modLink_upd (s : State) (k : Nat) (f : LinkS → LinkS) : (modLink s k f).upd = s.upd := rfl
@[simp] theorem modLink_pm (s : State) (k : Nat) (f : LinkS → LinkS) : (modLink s k f).pm = s.pm := rfl
@[simp] theorem modLink_time (s : State) (k : Nat) (f : LinkS → LinkS) : (modLink s k f).time = s.time := rfl

/-! ## modPm -/

@[simp] theorem modPm_pm (s : State) (f : Pm → Pm) : (modPm s f).pm = f s.pm := rfl
@[simp] theorem modPm_pending (s : State) (f : Pm → Pm) : (modPm s f).pending = s.pending := rfl
@[simp] theorem modPm_now (s : State) (f : Pm → Pm) : (modPm s f).now = s.now := rfl
@[simp] theorem modPm_fresh (s : State) (f : Pm → Pm) : (modPm s f).fresh = s.fresh := rfl
@[simp] theorem modPm_inReset (s : State) (f : Pm → Pm) : (modPm s f).inReset = s.inReset := rfl
@[simp] theorem modPm_railsLow (s : State) (f : Pm → Pm) : (modPm s f).railsLow = s.railsLow := rfl
@[simp] theorem modPm_boot0 (s : State) (f : Pm → Pm) : (modPm s f).boot0 = s.boot0 := rfl
@[simp] theorem modPm_cal (s : State) (f : Pm → Pm) : (modPm s f).cal = s.cal := rfl
@[simp] theorem modPm_trig (s : State) (f : Pm → Pm) : (modPm s f).trig = s.trig := rfl
@[simp] theorem modPm_stats (s : State) (f : Pm → Pm) : (modPm s f).stats = s.stats := rfl
@[simp] theorem modPm_reportPend (s : State) (f : Pm → Pm) : (modPm s f).reportPend = s.reportPend := rfl
@[simp] theorem modPm_reportRaw (s : State) (f : Pm → Pm) : (modPm s f).reportRaw = s.reportRaw := rfl
@[simp] theorem modPm_plans (s : State) (f : Pm → Pm) : (modPm s f).plans = s.plans := rfl
@[simp] theorem modPm_units (s : State) (f : Pm → Pm) : (modPm s f).units = s.units := rfl
@[simp] theorem modPm_flights (s : State) (f : Pm → Pm) : (modPm s f).flights = s.flights := rfl
@[simp] theorem modPm_clu (s : State) (f : Pm → Pm) : (modPm s f).clu = s.clu := rfl
@[simp] theorem modPm_nle (s : State) (f : Pm → Pm) : (modPm s f).nle = s.nle := rfl
@[simp] theorem modPm_mem (s : State) (f : Pm → Pm) : (modPm s f).mem = s.mem := rfl
@[simp] theorem modPm_side (s : State) (f : Pm → Pm) : (modPm s f).side = s.side := rfl
@[simp] theorem modPm_tags (s : State) (f : Pm → Pm) : (modPm s f).tags = s.tags := rfl
@[simp] theorem modPm_tagPend (s : State) (f : Pm → Pm) : (modPm s f).tagPend = s.tagPend := rfl
@[simp] theorem modPm_tagUse (s : State) (f : Pm → Pm) : (modPm s f).tagUse = s.tagUse := rfl
@[simp] theorem modPm_seqs (s : State) (f : Pm → Pm) : (modPm s f).seqs = s.seqs := rfl
@[simp] theorem modPm_regions (s : State) (f : Pm → Pm) : (modPm s f).regions = s.regions := rfl
@[simp] theorem modPm_fines (s : State) (f : Pm → Pm) : (modPm s f).fines = s.fines := rfl
@[simp] theorem modPm_cvu (s : State) (f : Pm → Pm) : (modPm s f).cvu = s.cvu := rfl
@[simp] theorem modPm_stc (s : State) (f : Pm → Pm) : (modPm s f).stc = s.stc := rfl
@[simp] theorem modPm_streams (s : State) (f : Pm → Pm) : (modPm s f).streams = s.streams := rfl
@[simp] theorem modPm_fus (s : State) (f : Pm → Pm) : (modPm s f).fus = s.fus := rfl
@[simp] theorem modPm_pln (s : State) (f : Pm → Pm) : (modPm s f).pln = s.pln := rfl
@[simp] theorem modPm_ident (s : State) (f : Pm → Pm) : (modPm s f).ident = s.ident := rfl
@[simp] theorem modPm_rgl (s : State) (f : Pm → Pm) : (modPm s f).rgl = s.rgl := rfl
@[simp] theorem modPm_ports (s : State) (f : Pm → Pm) : (modPm s f).ports = s.ports := rfl
@[simp] theorem modPm_swIn (s : State) (f : Pm → Pm) : (modPm s f).swIn = s.swIn := rfl
@[simp] theorem modPm_swOut (s : State) (f : Pm → Pm) : (modPm s f).swOut = s.swOut := rfl
@[simp] theorem modPm_swWait (s : State) (f : Pm → Pm) : (modPm s f).swWait = s.swWait := rfl
@[simp] theorem modPm_swTurn (s : State) (f : Pm → Pm) : (modPm s f).swTurn = s.swTurn := rfl
@[simp] theorem modPm_islA (s : State) (f : Pm → Pm) : (modPm s f).islA = s.islA := rfl
@[simp] theorem modPm_islB (s : State) (f : Pm → Pm) : (modPm s f).islB = s.islB := rfl
@[simp] theorem modPm_vg (s : State) (f : Pm → Pm) : (modPm s f).vg = s.vg := rfl
@[simp] theorem modPm_twinNotes (s : State) (f : Pm → Pm) : (modPm s f).twinNotes = s.twinNotes := rfl
@[simp] theorem modPm_health (s : State) (f : Pm → Pm) : (modPm s f).health = s.health := rfl
@[simp] theorem modPm_hltQ (s : State) (f : Pm → Pm) : (modPm s f).hltQ = s.hltQ := rfl
@[simp] theorem modPm_hEvents (s : State) (f : Pm → Pm) : (modPm s f).hEvents = s.hEvents := rfl
@[simp] theorem modPm_hRecent (s : State) (f : Pm → Pm) : (modPm s f).hRecent = s.hRecent := rfl
@[simp] theorem modPm_engDisp (s : State) (f : Pm → Pm) : (modPm s f).engDisp = s.engDisp := rfl
@[simp] theorem modPm_repairs (s : State) (f : Pm → Pm) : (modPm s f).repairs = s.repairs := rfl
@[simp] theorem modPm_tileFails (s : State) (f : Pm → Pm) : (modPm s f).tileFails = s.tileFails := rfl
@[simp] theorem modPm_hbJudged (s : State) (f : Pm → Pm) : (modPm s f).hbJudged = s.hbJudged := rfl
@[simp] theorem modPm_quarantines (s : State) (f : Pm → Pm) : (modPm s f).quarantines = s.quarantines := rfl
@[simp] theorem modPm_hards (s : State) (f : Pm → Pm) : (modPm s f).hards = s.hards := rfl
@[simp] theorem modPm_commons (s : State) (f : Pm → Pm) : (modPm s f).commons = s.commons := rfl
@[simp] theorem modPm_suspects (s : State) (f : Pm → Pm) : (modPm s f).suspects = s.suspects := rfl
@[simp] theorem modPm_moved (s : State) (f : Pm → Pm) : (modPm s f).moved = s.moved := rfl
@[simp] theorem modPm_exclDone (s : State) (f : Pm → Pm) : (modPm s f).exclDone = s.exclDone := rfl
@[simp] theorem modPm_st (s : State) (f : Pm → Pm) : (modPm s f).st = s.st := rfl
@[simp] theorem modPm_alm (s : State) (f : Pm → Pm) : (modPm s f).alm = s.alm := rfl
@[simp] theorem modPm_host (s : State) (f : Pm → Pm) : (modPm s f).host = s.host := rfl
@[simp] theorem modPm_hostMem (s : State) (f : Pm → Pm) : (modPm s f).hostMem = s.hostMem := rfl
@[simp] theorem modPm_flash (s : State) (f : Pm → Pm) : (modPm s f).flash = s.flash := rfl
@[simp] theorem modPm_season (s : State) (f : Pm → Pm) : (modPm s f).season = s.season := rfl
@[simp] theorem modPm_upd (s : State) (f : Pm → Pm) : (modPm s f).upd = s.upd := rfl
@[simp] theorem modPm_links (s : State) (f : Pm → Pm) : (modPm s f).links = s.links := rfl
@[simp] theorem modPm_time (s : State) (f : Pm → Pm) : (modPm s f).time = s.time := rfl

/-! ## modPmQ -/

@[simp] theorem modPmQ_pending (s : State) (q : Nat) (f : PmQ → PmQ) : (modPmQ s q f).pending = s.pending := rfl
@[simp] theorem modPmQ_now (s : State) (q : Nat) (f : PmQ → PmQ) : (modPmQ s q f).now = s.now := rfl
@[simp] theorem modPmQ_fresh (s : State) (q : Nat) (f : PmQ → PmQ) : (modPmQ s q f).fresh = s.fresh := rfl
@[simp] theorem modPmQ_inReset (s : State) (q : Nat) (f : PmQ → PmQ) : (modPmQ s q f).inReset = s.inReset := rfl
@[simp] theorem modPmQ_railsLow (s : State) (q : Nat) (f : PmQ → PmQ) : (modPmQ s q f).railsLow = s.railsLow := rfl
@[simp] theorem modPmQ_boot0 (s : State) (q : Nat) (f : PmQ → PmQ) : (modPmQ s q f).boot0 = s.boot0 := rfl
@[simp] theorem modPmQ_cal (s : State) (q : Nat) (f : PmQ → PmQ) : (modPmQ s q f).cal = s.cal := rfl
@[simp] theorem modPmQ_trig (s : State) (q : Nat) (f : PmQ → PmQ) : (modPmQ s q f).trig = s.trig := rfl
@[simp] theorem modPmQ_stats (s : State) (q : Nat) (f : PmQ → PmQ) : (modPmQ s q f).stats = s.stats := rfl
@[simp] theorem modPmQ_reportPend (s : State) (q : Nat) (f : PmQ → PmQ) : (modPmQ s q f).reportPend = s.reportPend := rfl
@[simp] theorem modPmQ_reportRaw (s : State) (q : Nat) (f : PmQ → PmQ) : (modPmQ s q f).reportRaw = s.reportRaw := rfl
@[simp] theorem modPmQ_plans (s : State) (q : Nat) (f : PmQ → PmQ) : (modPmQ s q f).plans = s.plans := rfl
@[simp] theorem modPmQ_units (s : State) (q : Nat) (f : PmQ → PmQ) : (modPmQ s q f).units = s.units := rfl
@[simp] theorem modPmQ_flights (s : State) (q : Nat) (f : PmQ → PmQ) : (modPmQ s q f).flights = s.flights := rfl
@[simp] theorem modPmQ_clu (s : State) (q : Nat) (f : PmQ → PmQ) : (modPmQ s q f).clu = s.clu := rfl
@[simp] theorem modPmQ_nle (s : State) (q : Nat) (f : PmQ → PmQ) : (modPmQ s q f).nle = s.nle := rfl
@[simp] theorem modPmQ_mem (s : State) (q : Nat) (f : PmQ → PmQ) : (modPmQ s q f).mem = s.mem := rfl
@[simp] theorem modPmQ_side (s : State) (q : Nat) (f : PmQ → PmQ) : (modPmQ s q f).side = s.side := rfl
@[simp] theorem modPmQ_tags (s : State) (q : Nat) (f : PmQ → PmQ) : (modPmQ s q f).tags = s.tags := rfl
@[simp] theorem modPmQ_tagPend (s : State) (q : Nat) (f : PmQ → PmQ) : (modPmQ s q f).tagPend = s.tagPend := rfl
@[simp] theorem modPmQ_tagUse (s : State) (q : Nat) (f : PmQ → PmQ) : (modPmQ s q f).tagUse = s.tagUse := rfl
@[simp] theorem modPmQ_seqs (s : State) (q : Nat) (f : PmQ → PmQ) : (modPmQ s q f).seqs = s.seqs := rfl
@[simp] theorem modPmQ_regions (s : State) (q : Nat) (f : PmQ → PmQ) : (modPmQ s q f).regions = s.regions := rfl
@[simp] theorem modPmQ_fines (s : State) (q : Nat) (f : PmQ → PmQ) : (modPmQ s q f).fines = s.fines := rfl
@[simp] theorem modPmQ_cvu (s : State) (q : Nat) (f : PmQ → PmQ) : (modPmQ s q f).cvu = s.cvu := rfl
@[simp] theorem modPmQ_stc (s : State) (q : Nat) (f : PmQ → PmQ) : (modPmQ s q f).stc = s.stc := rfl
@[simp] theorem modPmQ_streams (s : State) (q : Nat) (f : PmQ → PmQ) : (modPmQ s q f).streams = s.streams := rfl
@[simp] theorem modPmQ_fus (s : State) (q : Nat) (f : PmQ → PmQ) : (modPmQ s q f).fus = s.fus := rfl
@[simp] theorem modPmQ_pln (s : State) (q : Nat) (f : PmQ → PmQ) : (modPmQ s q f).pln = s.pln := rfl
@[simp] theorem modPmQ_ident (s : State) (q : Nat) (f : PmQ → PmQ) : (modPmQ s q f).ident = s.ident := rfl
@[simp] theorem modPmQ_rgl (s : State) (q : Nat) (f : PmQ → PmQ) : (modPmQ s q f).rgl = s.rgl := rfl
@[simp] theorem modPmQ_ports (s : State) (q : Nat) (f : PmQ → PmQ) : (modPmQ s q f).ports = s.ports := rfl
@[simp] theorem modPmQ_swIn (s : State) (q : Nat) (f : PmQ → PmQ) : (modPmQ s q f).swIn = s.swIn := rfl
@[simp] theorem modPmQ_swOut (s : State) (q : Nat) (f : PmQ → PmQ) : (modPmQ s q f).swOut = s.swOut := rfl
@[simp] theorem modPmQ_swWait (s : State) (q : Nat) (f : PmQ → PmQ) : (modPmQ s q f).swWait = s.swWait := rfl
@[simp] theorem modPmQ_swTurn (s : State) (q : Nat) (f : PmQ → PmQ) : (modPmQ s q f).swTurn = s.swTurn := rfl
@[simp] theorem modPmQ_islA (s : State) (q : Nat) (f : PmQ → PmQ) : (modPmQ s q f).islA = s.islA := rfl
@[simp] theorem modPmQ_islB (s : State) (q : Nat) (f : PmQ → PmQ) : (modPmQ s q f).islB = s.islB := rfl
@[simp] theorem modPmQ_vg (s : State) (q : Nat) (f : PmQ → PmQ) : (modPmQ s q f).vg = s.vg := rfl
@[simp] theorem modPmQ_twinNotes (s : State) (q : Nat) (f : PmQ → PmQ) : (modPmQ s q f).twinNotes = s.twinNotes := rfl
@[simp] theorem modPmQ_health (s : State) (q : Nat) (f : PmQ → PmQ) : (modPmQ s q f).health = s.health := rfl
@[simp] theorem modPmQ_hltQ (s : State) (q : Nat) (f : PmQ → PmQ) : (modPmQ s q f).hltQ = s.hltQ := rfl
@[simp] theorem modPmQ_hEvents (s : State) (q : Nat) (f : PmQ → PmQ) : (modPmQ s q f).hEvents = s.hEvents := rfl
@[simp] theorem modPmQ_hRecent (s : State) (q : Nat) (f : PmQ → PmQ) : (modPmQ s q f).hRecent = s.hRecent := rfl
@[simp] theorem modPmQ_engDisp (s : State) (q : Nat) (f : PmQ → PmQ) : (modPmQ s q f).engDisp = s.engDisp := rfl
@[simp] theorem modPmQ_repairs (s : State) (q : Nat) (f : PmQ → PmQ) : (modPmQ s q f).repairs = s.repairs := rfl
@[simp] theorem modPmQ_tileFails (s : State) (q : Nat) (f : PmQ → PmQ) : (modPmQ s q f).tileFails = s.tileFails := rfl
@[simp] theorem modPmQ_hbJudged (s : State) (q : Nat) (f : PmQ → PmQ) : (modPmQ s q f).hbJudged = s.hbJudged := rfl
@[simp] theorem modPmQ_quarantines (s : State) (q : Nat) (f : PmQ → PmQ) : (modPmQ s q f).quarantines = s.quarantines := rfl
@[simp] theorem modPmQ_hards (s : State) (q : Nat) (f : PmQ → PmQ) : (modPmQ s q f).hards = s.hards := rfl
@[simp] theorem modPmQ_commons (s : State) (q : Nat) (f : PmQ → PmQ) : (modPmQ s q f).commons = s.commons := rfl
@[simp] theorem modPmQ_suspects (s : State) (q : Nat) (f : PmQ → PmQ) : (modPmQ s q f).suspects = s.suspects := rfl
@[simp] theorem modPmQ_moved (s : State) (q : Nat) (f : PmQ → PmQ) : (modPmQ s q f).moved = s.moved := rfl
@[simp] theorem modPmQ_exclDone (s : State) (q : Nat) (f : PmQ → PmQ) : (modPmQ s q f).exclDone = s.exclDone := rfl
@[simp] theorem modPmQ_st (s : State) (q : Nat) (f : PmQ → PmQ) : (modPmQ s q f).st = s.st := rfl
@[simp] theorem modPmQ_alm (s : State) (q : Nat) (f : PmQ → PmQ) : (modPmQ s q f).alm = s.alm := rfl
@[simp] theorem modPmQ_host (s : State) (q : Nat) (f : PmQ → PmQ) : (modPmQ s q f).host = s.host := rfl
@[simp] theorem modPmQ_hostMem (s : State) (q : Nat) (f : PmQ → PmQ) : (modPmQ s q f).hostMem = s.hostMem := rfl
@[simp] theorem modPmQ_flash (s : State) (q : Nat) (f : PmQ → PmQ) : (modPmQ s q f).flash = s.flash := rfl
@[simp] theorem modPmQ_season (s : State) (q : Nat) (f : PmQ → PmQ) : (modPmQ s q f).season = s.season := rfl
@[simp] theorem modPmQ_upd (s : State) (q : Nat) (f : PmQ → PmQ) : (modPmQ s q f).upd = s.upd := rfl
@[simp] theorem modPmQ_links (s : State) (q : Nat) (f : PmQ → PmQ) : (modPmQ s q f).links = s.links := rfl
@[simp] theorem modPmQ_time (s : State) (q : Nat) (f : PmQ → PmQ) : (modPmQ s q f).time = s.time := rfl

/-! ## modRot -/

@[simp] theorem modRot_pending (s : State) (q : Nat) (f : Rot → Rot) : (modRot s q f).pending = s.pending := rfl
@[simp] theorem modRot_now (s : State) (q : Nat) (f : Rot → Rot) : (modRot s q f).now = s.now := rfl
@[simp] theorem modRot_fresh (s : State) (q : Nat) (f : Rot → Rot) : (modRot s q f).fresh = s.fresh := rfl
@[simp] theorem modRot_inReset (s : State) (q : Nat) (f : Rot → Rot) : (modRot s q f).inReset = s.inReset := rfl
@[simp] theorem modRot_railsLow (s : State) (q : Nat) (f : Rot → Rot) : (modRot s q f).railsLow = s.railsLow := rfl
@[simp] theorem modRot_boot0 (s : State) (q : Nat) (f : Rot → Rot) : (modRot s q f).boot0 = s.boot0 := rfl
@[simp] theorem modRot_cal (s : State) (q : Nat) (f : Rot → Rot) : (modRot s q f).cal = s.cal := rfl
@[simp] theorem modRot_trig (s : State) (q : Nat) (f : Rot → Rot) : (modRot s q f).trig = s.trig := rfl
@[simp] theorem modRot_stats (s : State) (q : Nat) (f : Rot → Rot) : (modRot s q f).stats = s.stats := rfl
@[simp] theorem modRot_reportPend (s : State) (q : Nat) (f : Rot → Rot) : (modRot s q f).reportPend = s.reportPend := rfl
@[simp] theorem modRot_reportRaw (s : State) (q : Nat) (f : Rot → Rot) : (modRot s q f).reportRaw = s.reportRaw := rfl
@[simp] theorem modRot_plans (s : State) (q : Nat) (f : Rot → Rot) : (modRot s q f).plans = s.plans := rfl
@[simp] theorem modRot_units (s : State) (q : Nat) (f : Rot → Rot) : (modRot s q f).units = s.units := rfl
@[simp] theorem modRot_flights (s : State) (q : Nat) (f : Rot → Rot) : (modRot s q f).flights = s.flights := rfl
@[simp] theorem modRot_clu (s : State) (q : Nat) (f : Rot → Rot) : (modRot s q f).clu = s.clu := rfl
@[simp] theorem modRot_nle (s : State) (q : Nat) (f : Rot → Rot) : (modRot s q f).nle = s.nle := rfl
@[simp] theorem modRot_mem (s : State) (q : Nat) (f : Rot → Rot) : (modRot s q f).mem = s.mem := rfl
@[simp] theorem modRot_side (s : State) (q : Nat) (f : Rot → Rot) : (modRot s q f).side = s.side := rfl
@[simp] theorem modRot_tags (s : State) (q : Nat) (f : Rot → Rot) : (modRot s q f).tags = s.tags := rfl
@[simp] theorem modRot_tagPend (s : State) (q : Nat) (f : Rot → Rot) : (modRot s q f).tagPend = s.tagPend := rfl
@[simp] theorem modRot_tagUse (s : State) (q : Nat) (f : Rot → Rot) : (modRot s q f).tagUse = s.tagUse := rfl
@[simp] theorem modRot_seqs (s : State) (q : Nat) (f : Rot → Rot) : (modRot s q f).seqs = s.seqs := rfl
@[simp] theorem modRot_regions (s : State) (q : Nat) (f : Rot → Rot) : (modRot s q f).regions = s.regions := rfl
@[simp] theorem modRot_fines (s : State) (q : Nat) (f : Rot → Rot) : (modRot s q f).fines = s.fines := rfl
@[simp] theorem modRot_cvu (s : State) (q : Nat) (f : Rot → Rot) : (modRot s q f).cvu = s.cvu := rfl
@[simp] theorem modRot_stc (s : State) (q : Nat) (f : Rot → Rot) : (modRot s q f).stc = s.stc := rfl
@[simp] theorem modRot_streams (s : State) (q : Nat) (f : Rot → Rot) : (modRot s q f).streams = s.streams := rfl
@[simp] theorem modRot_fus (s : State) (q : Nat) (f : Rot → Rot) : (modRot s q f).fus = s.fus := rfl
@[simp] theorem modRot_pln (s : State) (q : Nat) (f : Rot → Rot) : (modRot s q f).pln = s.pln := rfl
@[simp] theorem modRot_ident (s : State) (q : Nat) (f : Rot → Rot) : (modRot s q f).ident = s.ident := rfl
@[simp] theorem modRot_rgl (s : State) (q : Nat) (f : Rot → Rot) : (modRot s q f).rgl = s.rgl := rfl
@[simp] theorem modRot_ports (s : State) (q : Nat) (f : Rot → Rot) : (modRot s q f).ports = s.ports := rfl
@[simp] theorem modRot_swIn (s : State) (q : Nat) (f : Rot → Rot) : (modRot s q f).swIn = s.swIn := rfl
@[simp] theorem modRot_swOut (s : State) (q : Nat) (f : Rot → Rot) : (modRot s q f).swOut = s.swOut := rfl
@[simp] theorem modRot_swWait (s : State) (q : Nat) (f : Rot → Rot) : (modRot s q f).swWait = s.swWait := rfl
@[simp] theorem modRot_swTurn (s : State) (q : Nat) (f : Rot → Rot) : (modRot s q f).swTurn = s.swTurn := rfl
@[simp] theorem modRot_islA (s : State) (q : Nat) (f : Rot → Rot) : (modRot s q f).islA = s.islA := rfl
@[simp] theorem modRot_islB (s : State) (q : Nat) (f : Rot → Rot) : (modRot s q f).islB = s.islB := rfl
@[simp] theorem modRot_vg (s : State) (q : Nat) (f : Rot → Rot) : (modRot s q f).vg = s.vg := rfl
@[simp] theorem modRot_twinNotes (s : State) (q : Nat) (f : Rot → Rot) : (modRot s q f).twinNotes = s.twinNotes := rfl
@[simp] theorem modRot_health (s : State) (q : Nat) (f : Rot → Rot) : (modRot s q f).health = s.health := rfl
@[simp] theorem modRot_hltQ (s : State) (q : Nat) (f : Rot → Rot) : (modRot s q f).hltQ = s.hltQ := rfl
@[simp] theorem modRot_hEvents (s : State) (q : Nat) (f : Rot → Rot) : (modRot s q f).hEvents = s.hEvents := rfl
@[simp] theorem modRot_hRecent (s : State) (q : Nat) (f : Rot → Rot) : (modRot s q f).hRecent = s.hRecent := rfl
@[simp] theorem modRot_engDisp (s : State) (q : Nat) (f : Rot → Rot) : (modRot s q f).engDisp = s.engDisp := rfl
@[simp] theorem modRot_repairs (s : State) (q : Nat) (f : Rot → Rot) : (modRot s q f).repairs = s.repairs := rfl
@[simp] theorem modRot_tileFails (s : State) (q : Nat) (f : Rot → Rot) : (modRot s q f).tileFails = s.tileFails := rfl
@[simp] theorem modRot_hbJudged (s : State) (q : Nat) (f : Rot → Rot) : (modRot s q f).hbJudged = s.hbJudged := rfl
@[simp] theorem modRot_quarantines (s : State) (q : Nat) (f : Rot → Rot) : (modRot s q f).quarantines = s.quarantines := rfl
@[simp] theorem modRot_hards (s : State) (q : Nat) (f : Rot → Rot) : (modRot s q f).hards = s.hards := rfl
@[simp] theorem modRot_commons (s : State) (q : Nat) (f : Rot → Rot) : (modRot s q f).commons = s.commons := rfl
@[simp] theorem modRot_suspects (s : State) (q : Nat) (f : Rot → Rot) : (modRot s q f).suspects = s.suspects := rfl
@[simp] theorem modRot_moved (s : State) (q : Nat) (f : Rot → Rot) : (modRot s q f).moved = s.moved := rfl
@[simp] theorem modRot_exclDone (s : State) (q : Nat) (f : Rot → Rot) : (modRot s q f).exclDone = s.exclDone := rfl
@[simp] theorem modRot_alm (s : State) (q : Nat) (f : Rot → Rot) : (modRot s q f).alm = s.alm := rfl
@[simp] theorem modRot_host (s : State) (q : Nat) (f : Rot → Rot) : (modRot s q f).host = s.host := rfl
@[simp] theorem modRot_hostMem (s : State) (q : Nat) (f : Rot → Rot) : (modRot s q f).hostMem = s.hostMem := rfl
@[simp] theorem modRot_flash (s : State) (q : Nat) (f : Rot → Rot) : (modRot s q f).flash = s.flash := rfl
@[simp] theorem modRot_season (s : State) (q : Nat) (f : Rot → Rot) : (modRot s q f).season = s.season := rfl
@[simp] theorem modRot_upd (s : State) (q : Nat) (f : Rot → Rot) : (modRot s q f).upd = s.upd := rfl
@[simp] theorem modRot_pm (s : State) (q : Nat) (f : Rot → Rot) : (modRot s q f).pm = s.pm := rfl
@[simp] theorem modRot_links (s : State) (q : Nat) (f : Rot → Rot) : (modRot s q f).links = s.links := rfl
@[simp] theorem modRot_time (s : State) (q : Nat) (f : Rot → Rot) : (modRot s q f).time = s.time := rfl

/-! ## modUpd -/

@[simp] theorem modUpd_upd (s : State) (f : Upd → Upd) : (modUpd s f).upd = f s.upd := rfl
@[simp] theorem modUpd_pending (s : State) (f : Upd → Upd) : (modUpd s f).pending = s.pending := rfl
@[simp] theorem modUpd_now (s : State) (f : Upd → Upd) : (modUpd s f).now = s.now := rfl
@[simp] theorem modUpd_fresh (s : State) (f : Upd → Upd) : (modUpd s f).fresh = s.fresh := rfl
@[simp] theorem modUpd_inReset (s : State) (f : Upd → Upd) : (modUpd s f).inReset = s.inReset := rfl
@[simp] theorem modUpd_railsLow (s : State) (f : Upd → Upd) : (modUpd s f).railsLow = s.railsLow := rfl
@[simp] theorem modUpd_boot0 (s : State) (f : Upd → Upd) : (modUpd s f).boot0 = s.boot0 := rfl
@[simp] theorem modUpd_cal (s : State) (f : Upd → Upd) : (modUpd s f).cal = s.cal := rfl
@[simp] theorem modUpd_trig (s : State) (f : Upd → Upd) : (modUpd s f).trig = s.trig := rfl
@[simp] theorem modUpd_stats (s : State) (f : Upd → Upd) : (modUpd s f).stats = s.stats := rfl
@[simp] theorem modUpd_reportPend (s : State) (f : Upd → Upd) : (modUpd s f).reportPend = s.reportPend := rfl
@[simp] theorem modUpd_reportRaw (s : State) (f : Upd → Upd) : (modUpd s f).reportRaw = s.reportRaw := rfl
@[simp] theorem modUpd_plans (s : State) (f : Upd → Upd) : (modUpd s f).plans = s.plans := rfl
@[simp] theorem modUpd_units (s : State) (f : Upd → Upd) : (modUpd s f).units = s.units := rfl
@[simp] theorem modUpd_flights (s : State) (f : Upd → Upd) : (modUpd s f).flights = s.flights := rfl
@[simp] theorem modUpd_clu (s : State) (f : Upd → Upd) : (modUpd s f).clu = s.clu := rfl
@[simp] theorem modUpd_nle (s : State) (f : Upd → Upd) : (modUpd s f).nle = s.nle := rfl
@[simp] theorem modUpd_mem (s : State) (f : Upd → Upd) : (modUpd s f).mem = s.mem := rfl
@[simp] theorem modUpd_side (s : State) (f : Upd → Upd) : (modUpd s f).side = s.side := rfl
@[simp] theorem modUpd_tags (s : State) (f : Upd → Upd) : (modUpd s f).tags = s.tags := rfl
@[simp] theorem modUpd_tagPend (s : State) (f : Upd → Upd) : (modUpd s f).tagPend = s.tagPend := rfl
@[simp] theorem modUpd_tagUse (s : State) (f : Upd → Upd) : (modUpd s f).tagUse = s.tagUse := rfl
@[simp] theorem modUpd_seqs (s : State) (f : Upd → Upd) : (modUpd s f).seqs = s.seqs := rfl
@[simp] theorem modUpd_regions (s : State) (f : Upd → Upd) : (modUpd s f).regions = s.regions := rfl
@[simp] theorem modUpd_fines (s : State) (f : Upd → Upd) : (modUpd s f).fines = s.fines := rfl
@[simp] theorem modUpd_cvu (s : State) (f : Upd → Upd) : (modUpd s f).cvu = s.cvu := rfl
@[simp] theorem modUpd_stc (s : State) (f : Upd → Upd) : (modUpd s f).stc = s.stc := rfl
@[simp] theorem modUpd_streams (s : State) (f : Upd → Upd) : (modUpd s f).streams = s.streams := rfl
@[simp] theorem modUpd_fus (s : State) (f : Upd → Upd) : (modUpd s f).fus = s.fus := rfl
@[simp] theorem modUpd_pln (s : State) (f : Upd → Upd) : (modUpd s f).pln = s.pln := rfl
@[simp] theorem modUpd_ident (s : State) (f : Upd → Upd) : (modUpd s f).ident = s.ident := rfl
@[simp] theorem modUpd_rgl (s : State) (f : Upd → Upd) : (modUpd s f).rgl = s.rgl := rfl
@[simp] theorem modUpd_ports (s : State) (f : Upd → Upd) : (modUpd s f).ports = s.ports := rfl
@[simp] theorem modUpd_swIn (s : State) (f : Upd → Upd) : (modUpd s f).swIn = s.swIn := rfl
@[simp] theorem modUpd_swOut (s : State) (f : Upd → Upd) : (modUpd s f).swOut = s.swOut := rfl
@[simp] theorem modUpd_swWait (s : State) (f : Upd → Upd) : (modUpd s f).swWait = s.swWait := rfl
@[simp] theorem modUpd_swTurn (s : State) (f : Upd → Upd) : (modUpd s f).swTurn = s.swTurn := rfl
@[simp] theorem modUpd_islA (s : State) (f : Upd → Upd) : (modUpd s f).islA = s.islA := rfl
@[simp] theorem modUpd_islB (s : State) (f : Upd → Upd) : (modUpd s f).islB = s.islB := rfl
@[simp] theorem modUpd_vg (s : State) (f : Upd → Upd) : (modUpd s f).vg = s.vg := rfl
@[simp] theorem modUpd_twinNotes (s : State) (f : Upd → Upd) : (modUpd s f).twinNotes = s.twinNotes := rfl
@[simp] theorem modUpd_health (s : State) (f : Upd → Upd) : (modUpd s f).health = s.health := rfl
@[simp] theorem modUpd_hltQ (s : State) (f : Upd → Upd) : (modUpd s f).hltQ = s.hltQ := rfl
@[simp] theorem modUpd_hEvents (s : State) (f : Upd → Upd) : (modUpd s f).hEvents = s.hEvents := rfl
@[simp] theorem modUpd_hRecent (s : State) (f : Upd → Upd) : (modUpd s f).hRecent = s.hRecent := rfl
@[simp] theorem modUpd_engDisp (s : State) (f : Upd → Upd) : (modUpd s f).engDisp = s.engDisp := rfl
@[simp] theorem modUpd_repairs (s : State) (f : Upd → Upd) : (modUpd s f).repairs = s.repairs := rfl
@[simp] theorem modUpd_tileFails (s : State) (f : Upd → Upd) : (modUpd s f).tileFails = s.tileFails := rfl
@[simp] theorem modUpd_hbJudged (s : State) (f : Upd → Upd) : (modUpd s f).hbJudged = s.hbJudged := rfl
@[simp] theorem modUpd_quarantines (s : State) (f : Upd → Upd) : (modUpd s f).quarantines = s.quarantines := rfl
@[simp] theorem modUpd_hards (s : State) (f : Upd → Upd) : (modUpd s f).hards = s.hards := rfl
@[simp] theorem modUpd_commons (s : State) (f : Upd → Upd) : (modUpd s f).commons = s.commons := rfl
@[simp] theorem modUpd_suspects (s : State) (f : Upd → Upd) : (modUpd s f).suspects = s.suspects := rfl
@[simp] theorem modUpd_moved (s : State) (f : Upd → Upd) : (modUpd s f).moved = s.moved := rfl
@[simp] theorem modUpd_exclDone (s : State) (f : Upd → Upd) : (modUpd s f).exclDone = s.exclDone := rfl
@[simp] theorem modUpd_st (s : State) (f : Upd → Upd) : (modUpd s f).st = s.st := rfl
@[simp] theorem modUpd_alm (s : State) (f : Upd → Upd) : (modUpd s f).alm = s.alm := rfl
@[simp] theorem modUpd_host (s : State) (f : Upd → Upd) : (modUpd s f).host = s.host := rfl
@[simp] theorem modUpd_hostMem (s : State) (f : Upd → Upd) : (modUpd s f).hostMem = s.hostMem := rfl
@[simp] theorem modUpd_flash (s : State) (f : Upd → Upd) : (modUpd s f).flash = s.flash := rfl
@[simp] theorem modUpd_season (s : State) (f : Upd → Upd) : (modUpd s f).season = s.season := rfl
@[simp] theorem modUpd_pm (s : State) (f : Upd → Upd) : (modUpd s f).pm = s.pm := rfl
@[simp] theorem modUpd_links (s : State) (f : Upd → Upd) : (modUpd s f).links = s.links := rfl
@[simp] theorem modUpd_time (s : State) (f : Upd → Upd) : (modUpd s f).time = s.time := rfl

/-! ## setBank -/

@[simp] theorem setBank_pending (s : State) (b st n : Nat) : (setBank s b st n).pending = s.pending := rfl
@[simp] theorem setBank_now (s : State) (b st n : Nat) : (setBank s b st n).now = s.now := rfl
@[simp] theorem setBank_fresh (s : State) (b st n : Nat) : (setBank s b st n).fresh = s.fresh := rfl
@[simp] theorem setBank_inReset (s : State) (b st n : Nat) : (setBank s b st n).inReset = s.inReset := rfl
@[simp] theorem setBank_railsLow (s : State) (b st n : Nat) : (setBank s b st n).railsLow = s.railsLow := rfl
@[simp] theorem setBank_boot0 (s : State) (b st n : Nat) : (setBank s b st n).boot0 = s.boot0 := rfl
@[simp] theorem setBank_cal (s : State) (b st n : Nat) : (setBank s b st n).cal = s.cal := rfl
@[simp] theorem setBank_trig (s : State) (b st n : Nat) : (setBank s b st n).trig = s.trig := rfl
@[simp] theorem setBank_stats (s : State) (b st n : Nat) : (setBank s b st n).stats = s.stats := rfl
@[simp] theorem setBank_reportPend (s : State) (b st n : Nat) : (setBank s b st n).reportPend = s.reportPend := rfl
@[simp] theorem setBank_reportRaw (s : State) (b st n : Nat) : (setBank s b st n).reportRaw = s.reportRaw := rfl
@[simp] theorem setBank_plans (s : State) (b st n : Nat) : (setBank s b st n).plans = s.plans := rfl
@[simp] theorem setBank_units (s : State) (b st n : Nat) : (setBank s b st n).units = s.units := rfl
@[simp] theorem setBank_flights (s : State) (b st n : Nat) : (setBank s b st n).flights = s.flights := rfl
@[simp] theorem setBank_clu (s : State) (b st n : Nat) : (setBank s b st n).clu = s.clu := rfl
@[simp] theorem setBank_nle (s : State) (b st n : Nat) : (setBank s b st n).nle = s.nle := rfl
@[simp] theorem setBank_mem (s : State) (b st n : Nat) : (setBank s b st n).mem = s.mem := rfl
@[simp] theorem setBank_side (s : State) (b st n : Nat) : (setBank s b st n).side = s.side := rfl
@[simp] theorem setBank_tags (s : State) (b st n : Nat) : (setBank s b st n).tags = s.tags := rfl
@[simp] theorem setBank_tagPend (s : State) (b st n : Nat) : (setBank s b st n).tagPend = s.tagPend := rfl
@[simp] theorem setBank_tagUse (s : State) (b st n : Nat) : (setBank s b st n).tagUse = s.tagUse := rfl
@[simp] theorem setBank_seqs (s : State) (b st n : Nat) : (setBank s b st n).seqs = s.seqs := rfl
@[simp] theorem setBank_regions (s : State) (b st n : Nat) : (setBank s b st n).regions = s.regions := rfl
@[simp] theorem setBank_fines (s : State) (b st n : Nat) : (setBank s b st n).fines = s.fines := rfl
@[simp] theorem setBank_cvu (s : State) (b st n : Nat) : (setBank s b st n).cvu = s.cvu := rfl
@[simp] theorem setBank_stc (s : State) (b st n : Nat) : (setBank s b st n).stc = s.stc := rfl
@[simp] theorem setBank_streams (s : State) (b st n : Nat) : (setBank s b st n).streams = s.streams := rfl
@[simp] theorem setBank_fus (s : State) (b st n : Nat) : (setBank s b st n).fus = s.fus := rfl
@[simp] theorem setBank_pln (s : State) (b st n : Nat) : (setBank s b st n).pln = s.pln := rfl
@[simp] theorem setBank_ident (s : State) (b st n : Nat) : (setBank s b st n).ident = s.ident := rfl
@[simp] theorem setBank_rgl (s : State) (b st n : Nat) : (setBank s b st n).rgl = s.rgl := rfl
@[simp] theorem setBank_ports (s : State) (b st n : Nat) : (setBank s b st n).ports = s.ports := rfl
@[simp] theorem setBank_swIn (s : State) (b st n : Nat) : (setBank s b st n).swIn = s.swIn := rfl
@[simp] theorem setBank_swOut (s : State) (b st n : Nat) : (setBank s b st n).swOut = s.swOut := rfl
@[simp] theorem setBank_swWait (s : State) (b st n : Nat) : (setBank s b st n).swWait = s.swWait := rfl
@[simp] theorem setBank_swTurn (s : State) (b st n : Nat) : (setBank s b st n).swTurn = s.swTurn := rfl
@[simp] theorem setBank_islA (s : State) (b st n : Nat) : (setBank s b st n).islA = s.islA := rfl
@[simp] theorem setBank_islB (s : State) (b st n : Nat) : (setBank s b st n).islB = s.islB := rfl
@[simp] theorem setBank_vg (s : State) (b st n : Nat) : (setBank s b st n).vg = s.vg := rfl
@[simp] theorem setBank_twinNotes (s : State) (b st n : Nat) : (setBank s b st n).twinNotes = s.twinNotes := rfl
@[simp] theorem setBank_health (s : State) (b st n : Nat) : (setBank s b st n).health = s.health := rfl
@[simp] theorem setBank_hltQ (s : State) (b st n : Nat) : (setBank s b st n).hltQ = s.hltQ := rfl
@[simp] theorem setBank_hEvents (s : State) (b st n : Nat) : (setBank s b st n).hEvents = s.hEvents := rfl
@[simp] theorem setBank_hRecent (s : State) (b st n : Nat) : (setBank s b st n).hRecent = s.hRecent := rfl
@[simp] theorem setBank_engDisp (s : State) (b st n : Nat) : (setBank s b st n).engDisp = s.engDisp := rfl
@[simp] theorem setBank_repairs (s : State) (b st n : Nat) : (setBank s b st n).repairs = s.repairs := rfl
@[simp] theorem setBank_tileFails (s : State) (b st n : Nat) : (setBank s b st n).tileFails = s.tileFails := rfl
@[simp] theorem setBank_hbJudged (s : State) (b st n : Nat) : (setBank s b st n).hbJudged = s.hbJudged := rfl
@[simp] theorem setBank_quarantines (s : State) (b st n : Nat) : (setBank s b st n).quarantines = s.quarantines := rfl
@[simp] theorem setBank_hards (s : State) (b st n : Nat) : (setBank s b st n).hards = s.hards := rfl
@[simp] theorem setBank_commons (s : State) (b st n : Nat) : (setBank s b st n).commons = s.commons := rfl
@[simp] theorem setBank_suspects (s : State) (b st n : Nat) : (setBank s b st n).suspects = s.suspects := rfl
@[simp] theorem setBank_moved (s : State) (b st n : Nat) : (setBank s b st n).moved = s.moved := rfl
@[simp] theorem setBank_exclDone (s : State) (b st n : Nat) : (setBank s b st n).exclDone = s.exclDone := rfl
@[simp] theorem setBank_st (s : State) (b st n : Nat) : (setBank s b st n).st = s.st := rfl
@[simp] theorem setBank_alm (s : State) (b st n : Nat) : (setBank s b st n).alm = s.alm := rfl
@[simp] theorem setBank_host (s : State) (b st n : Nat) : (setBank s b st n).host = s.host := rfl
@[simp] theorem setBank_hostMem (s : State) (b st n : Nat) : (setBank s b st n).hostMem = s.hostMem := rfl
@[simp] theorem setBank_flash (s : State) (b st n : Nat) : (setBank s b st n).flash = s.flash := rfl
@[simp] theorem setBank_season (s : State) (b st n : Nat) : (setBank s b st n).season = s.season := rfl
@[simp] theorem setBank_pm (s : State) (b st n : Nat) : (setBank s b st n).pm = s.pm := rfl
@[simp] theorem setBank_links (s : State) (b st n : Nat) : (setBank s b st n).links = s.links := rfl
@[simp] theorem setBank_time (s : State) (b st n : Nat) : (setBank s b st n).time = s.time := rfl

/-! ## putSeq -/

@[simp] theorem putSeq_seqs (s : State) (i : Nat) (d : SeqDesc) : (putSeq s i d).seqs = tput s.seqs i d := rfl
@[simp] theorem putSeq_pending (s : State) (i : Nat) (d : SeqDesc) : (putSeq s i d).pending = s.pending := rfl
@[simp] theorem putSeq_now (s : State) (i : Nat) (d : SeqDesc) : (putSeq s i d).now = s.now := rfl
@[simp] theorem putSeq_fresh (s : State) (i : Nat) (d : SeqDesc) : (putSeq s i d).fresh = s.fresh := rfl
@[simp] theorem putSeq_inReset (s : State) (i : Nat) (d : SeqDesc) : (putSeq s i d).inReset = s.inReset := rfl
@[simp] theorem putSeq_railsLow (s : State) (i : Nat) (d : SeqDesc) : (putSeq s i d).railsLow = s.railsLow := rfl
@[simp] theorem putSeq_boot0 (s : State) (i : Nat) (d : SeqDesc) : (putSeq s i d).boot0 = s.boot0 := rfl
@[simp] theorem putSeq_cal (s : State) (i : Nat) (d : SeqDesc) : (putSeq s i d).cal = s.cal := rfl
@[simp] theorem putSeq_trig (s : State) (i : Nat) (d : SeqDesc) : (putSeq s i d).trig = s.trig := rfl
@[simp] theorem putSeq_stats (s : State) (i : Nat) (d : SeqDesc) : (putSeq s i d).stats = s.stats := rfl
@[simp] theorem putSeq_reportPend (s : State) (i : Nat) (d : SeqDesc) : (putSeq s i d).reportPend = s.reportPend := rfl
@[simp] theorem putSeq_reportRaw (s : State) (i : Nat) (d : SeqDesc) : (putSeq s i d).reportRaw = s.reportRaw := rfl
@[simp] theorem putSeq_plans (s : State) (i : Nat) (d : SeqDesc) : (putSeq s i d).plans = s.plans := rfl
@[simp] theorem putSeq_units (s : State) (i : Nat) (d : SeqDesc) : (putSeq s i d).units = s.units := rfl
@[simp] theorem putSeq_flights (s : State) (i : Nat) (d : SeqDesc) : (putSeq s i d).flights = s.flights := rfl
@[simp] theorem putSeq_clu (s : State) (i : Nat) (d : SeqDesc) : (putSeq s i d).clu = s.clu := rfl
@[simp] theorem putSeq_nle (s : State) (i : Nat) (d : SeqDesc) : (putSeq s i d).nle = s.nle := rfl
@[simp] theorem putSeq_mem (s : State) (i : Nat) (d : SeqDesc) : (putSeq s i d).mem = s.mem := rfl
@[simp] theorem putSeq_side (s : State) (i : Nat) (d : SeqDesc) : (putSeq s i d).side = s.side := rfl
@[simp] theorem putSeq_tags (s : State) (i : Nat) (d : SeqDesc) : (putSeq s i d).tags = s.tags := rfl
@[simp] theorem putSeq_tagPend (s : State) (i : Nat) (d : SeqDesc) : (putSeq s i d).tagPend = s.tagPend := rfl
@[simp] theorem putSeq_tagUse (s : State) (i : Nat) (d : SeqDesc) : (putSeq s i d).tagUse = s.tagUse := rfl
@[simp] theorem putSeq_regions (s : State) (i : Nat) (d : SeqDesc) : (putSeq s i d).regions = s.regions := rfl
@[simp] theorem putSeq_fines (s : State) (i : Nat) (d : SeqDesc) : (putSeq s i d).fines = s.fines := rfl
@[simp] theorem putSeq_cvu (s : State) (i : Nat) (d : SeqDesc) : (putSeq s i d).cvu = s.cvu := rfl
@[simp] theorem putSeq_stc (s : State) (i : Nat) (d : SeqDesc) : (putSeq s i d).stc = s.stc := rfl
@[simp] theorem putSeq_streams (s : State) (i : Nat) (d : SeqDesc) : (putSeq s i d).streams = s.streams := rfl
@[simp] theorem putSeq_fus (s : State) (i : Nat) (d : SeqDesc) : (putSeq s i d).fus = s.fus := rfl
@[simp] theorem putSeq_pln (s : State) (i : Nat) (d : SeqDesc) : (putSeq s i d).pln = s.pln := rfl
@[simp] theorem putSeq_ident (s : State) (i : Nat) (d : SeqDesc) : (putSeq s i d).ident = s.ident := rfl
@[simp] theorem putSeq_rgl (s : State) (i : Nat) (d : SeqDesc) : (putSeq s i d).rgl = s.rgl := rfl
@[simp] theorem putSeq_ports (s : State) (i : Nat) (d : SeqDesc) : (putSeq s i d).ports = s.ports := rfl
@[simp] theorem putSeq_swIn (s : State) (i : Nat) (d : SeqDesc) : (putSeq s i d).swIn = s.swIn := rfl
@[simp] theorem putSeq_swOut (s : State) (i : Nat) (d : SeqDesc) : (putSeq s i d).swOut = s.swOut := rfl
@[simp] theorem putSeq_swWait (s : State) (i : Nat) (d : SeqDesc) : (putSeq s i d).swWait = s.swWait := rfl
@[simp] theorem putSeq_swTurn (s : State) (i : Nat) (d : SeqDesc) : (putSeq s i d).swTurn = s.swTurn := rfl
@[simp] theorem putSeq_islA (s : State) (i : Nat) (d : SeqDesc) : (putSeq s i d).islA = s.islA := rfl
@[simp] theorem putSeq_islB (s : State) (i : Nat) (d : SeqDesc) : (putSeq s i d).islB = s.islB := rfl
@[simp] theorem putSeq_vg (s : State) (i : Nat) (d : SeqDesc) : (putSeq s i d).vg = s.vg := rfl
@[simp] theorem putSeq_twinNotes (s : State) (i : Nat) (d : SeqDesc) : (putSeq s i d).twinNotes = s.twinNotes := rfl
@[simp] theorem putSeq_health (s : State) (i : Nat) (d : SeqDesc) : (putSeq s i d).health = s.health := rfl
@[simp] theorem putSeq_hltQ (s : State) (i : Nat) (d : SeqDesc) : (putSeq s i d).hltQ = s.hltQ := rfl
@[simp] theorem putSeq_hEvents (s : State) (i : Nat) (d : SeqDesc) : (putSeq s i d).hEvents = s.hEvents := rfl
@[simp] theorem putSeq_hRecent (s : State) (i : Nat) (d : SeqDesc) : (putSeq s i d).hRecent = s.hRecent := rfl
@[simp] theorem putSeq_engDisp (s : State) (i : Nat) (d : SeqDesc) : (putSeq s i d).engDisp = s.engDisp := rfl
@[simp] theorem putSeq_repairs (s : State) (i : Nat) (d : SeqDesc) : (putSeq s i d).repairs = s.repairs := rfl
@[simp] theorem putSeq_tileFails (s : State) (i : Nat) (d : SeqDesc) : (putSeq s i d).tileFails = s.tileFails := rfl
@[simp] theorem putSeq_hbJudged (s : State) (i : Nat) (d : SeqDesc) : (putSeq s i d).hbJudged = s.hbJudged := rfl
@[simp] theorem putSeq_quarantines (s : State) (i : Nat) (d : SeqDesc) : (putSeq s i d).quarantines = s.quarantines := rfl
@[simp] theorem putSeq_hards (s : State) (i : Nat) (d : SeqDesc) : (putSeq s i d).hards = s.hards := rfl
@[simp] theorem putSeq_commons (s : State) (i : Nat) (d : SeqDesc) : (putSeq s i d).commons = s.commons := rfl
@[simp] theorem putSeq_suspects (s : State) (i : Nat) (d : SeqDesc) : (putSeq s i d).suspects = s.suspects := rfl
@[simp] theorem putSeq_moved (s : State) (i : Nat) (d : SeqDesc) : (putSeq s i d).moved = s.moved := rfl
@[simp] theorem putSeq_exclDone (s : State) (i : Nat) (d : SeqDesc) : (putSeq s i d).exclDone = s.exclDone := rfl
@[simp] theorem putSeq_st (s : State) (i : Nat) (d : SeqDesc) : (putSeq s i d).st = s.st := rfl
@[simp] theorem putSeq_alm (s : State) (i : Nat) (d : SeqDesc) : (putSeq s i d).alm = s.alm := rfl
@[simp] theorem putSeq_host (s : State) (i : Nat) (d : SeqDesc) : (putSeq s i d).host = s.host := rfl
@[simp] theorem putSeq_hostMem (s : State) (i : Nat) (d : SeqDesc) : (putSeq s i d).hostMem = s.hostMem := rfl
@[simp] theorem putSeq_flash (s : State) (i : Nat) (d : SeqDesc) : (putSeq s i d).flash = s.flash := rfl
@[simp] theorem putSeq_season (s : State) (i : Nat) (d : SeqDesc) : (putSeq s i d).season = s.season := rfl
@[simp] theorem putSeq_upd (s : State) (i : Nat) (d : SeqDesc) : (putSeq s i d).upd = s.upd := rfl
@[simp] theorem putSeq_pm (s : State) (i : Nat) (d : SeqDesc) : (putSeq s i d).pm = s.pm := rfl
@[simp] theorem putSeq_links (s : State) (i : Nat) (d : SeqDesc) : (putSeq s i d).links = s.links := rfl
@[simp] theorem putSeq_time (s : State) (i : Nat) (d : SeqDesc) : (putSeq s i d).time = s.time := rfl

/-! ## send -/

@[simp] theorem send_pending (s : State) (f : Flight) : (send s f).pending = s.pending := rfl
@[simp] theorem send_now (s : State) (f : Flight) : (send s f).now = s.now := rfl
@[simp] theorem send_fresh (s : State) (f : Flight) : (send s f).fresh = s.fresh := rfl
@[simp] theorem send_inReset (s : State) (f : Flight) : (send s f).inReset = s.inReset := rfl
@[simp] theorem send_railsLow (s : State) (f : Flight) : (send s f).railsLow = s.railsLow := rfl
@[simp] theorem send_boot0 (s : State) (f : Flight) : (send s f).boot0 = s.boot0 := rfl
@[simp] theorem send_cal (s : State) (f : Flight) : (send s f).cal = s.cal := rfl
@[simp] theorem send_trig (s : State) (f : Flight) : (send s f).trig = s.trig := rfl
@[simp] theorem send_stats (s : State) (f : Flight) : (send s f).stats = s.stats := rfl
@[simp] theorem send_reportPend (s : State) (f : Flight) : (send s f).reportPend = s.reportPend := rfl
@[simp] theorem send_reportRaw (s : State) (f : Flight) : (send s f).reportRaw = s.reportRaw := rfl
@[simp] theorem send_plans (s : State) (f : Flight) : (send s f).plans = s.plans := rfl
@[simp] theorem send_units (s : State) (f : Flight) : (send s f).units = s.units := rfl
@[simp] theorem send_clu (s : State) (f : Flight) : (send s f).clu = s.clu := rfl
@[simp] theorem send_nle (s : State) (f : Flight) : (send s f).nle = s.nle := rfl
@[simp] theorem send_mem (s : State) (f : Flight) : (send s f).mem = s.mem := rfl
@[simp] theorem send_side (s : State) (f : Flight) : (send s f).side = s.side := rfl
@[simp] theorem send_tags (s : State) (f : Flight) : (send s f).tags = s.tags := rfl
@[simp] theorem send_tagPend (s : State) (f : Flight) : (send s f).tagPend = s.tagPend := rfl
@[simp] theorem send_tagUse (s : State) (f : Flight) : (send s f).tagUse = s.tagUse := rfl
@[simp] theorem send_seqs (s : State) (f : Flight) : (send s f).seqs = s.seqs := rfl
@[simp] theorem send_regions (s : State) (f : Flight) : (send s f).regions = s.regions := rfl
@[simp] theorem send_fines (s : State) (f : Flight) : (send s f).fines = s.fines := rfl
@[simp] theorem send_cvu (s : State) (f : Flight) : (send s f).cvu = s.cvu := rfl
@[simp] theorem send_stc (s : State) (f : Flight) : (send s f).stc = s.stc := rfl
@[simp] theorem send_streams (s : State) (f : Flight) : (send s f).streams = s.streams := rfl
@[simp] theorem send_fus (s : State) (f : Flight) : (send s f).fus = s.fus := rfl
@[simp] theorem send_pln (s : State) (f : Flight) : (send s f).pln = s.pln := rfl
@[simp] theorem send_ident (s : State) (f : Flight) : (send s f).ident = s.ident := rfl
@[simp] theorem send_rgl (s : State) (f : Flight) : (send s f).rgl = s.rgl := rfl
@[simp] theorem send_ports (s : State) (f : Flight) : (send s f).ports = s.ports := rfl
@[simp] theorem send_swIn (s : State) (f : Flight) : (send s f).swIn = s.swIn := rfl
@[simp] theorem send_swOut (s : State) (f : Flight) : (send s f).swOut = s.swOut := rfl
@[simp] theorem send_swWait (s : State) (f : Flight) : (send s f).swWait = s.swWait := rfl
@[simp] theorem send_swTurn (s : State) (f : Flight) : (send s f).swTurn = s.swTurn := rfl
@[simp] theorem send_islA (s : State) (f : Flight) : (send s f).islA = s.islA := rfl
@[simp] theorem send_islB (s : State) (f : Flight) : (send s f).islB = s.islB := rfl
@[simp] theorem send_vg (s : State) (f : Flight) : (send s f).vg = s.vg := rfl
@[simp] theorem send_twinNotes (s : State) (f : Flight) : (send s f).twinNotes = s.twinNotes := rfl
@[simp] theorem send_health (s : State) (f : Flight) : (send s f).health = s.health := rfl
@[simp] theorem send_hltQ (s : State) (f : Flight) : (send s f).hltQ = s.hltQ := rfl
@[simp] theorem send_hEvents (s : State) (f : Flight) : (send s f).hEvents = s.hEvents := rfl
@[simp] theorem send_hRecent (s : State) (f : Flight) : (send s f).hRecent = s.hRecent := rfl
@[simp] theorem send_engDisp (s : State) (f : Flight) : (send s f).engDisp = s.engDisp := rfl
@[simp] theorem send_repairs (s : State) (f : Flight) : (send s f).repairs = s.repairs := rfl
@[simp] theorem send_tileFails (s : State) (f : Flight) : (send s f).tileFails = s.tileFails := rfl
@[simp] theorem send_hbJudged (s : State) (f : Flight) : (send s f).hbJudged = s.hbJudged := rfl
@[simp] theorem send_quarantines (s : State) (f : Flight) : (send s f).quarantines = s.quarantines := rfl
@[simp] theorem send_hards (s : State) (f : Flight) : (send s f).hards = s.hards := rfl
@[simp] theorem send_commons (s : State) (f : Flight) : (send s f).commons = s.commons := rfl
@[simp] theorem send_suspects (s : State) (f : Flight) : (send s f).suspects = s.suspects := rfl
@[simp] theorem send_moved (s : State) (f : Flight) : (send s f).moved = s.moved := rfl
@[simp] theorem send_exclDone (s : State) (f : Flight) : (send s f).exclDone = s.exclDone := rfl
@[simp] theorem send_st (s : State) (f : Flight) : (send s f).st = s.st := rfl
@[simp] theorem send_alm (s : State) (f : Flight) : (send s f).alm = s.alm := rfl
@[simp] theorem send_host (s : State) (f : Flight) : (send s f).host = s.host := rfl
@[simp] theorem send_hostMem (s : State) (f : Flight) : (send s f).hostMem = s.hostMem := rfl
@[simp] theorem send_flash (s : State) (f : Flight) : (send s f).flash = s.flash := rfl
@[simp] theorem send_season (s : State) (f : Flight) : (send s f).season = s.season := rfl
@[simp] theorem send_upd (s : State) (f : Flight) : (send s f).upd = s.upd := rfl
@[simp] theorem send_pm (s : State) (f : Flight) : (send s f).pm = s.pm := rfl
@[simp] theorem send_links (s : State) (f : Flight) : (send s f).links = s.links := rfl
@[simp] theorem send_time (s : State) (f : Flight) : (send s f).time = s.time := rfl

/-! ## atCalend -/

@[simp] theorem atCalend_now (s : State) : (atCalend s).now = max s.now s.cal.next := rfl
@[simp] theorem atCalend_pending (s : State) : (atCalend s).pending = s.pending := rfl
@[simp] theorem atCalend_fresh (s : State) : (atCalend s).fresh = s.fresh := rfl
@[simp] theorem atCalend_inReset (s : State) : (atCalend s).inReset = s.inReset := rfl
@[simp] theorem atCalend_railsLow (s : State) : (atCalend s).railsLow = s.railsLow := rfl
@[simp] theorem atCalend_boot0 (s : State) : (atCalend s).boot0 = s.boot0 := rfl
@[simp] theorem atCalend_cal (s : State) : (atCalend s).cal = s.cal := rfl
@[simp] theorem atCalend_trig (s : State) : (atCalend s).trig = s.trig := rfl
@[simp] theorem atCalend_stats (s : State) : (atCalend s).stats = s.stats := rfl
@[simp] theorem atCalend_reportPend (s : State) : (atCalend s).reportPend = s.reportPend := rfl
@[simp] theorem atCalend_reportRaw (s : State) : (atCalend s).reportRaw = s.reportRaw := rfl
@[simp] theorem atCalend_plans (s : State) : (atCalend s).plans = s.plans := rfl
@[simp] theorem atCalend_units (s : State) : (atCalend s).units = s.units := rfl
@[simp] theorem atCalend_flights (s : State) : (atCalend s).flights = s.flights := rfl
@[simp] theorem atCalend_clu (s : State) : (atCalend s).clu = s.clu := rfl
@[simp] theorem atCalend_nle (s : State) : (atCalend s).nle = s.nle := rfl
@[simp] theorem atCalend_mem (s : State) : (atCalend s).mem = s.mem := rfl
@[simp] theorem atCalend_side (s : State) : (atCalend s).side = s.side := rfl
@[simp] theorem atCalend_tags (s : State) : (atCalend s).tags = s.tags := rfl
@[simp] theorem atCalend_tagPend (s : State) : (atCalend s).tagPend = s.tagPend := rfl
@[simp] theorem atCalend_tagUse (s : State) : (atCalend s).tagUse = s.tagUse := rfl
@[simp] theorem atCalend_seqs (s : State) : (atCalend s).seqs = s.seqs := rfl
@[simp] theorem atCalend_regions (s : State) : (atCalend s).regions = s.regions := rfl
@[simp] theorem atCalend_fines (s : State) : (atCalend s).fines = s.fines := rfl
@[simp] theorem atCalend_cvu (s : State) : (atCalend s).cvu = s.cvu := rfl
@[simp] theorem atCalend_stc (s : State) : (atCalend s).stc = s.stc := rfl
@[simp] theorem atCalend_streams (s : State) : (atCalend s).streams = s.streams := rfl
@[simp] theorem atCalend_fus (s : State) : (atCalend s).fus = s.fus := rfl
@[simp] theorem atCalend_pln (s : State) : (atCalend s).pln = s.pln := rfl
@[simp] theorem atCalend_ident (s : State) : (atCalend s).ident = s.ident := rfl
@[simp] theorem atCalend_rgl (s : State) : (atCalend s).rgl = s.rgl := rfl
@[simp] theorem atCalend_ports (s : State) : (atCalend s).ports = s.ports := rfl
@[simp] theorem atCalend_swIn (s : State) : (atCalend s).swIn = s.swIn := rfl
@[simp] theorem atCalend_swOut (s : State) : (atCalend s).swOut = s.swOut := rfl
@[simp] theorem atCalend_swWait (s : State) : (atCalend s).swWait = s.swWait := rfl
@[simp] theorem atCalend_swTurn (s : State) : (atCalend s).swTurn = s.swTurn := rfl
@[simp] theorem atCalend_islA (s : State) : (atCalend s).islA = s.islA := rfl
@[simp] theorem atCalend_islB (s : State) : (atCalend s).islB = s.islB := rfl
@[simp] theorem atCalend_vg (s : State) : (atCalend s).vg = s.vg := rfl
@[simp] theorem atCalend_twinNotes (s : State) : (atCalend s).twinNotes = s.twinNotes := rfl
@[simp] theorem atCalend_health (s : State) : (atCalend s).health = s.health := rfl
@[simp] theorem atCalend_hltQ (s : State) : (atCalend s).hltQ = s.hltQ := rfl
@[simp] theorem atCalend_hEvents (s : State) : (atCalend s).hEvents = s.hEvents := rfl
@[simp] theorem atCalend_hRecent (s : State) : (atCalend s).hRecent = s.hRecent := rfl
@[simp] theorem atCalend_engDisp (s : State) : (atCalend s).engDisp = s.engDisp := rfl
@[simp] theorem atCalend_repairs (s : State) : (atCalend s).repairs = s.repairs := rfl
@[simp] theorem atCalend_tileFails (s : State) : (atCalend s).tileFails = s.tileFails := rfl
@[simp] theorem atCalend_hbJudged (s : State) : (atCalend s).hbJudged = s.hbJudged := rfl
@[simp] theorem atCalend_quarantines (s : State) : (atCalend s).quarantines = s.quarantines := rfl
@[simp] theorem atCalend_hards (s : State) : (atCalend s).hards = s.hards := rfl
@[simp] theorem atCalend_commons (s : State) : (atCalend s).commons = s.commons := rfl
@[simp] theorem atCalend_suspects (s : State) : (atCalend s).suspects = s.suspects := rfl
@[simp] theorem atCalend_moved (s : State) : (atCalend s).moved = s.moved := rfl
@[simp] theorem atCalend_exclDone (s : State) : (atCalend s).exclDone = s.exclDone := rfl
@[simp] theorem atCalend_st (s : State) : (atCalend s).st = s.st := rfl
@[simp] theorem atCalend_alm (s : State) : (atCalend s).alm = s.alm := rfl
@[simp] theorem atCalend_host (s : State) : (atCalend s).host = s.host := rfl
@[simp] theorem atCalend_hostMem (s : State) : (atCalend s).hostMem = s.hostMem := rfl
@[simp] theorem atCalend_flash (s : State) : (atCalend s).flash = s.flash := rfl
@[simp] theorem atCalend_season (s : State) : (atCalend s).season = s.season := rfl
@[simp] theorem atCalend_upd (s : State) : (atCalend s).upd = s.upd := rfl
@[simp] theorem atCalend_pm (s : State) : (atCalend s).pm = s.pm := rfl
@[simp] theorem atCalend_links (s : State) : (atCalend s).links = s.links := rfl
@[simp] theorem atCalend_time (s : State) : (atCalend s).time = s.time := rfl

end Sys2Proof.Machine
end

