-- ==== Sys2Proof/Laws/Ops.lean ====
section
/-!
SUPPORT. What each shared operation can do, said once: the frame lemma of an operation names the fields it may change, and one lemma for every
other field follows.
-/

namespace Sys2Proof.Machine

/-! ## modIsl -/

/-- `modIsl` changes nothing but islA, islB. -/
theorem modIsl_frame (s : State) (i : Isl) (f : Island → Island) :
    ∃ x0 x1, modIsl s i f = { s with islA := x0, islB := x1 } := by cases i <;> exact ⟨_, _, rfl⟩
@[simp] theorem modIsl_pending (s : State) (i : Isl) (f : Island → Island) : (modIsl s i f).pending = s.pending := by
  obtain ⟨_, _, e⟩ := modIsl_frame s i f; rw [e]
@[simp] theorem modIsl_now (s : State) (i : Isl) (f : Island → Island) : (modIsl s i f).now = s.now := by
  obtain ⟨_, _, e⟩ := modIsl_frame s i f; rw [e]
@[simp] theorem modIsl_fresh (s : State) (i : Isl) (f : Island → Island) : (modIsl s i f).fresh = s.fresh := by
  obtain ⟨_, _, e⟩ := modIsl_frame s i f; rw [e]
@[simp] theorem modIsl_inReset (s : State) (i : Isl) (f : Island → Island) : (modIsl s i f).inReset = s.inReset := by
  obtain ⟨_, _, e⟩ := modIsl_frame s i f; rw [e]
@[simp] theorem modIsl_railsLow (s : State) (i : Isl) (f : Island → Island) : (modIsl s i f).railsLow = s.railsLow := by
  obtain ⟨_, _, e⟩ := modIsl_frame s i f; rw [e]
@[simp] theorem modIsl_boot0 (s : State) (i : Isl) (f : Island → Island) : (modIsl s i f).boot0 = s.boot0 := by
  obtain ⟨_, _, e⟩ := modIsl_frame s i f; rw [e]
@[simp] theorem modIsl_cal (s : State) (i : Isl) (f : Island → Island) : (modIsl s i f).cal = s.cal := by
  obtain ⟨_, _, e⟩ := modIsl_frame s i f; rw [e]
@[simp] theorem modIsl_trig (s : State) (i : Isl) (f : Island → Island) : (modIsl s i f).trig = s.trig := by
  obtain ⟨_, _, e⟩ := modIsl_frame s i f; rw [e]
@[simp] theorem modIsl_stats (s : State) (i : Isl) (f : Island → Island) : (modIsl s i f).stats = s.stats := by
  obtain ⟨_, _, e⟩ := modIsl_frame s i f; rw [e]
@[simp] theorem modIsl_reportPend (s : State) (i : Isl) (f : Island → Island) : (modIsl s i f).reportPend = s.reportPend := by
  obtain ⟨_, _, e⟩ := modIsl_frame s i f; rw [e]
@[simp] theorem modIsl_reportRaw (s : State) (i : Isl) (f : Island → Island) : (modIsl s i f).reportRaw = s.reportRaw := by
  obtain ⟨_, _, e⟩ := modIsl_frame s i f; rw [e]
@[simp] theorem modIsl_plans (s : State) (i : Isl) (f : Island → Island) : (modIsl s i f).plans = s.plans := by
  obtain ⟨_, _, e⟩ := modIsl_frame s i f; rw [e]
@[simp] theorem modIsl_units (s : State) (i : Isl) (f : Island → Island) : (modIsl s i f).units = s.units := by
  obtain ⟨_, _, e⟩ := modIsl_frame s i f; rw [e]
@[simp] theorem modIsl_flights (s : State) (i : Isl) (f : Island → Island) : (modIsl s i f).flights = s.flights := by
  obtain ⟨_, _, e⟩ := modIsl_frame s i f; rw [e]
@[simp] theorem modIsl_clu (s : State) (i : Isl) (f : Island → Island) : (modIsl s i f).clu = s.clu := by
  obtain ⟨_, _, e⟩ := modIsl_frame s i f; rw [e]
@[simp] theorem modIsl_nle (s : State) (i : Isl) (f : Island → Island) : (modIsl s i f).nle = s.nle := by
  obtain ⟨_, _, e⟩ := modIsl_frame s i f; rw [e]
@[simp] theorem modIsl_mem (s : State) (i : Isl) (f : Island → Island) : (modIsl s i f).mem = s.mem := by
  obtain ⟨_, _, e⟩ := modIsl_frame s i f; rw [e]
@[simp] theorem modIsl_side (s : State) (i : Isl) (f : Island → Island) : (modIsl s i f).side = s.side := by
  obtain ⟨_, _, e⟩ := modIsl_frame s i f; rw [e]
@[simp] theorem modIsl_tags (s : State) (i : Isl) (f : Island → Island) : (modIsl s i f).tags = s.tags := by
  obtain ⟨_, _, e⟩ := modIsl_frame s i f; rw [e]
@[simp] theorem modIsl_tagPend (s : State) (i : Isl) (f : Island → Island) : (modIsl s i f).tagPend = s.tagPend := by
  obtain ⟨_, _, e⟩ := modIsl_frame s i f; rw [e]
@[simp] theorem modIsl_tagUse (s : State) (i : Isl) (f : Island → Island) : (modIsl s i f).tagUse = s.tagUse := by
  obtain ⟨_, _, e⟩ := modIsl_frame s i f; rw [e]
@[simp] theorem modIsl_seqs (s : State) (i : Isl) (f : Island → Island) : (modIsl s i f).seqs = s.seqs := by
  obtain ⟨_, _, e⟩ := modIsl_frame s i f; rw [e]
@[simp] theorem modIsl_regions (s : State) (i : Isl) (f : Island → Island) : (modIsl s i f).regions = s.regions := by
  obtain ⟨_, _, e⟩ := modIsl_frame s i f; rw [e]
@[simp] theorem modIsl_fines (s : State) (i : Isl) (f : Island → Island) : (modIsl s i f).fines = s.fines := by
  obtain ⟨_, _, e⟩ := modIsl_frame s i f; rw [e]
@[simp] theorem modIsl_cvu (s : State) (i : Isl) (f : Island → Island) : (modIsl s i f).cvu = s.cvu := by
  obtain ⟨_, _, e⟩ := modIsl_frame s i f; rw [e]
@[simp] theorem modIsl_stc (s : State) (i : Isl) (f : Island → Island) : (modIsl s i f).stc = s.stc := by
  obtain ⟨_, _, e⟩ := modIsl_frame s i f; rw [e]
@[simp] theorem modIsl_streams (s : State) (i : Isl) (f : Island → Island) : (modIsl s i f).streams = s.streams := by
  obtain ⟨_, _, e⟩ := modIsl_frame s i f; rw [e]
@[simp] theorem modIsl_fus (s : State) (i : Isl) (f : Island → Island) : (modIsl s i f).fus = s.fus := by
  obtain ⟨_, _, e⟩ := modIsl_frame s i f; rw [e]
@[simp] theorem modIsl_pln (s : State) (i : Isl) (f : Island → Island) : (modIsl s i f).pln = s.pln := by
  obtain ⟨_, _, e⟩ := modIsl_frame s i f; rw [e]
@[simp] theorem modIsl_ident (s : State) (i : Isl) (f : Island → Island) : (modIsl s i f).ident = s.ident := by
  obtain ⟨_, _, e⟩ := modIsl_frame s i f; rw [e]
@[simp] theorem modIsl_rgl (s : State) (i : Isl) (f : Island → Island) : (modIsl s i f).rgl = s.rgl := by
  obtain ⟨_, _, e⟩ := modIsl_frame s i f; rw [e]
@[simp] theorem modIsl_ports (s : State) (i : Isl) (f : Island → Island) : (modIsl s i f).ports = s.ports := by
  obtain ⟨_, _, e⟩ := modIsl_frame s i f; rw [e]
@[simp] theorem modIsl_swIn (s : State) (i : Isl) (f : Island → Island) : (modIsl s i f).swIn = s.swIn := by
  obtain ⟨_, _, e⟩ := modIsl_frame s i f; rw [e]
@[simp] theorem modIsl_swOut (s : State) (i : Isl) (f : Island → Island) : (modIsl s i f).swOut = s.swOut := by
  obtain ⟨_, _, e⟩ := modIsl_frame s i f; rw [e]
@[simp] theorem modIsl_swWait (s : State) (i : Isl) (f : Island → Island) : (modIsl s i f).swWait = s.swWait := by
  obtain ⟨_, _, e⟩ := modIsl_frame s i f; rw [e]
@[simp] theorem modIsl_swTurn (s : State) (i : Isl) (f : Island → Island) : (modIsl s i f).swTurn = s.swTurn := by
  obtain ⟨_, _, e⟩ := modIsl_frame s i f; rw [e]
@[simp] theorem modIsl_vg (s : State) (i : Isl) (f : Island → Island) : (modIsl s i f).vg = s.vg := by
  obtain ⟨_, _, e⟩ := modIsl_frame s i f; rw [e]
@[simp] theorem modIsl_twinNotes (s : State) (i : Isl) (f : Island → Island) : (modIsl s i f).twinNotes = s.twinNotes := by
  obtain ⟨_, _, e⟩ := modIsl_frame s i f; rw [e]
@[simp] theorem modIsl_health (s : State) (i : Isl) (f : Island → Island) : (modIsl s i f).health = s.health := by
  obtain ⟨_, _, e⟩ := modIsl_frame s i f; rw [e]
@[simp] theorem modIsl_hltQ (s : State) (i : Isl) (f : Island → Island) : (modIsl s i f).hltQ = s.hltQ := by
  obtain ⟨_, _, e⟩ := modIsl_frame s i f; rw [e]
@[simp] theorem modIsl_hEvents (s : State) (i : Isl) (f : Island → Island) : (modIsl s i f).hEvents = s.hEvents := by
  obtain ⟨_, _, e⟩ := modIsl_frame s i f; rw [e]
@[simp] theorem modIsl_hRecent (s : State) (i : Isl) (f : Island → Island) : (modIsl s i f).hRecent = s.hRecent := by
  obtain ⟨_, _, e⟩ := modIsl_frame s i f; rw [e]
@[simp] theorem modIsl_engDisp (s : State) (i : Isl) (f : Island → Island) : (modIsl s i f).engDisp = s.engDisp := by
  obtain ⟨_, _, e⟩ := modIsl_frame s i f; rw [e]
@[simp] theorem modIsl_repairs (s : State) (i : Isl) (f : Island → Island) : (modIsl s i f).repairs = s.repairs := by
  obtain ⟨_, _, e⟩ := modIsl_frame s i f; rw [e]
@[simp] theorem modIsl_tileFails (s : State) (i : Isl) (f : Island → Island) : (modIsl s i f).tileFails = s.tileFails := by
  obtain ⟨_, _, e⟩ := modIsl_frame s i f; rw [e]
@[simp] theorem modIsl_hbJudged (s : State) (i : Isl) (f : Island → Island) : (modIsl s i f).hbJudged = s.hbJudged := by
  obtain ⟨_, _, e⟩ := modIsl_frame s i f; rw [e]
@[simp] theorem modIsl_quarantines (s : State) (i : Isl) (f : Island → Island) : (modIsl s i f).quarantines = s.quarantines := by
  obtain ⟨_, _, e⟩ := modIsl_frame s i f; rw [e]
@[simp] theorem modIsl_hards (s : State) (i : Isl) (f : Island → Island) : (modIsl s i f).hards = s.hards := by
  obtain ⟨_, _, e⟩ := modIsl_frame s i f; rw [e]
@[simp] theorem modIsl_commons (s : State) (i : Isl) (f : Island → Island) : (modIsl s i f).commons = s.commons := by
  obtain ⟨_, _, e⟩ := modIsl_frame s i f; rw [e]
@[simp] theorem modIsl_suspects (s : State) (i : Isl) (f : Island → Island) : (modIsl s i f).suspects = s.suspects := by
  obtain ⟨_, _, e⟩ := modIsl_frame s i f; rw [e]
@[simp] theorem modIsl_moved (s : State) (i : Isl) (f : Island → Island) : (modIsl s i f).moved = s.moved := by
  obtain ⟨_, _, e⟩ := modIsl_frame s i f; rw [e]
@[simp] theorem modIsl_exclDone (s : State) (i : Isl) (f : Island → Island) : (modIsl s i f).exclDone = s.exclDone := by
  obtain ⟨_, _, e⟩ := modIsl_frame s i f; rw [e]
@[simp] theorem modIsl_st (s : State) (i : Isl) (f : Island → Island) : (modIsl s i f).st = s.st := by
  obtain ⟨_, _, e⟩ := modIsl_frame s i f; rw [e]
@[simp] theorem modIsl_alm (s : State) (i : Isl) (f : Island → Island) : (modIsl s i f).alm = s.alm := by
  obtain ⟨_, _, e⟩ := modIsl_frame s i f; rw [e]
@[simp] theorem modIsl_host (s : State) (i : Isl) (f : Island → Island) : (modIsl s i f).host = s.host := by
  obtain ⟨_, _, e⟩ := modIsl_frame s i f; rw [e]
@[simp] theorem modIsl_hostMem (s : State) (i : Isl) (f : Island → Island) : (modIsl s i f).hostMem = s.hostMem := by
  obtain ⟨_, _, e⟩ := modIsl_frame s i f; rw [e]
@[simp] theorem modIsl_flash (s : State) (i : Isl) (f : Island → Island) : (modIsl s i f).flash = s.flash := by
  obtain ⟨_, _, e⟩ := modIsl_frame s i f; rw [e]
@[simp] theorem modIsl_season (s : State) (i : Isl) (f : Island → Island) : (modIsl s i f).season = s.season := by
  obtain ⟨_, _, e⟩ := modIsl_frame s i f; rw [e]
@[simp] theorem modIsl_upd (s : State) (i : Isl) (f : Island → Island) : (modIsl s i f).upd = s.upd := by
  obtain ⟨_, _, e⟩ := modIsl_frame s i f; rw [e]
@[simp] theorem modIsl_pm (s : State) (i : Isl) (f : Island → Island) : (modIsl s i f).pm = s.pm := by
  obtain ⟨_, _, e⟩ := modIsl_frame s i f; rw [e]
@[simp] theorem modIsl_links (s : State) (i : Isl) (f : Island → Island) : (modIsl s i f).links = s.links := by
  obtain ⟨_, _, e⟩ := modIsl_frame s i f; rw [e]
@[simp] theorem modIsl_time (s : State) (i : Isl) (f : Island → Island) : (modIsl s i f).time = s.time := by
  obtain ⟨_, _, e⟩ := modIsl_frame s i f; rw [e]

/-! ## msix -/

/-- `msix` changes nothing but host. -/
theorem msix_frame (s : State) (v : Nat) :
    ∃ x0, msix s v = { s with host := x0 } := by unfold msix; split <;> exact ⟨_, rfl⟩
@[simp] theorem msix_pending (s : State) (v : Nat) : (msix s v).pending = s.pending := by
  obtain ⟨_, e⟩ := msix_frame s v; rw [e]
@[simp] theorem msix_now (s : State) (v : Nat) : (msix s v).now = s.now := by
  obtain ⟨_, e⟩ := msix_frame s v; rw [e]
@[simp] theorem msix_fresh (s : State) (v : Nat) : (msix s v).fresh = s.fresh := by
  obtain ⟨_, e⟩ := msix_frame s v; rw [e]
@[simp] theorem msix_inReset (s : State) (v : Nat) : (msix s v).inReset = s.inReset := by
  obtain ⟨_, e⟩ := msix_frame s v; rw [e]
@[simp] theorem msix_railsLow (s : State) (v : Nat) : (msix s v).railsLow = s.railsLow := by
  obtain ⟨_, e⟩ := msix_frame s v; rw [e]
@[simp] theorem msix_boot0 (s : State) (v : Nat) : (msix s v).boot0 = s.boot0 := by
  obtain ⟨_, e⟩ := msix_frame s v; rw [e]
@[simp] theorem msix_cal (s : State) (v : Nat) : (msix s v).cal = s.cal := by
  obtain ⟨_, e⟩ := msix_frame s v; rw [e]
@[simp] theorem msix_trig (s : State) (v : Nat) : (msix s v).trig = s.trig := by
  obtain ⟨_, e⟩ := msix_frame s v; rw [e]
@[simp] theorem msix_stats (s : State) (v : Nat) : (msix s v).stats = s.stats := by
  obtain ⟨_, e⟩ := msix_frame s v; rw [e]
@[simp] theorem msix_reportPend (s : State) (v : Nat) : (msix s v).reportPend = s.reportPend := by
  obtain ⟨_, e⟩ := msix_frame s v; rw [e]
@[simp] theorem msix_reportRaw (s : State) (v : Nat) : (msix s v).reportRaw = s.reportRaw := by
  obtain ⟨_, e⟩ := msix_frame s v; rw [e]
@[simp] theorem msix_plans (s : State) (v : Nat) : (msix s v).plans = s.plans := by
  obtain ⟨_, e⟩ := msix_frame s v; rw [e]
@[simp] theorem msix_units (s : State) (v : Nat) : (msix s v).units = s.units := by
  obtain ⟨_, e⟩ := msix_frame s v; rw [e]
@[simp] theorem msix_flights (s : State) (v : Nat) : (msix s v).flights = s.flights := by
  obtain ⟨_, e⟩ := msix_frame s v; rw [e]
@[simp] theorem msix_clu (s : State) (v : Nat) : (msix s v).clu = s.clu := by
  obtain ⟨_, e⟩ := msix_frame s v; rw [e]
@[simp] theorem msix_nle (s : State) (v : Nat) : (msix s v).nle = s.nle := by
  obtain ⟨_, e⟩ := msix_frame s v; rw [e]
@[simp] theorem msix_mem (s : State) (v : Nat) : (msix s v).mem = s.mem := by
  obtain ⟨_, e⟩ := msix_frame s v; rw [e]
@[simp] theorem msix_side (s : State) (v : Nat) : (msix s v).side = s.side := by
  obtain ⟨_, e⟩ := msix_frame s v; rw [e]
@[simp] theorem msix_tags (s : State) (v : Nat) : (msix s v).tags = s.tags := by
  obtain ⟨_, e⟩ := msix_frame s v; rw [e]
@[simp] theorem msix_tagPend (s : State) (v : Nat) : (msix s v).tagPend = s.tagPend := by
  obtain ⟨_, e⟩ := msix_frame s v; rw [e]
@[simp] theorem msix_tagUse (s : State) (v : Nat) : (msix s v).tagUse = s.tagUse := by
  obtain ⟨_, e⟩ := msix_frame s v; rw [e]
@[simp] theorem msix_seqs (s : State) (v : Nat) : (msix s v).seqs = s.seqs := by
  obtain ⟨_, e⟩ := msix_frame s v; rw [e]
@[simp] theorem msix_regions (s : State) (v : Nat) : (msix s v).regions = s.regions := by
  obtain ⟨_, e⟩ := msix_frame s v; rw [e]
@[simp] theorem msix_fines (s : State) (v : Nat) : (msix s v).fines = s.fines := by
  obtain ⟨_, e⟩ := msix_frame s v; rw [e]
@[simp] theorem msix_cvu (s : State) (v : Nat) : (msix s v).cvu = s.cvu := by
  obtain ⟨_, e⟩ := msix_frame s v; rw [e]
@[simp] theorem msix_stc (s : State) (v : Nat) : (msix s v).stc = s.stc := by
  obtain ⟨_, e⟩ := msix_frame s v; rw [e]
@[simp] theorem msix_streams (s : State) (v : Nat) : (msix s v).streams = s.streams := by
  obtain ⟨_, e⟩ := msix_frame s v; rw [e]
@[simp] theorem msix_fus (s : State) (v : Nat) : (msix s v).fus = s.fus := by
  obtain ⟨_, e⟩ := msix_frame s v; rw [e]
@[simp] theorem msix_pln (s : State) (v : Nat) : (msix s v).pln = s.pln := by
  obtain ⟨_, e⟩ := msix_frame s v; rw [e]
@[simp] theorem msix_ident (s : State) (v : Nat) : (msix s v).ident = s.ident := by
  obtain ⟨_, e⟩ := msix_frame s v; rw [e]
@[simp] theorem msix_rgl (s : State) (v : Nat) : (msix s v).rgl = s.rgl := by
  obtain ⟨_, e⟩ := msix_frame s v; rw [e]
@[simp] theorem msix_ports (s : State) (v : Nat) : (msix s v).ports = s.ports := by
  obtain ⟨_, e⟩ := msix_frame s v; rw [e]
@[simp] theorem msix_swIn (s : State) (v : Nat) : (msix s v).swIn = s.swIn := by
  obtain ⟨_, e⟩ := msix_frame s v; rw [e]
@[simp] theorem msix_swOut (s : State) (v : Nat) : (msix s v).swOut = s.swOut := by
  obtain ⟨_, e⟩ := msix_frame s v; rw [e]
@[simp] theorem msix_swWait (s : State) (v : Nat) : (msix s v).swWait = s.swWait := by
  obtain ⟨_, e⟩ := msix_frame s v; rw [e]
@[simp] theorem msix_swTurn (s : State) (v : Nat) : (msix s v).swTurn = s.swTurn := by
  obtain ⟨_, e⟩ := msix_frame s v; rw [e]
@[simp] theorem msix_islA (s : State) (v : Nat) : (msix s v).islA = s.islA := by
  obtain ⟨_, e⟩ := msix_frame s v; rw [e]
@[simp] theorem msix_islB (s : State) (v : Nat) : (msix s v).islB = s.islB := by
  obtain ⟨_, e⟩ := msix_frame s v; rw [e]
@[simp] theorem msix_vg (s : State) (v : Nat) : (msix s v).vg = s.vg := by
  obtain ⟨_, e⟩ := msix_frame s v; rw [e]
@[simp] theorem msix_twinNotes (s : State) (v : Nat) : (msix s v).twinNotes = s.twinNotes := by
  obtain ⟨_, e⟩ := msix_frame s v; rw [e]
@[simp] theorem msix_health (s : State) (v : Nat) : (msix s v).health = s.health := by
  obtain ⟨_, e⟩ := msix_frame s v; rw [e]
@[simp] theorem msix_hltQ (s : State) (v : Nat) : (msix s v).hltQ = s.hltQ := by
  obtain ⟨_, e⟩ := msix_frame s v; rw [e]
@[simp] theorem msix_hEvents (s : State) (v : Nat) : (msix s v).hEvents = s.hEvents := by
  obtain ⟨_, e⟩ := msix_frame s v; rw [e]
@[simp] theorem msix_hRecent (s : State) (v : Nat) : (msix s v).hRecent = s.hRecent := by
  obtain ⟨_, e⟩ := msix_frame s v; rw [e]
@[simp] theorem msix_engDisp (s : State) (v : Nat) : (msix s v).engDisp = s.engDisp := by
  obtain ⟨_, e⟩ := msix_frame s v; rw [e]
@[simp] theorem msix_repairs (s : State) (v : Nat) : (msix s v).repairs = s.repairs := by
  obtain ⟨_, e⟩ := msix_frame s v; rw [e]
@[simp] theorem msix_tileFails (s : State) (v : Nat) : (msix s v).tileFails = s.tileFails := by
  obtain ⟨_, e⟩ := msix_frame s v; rw [e]
@[simp] theorem msix_hbJudged (s : State) (v : Nat) : (msix s v).hbJudged = s.hbJudged := by
  obtain ⟨_, e⟩ := msix_frame s v; rw [e]
@[simp] theorem msix_quarantines (s : State) (v : Nat) : (msix s v).quarantines = s.quarantines := by
  obtain ⟨_, e⟩ := msix_frame s v; rw [e]
@[simp] theorem msix_hards (s : State) (v : Nat) : (msix s v).hards = s.hards := by
  obtain ⟨_, e⟩ := msix_frame s v; rw [e]
@[simp] theorem msix_commons (s : State) (v : Nat) : (msix s v).commons = s.commons := by
  obtain ⟨_, e⟩ := msix_frame s v; rw [e]
@[simp] theorem msix_suspects (s : State) (v : Nat) : (msix s v).suspects = s.suspects := by
  obtain ⟨_, e⟩ := msix_frame s v; rw [e]
@[simp] theorem msix_moved (s : State) (v : Nat) : (msix s v).moved = s.moved := by
  obtain ⟨_, e⟩ := msix_frame s v; rw [e]
@[simp] theorem msix_exclDone (s : State) (v : Nat) : (msix s v).exclDone = s.exclDone := by
  obtain ⟨_, e⟩ := msix_frame s v; rw [e]
@[simp] theorem msix_st (s : State) (v : Nat) : (msix s v).st = s.st := by
  obtain ⟨_, e⟩ := msix_frame s v; rw [e]
@[simp] theorem msix_alm (s : State) (v : Nat) : (msix s v).alm = s.alm := by
  obtain ⟨_, e⟩ := msix_frame s v; rw [e]
@[simp] theorem msix_hostMem (s : State) (v : Nat) : (msix s v).hostMem = s.hostMem := by
  obtain ⟨_, e⟩ := msix_frame s v; rw [e]
@[simp] theorem msix_flash (s : State) (v : Nat) : (msix s v).flash = s.flash := by
  obtain ⟨_, e⟩ := msix_frame s v; rw [e]
@[simp] theorem msix_season (s : State) (v : Nat) : (msix s v).season = s.season := by
  obtain ⟨_, e⟩ := msix_frame s v; rw [e]
@[simp] theorem msix_upd (s : State) (v : Nat) : (msix s v).upd = s.upd := by
  obtain ⟨_, e⟩ := msix_frame s v; rw [e]
@[simp] theorem msix_pm (s : State) (v : Nat) : (msix s v).pm = s.pm := by
  obtain ⟨_, e⟩ := msix_frame s v; rw [e]
@[simp] theorem msix_links (s : State) (v : Nat) : (msix s v).links = s.links := by
  obtain ⟨_, e⟩ := msix_frame s v; rw [e]
@[simp] theorem msix_time (s : State) (v : Nat) : (msix s v).time = s.time := by
  obtain ⟨_, e⟩ := msix_frame s v; rw [e]

/-! ## notify -/

/-- `notify` changes nothing but host. -/
theorem notify_frame (s : State) (k d q : Nat) :
    ∃ x0, notify s k d q = { s with host := x0 } := by
  unfold notify
  split
  · exact ⟨_, rfl⟩
  · dsimp only; split
    · obtain ⟨h, e⟩ := msix_frame { s with host := { s.host with
        notifs := s.host.notifs ++ [{ kind := k, frame := s.cal.frame, time := s.now, almSeq := q, detail := d }] } } 1
      exact ⟨h, by rw [e]⟩
    · exact ⟨_, rfl⟩
@[simp] theorem notify_pending (s : State) (k d q : Nat) : (notify s k d q).pending = s.pending := by
  obtain ⟨_, e⟩ := notify_frame s k d q; rw [e]
@[simp] theorem notify_now (s : State) (k d q : Nat) : (notify s k d q).now = s.now := by
  obtain ⟨_, e⟩ := notify_frame s k d q; rw [e]
@[simp] theorem notify_fresh (s : State) (k d q : Nat) : (notify s k d q).fresh = s.fresh := by
  obtain ⟨_, e⟩ := notify_frame s k d q; rw [e]
@[simp] theorem notify_inReset (s : State) (k d q : Nat) : (notify s k d q).inReset = s.inReset := by
  obtain ⟨_, e⟩ := notify_frame s k d q; rw [e]
@[simp] theorem notify_railsLow (s : State) (k d q : Nat) : (notify s k d q).railsLow = s.railsLow := by
  obtain ⟨_, e⟩ := notify_frame s k d q; rw [e]
@[simp] theorem notify_boot0 (s : State) (k d q : Nat) : (notify s k d q).boot0 = s.boot0 := by
  obtain ⟨_, e⟩ := notify_frame s k d q; rw [e]
@[simp] theorem notify_cal (s : State) (k d q : Nat) : (notify s k d q).cal = s.cal := by
  obtain ⟨_, e⟩ := notify_frame s k d q; rw [e]
@[simp] theorem notify_trig (s : State) (k d q : Nat) : (notify s k d q).trig = s.trig := by
  obtain ⟨_, e⟩ := notify_frame s k d q; rw [e]
@[simp] theorem notify_stats (s : State) (k d q : Nat) : (notify s k d q).stats = s.stats := by
  obtain ⟨_, e⟩ := notify_frame s k d q; rw [e]
@[simp] theorem notify_reportPend (s : State) (k d q : Nat) : (notify s k d q).reportPend = s.reportPend := by
  obtain ⟨_, e⟩ := notify_frame s k d q; rw [e]
@[simp] theorem notify_reportRaw (s : State) (k d q : Nat) : (notify s k d q).reportRaw = s.reportRaw := by
  obtain ⟨_, e⟩ := notify_frame s k d q; rw [e]
@[simp] theorem notify_plans (s : State) (k d q : Nat) : (notify s k d q).plans = s.plans := by
  obtain ⟨_, e⟩ := notify_frame s k d q; rw [e]
@[simp] theorem notify_units (s : State) (k d q : Nat) : (notify s k d q).units = s.units := by
  obtain ⟨_, e⟩ := notify_frame s k d q; rw [e]
@[simp] theorem notify_flights (s : State) (k d q : Nat) : (notify s k d q).flights = s.flights := by
  obtain ⟨_, e⟩ := notify_frame s k d q; rw [e]
@[simp] theorem notify_clu (s : State) (k d q : Nat) : (notify s k d q).clu = s.clu := by
  obtain ⟨_, e⟩ := notify_frame s k d q; rw [e]
@[simp] theorem notify_nle (s : State) (k d q : Nat) : (notify s k d q).nle = s.nle := by
  obtain ⟨_, e⟩ := notify_frame s k d q; rw [e]
@[simp] theorem notify_mem (s : State) (k d q : Nat) : (notify s k d q).mem = s.mem := by
  obtain ⟨_, e⟩ := notify_frame s k d q; rw [e]
@[simp] theorem notify_side (s : State) (k d q : Nat) : (notify s k d q).side = s.side := by
  obtain ⟨_, e⟩ := notify_frame s k d q; rw [e]
@[simp] theorem notify_tags (s : State) (k d q : Nat) : (notify s k d q).tags = s.tags := by
  obtain ⟨_, e⟩ := notify_frame s k d q; rw [e]
@[simp] theorem notify_tagPend (s : State) (k d q : Nat) : (notify s k d q).tagPend = s.tagPend := by
  obtain ⟨_, e⟩ := notify_frame s k d q; rw [e]
@[simp] theorem notify_tagUse (s : State) (k d q : Nat) : (notify s k d q).tagUse = s.tagUse := by
  obtain ⟨_, e⟩ := notify_frame s k d q; rw [e]
@[simp] theorem notify_seqs (s : State) (k d q : Nat) : (notify s k d q).seqs = s.seqs := by
  obtain ⟨_, e⟩ := notify_frame s k d q; rw [e]
@[simp] theorem notify_regions (s : State) (k d q : Nat) : (notify s k d q).regions = s.regions := by
  obtain ⟨_, e⟩ := notify_frame s k d q; rw [e]
@[simp] theorem notify_fines (s : State) (k d q : Nat) : (notify s k d q).fines = s.fines := by
  obtain ⟨_, e⟩ := notify_frame s k d q; rw [e]
@[simp] theorem notify_cvu (s : State) (k d q : Nat) : (notify s k d q).cvu = s.cvu := by
  obtain ⟨_, e⟩ := notify_frame s k d q; rw [e]
@[simp] theorem notify_stc (s : State) (k d q : Nat) : (notify s k d q).stc = s.stc := by
  obtain ⟨_, e⟩ := notify_frame s k d q; rw [e]
@[simp] theorem notify_streams (s : State) (k d q : Nat) : (notify s k d q).streams = s.streams := by
  obtain ⟨_, e⟩ := notify_frame s k d q; rw [e]
@[simp] theorem notify_fus (s : State) (k d q : Nat) : (notify s k d q).fus = s.fus := by
  obtain ⟨_, e⟩ := notify_frame s k d q; rw [e]
@[simp] theorem notify_pln (s : State) (k d q : Nat) : (notify s k d q).pln = s.pln := by
  obtain ⟨_, e⟩ := notify_frame s k d q; rw [e]
@[simp] theorem notify_ident (s : State) (k d q : Nat) : (notify s k d q).ident = s.ident := by
  obtain ⟨_, e⟩ := notify_frame s k d q; rw [e]
@[simp] theorem notify_rgl (s : State) (k d q : Nat) : (notify s k d q).rgl = s.rgl := by
  obtain ⟨_, e⟩ := notify_frame s k d q; rw [e]
@[simp] theorem notify_ports (s : State) (k d q : Nat) : (notify s k d q).ports = s.ports := by
  obtain ⟨_, e⟩ := notify_frame s k d q; rw [e]
@[simp] theorem notify_swIn (s : State) (k d q : Nat) : (notify s k d q).swIn = s.swIn := by
  obtain ⟨_, e⟩ := notify_frame s k d q; rw [e]
@[simp] theorem notify_swOut (s : State) (k d q : Nat) : (notify s k d q).swOut = s.swOut := by
  obtain ⟨_, e⟩ := notify_frame s k d q; rw [e]
@[simp] theorem notify_swWait (s : State) (k d q : Nat) : (notify s k d q).swWait = s.swWait := by
  obtain ⟨_, e⟩ := notify_frame s k d q; rw [e]
@[simp] theorem notify_swTurn (s : State) (k d q : Nat) : (notify s k d q).swTurn = s.swTurn := by
  obtain ⟨_, e⟩ := notify_frame s k d q; rw [e]
@[simp] theorem notify_islA (s : State) (k d q : Nat) : (notify s k d q).islA = s.islA := by
  obtain ⟨_, e⟩ := notify_frame s k d q; rw [e]
@[simp] theorem notify_islB (s : State) (k d q : Nat) : (notify s k d q).islB = s.islB := by
  obtain ⟨_, e⟩ := notify_frame s k d q; rw [e]
@[simp] theorem notify_vg (s : State) (k d q : Nat) : (notify s k d q).vg = s.vg := by
  obtain ⟨_, e⟩ := notify_frame s k d q; rw [e]
@[simp] theorem notify_twinNotes (s : State) (k d q : Nat) : (notify s k d q).twinNotes = s.twinNotes := by
  obtain ⟨_, e⟩ := notify_frame s k d q; rw [e]
@[simp] theorem notify_health (s : State) (k d q : Nat) : (notify s k d q).health = s.health := by
  obtain ⟨_, e⟩ := notify_frame s k d q; rw [e]
@[simp] theorem notify_hltQ (s : State) (k d q : Nat) : (notify s k d q).hltQ = s.hltQ := by
  obtain ⟨_, e⟩ := notify_frame s k d q; rw [e]
@[simp] theorem notify_hEvents (s : State) (k d q : Nat) : (notify s k d q).hEvents = s.hEvents := by
  obtain ⟨_, e⟩ := notify_frame s k d q; rw [e]
@[simp] theorem notify_hRecent (s : State) (k d q : Nat) : (notify s k d q).hRecent = s.hRecent := by
  obtain ⟨_, e⟩ := notify_frame s k d q; rw [e]
@[simp] theorem notify_engDisp (s : State) (k d q : Nat) : (notify s k d q).engDisp = s.engDisp := by
  obtain ⟨_, e⟩ := notify_frame s k d q; rw [e]
@[simp] theorem notify_repairs (s : State) (k d q : Nat) : (notify s k d q).repairs = s.repairs := by
  obtain ⟨_, e⟩ := notify_frame s k d q; rw [e]
@[simp] theorem notify_tileFails (s : State) (k d q : Nat) : (notify s k d q).tileFails = s.tileFails := by
  obtain ⟨_, e⟩ := notify_frame s k d q; rw [e]
@[simp] theorem notify_hbJudged (s : State) (k d q : Nat) : (notify s k d q).hbJudged = s.hbJudged := by
  obtain ⟨_, e⟩ := notify_frame s k d q; rw [e]
@[simp] theorem notify_quarantines (s : State) (k d q : Nat) : (notify s k d q).quarantines = s.quarantines := by
  obtain ⟨_, e⟩ := notify_frame s k d q; rw [e]
@[simp] theorem notify_hards (s : State) (k d q : Nat) : (notify s k d q).hards = s.hards := by
  obtain ⟨_, e⟩ := notify_frame s k d q; rw [e]
@[simp] theorem notify_commons (s : State) (k d q : Nat) : (notify s k d q).commons = s.commons := by
  obtain ⟨_, e⟩ := notify_frame s k d q; rw [e]
@[simp] theorem notify_suspects (s : State) (k d q : Nat) : (notify s k d q).suspects = s.suspects := by
  obtain ⟨_, e⟩ := notify_frame s k d q; rw [e]
@[simp] theorem notify_moved (s : State) (k d q : Nat) : (notify s k d q).moved = s.moved := by
  obtain ⟨_, e⟩ := notify_frame s k d q; rw [e]
@[simp] theorem notify_exclDone (s : State) (k d q : Nat) : (notify s k d q).exclDone = s.exclDone := by
  obtain ⟨_, e⟩ := notify_frame s k d q; rw [e]
@[simp] theorem notify_st (s : State) (k d q : Nat) : (notify s k d q).st = s.st := by
  obtain ⟨_, e⟩ := notify_frame s k d q; rw [e]
@[simp] theorem notify_alm (s : State) (k d q : Nat) : (notify s k d q).alm = s.alm := by
  obtain ⟨_, e⟩ := notify_frame s k d q; rw [e]
@[simp] theorem notify_hostMem (s : State) (k d q : Nat) : (notify s k d q).hostMem = s.hostMem := by
  obtain ⟨_, e⟩ := notify_frame s k d q; rw [e]
@[simp] theorem notify_flash (s : State) (k d q : Nat) : (notify s k d q).flash = s.flash := by
  obtain ⟨_, e⟩ := notify_frame s k d q; rw [e]
@[simp] theorem notify_season (s : State) (k d q : Nat) : (notify s k d q).season = s.season := by
  obtain ⟨_, e⟩ := notify_frame s k d q; rw [e]
@[simp] theorem notify_upd (s : State) (k d q : Nat) : (notify s k d q).upd = s.upd := by
  obtain ⟨_, e⟩ := notify_frame s k d q; rw [e]
@[simp] theorem notify_pm (s : State) (k d q : Nat) : (notify s k d q).pm = s.pm := by
  obtain ⟨_, e⟩ := notify_frame s k d q; rw [e]
@[simp] theorem notify_links (s : State) (k d q : Nat) : (notify s k d q).links = s.links := by
  obtain ⟨_, e⟩ := notify_frame s k d q; rw [e]
@[simp] theorem notify_time (s : State) (k d q : Nat) : (notify s k d q).time = s.time := by
  obtain ⟨_, e⟩ := notify_frame s k d q; rw [e]

/-! ## almCreate -/

/-- `almCreate` changes nothing but alm, host. -/
theorem almCreate_frame (s : State) (src : Nat) (c : AlmCode) (sev fl : Nat) (p : List Nat) (t : Nat) :
    ∃ x0 x1, almCreate s src c sev fl p t = { s with alm := x0, host := x1 } := by
  unfold almCreate
  split
  · exact ⟨_, _, rfl⟩
  · dsimp only; split
    · exact ⟨_, _, by rw [(msix_frame _ 2).choose_spec]⟩
    · exact ⟨_, _, rfl⟩
@[simp] theorem almCreate_pending (s : State) (src : Nat) (c : AlmCode) (sev fl : Nat) (p : List Nat) (t : Nat) : (almCreate s src c sev fl p t).pending = s.pending := by
  obtain ⟨_, _, e⟩ := almCreate_frame s src c sev fl p t; rw [e]
@[simp] theorem almCreate_now (s : State) (src : Nat) (c : AlmCode) (sev fl : Nat) (p : List Nat) (t : Nat) : (almCreate s src c sev fl p t).now = s.now := by
  obtain ⟨_, _, e⟩ := almCreate_frame s src c sev fl p t; rw [e]
@[simp] theorem almCreate_fresh (s : State) (src : Nat) (c : AlmCode) (sev fl : Nat) (p : List Nat) (t : Nat) : (almCreate s src c sev fl p t).fresh = s.fresh := by
  obtain ⟨_, _, e⟩ := almCreate_frame s src c sev fl p t; rw [e]
@[simp] theorem almCreate_inReset (s : State) (src : Nat) (c : AlmCode) (sev fl : Nat) (p : List Nat) (t : Nat) : (almCreate s src c sev fl p t).inReset = s.inReset := by
  obtain ⟨_, _, e⟩ := almCreate_frame s src c sev fl p t; rw [e]
@[simp] theorem almCreate_railsLow (s : State) (src : Nat) (c : AlmCode) (sev fl : Nat) (p : List Nat) (t : Nat) : (almCreate s src c sev fl p t).railsLow = s.railsLow := by
  obtain ⟨_, _, e⟩ := almCreate_frame s src c sev fl p t; rw [e]
@[simp] theorem almCreate_boot0 (s : State) (src : Nat) (c : AlmCode) (sev fl : Nat) (p : List Nat) (t : Nat) : (almCreate s src c sev fl p t).boot0 = s.boot0 := by
  obtain ⟨_, _, e⟩ := almCreate_frame s src c sev fl p t; rw [e]
@[simp] theorem almCreate_cal (s : State) (src : Nat) (c : AlmCode) (sev fl : Nat) (p : List Nat) (t : Nat) : (almCreate s src c sev fl p t).cal = s.cal := by
  obtain ⟨_, _, e⟩ := almCreate_frame s src c sev fl p t; rw [e]
@[simp] theorem almCreate_trig (s : State) (src : Nat) (c : AlmCode) (sev fl : Nat) (p : List Nat) (t : Nat) : (almCreate s src c sev fl p t).trig = s.trig := by
  obtain ⟨_, _, e⟩ := almCreate_frame s src c sev fl p t; rw [e]
@[simp] theorem almCreate_stats (s : State) (src : Nat) (c : AlmCode) (sev fl : Nat) (p : List Nat) (t : Nat) : (almCreate s src c sev fl p t).stats = s.stats := by
  obtain ⟨_, _, e⟩ := almCreate_frame s src c sev fl p t; rw [e]
@[simp] theorem almCreate_reportPend (s : State) (src : Nat) (c : AlmCode) (sev fl : Nat) (p : List Nat) (t : Nat) : (almCreate s src c sev fl p t).reportPend = s.reportPend := by
  obtain ⟨_, _, e⟩ := almCreate_frame s src c sev fl p t; rw [e]
@[simp] theorem almCreate_reportRaw (s : State) (src : Nat) (c : AlmCode) (sev fl : Nat) (p : List Nat) (t : Nat) : (almCreate s src c sev fl p t).reportRaw = s.reportRaw := by
  obtain ⟨_, _, e⟩ := almCreate_frame s src c sev fl p t; rw [e]
@[simp] theorem almCreate_plans (s : State) (src : Nat) (c : AlmCode) (sev fl : Nat) (p : List Nat) (t : Nat) : (almCreate s src c sev fl p t).plans = s.plans := by
  obtain ⟨_, _, e⟩ := almCreate_frame s src c sev fl p t; rw [e]
@[simp] theorem almCreate_units (s : State) (src : Nat) (c : AlmCode) (sev fl : Nat) (p : List Nat) (t : Nat) : (almCreate s src c sev fl p t).units = s.units := by
  obtain ⟨_, _, e⟩ := almCreate_frame s src c sev fl p t; rw [e]
@[simp] theorem almCreate_flights (s : State) (src : Nat) (c : AlmCode) (sev fl : Nat) (p : List Nat) (t : Nat) : (almCreate s src c sev fl p t).flights = s.flights := by
  obtain ⟨_, _, e⟩ := almCreate_frame s src c sev fl p t; rw [e]
@[simp] theorem almCreate_clu (s : State) (src : Nat) (c : AlmCode) (sev fl : Nat) (p : List Nat) (t : Nat) : (almCreate s src c sev fl p t).clu = s.clu := by
  obtain ⟨_, _, e⟩ := almCreate_frame s src c sev fl p t; rw [e]
@[simp] theorem almCreate_nle (s : State) (src : Nat) (c : AlmCode) (sev fl : Nat) (p : List Nat) (t : Nat) : (almCreate s src c sev fl p t).nle = s.nle := by
  obtain ⟨_, _, e⟩ := almCreate_frame s src c sev fl p t; rw [e]
@[simp] theorem almCreate_mem (s : State) (src : Nat) (c : AlmCode) (sev fl : Nat) (p : List Nat) (t : Nat) : (almCreate s src c sev fl p t).mem = s.mem := by
  obtain ⟨_, _, e⟩ := almCreate_frame s src c sev fl p t; rw [e]
@[simp] theorem almCreate_side (s : State) (src : Nat) (c : AlmCode) (sev fl : Nat) (p : List Nat) (t : Nat) : (almCreate s src c sev fl p t).side = s.side := by
  obtain ⟨_, _, e⟩ := almCreate_frame s src c sev fl p t; rw [e]
@[simp] theorem almCreate_tags (s : State) (src : Nat) (c : AlmCode) (sev fl : Nat) (p : List Nat) (t : Nat) : (almCreate s src c sev fl p t).tags = s.tags := by
  obtain ⟨_, _, e⟩ := almCreate_frame s src c sev fl p t; rw [e]
@[simp] theorem almCreate_tagPend (s : State) (src : Nat) (c : AlmCode) (sev fl : Nat) (p : List Nat) (t : Nat) : (almCreate s src c sev fl p t).tagPend = s.tagPend := by
  obtain ⟨_, _, e⟩ := almCreate_frame s src c sev fl p t; rw [e]
@[simp] theorem almCreate_tagUse (s : State) (src : Nat) (c : AlmCode) (sev fl : Nat) (p : List Nat) (t : Nat) : (almCreate s src c sev fl p t).tagUse = s.tagUse := by
  obtain ⟨_, _, e⟩ := almCreate_frame s src c sev fl p t; rw [e]
@[simp] theorem almCreate_seqs (s : State) (src : Nat) (c : AlmCode) (sev fl : Nat) (p : List Nat) (t : Nat) : (almCreate s src c sev fl p t).seqs = s.seqs := by
  obtain ⟨_, _, e⟩ := almCreate_frame s src c sev fl p t; rw [e]
@[simp] theorem almCreate_regions (s : State) (src : Nat) (c : AlmCode) (sev fl : Nat) (p : List Nat) (t : Nat) : (almCreate s src c sev fl p t).regions = s.regions := by
  obtain ⟨_, _, e⟩ := almCreate_frame s src c sev fl p t; rw [e]
@[simp] theorem almCreate_fines (s : State) (src : Nat) (c : AlmCode) (sev fl : Nat) (p : List Nat) (t : Nat) : (almCreate s src c sev fl p t).fines = s.fines := by
  obtain ⟨_, _, e⟩ := almCreate_frame s src c sev fl p t; rw [e]
@[simp] theorem almCreate_cvu (s : State) (src : Nat) (c : AlmCode) (sev fl : Nat) (p : List Nat) (t : Nat) : (almCreate s src c sev fl p t).cvu = s.cvu := by
  obtain ⟨_, _, e⟩ := almCreate_frame s src c sev fl p t; rw [e]
@[simp] theorem almCreate_stc (s : State) (src : Nat) (c : AlmCode) (sev fl : Nat) (p : List Nat) (t : Nat) : (almCreate s src c sev fl p t).stc = s.stc := by
  obtain ⟨_, _, e⟩ := almCreate_frame s src c sev fl p t; rw [e]
@[simp] theorem almCreate_streams (s : State) (src : Nat) (c : AlmCode) (sev fl : Nat) (p : List Nat) (t : Nat) : (almCreate s src c sev fl p t).streams = s.streams := by
  obtain ⟨_, _, e⟩ := almCreate_frame s src c sev fl p t; rw [e]
@[simp] theorem almCreate_fus (s : State) (src : Nat) (c : AlmCode) (sev fl : Nat) (p : List Nat) (t : Nat) : (almCreate s src c sev fl p t).fus = s.fus := by
  obtain ⟨_, _, e⟩ := almCreate_frame s src c sev fl p t; rw [e]
@[simp] theorem almCreate_pln (s : State) (src : Nat) (c : AlmCode) (sev fl : Nat) (p : List Nat) (t : Nat) : (almCreate s src c sev fl p t).pln = s.pln := by
  obtain ⟨_, _, e⟩ := almCreate_frame s src c sev fl p t; rw [e]
@[simp] theorem almCreate_ident (s : State) (src : Nat) (c : AlmCode) (sev fl : Nat) (p : List Nat) (t : Nat) : (almCreate s src c sev fl p t).ident = s.ident := by
  obtain ⟨_, _, e⟩ := almCreate_frame s src c sev fl p t; rw [e]
@[simp] theorem almCreate_rgl (s : State) (src : Nat) (c : AlmCode) (sev fl : Nat) (p : List Nat) (t : Nat) : (almCreate s src c sev fl p t).rgl = s.rgl := by
  obtain ⟨_, _, e⟩ := almCreate_frame s src c sev fl p t; rw [e]
@[simp] theorem almCreate_ports (s : State) (src : Nat) (c : AlmCode) (sev fl : Nat) (p : List Nat) (t : Nat) : (almCreate s src c sev fl p t).ports = s.ports := by
  obtain ⟨_, _, e⟩ := almCreate_frame s src c sev fl p t; rw [e]
@[simp] theorem almCreate_swIn (s : State) (src : Nat) (c : AlmCode) (sev fl : Nat) (p : List Nat) (t : Nat) : (almCreate s src c sev fl p t).swIn = s.swIn := by
  obtain ⟨_, _, e⟩ := almCreate_frame s src c sev fl p t; rw [e]
@[simp] theorem almCreate_swOut (s : State) (src : Nat) (c : AlmCode) (sev fl : Nat) (p : List Nat) (t : Nat) : (almCreate s src c sev fl p t).swOut = s.swOut := by
  obtain ⟨_, _, e⟩ := almCreate_frame s src c sev fl p t; rw [e]
@[simp] theorem almCreate_swWait (s : State) (src : Nat) (c : AlmCode) (sev fl : Nat) (p : List Nat) (t : Nat) : (almCreate s src c sev fl p t).swWait = s.swWait := by
  obtain ⟨_, _, e⟩ := almCreate_frame s src c sev fl p t; rw [e]
@[simp] theorem almCreate_swTurn (s : State) (src : Nat) (c : AlmCode) (sev fl : Nat) (p : List Nat) (t : Nat) : (almCreate s src c sev fl p t).swTurn = s.swTurn := by
  obtain ⟨_, _, e⟩ := almCreate_frame s src c sev fl p t; rw [e]
@[simp] theorem almCreate_islA (s : State) (src : Nat) (c : AlmCode) (sev fl : Nat) (p : List Nat) (t : Nat) : (almCreate s src c sev fl p t).islA = s.islA := by
  obtain ⟨_, _, e⟩ := almCreate_frame s src c sev fl p t; rw [e]
@[simp] theorem almCreate_islB (s : State) (src : Nat) (c : AlmCode) (sev fl : Nat) (p : List Nat) (t : Nat) : (almCreate s src c sev fl p t).islB = s.islB := by
  obtain ⟨_, _, e⟩ := almCreate_frame s src c sev fl p t; rw [e]
@[simp] theorem almCreate_vg (s : State) (src : Nat) (c : AlmCode) (sev fl : Nat) (p : List Nat) (t : Nat) : (almCreate s src c sev fl p t).vg = s.vg := by
  obtain ⟨_, _, e⟩ := almCreate_frame s src c sev fl p t; rw [e]
@[simp] theorem almCreate_twinNotes (s : State) (src : Nat) (c : AlmCode) (sev fl : Nat) (p : List Nat) (t : Nat) : (almCreate s src c sev fl p t).twinNotes = s.twinNotes := by
  obtain ⟨_, _, e⟩ := almCreate_frame s src c sev fl p t; rw [e]
@[simp] theorem almCreate_health (s : State) (src : Nat) (c : AlmCode) (sev fl : Nat) (p : List Nat) (t : Nat) : (almCreate s src c sev fl p t).health = s.health := by
  obtain ⟨_, _, e⟩ := almCreate_frame s src c sev fl p t; rw [e]
@[simp] theorem almCreate_hltQ (s : State) (src : Nat) (c : AlmCode) (sev fl : Nat) (p : List Nat) (t : Nat) : (almCreate s src c sev fl p t).hltQ = s.hltQ := by
  obtain ⟨_, _, e⟩ := almCreate_frame s src c sev fl p t; rw [e]
@[simp] theorem almCreate_hEvents (s : State) (src : Nat) (c : AlmCode) (sev fl : Nat) (p : List Nat) (t : Nat) : (almCreate s src c sev fl p t).hEvents = s.hEvents := by
  obtain ⟨_, _, e⟩ := almCreate_frame s src c sev fl p t; rw [e]
@[simp] theorem almCreate_hRecent (s : State) (src : Nat) (c : AlmCode) (sev fl : Nat) (p : List Nat) (t : Nat) : (almCreate s src c sev fl p t).hRecent = s.hRecent := by
  obtain ⟨_, _, e⟩ := almCreate_frame s src c sev fl p t; rw [e]
@[simp] theorem almCreate_engDisp (s : State) (src : Nat) (c : AlmCode) (sev fl : Nat) (p : List Nat) (t : Nat) : (almCreate s src c sev fl p t).engDisp = s.engDisp := by
  obtain ⟨_, _, e⟩ := almCreate_frame s src c sev fl p t; rw [e]
@[simp] theorem almCreate_repairs (s : State) (src : Nat) (c : AlmCode) (sev fl : Nat) (p : List Nat) (t : Nat) : (almCreate s src c sev fl p t).repairs = s.repairs := by
  obtain ⟨_, _, e⟩ := almCreate_frame s src c sev fl p t; rw [e]
@[simp] theorem almCreate_tileFails (s : State) (src : Nat) (c : AlmCode) (sev fl : Nat) (p : List Nat) (t : Nat) : (almCreate s src c sev fl p t).tileFails = s.tileFails := by
  obtain ⟨_, _, e⟩ := almCreate_frame s src c sev fl p t; rw [e]
@[simp] theorem almCreate_hbJudged (s : State) (src : Nat) (c : AlmCode) (sev fl : Nat) (p : List Nat) (t : Nat) : (almCreate s src c sev fl p t).hbJudged = s.hbJudged := by
  obtain ⟨_, _, e⟩ := almCreate_frame s src c sev fl p t; rw [e]
@[simp] theorem almCreate_quarantines (s : State) (src : Nat) (c : AlmCode) (sev fl : Nat) (p : List Nat) (t : Nat) : (almCreate s src c sev fl p t).quarantines = s.quarantines := by
  obtain ⟨_, _, e⟩ := almCreate_frame s src c sev fl p t; rw [e]
@[simp] theorem almCreate_hards (s : State) (src : Nat) (c : AlmCode) (sev fl : Nat) (p : List Nat) (t : Nat) : (almCreate s src c sev fl p t).hards = s.hards := by
  obtain ⟨_, _, e⟩ := almCreate_frame s src c sev fl p t; rw [e]
@[simp] theorem almCreate_commons (s : State) (src : Nat) (c : AlmCode) (sev fl : Nat) (p : List Nat) (t : Nat) : (almCreate s src c sev fl p t).commons = s.commons := by
  obtain ⟨_, _, e⟩ := almCreate_frame s src c sev fl p t; rw [e]
@[simp] theorem almCreate_suspects (s : State) (src : Nat) (c : AlmCode) (sev fl : Nat) (p : List Nat) (t : Nat) : (almCreate s src c sev fl p t).suspects = s.suspects := by
  obtain ⟨_, _, e⟩ := almCreate_frame s src c sev fl p t; rw [e]
@[simp] theorem almCreate_moved (s : State) (src : Nat) (c : AlmCode) (sev fl : Nat) (p : List Nat) (t : Nat) : (almCreate s src c sev fl p t).moved = s.moved := by
  obtain ⟨_, _, e⟩ := almCreate_frame s src c sev fl p t; rw [e]
@[simp] theorem almCreate_exclDone (s : State) (src : Nat) (c : AlmCode) (sev fl : Nat) (p : List Nat) (t : Nat) : (almCreate s src c sev fl p t).exclDone = s.exclDone := by
  obtain ⟨_, _, e⟩ := almCreate_frame s src c sev fl p t; rw [e]
@[simp] theorem almCreate_st (s : State) (src : Nat) (c : AlmCode) (sev fl : Nat) (p : List Nat) (t : Nat) : (almCreate s src c sev fl p t).st = s.st := by
  obtain ⟨_, _, e⟩ := almCreate_frame s src c sev fl p t; rw [e]
@[simp] theorem almCreate_hostMem (s : State) (src : Nat) (c : AlmCode) (sev fl : Nat) (p : List Nat) (t : Nat) : (almCreate s src c sev fl p t).hostMem = s.hostMem := by
  obtain ⟨_, _, e⟩ := almCreate_frame s src c sev fl p t; rw [e]
@[simp] theorem almCreate_flash (s : State) (src : Nat) (c : AlmCode) (sev fl : Nat) (p : List Nat) (t : Nat) : (almCreate s src c sev fl p t).flash = s.flash := by
  obtain ⟨_, _, e⟩ := almCreate_frame s src c sev fl p t; rw [e]
@[simp] theorem almCreate_season (s : State) (src : Nat) (c : AlmCode) (sev fl : Nat) (p : List Nat) (t : Nat) : (almCreate s src c sev fl p t).season = s.season := by
  obtain ⟨_, _, e⟩ := almCreate_frame s src c sev fl p t; rw [e]
@[simp] theorem almCreate_upd (s : State) (src : Nat) (c : AlmCode) (sev fl : Nat) (p : List Nat) (t : Nat) : (almCreate s src c sev fl p t).upd = s.upd := by
  obtain ⟨_, _, e⟩ := almCreate_frame s src c sev fl p t; rw [e]
@[simp] theorem almCreate_pm (s : State) (src : Nat) (c : AlmCode) (sev fl : Nat) (p : List Nat) (t : Nat) : (almCreate s src c sev fl p t).pm = s.pm := by
  obtain ⟨_, _, e⟩ := almCreate_frame s src c sev fl p t; rw [e]
@[simp] theorem almCreate_links (s : State) (src : Nat) (c : AlmCode) (sev fl : Nat) (p : List Nat) (t : Nat) : (almCreate s src c sev fl p t).links = s.links := by
  obtain ⟨_, _, e⟩ := almCreate_frame s src c sev fl p t; rw [e]
@[simp] theorem almCreate_time (s : State) (src : Nat) (c : AlmCode) (sev fl : Nat) (p : List Nat) (t : Nat) : (almCreate s src c sev fl p t).time = s.time := by
  obtain ⟨_, _, e⟩ := almCreate_frame s src c sev fl p t; rw [e]

/-! ## almAt -/

/-- `almAt` changes nothing but alm, host. -/
theorem almAt_frame (s : State) (src : Nat) (c : AlmCode) (sev : Nat) (p : List Nat) (t : Nat) :
    ∃ x0 x1, almAt s src c sev p t = { s with alm := x0, host := x1 } := by
  unfold almAt
  split
  · exact ⟨_, _, rfl⟩
  · split
    · unfold almBuffer; split <;> exact ⟨_, _, rfl⟩
    · split
      · exact ⟨_, _, rfl⟩
      · exact almCreate_frame s src c sev 0 p t
@[simp] theorem almAt_pending (s : State) (src : Nat) (c : AlmCode) (sev : Nat) (p : List Nat) (t : Nat) : (almAt s src c sev p t).pending = s.pending := by
  obtain ⟨_, _, e⟩ := almAt_frame s src c sev p t; rw [e]
@[simp] theorem almAt_now (s : State) (src : Nat) (c : AlmCode) (sev : Nat) (p : List Nat) (t : Nat) : (almAt s src c sev p t).now = s.now := by
  obtain ⟨_, _, e⟩ := almAt_frame s src c sev p t; rw [e]
@[simp] theorem almAt_fresh (s : State) (src : Nat) (c : AlmCode) (sev : Nat) (p : List Nat) (t : Nat) : (almAt s src c sev p t).fresh = s.fresh := by
  obtain ⟨_, _, e⟩ := almAt_frame s src c sev p t; rw [e]
@[simp] theorem almAt_inReset (s : State) (src : Nat) (c : AlmCode) (sev : Nat) (p : List Nat) (t : Nat) : (almAt s src c sev p t).inReset = s.inReset := by
  obtain ⟨_, _, e⟩ := almAt_frame s src c sev p t; rw [e]
@[simp] theorem almAt_railsLow (s : State) (src : Nat) (c : AlmCode) (sev : Nat) (p : List Nat) (t : Nat) : (almAt s src c sev p t).railsLow = s.railsLow := by
  obtain ⟨_, _, e⟩ := almAt_frame s src c sev p t; rw [e]
@[simp] theorem almAt_boot0 (s : State) (src : Nat) (c : AlmCode) (sev : Nat) (p : List Nat) (t : Nat) : (almAt s src c sev p t).boot0 = s.boot0 := by
  obtain ⟨_, _, e⟩ := almAt_frame s src c sev p t; rw [e]
@[simp] theorem almAt_cal (s : State) (src : Nat) (c : AlmCode) (sev : Nat) (p : List Nat) (t : Nat) : (almAt s src c sev p t).cal = s.cal := by
  obtain ⟨_, _, e⟩ := almAt_frame s src c sev p t; rw [e]
@[simp] theorem almAt_trig (s : State) (src : Nat) (c : AlmCode) (sev : Nat) (p : List Nat) (t : Nat) : (almAt s src c sev p t).trig = s.trig := by
  obtain ⟨_, _, e⟩ := almAt_frame s src c sev p t; rw [e]
@[simp] theorem almAt_stats (s : State) (src : Nat) (c : AlmCode) (sev : Nat) (p : List Nat) (t : Nat) : (almAt s src c sev p t).stats = s.stats := by
  obtain ⟨_, _, e⟩ := almAt_frame s src c sev p t; rw [e]
@[simp] theorem almAt_reportPend (s : State) (src : Nat) (c : AlmCode) (sev : Nat) (p : List Nat) (t : Nat) : (almAt s src c sev p t).reportPend = s.reportPend := by
  obtain ⟨_, _, e⟩ := almAt_frame s src c sev p t; rw [e]
@[simp] theorem almAt_reportRaw (s : State) (src : Nat) (c : AlmCode) (sev : Nat) (p : List Nat) (t : Nat) : (almAt s src c sev p t).reportRaw = s.reportRaw := by
  obtain ⟨_, _, e⟩ := almAt_frame s src c sev p t; rw [e]
@[simp] theorem almAt_plans (s : State) (src : Nat) (c : AlmCode) (sev : Nat) (p : List Nat) (t : Nat) : (almAt s src c sev p t).plans = s.plans := by
  obtain ⟨_, _, e⟩ := almAt_frame s src c sev p t; rw [e]
@[simp] theorem almAt_units (s : State) (src : Nat) (c : AlmCode) (sev : Nat) (p : List Nat) (t : Nat) : (almAt s src c sev p t).units = s.units := by
  obtain ⟨_, _, e⟩ := almAt_frame s src c sev p t; rw [e]
@[simp] theorem almAt_flights (s : State) (src : Nat) (c : AlmCode) (sev : Nat) (p : List Nat) (t : Nat) : (almAt s src c sev p t).flights = s.flights := by
  obtain ⟨_, _, e⟩ := almAt_frame s src c sev p t; rw [e]
@[simp] theorem almAt_clu (s : State) (src : Nat) (c : AlmCode) (sev : Nat) (p : List Nat) (t : Nat) : (almAt s src c sev p t).clu = s.clu := by
  obtain ⟨_, _, e⟩ := almAt_frame s src c sev p t; rw [e]
@[simp] theorem almAt_nle (s : State) (src : Nat) (c : AlmCode) (sev : Nat) (p : List Nat) (t : Nat) : (almAt s src c sev p t).nle = s.nle := by
  obtain ⟨_, _, e⟩ := almAt_frame s src c sev p t; rw [e]
@[simp] theorem almAt_mem (s : State) (src : Nat) (c : AlmCode) (sev : Nat) (p : List Nat) (t : Nat) : (almAt s src c sev p t).mem = s.mem := by
  obtain ⟨_, _, e⟩ := almAt_frame s src c sev p t; rw [e]
@[simp] theorem almAt_side (s : State) (src : Nat) (c : AlmCode) (sev : Nat) (p : List Nat) (t : Nat) : (almAt s src c sev p t).side = s.side := by
  obtain ⟨_, _, e⟩ := almAt_frame s src c sev p t; rw [e]
@[simp] theorem almAt_tags (s : State) (src : Nat) (c : AlmCode) (sev : Nat) (p : List Nat) (t : Nat) : (almAt s src c sev p t).tags = s.tags := by
  obtain ⟨_, _, e⟩ := almAt_frame s src c sev p t; rw [e]
@[simp] theorem almAt_tagPend (s : State) (src : Nat) (c : AlmCode) (sev : Nat) (p : List Nat) (t : Nat) : (almAt s src c sev p t).tagPend = s.tagPend := by
  obtain ⟨_, _, e⟩ := almAt_frame s src c sev p t; rw [e]
@[simp] theorem almAt_tagUse (s : State) (src : Nat) (c : AlmCode) (sev : Nat) (p : List Nat) (t : Nat) : (almAt s src c sev p t).tagUse = s.tagUse := by
  obtain ⟨_, _, e⟩ := almAt_frame s src c sev p t; rw [e]
@[simp] theorem almAt_seqs (s : State) (src : Nat) (c : AlmCode) (sev : Nat) (p : List Nat) (t : Nat) : (almAt s src c sev p t).seqs = s.seqs := by
  obtain ⟨_, _, e⟩ := almAt_frame s src c sev p t; rw [e]
@[simp] theorem almAt_regions (s : State) (src : Nat) (c : AlmCode) (sev : Nat) (p : List Nat) (t : Nat) : (almAt s src c sev p t).regions = s.regions := by
  obtain ⟨_, _, e⟩ := almAt_frame s src c sev p t; rw [e]
@[simp] theorem almAt_fines (s : State) (src : Nat) (c : AlmCode) (sev : Nat) (p : List Nat) (t : Nat) : (almAt s src c sev p t).fines = s.fines := by
  obtain ⟨_, _, e⟩ := almAt_frame s src c sev p t; rw [e]
@[simp] theorem almAt_cvu (s : State) (src : Nat) (c : AlmCode) (sev : Nat) (p : List Nat) (t : Nat) : (almAt s src c sev p t).cvu = s.cvu := by
  obtain ⟨_, _, e⟩ := almAt_frame s src c sev p t; rw [e]
@[simp] theorem almAt_stc (s : State) (src : Nat) (c : AlmCode) (sev : Nat) (p : List Nat) (t : Nat) : (almAt s src c sev p t).stc = s.stc := by
  obtain ⟨_, _, e⟩ := almAt_frame s src c sev p t; rw [e]
@[simp] theorem almAt_streams (s : State) (src : Nat) (c : AlmCode) (sev : Nat) (p : List Nat) (t : Nat) : (almAt s src c sev p t).streams = s.streams := by
  obtain ⟨_, _, e⟩ := almAt_frame s src c sev p t; rw [e]
@[simp] theorem almAt_fus (s : State) (src : Nat) (c : AlmCode) (sev : Nat) (p : List Nat) (t : Nat) : (almAt s src c sev p t).fus = s.fus := by
  obtain ⟨_, _, e⟩ := almAt_frame s src c sev p t; rw [e]
@[simp] theorem almAt_pln (s : State) (src : Nat) (c : AlmCode) (sev : Nat) (p : List Nat) (t : Nat) : (almAt s src c sev p t).pln = s.pln := by
  obtain ⟨_, _, e⟩ := almAt_frame s src c sev p t; rw [e]
@[simp] theorem almAt_ident (s : State) (src : Nat) (c : AlmCode) (sev : Nat) (p : List Nat) (t : Nat) : (almAt s src c sev p t).ident = s.ident := by
  obtain ⟨_, _, e⟩ := almAt_frame s src c sev p t; rw [e]
@[simp] theorem almAt_rgl (s : State) (src : Nat) (c : AlmCode) (sev : Nat) (p : List Nat) (t : Nat) : (almAt s src c sev p t).rgl = s.rgl := by
  obtain ⟨_, _, e⟩ := almAt_frame s src c sev p t; rw [e]
@[simp] theorem almAt_ports (s : State) (src : Nat) (c : AlmCode) (sev : Nat) (p : List Nat) (t : Nat) : (almAt s src c sev p t).ports = s.ports := by
  obtain ⟨_, _, e⟩ := almAt_frame s src c sev p t; rw [e]
@[simp] theorem almAt_swIn (s : State) (src : Nat) (c : AlmCode) (sev : Nat) (p : List Nat) (t : Nat) : (almAt s src c sev p t).swIn = s.swIn := by
  obtain ⟨_, _, e⟩ := almAt_frame s src c sev p t; rw [e]
@[simp] theorem almAt_swOut (s : State) (src : Nat) (c : AlmCode) (sev : Nat) (p : List Nat) (t : Nat) : (almAt s src c sev p t).swOut = s.swOut := by
  obtain ⟨_, _, e⟩ := almAt_frame s src c sev p t; rw [e]
@[simp] theorem almAt_swWait (s : State) (src : Nat) (c : AlmCode) (sev : Nat) (p : List Nat) (t : Nat) : (almAt s src c sev p t).swWait = s.swWait := by
  obtain ⟨_, _, e⟩ := almAt_frame s src c sev p t; rw [e]
@[simp] theorem almAt_swTurn (s : State) (src : Nat) (c : AlmCode) (sev : Nat) (p : List Nat) (t : Nat) : (almAt s src c sev p t).swTurn = s.swTurn := by
  obtain ⟨_, _, e⟩ := almAt_frame s src c sev p t; rw [e]
@[simp] theorem almAt_islA (s : State) (src : Nat) (c : AlmCode) (sev : Nat) (p : List Nat) (t : Nat) : (almAt s src c sev p t).islA = s.islA := by
  obtain ⟨_, _, e⟩ := almAt_frame s src c sev p t; rw [e]
@[simp] theorem almAt_islB (s : State) (src : Nat) (c : AlmCode) (sev : Nat) (p : List Nat) (t : Nat) : (almAt s src c sev p t).islB = s.islB := by
  obtain ⟨_, _, e⟩ := almAt_frame s src c sev p t; rw [e]
@[simp] theorem almAt_vg (s : State) (src : Nat) (c : AlmCode) (sev : Nat) (p : List Nat) (t : Nat) : (almAt s src c sev p t).vg = s.vg := by
  obtain ⟨_, _, e⟩ := almAt_frame s src c sev p t; rw [e]
@[simp] theorem almAt_twinNotes (s : State) (src : Nat) (c : AlmCode) (sev : Nat) (p : List Nat) (t : Nat) : (almAt s src c sev p t).twinNotes = s.twinNotes := by
  obtain ⟨_, _, e⟩ := almAt_frame s src c sev p t; rw [e]
@[simp] theorem almAt_health (s : State) (src : Nat) (c : AlmCode) (sev : Nat) (p : List Nat) (t : Nat) : (almAt s src c sev p t).health = s.health := by
  obtain ⟨_, _, e⟩ := almAt_frame s src c sev p t; rw [e]
@[simp] theorem almAt_hltQ (s : State) (src : Nat) (c : AlmCode) (sev : Nat) (p : List Nat) (t : Nat) : (almAt s src c sev p t).hltQ = s.hltQ := by
  obtain ⟨_, _, e⟩ := almAt_frame s src c sev p t; rw [e]
@[simp] theorem almAt_hEvents (s : State) (src : Nat) (c : AlmCode) (sev : Nat) (p : List Nat) (t : Nat) : (almAt s src c sev p t).hEvents = s.hEvents := by
  obtain ⟨_, _, e⟩ := almAt_frame s src c sev p t; rw [e]
@[simp] theorem almAt_hRecent (s : State) (src : Nat) (c : AlmCode) (sev : Nat) (p : List Nat) (t : Nat) : (almAt s src c sev p t).hRecent = s.hRecent := by
  obtain ⟨_, _, e⟩ := almAt_frame s src c sev p t; rw [e]
@[simp] theorem almAt_engDisp (s : State) (src : Nat) (c : AlmCode) (sev : Nat) (p : List Nat) (t : Nat) : (almAt s src c sev p t).engDisp = s.engDisp := by
  obtain ⟨_, _, e⟩ := almAt_frame s src c sev p t; rw [e]
@[simp] theorem almAt_repairs (s : State) (src : Nat) (c : AlmCode) (sev : Nat) (p : List Nat) (t : Nat) : (almAt s src c sev p t).repairs = s.repairs := by
  obtain ⟨_, _, e⟩ := almAt_frame s src c sev p t; rw [e]
@[simp] theorem almAt_tileFails (s : State) (src : Nat) (c : AlmCode) (sev : Nat) (p : List Nat) (t : Nat) : (almAt s src c sev p t).tileFails = s.tileFails := by
  obtain ⟨_, _, e⟩ := almAt_frame s src c sev p t; rw [e]
@[simp] theorem almAt_hbJudged (s : State) (src : Nat) (c : AlmCode) (sev : Nat) (p : List Nat) (t : Nat) : (almAt s src c sev p t).hbJudged = s.hbJudged := by
  obtain ⟨_, _, e⟩ := almAt_frame s src c sev p t; rw [e]
@[simp] theorem almAt_quarantines (s : State) (src : Nat) (c : AlmCode) (sev : Nat) (p : List Nat) (t : Nat) : (almAt s src c sev p t).quarantines = s.quarantines := by
  obtain ⟨_, _, e⟩ := almAt_frame s src c sev p t; rw [e]
@[simp] theorem almAt_hards (s : State) (src : Nat) (c : AlmCode) (sev : Nat) (p : List Nat) (t : Nat) : (almAt s src c sev p t).hards = s.hards := by
  obtain ⟨_, _, e⟩ := almAt_frame s src c sev p t; rw [e]
@[simp] theorem almAt_commons (s : State) (src : Nat) (c : AlmCode) (sev : Nat) (p : List Nat) (t : Nat) : (almAt s src c sev p t).commons = s.commons := by
  obtain ⟨_, _, e⟩ := almAt_frame s src c sev p t; rw [e]
@[simp] theorem almAt_suspects (s : State) (src : Nat) (c : AlmCode) (sev : Nat) (p : List Nat) (t : Nat) : (almAt s src c sev p t).suspects = s.suspects := by
  obtain ⟨_, _, e⟩ := almAt_frame s src c sev p t; rw [e]
@[simp] theorem almAt_moved (s : State) (src : Nat) (c : AlmCode) (sev : Nat) (p : List Nat) (t : Nat) : (almAt s src c sev p t).moved = s.moved := by
  obtain ⟨_, _, e⟩ := almAt_frame s src c sev p t; rw [e]
@[simp] theorem almAt_exclDone (s : State) (src : Nat) (c : AlmCode) (sev : Nat) (p : List Nat) (t : Nat) : (almAt s src c sev p t).exclDone = s.exclDone := by
  obtain ⟨_, _, e⟩ := almAt_frame s src c sev p t; rw [e]
@[simp] theorem almAt_st (s : State) (src : Nat) (c : AlmCode) (sev : Nat) (p : List Nat) (t : Nat) : (almAt s src c sev p t).st = s.st := by
  obtain ⟨_, _, e⟩ := almAt_frame s src c sev p t; rw [e]
@[simp] theorem almAt_hostMem (s : State) (src : Nat) (c : AlmCode) (sev : Nat) (p : List Nat) (t : Nat) : (almAt s src c sev p t).hostMem = s.hostMem := by
  obtain ⟨_, _, e⟩ := almAt_frame s src c sev p t; rw [e]
@[simp] theorem almAt_flash (s : State) (src : Nat) (c : AlmCode) (sev : Nat) (p : List Nat) (t : Nat) : (almAt s src c sev p t).flash = s.flash := by
  obtain ⟨_, _, e⟩ := almAt_frame s src c sev p t; rw [e]
@[simp] theorem almAt_season (s : State) (src : Nat) (c : AlmCode) (sev : Nat) (p : List Nat) (t : Nat) : (almAt s src c sev p t).season = s.season := by
  obtain ⟨_, _, e⟩ := almAt_frame s src c sev p t; rw [e]
@[simp] theorem almAt_upd (s : State) (src : Nat) (c : AlmCode) (sev : Nat) (p : List Nat) (t : Nat) : (almAt s src c sev p t).upd = s.upd := by
  obtain ⟨_, _, e⟩ := almAt_frame s src c sev p t; rw [e]
@[simp] theorem almAt_pm (s : State) (src : Nat) (c : AlmCode) (sev : Nat) (p : List Nat) (t : Nat) : (almAt s src c sev p t).pm = s.pm := by
  obtain ⟨_, _, e⟩ := almAt_frame s src c sev p t; rw [e]
@[simp] theorem almAt_links (s : State) (src : Nat) (c : AlmCode) (sev : Nat) (p : List Nat) (t : Nat) : (almAt s src c sev p t).links = s.links := by
  obtain ⟨_, _, e⟩ := almAt_frame s src c sev p t; rw [e]
@[simp] theorem almAt_time (s : State) (src : Nat) (c : AlmCode) (sev : Nat) (p : List Nat) (t : Nat) : (almAt s src c sev p t).time = s.time := by
  obtain ⟨_, _, e⟩ := almAt_frame s src c sev p t; rw [e]

/-! ## alm -/

/-- `alm` changes nothing but alm, host. -/
theorem alm_frame (s : State) (src : Nat) (c : AlmCode) (sev : Nat) (p : List Nat) :
    ∃ x0 x1, alm s src c sev p = { s with alm := x0, host := x1 } := almAt_frame s src c sev p s.now
@[simp] theorem alm_pending (s : State) (src : Nat) (c : AlmCode) (sev : Nat) (p : List Nat) : (alm s src c sev p).pending = s.pending := by
  obtain ⟨_, _, e⟩ := alm_frame s src c sev p; rw [e]
@[simp] theorem alm_now (s : State) (src : Nat) (c : AlmCode) (sev : Nat) (p : List Nat) : (alm s src c sev p).now = s.now := by
  obtain ⟨_, _, e⟩ := alm_frame s src c sev p; rw [e]
@[simp] theorem alm_fresh (s : State) (src : Nat) (c : AlmCode) (sev : Nat) (p : List Nat) : (alm s src c sev p).fresh = s.fresh := by
  obtain ⟨_, _, e⟩ := alm_frame s src c sev p; rw [e]
@[simp] theorem alm_inReset (s : State) (src : Nat) (c : AlmCode) (sev : Nat) (p : List Nat) : (alm s src c sev p).inReset = s.inReset := by
  obtain ⟨_, _, e⟩ := alm_frame s src c sev p; rw [e]
@[simp] theorem alm_railsLow (s : State) (src : Nat) (c : AlmCode) (sev : Nat) (p : List Nat) : (alm s src c sev p).railsLow = s.railsLow := by
  obtain ⟨_, _, e⟩ := alm_frame s src c sev p; rw [e]
@[simp] theorem alm_boot0 (s : State) (src : Nat) (c : AlmCode) (sev : Nat) (p : List Nat) : (alm s src c sev p).boot0 = s.boot0 := by
  obtain ⟨_, _, e⟩ := alm_frame s src c sev p; rw [e]
@[simp] theorem alm_cal (s : State) (src : Nat) (c : AlmCode) (sev : Nat) (p : List Nat) : (alm s src c sev p).cal = s.cal := by
  obtain ⟨_, _, e⟩ := alm_frame s src c sev p; rw [e]
@[simp] theorem alm_trig (s : State) (src : Nat) (c : AlmCode) (sev : Nat) (p : List Nat) : (alm s src c sev p).trig = s.trig := by
  obtain ⟨_, _, e⟩ := alm_frame s src c sev p; rw [e]
@[simp] theorem alm_stats (s : State) (src : Nat) (c : AlmCode) (sev : Nat) (p : List Nat) : (alm s src c sev p).stats = s.stats := by
  obtain ⟨_, _, e⟩ := alm_frame s src c sev p; rw [e]
@[simp] theorem alm_reportPend (s : State) (src : Nat) (c : AlmCode) (sev : Nat) (p : List Nat) : (alm s src c sev p).reportPend = s.reportPend := by
  obtain ⟨_, _, e⟩ := alm_frame s src c sev p; rw [e]
@[simp] theorem alm_reportRaw (s : State) (src : Nat) (c : AlmCode) (sev : Nat) (p : List Nat) : (alm s src c sev p).reportRaw = s.reportRaw := by
  obtain ⟨_, _, e⟩ := alm_frame s src c sev p; rw [e]
@[simp] theorem alm_plans (s : State) (src : Nat) (c : AlmCode) (sev : Nat) (p : List Nat) : (alm s src c sev p).plans = s.plans := by
  obtain ⟨_, _, e⟩ := alm_frame s src c sev p; rw [e]
@[simp] theorem alm_units (s : State) (src : Nat) (c : AlmCode) (sev : Nat) (p : List Nat) : (alm s src c sev p).units = s.units := by
  obtain ⟨_, _, e⟩ := alm_frame s src c sev p; rw [e]
@[simp] theorem alm_flights (s : State) (src : Nat) (c : AlmCode) (sev : Nat) (p : List Nat) : (alm s src c sev p).flights = s.flights := by
  obtain ⟨_, _, e⟩ := alm_frame s src c sev p; rw [e]
@[simp] theorem alm_clu (s : State) (src : Nat) (c : AlmCode) (sev : Nat) (p : List Nat) : (alm s src c sev p).clu = s.clu := by
  obtain ⟨_, _, e⟩ := alm_frame s src c sev p; rw [e]
@[simp] theorem alm_nle (s : State) (src : Nat) (c : AlmCode) (sev : Nat) (p : List Nat) : (alm s src c sev p).nle = s.nle := by
  obtain ⟨_, _, e⟩ := alm_frame s src c sev p; rw [e]
@[simp] theorem alm_mem (s : State) (src : Nat) (c : AlmCode) (sev : Nat) (p : List Nat) : (alm s src c sev p).mem = s.mem := by
  obtain ⟨_, _, e⟩ := alm_frame s src c sev p; rw [e]
@[simp] theorem alm_side (s : State) (src : Nat) (c : AlmCode) (sev : Nat) (p : List Nat) : (alm s src c sev p).side = s.side := by
  obtain ⟨_, _, e⟩ := alm_frame s src c sev p; rw [e]
@[simp] theorem alm_tags (s : State) (src : Nat) (c : AlmCode) (sev : Nat) (p : List Nat) : (alm s src c sev p).tags = s.tags := by
  obtain ⟨_, _, e⟩ := alm_frame s src c sev p; rw [e]
@[simp] theorem alm_tagPend (s : State) (src : Nat) (c : AlmCode) (sev : Nat) (p : List Nat) : (alm s src c sev p).tagPend = s.tagPend := by
  obtain ⟨_, _, e⟩ := alm_frame s src c sev p; rw [e]
@[simp] theorem alm_tagUse (s : State) (src : Nat) (c : AlmCode) (sev : Nat) (p : List Nat) : (alm s src c sev p).tagUse = s.tagUse := by
  obtain ⟨_, _, e⟩ := alm_frame s src c sev p; rw [e]
@[simp] theorem alm_seqs (s : State) (src : Nat) (c : AlmCode) (sev : Nat) (p : List Nat) : (alm s src c sev p).seqs = s.seqs := by
  obtain ⟨_, _, e⟩ := alm_frame s src c sev p; rw [e]
@[simp] theorem alm_regions (s : State) (src : Nat) (c : AlmCode) (sev : Nat) (p : List Nat) : (alm s src c sev p).regions = s.regions := by
  obtain ⟨_, _, e⟩ := alm_frame s src c sev p; rw [e]
@[simp] theorem alm_fines (s : State) (src : Nat) (c : AlmCode) (sev : Nat) (p : List Nat) : (alm s src c sev p).fines = s.fines := by
  obtain ⟨_, _, e⟩ := alm_frame s src c sev p; rw [e]
@[simp] theorem alm_cvu (s : State) (src : Nat) (c : AlmCode) (sev : Nat) (p : List Nat) : (alm s src c sev p).cvu = s.cvu := by
  obtain ⟨_, _, e⟩ := alm_frame s src c sev p; rw [e]
@[simp] theorem alm_stc (s : State) (src : Nat) (c : AlmCode) (sev : Nat) (p : List Nat) : (alm s src c sev p).stc = s.stc := by
  obtain ⟨_, _, e⟩ := alm_frame s src c sev p; rw [e]
@[simp] theorem alm_streams (s : State) (src : Nat) (c : AlmCode) (sev : Nat) (p : List Nat) : (alm s src c sev p).streams = s.streams := by
  obtain ⟨_, _, e⟩ := alm_frame s src c sev p; rw [e]
@[simp] theorem alm_fus (s : State) (src : Nat) (c : AlmCode) (sev : Nat) (p : List Nat) : (alm s src c sev p).fus = s.fus := by
  obtain ⟨_, _, e⟩ := alm_frame s src c sev p; rw [e]
@[simp] theorem alm_pln (s : State) (src : Nat) (c : AlmCode) (sev : Nat) (p : List Nat) : (alm s src c sev p).pln = s.pln := by
  obtain ⟨_, _, e⟩ := alm_frame s src c sev p; rw [e]
@[simp] theorem alm_ident (s : State) (src : Nat) (c : AlmCode) (sev : Nat) (p : List Nat) : (alm s src c sev p).ident = s.ident := by
  obtain ⟨_, _, e⟩ := alm_frame s src c sev p; rw [e]
@[simp] theorem alm_rgl (s : State) (src : Nat) (c : AlmCode) (sev : Nat) (p : List Nat) : (alm s src c sev p).rgl = s.rgl := by
  obtain ⟨_, _, e⟩ := alm_frame s src c sev p; rw [e]
@[simp] theorem alm_ports (s : State) (src : Nat) (c : AlmCode) (sev : Nat) (p : List Nat) : (alm s src c sev p).ports = s.ports := by
  obtain ⟨_, _, e⟩ := alm_frame s src c sev p; rw [e]
@[simp] theorem alm_swIn (s : State) (src : Nat) (c : AlmCode) (sev : Nat) (p : List Nat) : (alm s src c sev p).swIn = s.swIn := by
  obtain ⟨_, _, e⟩ := alm_frame s src c sev p; rw [e]
@[simp] theorem alm_swOut (s : State) (src : Nat) (c : AlmCode) (sev : Nat) (p : List Nat) : (alm s src c sev p).swOut = s.swOut := by
  obtain ⟨_, _, e⟩ := alm_frame s src c sev p; rw [e]
@[simp] theorem alm_swWait (s : State) (src : Nat) (c : AlmCode) (sev : Nat) (p : List Nat) : (alm s src c sev p).swWait = s.swWait := by
  obtain ⟨_, _, e⟩ := alm_frame s src c sev p; rw [e]
@[simp] theorem alm_swTurn (s : State) (src : Nat) (c : AlmCode) (sev : Nat) (p : List Nat) : (alm s src c sev p).swTurn = s.swTurn := by
  obtain ⟨_, _, e⟩ := alm_frame s src c sev p; rw [e]
@[simp] theorem alm_islA (s : State) (src : Nat) (c : AlmCode) (sev : Nat) (p : List Nat) : (alm s src c sev p).islA = s.islA := by
  obtain ⟨_, _, e⟩ := alm_frame s src c sev p; rw [e]
@[simp] theorem alm_islB (s : State) (src : Nat) (c : AlmCode) (sev : Nat) (p : List Nat) : (alm s src c sev p).islB = s.islB := by
  obtain ⟨_, _, e⟩ := alm_frame s src c sev p; rw [e]
@[simp] theorem alm_vg (s : State) (src : Nat) (c : AlmCode) (sev : Nat) (p : List Nat) : (alm s src c sev p).vg = s.vg := by
  obtain ⟨_, _, e⟩ := alm_frame s src c sev p; rw [e]
@[simp] theorem alm_twinNotes (s : State) (src : Nat) (c : AlmCode) (sev : Nat) (p : List Nat) : (alm s src c sev p).twinNotes = s.twinNotes := by
  obtain ⟨_, _, e⟩ := alm_frame s src c sev p; rw [e]
@[simp] theorem alm_health (s : State) (src : Nat) (c : AlmCode) (sev : Nat) (p : List Nat) : (alm s src c sev p).health = s.health := by
  obtain ⟨_, _, e⟩ := alm_frame s src c sev p; rw [e]
@[simp] theorem alm_hltQ (s : State) (src : Nat) (c : AlmCode) (sev : Nat) (p : List Nat) : (alm s src c sev p).hltQ = s.hltQ := by
  obtain ⟨_, _, e⟩ := alm_frame s src c sev p; rw [e]
@[simp] theorem alm_hEvents (s : State) (src : Nat) (c : AlmCode) (sev : Nat) (p : List Nat) : (alm s src c sev p).hEvents = s.hEvents := by
  obtain ⟨_, _, e⟩ := alm_frame s src c sev p; rw [e]
@[simp] theorem alm_hRecent (s : State) (src : Nat) (c : AlmCode) (sev : Nat) (p : List Nat) : (alm s src c sev p).hRecent = s.hRecent := by
  obtain ⟨_, _, e⟩ := alm_frame s src c sev p; rw [e]
@[simp] theorem alm_engDisp (s : State) (src : Nat) (c : AlmCode) (sev : Nat) (p : List Nat) : (alm s src c sev p).engDisp = s.engDisp := by
  obtain ⟨_, _, e⟩ := alm_frame s src c sev p; rw [e]
@[simp] theorem alm_repairs (s : State) (src : Nat) (c : AlmCode) (sev : Nat) (p : List Nat) : (alm s src c sev p).repairs = s.repairs := by
  obtain ⟨_, _, e⟩ := alm_frame s src c sev p; rw [e]
@[simp] theorem alm_tileFails (s : State) (src : Nat) (c : AlmCode) (sev : Nat) (p : List Nat) : (alm s src c sev p).tileFails = s.tileFails := by
  obtain ⟨_, _, e⟩ := alm_frame s src c sev p; rw [e]
@[simp] theorem alm_hbJudged (s : State) (src : Nat) (c : AlmCode) (sev : Nat) (p : List Nat) : (alm s src c sev p).hbJudged = s.hbJudged := by
  obtain ⟨_, _, e⟩ := alm_frame s src c sev p; rw [e]
@[simp] theorem alm_quarantines (s : State) (src : Nat) (c : AlmCode) (sev : Nat) (p : List Nat) : (alm s src c sev p).quarantines = s.quarantines := by
  obtain ⟨_, _, e⟩ := alm_frame s src c sev p; rw [e]
@[simp] theorem alm_hards (s : State) (src : Nat) (c : AlmCode) (sev : Nat) (p : List Nat) : (alm s src c sev p).hards = s.hards := by
  obtain ⟨_, _, e⟩ := alm_frame s src c sev p; rw [e]
@[simp] theorem alm_commons (s : State) (src : Nat) (c : AlmCode) (sev : Nat) (p : List Nat) : (alm s src c sev p).commons = s.commons := by
  obtain ⟨_, _, e⟩ := alm_frame s src c sev p; rw [e]
@[simp] theorem alm_suspects (s : State) (src : Nat) (c : AlmCode) (sev : Nat) (p : List Nat) : (alm s src c sev p).suspects = s.suspects := by
  obtain ⟨_, _, e⟩ := alm_frame s src c sev p; rw [e]
@[simp] theorem alm_moved (s : State) (src : Nat) (c : AlmCode) (sev : Nat) (p : List Nat) : (alm s src c sev p).moved = s.moved := by
  obtain ⟨_, _, e⟩ := alm_frame s src c sev p; rw [e]
@[simp] theorem alm_exclDone (s : State) (src : Nat) (c : AlmCode) (sev : Nat) (p : List Nat) : (alm s src c sev p).exclDone = s.exclDone := by
  obtain ⟨_, _, e⟩ := alm_frame s src c sev p; rw [e]
@[simp] theorem alm_st (s : State) (src : Nat) (c : AlmCode) (sev : Nat) (p : List Nat) : (alm s src c sev p).st = s.st := by
  obtain ⟨_, _, e⟩ := alm_frame s src c sev p; rw [e]
@[simp] theorem alm_hostMem (s : State) (src : Nat) (c : AlmCode) (sev : Nat) (p : List Nat) : (alm s src c sev p).hostMem = s.hostMem := by
  obtain ⟨_, _, e⟩ := alm_frame s src c sev p; rw [e]
@[simp] theorem alm_flash (s : State) (src : Nat) (c : AlmCode) (sev : Nat) (p : List Nat) : (alm s src c sev p).flash = s.flash := by
  obtain ⟨_, _, e⟩ := alm_frame s src c sev p; rw [e]
@[simp] theorem alm_season (s : State) (src : Nat) (c : AlmCode) (sev : Nat) (p : List Nat) : (alm s src c sev p).season = s.season := by
  obtain ⟨_, _, e⟩ := alm_frame s src c sev p; rw [e]
@[simp] theorem alm_upd (s : State) (src : Nat) (c : AlmCode) (sev : Nat) (p : List Nat) : (alm s src c sev p).upd = s.upd := by
  obtain ⟨_, _, e⟩ := alm_frame s src c sev p; rw [e]
@[simp] theorem alm_pm (s : State) (src : Nat) (c : AlmCode) (sev : Nat) (p : List Nat) : (alm s src c sev p).pm = s.pm := by
  obtain ⟨_, _, e⟩ := alm_frame s src c sev p; rw [e]
@[simp] theorem alm_links (s : State) (src : Nat) (c : AlmCode) (sev : Nat) (p : List Nat) : (alm s src c sev p).links = s.links := by
  obtain ⟨_, _, e⟩ := alm_frame s src c sev p; rw [e]
@[simp] theorem alm_time (s : State) (src : Nat) (c : AlmCode) (sev : Nat) (p : List Nat) : (alm s src c sev p).time = s.time := by
  obtain ⟨_, _, e⟩ := alm_frame s src c sev p; rw [e]

/-! ## breach -/

/-- `breach` changes nothing but vg. -/
theorem breach_frame (s : State) :
    ∃ x0, breach s = { s with vg := x0 } := by
  unfold breach
  split
  · exact ⟨_, rfl⟩
  · split <;> exact ⟨_, rfl⟩
@[simp] theorem breach_pending (s : State) : (breach s).pending = s.pending := by
  obtain ⟨_, e⟩ := breach_frame s; rw [e]
@[simp] theorem breach_now (s : State) : (breach s).now = s.now := by
  obtain ⟨_, e⟩ := breach_frame s; rw [e]
@[simp] theorem breach_fresh (s : State) : (breach s).fresh = s.fresh := by
  obtain ⟨_, e⟩ := breach_frame s; rw [e]
@[simp] theorem breach_inReset (s : State) : (breach s).inReset = s.inReset := by
  obtain ⟨_, e⟩ := breach_frame s; rw [e]
@[simp] theorem breach_railsLow (s : State) : (breach s).railsLow = s.railsLow := by
  obtain ⟨_, e⟩ := breach_frame s; rw [e]
@[simp] theorem breach_boot0 (s : State) : (breach s).boot0 = s.boot0 := by
  obtain ⟨_, e⟩ := breach_frame s; rw [e]
@[simp] theorem breach_cal (s : State) : (breach s).cal = s.cal := by
  obtain ⟨_, e⟩ := breach_frame s; rw [e]
@[simp] theorem breach_trig (s : State) : (breach s).trig = s.trig := by
  obtain ⟨_, e⟩ := breach_frame s; rw [e]
@[simp] theorem breach_stats (s : State) : (breach s).stats = s.stats := by
  obtain ⟨_, e⟩ := breach_frame s; rw [e]
@[simp] theorem breach_reportPend (s : State) : (breach s).reportPend = s.reportPend := by
  obtain ⟨_, e⟩ := breach_frame s; rw [e]
@[simp] theorem breach_reportRaw (s : State) : (breach s).reportRaw = s.reportRaw := by
  obtain ⟨_, e⟩ := breach_frame s; rw [e]
@[simp] theorem breach_plans (s : State) : (breach s).plans = s.plans := by
  obtain ⟨_, e⟩ := breach_frame s; rw [e]
@[simp] theorem breach_units (s : State) : (breach s).units = s.units := by
  obtain ⟨_, e⟩ := breach_frame s; rw [e]
@[simp] theorem breach_flights (s : State) : (breach s).flights = s.flights := by
  obtain ⟨_, e⟩ := breach_frame s; rw [e]
@[simp] theorem breach_clu (s : State) : (breach s).clu = s.clu := by
  obtain ⟨_, e⟩ := breach_frame s; rw [e]
@[simp] theorem breach_nle (s : State) : (breach s).nle = s.nle := by
  obtain ⟨_, e⟩ := breach_frame s; rw [e]
@[simp] theorem breach_mem (s : State) : (breach s).mem = s.mem := by
  obtain ⟨_, e⟩ := breach_frame s; rw [e]
@[simp] theorem breach_side (s : State) : (breach s).side = s.side := by
  obtain ⟨_, e⟩ := breach_frame s; rw [e]
@[simp] theorem breach_tags (s : State) : (breach s).tags = s.tags := by
  obtain ⟨_, e⟩ := breach_frame s; rw [e]
@[simp] theorem breach_tagPend (s : State) : (breach s).tagPend = s.tagPend := by
  obtain ⟨_, e⟩ := breach_frame s; rw [e]
@[simp] theorem breach_tagUse (s : State) : (breach s).tagUse = s.tagUse := by
  obtain ⟨_, e⟩ := breach_frame s; rw [e]
@[simp] theorem breach_seqs (s : State) : (breach s).seqs = s.seqs := by
  obtain ⟨_, e⟩ := breach_frame s; rw [e]
@[simp] theorem breach_regions (s : State) : (breach s).regions = s.regions := by
  obtain ⟨_, e⟩ := breach_frame s; rw [e]
@[simp] theorem breach_fines (s : State) : (breach s).fines = s.fines := by
  obtain ⟨_, e⟩ := breach_frame s; rw [e]
@[simp] theorem breach_cvu (s : State) : (breach s).cvu = s.cvu := by
  obtain ⟨_, e⟩ := breach_frame s; rw [e]
@[simp] theorem breach_stc (s : State) : (breach s).stc = s.stc := by
  obtain ⟨_, e⟩ := breach_frame s; rw [e]
@[simp] theorem breach_streams (s : State) : (breach s).streams = s.streams := by
  obtain ⟨_, e⟩ := breach_frame s; rw [e]
@[simp] theorem breach_fus (s : State) : (breach s).fus = s.fus := by
  obtain ⟨_, e⟩ := breach_frame s; rw [e]
@[simp] theorem breach_pln (s : State) : (breach s).pln = s.pln := by
  obtain ⟨_, e⟩ := breach_frame s; rw [e]
@[simp] theorem breach_ident (s : State) : (breach s).ident = s.ident := by
  obtain ⟨_, e⟩ := breach_frame s; rw [e]
@[simp] theorem breach_rgl (s : State) : (breach s).rgl = s.rgl := by
  obtain ⟨_, e⟩ := breach_frame s; rw [e]
@[simp] theorem breach_ports (s : State) : (breach s).ports = s.ports := by
  obtain ⟨_, e⟩ := breach_frame s; rw [e]
@[simp] theorem breach_swIn (s : State) : (breach s).swIn = s.swIn := by
  obtain ⟨_, e⟩ := breach_frame s; rw [e]
@[simp] theorem breach_swOut (s : State) : (breach s).swOut = s.swOut := by
  obtain ⟨_, e⟩ := breach_frame s; rw [e]
@[simp] theorem breach_swWait (s : State) : (breach s).swWait = s.swWait := by
  obtain ⟨_, e⟩ := breach_frame s; rw [e]
@[simp] theorem breach_swTurn (s : State) : (breach s).swTurn = s.swTurn := by
  obtain ⟨_, e⟩ := breach_frame s; rw [e]
@[simp] theorem breach_islA (s : State) : (breach s).islA = s.islA := by
  obtain ⟨_, e⟩ := breach_frame s; rw [e]
@[simp] theorem breach_islB (s : State) : (breach s).islB = s.islB := by
  obtain ⟨_, e⟩ := breach_frame s; rw [e]
@[simp] theorem breach_twinNotes (s : State) : (breach s).twinNotes = s.twinNotes := by
  obtain ⟨_, e⟩ := breach_frame s; rw [e]
@[simp] theorem breach_health (s : State) : (breach s).health = s.health := by
  obtain ⟨_, e⟩ := breach_frame s; rw [e]
@[simp] theorem breach_hltQ (s : State) : (breach s).hltQ = s.hltQ := by
  obtain ⟨_, e⟩ := breach_frame s; rw [e]
@[simp] theorem breach_hEvents (s : State) : (breach s).hEvents = s.hEvents := by
  obtain ⟨_, e⟩ := breach_frame s; rw [e]
@[simp] theorem breach_hRecent (s : State) : (breach s).hRecent = s.hRecent := by
  obtain ⟨_, e⟩ := breach_frame s; rw [e]
@[simp] theorem breach_engDisp (s : State) : (breach s).engDisp = s.engDisp := by
  obtain ⟨_, e⟩ := breach_frame s; rw [e]
@[simp] theorem breach_repairs (s : State) : (breach s).repairs = s.repairs := by
  obtain ⟨_, e⟩ := breach_frame s; rw [e]
@[simp] theorem breach_tileFails (s : State) : (breach s).tileFails = s.tileFails := by
  obtain ⟨_, e⟩ := breach_frame s; rw [e]
@[simp] theorem breach_hbJudged (s : State) : (breach s).hbJudged = s.hbJudged := by
  obtain ⟨_, e⟩ := breach_frame s; rw [e]
@[simp] theorem breach_quarantines (s : State) : (breach s).quarantines = s.quarantines := by
  obtain ⟨_, e⟩ := breach_frame s; rw [e]
@[simp] theorem breach_hards (s : State) : (breach s).hards = s.hards := by
  obtain ⟨_, e⟩ := breach_frame s; rw [e]
@[simp] theorem breach_commons (s : State) : (breach s).commons = s.commons := by
  obtain ⟨_, e⟩ := breach_frame s; rw [e]
@[simp] theorem breach_suspects (s : State) : (breach s).suspects = s.suspects := by
  obtain ⟨_, e⟩ := breach_frame s; rw [e]
@[simp] theorem breach_moved (s : State) : (breach s).moved = s.moved := by
  obtain ⟨_, e⟩ := breach_frame s; rw [e]
@[simp] theorem breach_exclDone (s : State) : (breach s).exclDone = s.exclDone := by
  obtain ⟨_, e⟩ := breach_frame s; rw [e]
@[simp] theorem breach_st (s : State) : (breach s).st = s.st := by
  obtain ⟨_, e⟩ := breach_frame s; rw [e]
@[simp] theorem breach_alm (s : State) : (breach s).alm = s.alm := by
  obtain ⟨_, e⟩ := breach_frame s; rw [e]
@[simp] theorem breach_host (s : State) : (breach s).host = s.host := by
  obtain ⟨_, e⟩ := breach_frame s; rw [e]
@[simp] theorem breach_hostMem (s : State) : (breach s).hostMem = s.hostMem := by
  obtain ⟨_, e⟩ := breach_frame s; rw [e]
@[simp] theorem breach_flash (s : State) : (breach s).flash = s.flash := by
  obtain ⟨_, e⟩ := breach_frame s; rw [e]
@[simp] theorem breach_season (s : State) : (breach s).season = s.season := by
  obtain ⟨_, e⟩ := breach_frame s; rw [e]
@[simp] theorem breach_upd (s : State) : (breach s).upd = s.upd := by
  obtain ⟨_, e⟩ := breach_frame s; rw [e]
@[simp] theorem breach_pm (s : State) : (breach s).pm = s.pm := by
  obtain ⟨_, e⟩ := breach_frame s; rw [e]
@[simp] theorem breach_links (s : State) : (breach s).links = s.links := by
  obtain ⟨_, e⟩ := breach_frame s; rw [e]
@[simp] theorem breach_time (s : State) : (breach s).time = s.time := by
  obtain ⟨_, e⟩ := breach_frame s; rw [e]

/-! ## vgPush -/

/-- `vgPush` changes nothing but vg, health. -/
theorem vgPush_frame (s : State) (e : VgEvent) :
    ∃ x0 x1, vgPush s e = { s with vg := x0, health := x1 } := by
  unfold vgPush
  split
  · exact ⟨_, _, rfl⟩
  · dsimp only; split <;> exact ⟨_, _, rfl⟩
@[simp] theorem vgPush_pending (s : State) (e : VgEvent) : (vgPush s e).pending = s.pending := by
  obtain ⟨_, _, e⟩ := vgPush_frame s e; rw [e]
@[simp] theorem vgPush_now (s : State) (e : VgEvent) : (vgPush s e).now = s.now := by
  obtain ⟨_, _, e⟩ := vgPush_frame s e; rw [e]
@[simp] theorem vgPush_fresh (s : State) (e : VgEvent) : (vgPush s e).fresh = s.fresh := by
  obtain ⟨_, _, e⟩ := vgPush_frame s e; rw [e]
@[simp] theorem vgPush_inReset (s : State) (e : VgEvent) : (vgPush s e).inReset = s.inReset := by
  obtain ⟨_, _, e⟩ := vgPush_frame s e; rw [e]
@[simp] theorem vgPush_railsLow (s : State) (e : VgEvent) : (vgPush s e).railsLow = s.railsLow := by
  obtain ⟨_, _, e⟩ := vgPush_frame s e; rw [e]
@[simp] theorem vgPush_boot0 (s : State) (e : VgEvent) : (vgPush s e).boot0 = s.boot0 := by
  obtain ⟨_, _, e⟩ := vgPush_frame s e; rw [e]
@[simp] theorem vgPush_cal (s : State) (e : VgEvent) : (vgPush s e).cal = s.cal := by
  obtain ⟨_, _, e⟩ := vgPush_frame s e; rw [e]
@[simp] theorem vgPush_trig (s : State) (e : VgEvent) : (vgPush s e).trig = s.trig := by
  obtain ⟨_, _, e⟩ := vgPush_frame s e; rw [e]
@[simp] theorem vgPush_stats (s : State) (e : VgEvent) : (vgPush s e).stats = s.stats := by
  obtain ⟨_, _, e⟩ := vgPush_frame s e; rw [e]
@[simp] theorem vgPush_reportPend (s : State) (e : VgEvent) : (vgPush s e).reportPend = s.reportPend := by
  obtain ⟨_, _, e⟩ := vgPush_frame s e; rw [e]
@[simp] theorem vgPush_reportRaw (s : State) (e : VgEvent) : (vgPush s e).reportRaw = s.reportRaw := by
  obtain ⟨_, _, e⟩ := vgPush_frame s e; rw [e]
@[simp] theorem vgPush_plans (s : State) (e : VgEvent) : (vgPush s e).plans = s.plans := by
  obtain ⟨_, _, e⟩ := vgPush_frame s e; rw [e]
@[simp] theorem vgPush_units (s : State) (e : VgEvent) : (vgPush s e).units = s.units := by
  obtain ⟨_, _, e⟩ := vgPush_frame s e; rw [e]
@[simp] theorem vgPush_flights (s : State) (e : VgEvent) : (vgPush s e).flights = s.flights := by
  obtain ⟨_, _, e⟩ := vgPush_frame s e; rw [e]
@[simp] theorem vgPush_clu (s : State) (e : VgEvent) : (vgPush s e).clu = s.clu := by
  obtain ⟨_, _, e⟩ := vgPush_frame s e; rw [e]
@[simp] theorem vgPush_nle (s : State) (e : VgEvent) : (vgPush s e).nle = s.nle := by
  obtain ⟨_, _, e⟩ := vgPush_frame s e; rw [e]
@[simp] theorem vgPush_mem (s : State) (e : VgEvent) : (vgPush s e).mem = s.mem := by
  obtain ⟨_, _, e⟩ := vgPush_frame s e; rw [e]
@[simp] theorem vgPush_side (s : State) (e : VgEvent) : (vgPush s e).side = s.side := by
  obtain ⟨_, _, e⟩ := vgPush_frame s e; rw [e]
@[simp] theorem vgPush_tags (s : State) (e : VgEvent) : (vgPush s e).tags = s.tags := by
  obtain ⟨_, _, e⟩ := vgPush_frame s e; rw [e]
@[simp] theorem vgPush_tagPend (s : State) (e : VgEvent) : (vgPush s e).tagPend = s.tagPend := by
  obtain ⟨_, _, e⟩ := vgPush_frame s e; rw [e]
@[simp] theorem vgPush_tagUse (s : State) (e : VgEvent) : (vgPush s e).tagUse = s.tagUse := by
  obtain ⟨_, _, e⟩ := vgPush_frame s e; rw [e]
@[simp] theorem vgPush_seqs (s : State) (e : VgEvent) : (vgPush s e).seqs = s.seqs := by
  obtain ⟨_, _, e⟩ := vgPush_frame s e; rw [e]
@[simp] theorem vgPush_regions (s : State) (e : VgEvent) : (vgPush s e).regions = s.regions := by
  obtain ⟨_, _, e⟩ := vgPush_frame s e; rw [e]
@[simp] theorem vgPush_fines (s : State) (e : VgEvent) : (vgPush s e).fines = s.fines := by
  obtain ⟨_, _, e⟩ := vgPush_frame s e; rw [e]
@[simp] theorem vgPush_cvu (s : State) (e : VgEvent) : (vgPush s e).cvu = s.cvu := by
  obtain ⟨_, _, e⟩ := vgPush_frame s e; rw [e]
@[simp] theorem vgPush_stc (s : State) (e : VgEvent) : (vgPush s e).stc = s.stc := by
  obtain ⟨_, _, e⟩ := vgPush_frame s e; rw [e]
@[simp] theorem vgPush_streams (s : State) (e : VgEvent) : (vgPush s e).streams = s.streams := by
  obtain ⟨_, _, e⟩ := vgPush_frame s e; rw [e]
@[simp] theorem vgPush_fus (s : State) (e : VgEvent) : (vgPush s e).fus = s.fus := by
  obtain ⟨_, _, e⟩ := vgPush_frame s e; rw [e]
@[simp] theorem vgPush_pln (s : State) (e : VgEvent) : (vgPush s e).pln = s.pln := by
  obtain ⟨_, _, e⟩ := vgPush_frame s e; rw [e]
@[simp] theorem vgPush_ident (s : State) (e : VgEvent) : (vgPush s e).ident = s.ident := by
  obtain ⟨_, _, e⟩ := vgPush_frame s e; rw [e]
@[simp] theorem vgPush_rgl (s : State) (e : VgEvent) : (vgPush s e).rgl = s.rgl := by
  obtain ⟨_, _, e⟩ := vgPush_frame s e; rw [e]
@[simp] theorem vgPush_ports (s : State) (e : VgEvent) : (vgPush s e).ports = s.ports := by
  obtain ⟨_, _, e⟩ := vgPush_frame s e; rw [e]
@[simp] theorem vgPush_swIn (s : State) (e : VgEvent) : (vgPush s e).swIn = s.swIn := by
  obtain ⟨_, _, e⟩ := vgPush_frame s e; rw [e]
@[simp] theorem vgPush_swOut (s : State) (e : VgEvent) : (vgPush s e).swOut = s.swOut := by
  obtain ⟨_, _, e⟩ := vgPush_frame s e; rw [e]
@[simp] theorem vgPush_swWait (s : State) (e : VgEvent) : (vgPush s e).swWait = s.swWait := by
  obtain ⟨_, _, e⟩ := vgPush_frame s e; rw [e]
@[simp] theorem vgPush_swTurn (s : State) (e : VgEvent) : (vgPush s e).swTurn = s.swTurn := by
  obtain ⟨_, _, e⟩ := vgPush_frame s e; rw [e]
@[simp] theorem vgPush_islA (s : State) (e : VgEvent) : (vgPush s e).islA = s.islA := by
  obtain ⟨_, _, e⟩ := vgPush_frame s e; rw [e]
@[simp] theorem vgPush_islB (s : State) (e : VgEvent) : (vgPush s e).islB = s.islB := by
  obtain ⟨_, _, e⟩ := vgPush_frame s e; rw [e]
@[simp] theorem vgPush_twinNotes (s : State) (e : VgEvent) : (vgPush s e).twinNotes = s.twinNotes := by
  obtain ⟨_, _, e⟩ := vgPush_frame s e; rw [e]
@[simp] theorem vgPush_hltQ (s : State) (e : VgEvent) : (vgPush s e).hltQ = s.hltQ := by
  obtain ⟨_, _, e⟩ := vgPush_frame s e; rw [e]
@[simp] theorem vgPush_hEvents (s : State) (e : VgEvent) : (vgPush s e).hEvents = s.hEvents := by
  obtain ⟨_, _, e⟩ := vgPush_frame s e; rw [e]
@[simp] theorem vgPush_hRecent (s : State) (e : VgEvent) : (vgPush s e).hRecent = s.hRecent := by
  obtain ⟨_, _, e⟩ := vgPush_frame s e; rw [e]
@[simp] theorem vgPush_engDisp (s : State) (e : VgEvent) : (vgPush s e).engDisp = s.engDisp := by
  obtain ⟨_, _, e⟩ := vgPush_frame s e; rw [e]
@[simp] theorem vgPush_repairs (s : State) (e : VgEvent) : (vgPush s e).repairs = s.repairs := by
  obtain ⟨_, _, e⟩ := vgPush_frame s e; rw [e]
@[simp] theorem vgPush_tileFails (s : State) (e : VgEvent) : (vgPush s e).tileFails = s.tileFails := by
  obtain ⟨_, _, e⟩ := vgPush_frame s e; rw [e]
@[simp] theorem vgPush_hbJudged (s : State) (e : VgEvent) : (vgPush s e).hbJudged = s.hbJudged := by
  obtain ⟨_, _, e⟩ := vgPush_frame s e; rw [e]
@[simp] theorem vgPush_quarantines (s : State) (e : VgEvent) : (vgPush s e).quarantines = s.quarantines := by
  obtain ⟨_, _, e⟩ := vgPush_frame s e; rw [e]
@[simp] theorem vgPush_hards (s : State) (e : VgEvent) : (vgPush s e).hards = s.hards := by
  obtain ⟨_, _, e⟩ := vgPush_frame s e; rw [e]
@[simp] theorem vgPush_commons (s : State) (e : VgEvent) : (vgPush s e).commons = s.commons := by
  obtain ⟨_, _, e⟩ := vgPush_frame s e; rw [e]
@[simp] theorem vgPush_suspects (s : State) (e : VgEvent) : (vgPush s e).suspects = s.suspects := by
  obtain ⟨_, _, e⟩ := vgPush_frame s e; rw [e]
@[simp] theorem vgPush_moved (s : State) (e : VgEvent) : (vgPush s e).moved = s.moved := by
  obtain ⟨_, _, e⟩ := vgPush_frame s e; rw [e]
@[simp] theorem vgPush_exclDone (s : State) (e : VgEvent) : (vgPush s e).exclDone = s.exclDone := by
  obtain ⟨_, _, e⟩ := vgPush_frame s e; rw [e]
@[simp] theorem vgPush_st (s : State) (e : VgEvent) : (vgPush s e).st = s.st := by
  obtain ⟨_, _, e⟩ := vgPush_frame s e; rw [e]
@[simp] theorem vgPush_alm (s : State) (e : VgEvent) : (vgPush s e).alm = s.alm := by
  obtain ⟨_, _, e⟩ := vgPush_frame s e; rw [e]
@[simp] theorem vgPush_host (s : State) (e : VgEvent) : (vgPush s e).host = s.host := by
  obtain ⟨_, _, e⟩ := vgPush_frame s e; rw [e]
@[simp] theorem vgPush_hostMem (s : State) (e : VgEvent) : (vgPush s e).hostMem = s.hostMem := by
  obtain ⟨_, _, e⟩ := vgPush_frame s e; rw [e]
@[simp] theorem vgPush_flash (s : State) (e : VgEvent) : (vgPush s e).flash = s.flash := by
  obtain ⟨_, _, e⟩ := vgPush_frame s e; rw [e]
@[simp] theorem vgPush_season (s : State) (e : VgEvent) : (vgPush s e).season = s.season := by
  obtain ⟨_, _, e⟩ := vgPush_frame s e; rw [e]
@[simp] theorem vgPush_upd (s : State) (e : VgEvent) : (vgPush s e).upd = s.upd := by
  obtain ⟨_, _, e⟩ := vgPush_frame s e; rw [e]
@[simp] theorem vgPush_pm (s : State) (e : VgEvent) : (vgPush s e).pm = s.pm := by
  obtain ⟨_, _, e⟩ := vgPush_frame s e; rw [e]
@[simp] theorem vgPush_links (s : State) (e : VgEvent) : (vgPush s e).links = s.links := by
  obtain ⟨_, _, e⟩ := vgPush_frame s e; rw [e]
@[simp] theorem vgPush_time (s : State) (e : VgEvent) : (vgPush s e).time = s.time := by
  obtain ⟨_, _, e⟩ := vgPush_frame s e; rw [e]

/-! ## putTile -/

/-- `putTile` changes nothing but mem, side. -/
theorem putTile_frame (s : State) (a k g c : Nat) (bs : List Byte) :
    ∃ x0 x1, putTile s a k g c bs = { s with mem := x0, side := x1 } := by
  unfold putTile putCheck
  split
  · exact ⟨_, _, rfl⟩
  · exact ⟨_, _, rfl⟩
@[simp] theorem putTile_pending (s : State) (a k g c : Nat) (bs : List Byte) : (putTile s a k g c bs).pending = s.pending := by
  obtain ⟨_, _, e⟩ := putTile_frame s a k g c bs; rw [e]
@[simp] theorem putTile_now (s : State) (a k g c : Nat) (bs : List Byte) : (putTile s a k g c bs).now = s.now := by
  obtain ⟨_, _, e⟩ := putTile_frame s a k g c bs; rw [e]
@[simp] theorem putTile_fresh (s : State) (a k g c : Nat) (bs : List Byte) : (putTile s a k g c bs).fresh = s.fresh := by
  obtain ⟨_, _, e⟩ := putTile_frame s a k g c bs; rw [e]
@[simp] theorem putTile_inReset (s : State) (a k g c : Nat) (bs : List Byte) : (putTile s a k g c bs).inReset = s.inReset := by
  obtain ⟨_, _, e⟩ := putTile_frame s a k g c bs; rw [e]
@[simp] theorem putTile_railsLow (s : State) (a k g c : Nat) (bs : List Byte) : (putTile s a k g c bs).railsLow = s.railsLow := by
  obtain ⟨_, _, e⟩ := putTile_frame s a k g c bs; rw [e]
@[simp] theorem putTile_boot0 (s : State) (a k g c : Nat) (bs : List Byte) : (putTile s a k g c bs).boot0 = s.boot0 := by
  obtain ⟨_, _, e⟩ := putTile_frame s a k g c bs; rw [e]
@[simp] theorem putTile_cal (s : State) (a k g c : Nat) (bs : List Byte) : (putTile s a k g c bs).cal = s.cal := by
  obtain ⟨_, _, e⟩ := putTile_frame s a k g c bs; rw [e]
@[simp] theorem putTile_trig (s : State) (a k g c : Nat) (bs : List Byte) : (putTile s a k g c bs).trig = s.trig := by
  obtain ⟨_, _, e⟩ := putTile_frame s a k g c bs; rw [e]
@[simp] theorem putTile_stats (s : State) (a k g c : Nat) (bs : List Byte) : (putTile s a k g c bs).stats = s.stats := by
  obtain ⟨_, _, e⟩ := putTile_frame s a k g c bs; rw [e]
@[simp] theorem putTile_reportPend (s : State) (a k g c : Nat) (bs : List Byte) : (putTile s a k g c bs).reportPend = s.reportPend := by
  obtain ⟨_, _, e⟩ := putTile_frame s a k g c bs; rw [e]
@[simp] theorem putTile_reportRaw (s : State) (a k g c : Nat) (bs : List Byte) : (putTile s a k g c bs).reportRaw = s.reportRaw := by
  obtain ⟨_, _, e⟩ := putTile_frame s a k g c bs; rw [e]
@[simp] theorem putTile_plans (s : State) (a k g c : Nat) (bs : List Byte) : (putTile s a k g c bs).plans = s.plans := by
  obtain ⟨_, _, e⟩ := putTile_frame s a k g c bs; rw [e]
@[simp] theorem putTile_units (s : State) (a k g c : Nat) (bs : List Byte) : (putTile s a k g c bs).units = s.units := by
  obtain ⟨_, _, e⟩ := putTile_frame s a k g c bs; rw [e]
@[simp] theorem putTile_flights (s : State) (a k g c : Nat) (bs : List Byte) : (putTile s a k g c bs).flights = s.flights := by
  obtain ⟨_, _, e⟩ := putTile_frame s a k g c bs; rw [e]
@[simp] theorem putTile_clu (s : State) (a k g c : Nat) (bs : List Byte) : (putTile s a k g c bs).clu = s.clu := by
  obtain ⟨_, _, e⟩ := putTile_frame s a k g c bs; rw [e]
@[simp] theorem putTile_nle (s : State) (a k g c : Nat) (bs : List Byte) : (putTile s a k g c bs).nle = s.nle := by
  obtain ⟨_, _, e⟩ := putTile_frame s a k g c bs; rw [e]
@[simp] theorem putTile_tags (s : State) (a k g c : Nat) (bs : List Byte) : (putTile s a k g c bs).tags = s.tags := by
  obtain ⟨_, _, e⟩ := putTile_frame s a k g c bs; rw [e]
@[simp] theorem putTile_tagPend (s : State) (a k g c : Nat) (bs : List Byte) : (putTile s a k g c bs).tagPend = s.tagPend := by
  obtain ⟨_, _, e⟩ := putTile_frame s a k g c bs; rw [e]
@[simp] theorem putTile_tagUse (s : State) (a k g c : Nat) (bs : List Byte) : (putTile s a k g c bs).tagUse = s.tagUse := by
  obtain ⟨_, _, e⟩ := putTile_frame s a k g c bs; rw [e]
@[simp] theorem putTile_seqs (s : State) (a k g c : Nat) (bs : List Byte) : (putTile s a k g c bs).seqs = s.seqs := by
  obtain ⟨_, _, e⟩ := putTile_frame s a k g c bs; rw [e]
@[simp] theorem putTile_regions (s : State) (a k g c : Nat) (bs : List Byte) : (putTile s a k g c bs).regions = s.regions := by
  obtain ⟨_, _, e⟩ := putTile_frame s a k g c bs; rw [e]
@[simp] theorem putTile_fines (s : State) (a k g c : Nat) (bs : List Byte) : (putTile s a k g c bs).fines = s.fines := by
  obtain ⟨_, _, e⟩ := putTile_frame s a k g c bs; rw [e]
@[simp] theorem putTile_cvu (s : State) (a k g c : Nat) (bs : List Byte) : (putTile s a k g c bs).cvu = s.cvu := by
  obtain ⟨_, _, e⟩ := putTile_frame s a k g c bs; rw [e]
@[simp] theorem putTile_stc (s : State) (a k g c : Nat) (bs : List Byte) : (putTile s a k g c bs).stc = s.stc := by
  obtain ⟨_, _, e⟩ := putTile_frame s a k g c bs; rw [e]
@[simp] theorem putTile_streams (s : State) (a k g c : Nat) (bs : List Byte) : (putTile s a k g c bs).streams = s.streams := by
  obtain ⟨_, _, e⟩ := putTile_frame s a k g c bs; rw [e]
@[simp] theorem putTile_fus (s : State) (a k g c : Nat) (bs : List Byte) : (putTile s a k g c bs).fus = s.fus := by
  obtain ⟨_, _, e⟩ := putTile_frame s a k g c bs; rw [e]
@[simp] theorem putTile_pln (s : State) (a k g c : Nat) (bs : List Byte) : (putTile s a k g c bs).pln = s.pln := by
  obtain ⟨_, _, e⟩ := putTile_frame s a k g c bs; rw [e]
@[simp] theorem putTile_ident (s : State) (a k g c : Nat) (bs : List Byte) : (putTile s a k g c bs).ident = s.ident := by
  obtain ⟨_, _, e⟩ := putTile_frame s a k g c bs; rw [e]
@[simp] theorem putTile_rgl (s : State) (a k g c : Nat) (bs : List Byte) : (putTile s a k g c bs).rgl = s.rgl := by
  obtain ⟨_, _, e⟩ := putTile_frame s a k g c bs; rw [e]
@[simp] theorem putTile_ports (s : State) (a k g c : Nat) (bs : List Byte) : (putTile s a k g c bs).ports = s.ports := by
  obtain ⟨_, _, e⟩ := putTile_frame s a k g c bs; rw [e]
@[simp] theorem putTile_swIn (s : State) (a k g c : Nat) (bs : List Byte) : (putTile s a k g c bs).swIn = s.swIn := by
  obtain ⟨_, _, e⟩ := putTile_frame s a k g c bs; rw [e]
@[simp] theorem putTile_swOut (s : State) (a k g c : Nat) (bs : List Byte) : (putTile s a k g c bs).swOut = s.swOut := by
  obtain ⟨_, _, e⟩ := putTile_frame s a k g c bs; rw [e]
@[simp] theorem putTile_swWait (s : State) (a k g c : Nat) (bs : List Byte) : (putTile s a k g c bs).swWait = s.swWait := by
  obtain ⟨_, _, e⟩ := putTile_frame s a k g c bs; rw [e]
@[simp] theorem putTile_swTurn (s : State) (a k g c : Nat) (bs : List Byte) : (putTile s a k g c bs).swTurn = s.swTurn := by
  obtain ⟨_, _, e⟩ := putTile_frame s a k g c bs; rw [e]
@[simp] theorem putTile_islA (s : State) (a k g c : Nat) (bs : List Byte) : (putTile s a k g c bs).islA = s.islA := by
  obtain ⟨_, _, e⟩ := putTile_frame s a k g c bs; rw [e]
@[simp] theorem putTile_islB (s : State) (a k g c : Nat) (bs : List Byte) : (putTile s a k g c bs).islB = s.islB := by
  obtain ⟨_, _, e⟩ := putTile_frame s a k g c bs; rw [e]
@[simp] theorem putTile_vg (s : State) (a k g c : Nat) (bs : List Byte) : (putTile s a k g c bs).vg = s.vg := by
  obtain ⟨_, _, e⟩ := putTile_frame s a k g c bs; rw [e]
@[simp] theorem putTile_twinNotes (s : State) (a k g c : Nat) (bs : List Byte) : (putTile s a k g c bs).twinNotes = s.twinNotes := by
  obtain ⟨_, _, e⟩ := putTile_frame s a k g c bs; rw [e]
@[simp] theorem putTile_health (s : State) (a k g c : Nat) (bs : List Byte) : (putTile s a k g c bs).health = s.health := by
  obtain ⟨_, _, e⟩ := putTile_frame s a k g c bs; rw [e]
@[simp] theorem putTile_hltQ (s : State) (a k g c : Nat) (bs : List Byte) : (putTile s a k g c bs).hltQ = s.hltQ := by
  obtain ⟨_, _, e⟩ := putTile_frame s a k g c bs; rw [e]
@[simp] theorem putTile_hEvents (s : State) (a k g c : Nat) (bs : List Byte) : (putTile s a k g c bs).hEvents = s.hEvents := by
  obtain ⟨_, _, e⟩ := putTile_frame s a k g c bs; rw [e]
@[simp] theorem putTile_hRecent (s : State) (a k g c : Nat) (bs : List Byte) : (putTile s a k g c bs).hRecent = s.hRecent := by
  obtain ⟨_, _, e⟩ := putTile_frame s a k g c bs; rw [e]
@[simp] theorem putTile_engDisp (s : State) (a k g c : Nat) (bs : List Byte) : (putTile s a k g c bs).engDisp = s.engDisp := by
  obtain ⟨_, _, e⟩ := putTile_frame s a k g c bs; rw [e]
@[simp] theorem putTile_repairs (s : State) (a k g c : Nat) (bs : List Byte) : (putTile s a k g c bs).repairs = s.repairs := by
  obtain ⟨_, _, e⟩ := putTile_frame s a k g c bs; rw [e]
@[simp] theorem putTile_tileFails (s : State) (a k g c : Nat) (bs : List Byte) : (putTile s a k g c bs).tileFails = s.tileFails := by
  obtain ⟨_, _, e⟩ := putTile_frame s a k g c bs; rw [e]
@[simp] theorem putTile_hbJudged (s : State) (a k g c : Nat) (bs : List Byte) : (putTile s a k g c bs).hbJudged = s.hbJudged := by
  obtain ⟨_, _, e⟩ := putTile_frame s a k g c bs; rw [e]
@[simp] theorem putTile_quarantines (s : State) (a k g c : Nat) (bs : List Byte) : (putTile s a k g c bs).quarantines = s.quarantines := by
  obtain ⟨_, _, e⟩ := putTile_frame s a k g c bs; rw [e]
@[simp] theorem putTile_hards (s : State) (a k g c : Nat) (bs : List Byte) : (putTile s a k g c bs).hards = s.hards := by
  obtain ⟨_, _, e⟩ := putTile_frame s a k g c bs; rw [e]
@[simp] theorem putTile_commons (s : State) (a k g c : Nat) (bs : List Byte) : (putTile s a k g c bs).commons = s.commons := by
  obtain ⟨_, _, e⟩ := putTile_frame s a k g c bs; rw [e]
@[simp] theorem putTile_suspects (s : State) (a k g c : Nat) (bs : List Byte) : (putTile s a k g c bs).suspects = s.suspects := by
  obtain ⟨_, _, e⟩ := putTile_frame s a k g c bs; rw [e]
@[simp] theorem putTile_moved (s : State) (a k g c : Nat) (bs : List Byte) : (putTile s a k g c bs).moved = s.moved := by
  obtain ⟨_, _, e⟩ := putTile_frame s a k g c bs; rw [e]
@[simp] theorem putTile_exclDone (s : State) (a k g c : Nat) (bs : List Byte) : (putTile s a k g c bs).exclDone = s.exclDone := by
  obtain ⟨_, _, e⟩ := putTile_frame s a k g c bs; rw [e]
@[simp] theorem putTile_st (s : State) (a k g c : Nat) (bs : List Byte) : (putTile s a k g c bs).st = s.st := by
  obtain ⟨_, _, e⟩ := putTile_frame s a k g c bs; rw [e]
@[simp] theorem putTile_alm (s : State) (a k g c : Nat) (bs : List Byte) : (putTile s a k g c bs).alm = s.alm := by
  obtain ⟨_, _, e⟩ := putTile_frame s a k g c bs; rw [e]
@[simp] theorem putTile_host (s : State) (a k g c : Nat) (bs : List Byte) : (putTile s a k g c bs).host = s.host := by
  obtain ⟨_, _, e⟩ := putTile_frame s a k g c bs; rw [e]
@[simp] theorem putTile_hostMem (s : State) (a k g c : Nat) (bs : List Byte) : (putTile s a k g c bs).hostMem = s.hostMem := by
  obtain ⟨_, _, e⟩ := putTile_frame s a k g c bs; rw [e]
@[simp] theorem putTile_flash (s : State) (a k g c : Nat) (bs : List Byte) : (putTile s a k g c bs).flash = s.flash := by
  obtain ⟨_, _, e⟩ := putTile_frame s a k g c bs; rw [e]
@[simp] theorem putTile_season (s : State) (a k g c : Nat) (bs : List Byte) : (putTile s a k g c bs).season = s.season := by
  obtain ⟨_, _, e⟩ := putTile_frame s a k g c bs; rw [e]
@[simp] theorem putTile_upd (s : State) (a k g c : Nat) (bs : List Byte) : (putTile s a k g c bs).upd = s.upd := by
  obtain ⟨_, _, e⟩ := putTile_frame s a k g c bs; rw [e]
@[simp] theorem putTile_pm (s : State) (a k g c : Nat) (bs : List Byte) : (putTile s a k g c bs).pm = s.pm := by
  obtain ⟨_, _, e⟩ := putTile_frame s a k g c bs; rw [e]
@[simp] theorem putTile_links (s : State) (a k g c : Nat) (bs : List Byte) : (putTile s a k g c bs).links = s.links := by
  obtain ⟨_, _, e⟩ := putTile_frame s a k g c bs; rw [e]
@[simp] theorem putTile_time (s : State) (a k g c : Nat) (bs : List Byte) : (putTile s a k g c bs).time = s.time := by
  obtain ⟨_, _, e⟩ := putTile_frame s a k g c bs; rw [e]

/-! ## complete -/

/-- Granting DMA channels changes nothing but the host interface. -/
theorem grantChannels_frame (s : State) : ∃ x0, grantChannels s = { s with host := x0 } := by
  unfold grantChannels
  generalize s.host.taken = l
  induction l generalizing s with
  | nil => exact ⟨_, rfl⟩
  | cons e l ih =>
    simp only [List.foldl_cons]
    split
    · exact ih s
    · split
      · obtain ⟨h, e⟩ := ih { s with host := _ }
        exact ⟨h, e⟩
      · exact ih s
/-- `complete` changes nothing but the host interface. -/
theorem complete_frame (s : State) (e : SubEntry) (st : Nat) (r : List Byte) : ∃ x0, complete s e st r = { s with host := x0 } :=
  ⟨_, (grantChannels_frame _).choose_spec⟩
@[simp] theorem complete_pending (s : State) (e : SubEntry) (st : Nat) (r : List Byte) : (complete s e st r).pending = s.pending := by
  obtain ⟨_, e⟩ := complete_frame s e st r; rw [e]
@[simp] theorem complete_now (s : State) (e : SubEntry) (st : Nat) (r : List Byte) : (complete s e st r).now = s.now := by
  obtain ⟨_, e⟩ := complete_frame s e st r; rw [e]
@[simp] theorem complete_fresh (s : State) (e : SubEntry) (st : Nat) (r : List Byte) : (complete s e st r).fresh = s.fresh := by
  obtain ⟨_, e⟩ := complete_frame s e st r; rw [e]
@[simp] theorem complete_inReset (s : State) (e : SubEntry) (st : Nat) (r : List Byte) : (complete s e st r).inReset = s.inReset := by
  obtain ⟨_, e⟩ := complete_frame s e st r; rw [e]
@[simp] theorem complete_railsLow (s : State) (e : SubEntry) (st : Nat) (r : List Byte) : (complete s e st r).railsLow = s.railsLow := by
  obtain ⟨_, e⟩ := complete_frame s e st r; rw [e]
@[simp] theorem complete_boot0 (s : State) (e : SubEntry) (st : Nat) (r : List Byte) : (complete s e st r).boot0 = s.boot0 := by
  obtain ⟨_, e⟩ := complete_frame s e st r; rw [e]
@[simp] theorem complete_cal (s : State) (e : SubEntry) (st : Nat) (r : List Byte) : (complete s e st r).cal = s.cal := by
  obtain ⟨_, e⟩ := complete_frame s e st r; rw [e]
@[simp] theorem complete_trig (s : State) (e : SubEntry) (st : Nat) (r : List Byte) : (complete s e st r).trig = s.trig := by
  obtain ⟨_, e⟩ := complete_frame s e st r; rw [e]
@[simp] theorem complete_stats (s : State) (e : SubEntry) (st : Nat) (r : List Byte) : (complete s e st r).stats = s.stats := by
  obtain ⟨_, e⟩ := complete_frame s e st r; rw [e]
@[simp] theorem complete_reportPend (s : State) (e : SubEntry) (st : Nat) (r : List Byte) : (complete s e st r).reportPend = s.reportPend := by
  obtain ⟨_, e⟩ := complete_frame s e st r; rw [e]
@[simp] theorem complete_reportRaw (s : State) (e : SubEntry) (st : Nat) (r : List Byte) : (complete s e st r).reportRaw = s.reportRaw := by
  obtain ⟨_, e⟩ := complete_frame s e st r; rw [e]
@[simp] theorem complete_plans (s : State) (e : SubEntry) (st : Nat) (r : List Byte) : (complete s e st r).plans = s.plans := by
  obtain ⟨_, e⟩ := complete_frame s e st r; rw [e]
@[simp] theorem complete_units (s : State) (e : SubEntry) (st : Nat) (r : List Byte) : (complete s e st r).units = s.units := by
  obtain ⟨_, e⟩ := complete_frame s e st r; rw [e]
@[simp] theorem complete_flights (s : State) (e : SubEntry) (st : Nat) (r : List Byte) : (complete s e st r).flights = s.flights := by
  obtain ⟨_, e⟩ := complete_frame s e st r; rw [e]
@[simp] theorem complete_clu (s : State) (e : SubEntry) (st : Nat) (r : List Byte) : (complete s e st r).clu = s.clu := by
  obtain ⟨_, e⟩ := complete_frame s e st r; rw [e]
@[simp] theorem complete_nle (s : State) (e : SubEntry) (st : Nat) (r : List Byte) : (complete s e st r).nle = s.nle := by
  obtain ⟨_, e⟩ := complete_frame s e st r; rw [e]
@[simp] theorem complete_mem (s : State) (e : SubEntry) (st : Nat) (r : List Byte) : (complete s e st r).mem = s.mem := by
  obtain ⟨_, e⟩ := complete_frame s e st r; rw [e]
@[simp] theorem complete_side (s : State) (e : SubEntry) (st : Nat) (r : List Byte) : (complete s e st r).side = s.side := by
  obtain ⟨_, e⟩ := complete_frame s e st r; rw [e]
@[simp] theorem complete_tags (s : State) (e : SubEntry) (st : Nat) (r : List Byte) : (complete s e st r).tags = s.tags := by
  obtain ⟨_, e⟩ := complete_frame s e st r; rw [e]
@[simp] theorem complete_tagPend (s : State) (e : SubEntry) (st : Nat) (r : List Byte) : (complete s e st r).tagPend = s.tagPend := by
  obtain ⟨_, e⟩ := complete_frame s e st r; rw [e]
@[simp] theorem complete_tagUse (s : State) (e : SubEntry) (st : Nat) (r : List Byte) : (complete s e st r).tagUse = s.tagUse := by
  obtain ⟨_, e⟩ := complete_frame s e st r; rw [e]
@[simp] theorem complete_seqs (s : State) (e : SubEntry) (st : Nat) (r : List Byte) : (complete s e st r).seqs = s.seqs := by
  obtain ⟨_, e⟩ := complete_frame s e st r; rw [e]
@[simp] theorem complete_regions (s : State) (e : SubEntry) (st : Nat) (r : List Byte) : (complete s e st r).regions = s.regions := by
  obtain ⟨_, e⟩ := complete_frame s e st r; rw [e]
@[simp] theorem complete_fines (s : State) (e : SubEntry) (st : Nat) (r : List Byte) : (complete s e st r).fines = s.fines := by
  obtain ⟨_, e⟩ := complete_frame s e st r; rw [e]
@[simp] theorem complete_cvu (s : State) (e : SubEntry) (st : Nat) (r : List Byte) : (complete s e st r).cvu = s.cvu := by
  obtain ⟨_, e⟩ := complete_frame s e st r; rw [e]
@[simp] theorem complete_stc (s : State) (e : SubEntry) (st : Nat) (r : List Byte) : (complete s e st r).stc = s.stc := by
  obtain ⟨_, e⟩ := complete_frame s e st r; rw [e]
@[simp] theorem complete_streams (s : State) (e : SubEntry) (st : Nat) (r : List Byte) : (complete s e st r).streams = s.streams := by
  obtain ⟨_, e⟩ := complete_frame s e st r; rw [e]
@[simp] theorem complete_fus (s : State) (e : SubEntry) (st : Nat) (r : List Byte) : (complete s e st r).fus = s.fus := by
  obtain ⟨_, e⟩ := complete_frame s e st r; rw [e]
@[simp] theorem complete_pln (s : State) (e : SubEntry) (st : Nat) (r : List Byte) : (complete s e st r).pln = s.pln := by
  obtain ⟨_, e⟩ := complete_frame s e st r; rw [e]
@[simp] theorem complete_ident (s : State) (e : SubEntry) (st : Nat) (r : List Byte) : (complete s e st r).ident = s.ident := by
  obtain ⟨_, e⟩ := complete_frame s e st r; rw [e]
@[simp] theorem complete_rgl (s : State) (e : SubEntry) (st : Nat) (r : List Byte) : (complete s e st r).rgl = s.rgl := by
  obtain ⟨_, e⟩ := complete_frame s e st r; rw [e]
@[simp] theorem complete_ports (s : State) (e : SubEntry) (st : Nat) (r : List Byte) : (complete s e st r).ports = s.ports := by
  obtain ⟨_, e⟩ := complete_frame s e st r; rw [e]
@[simp] theorem complete_swIn (s : State) (e : SubEntry) (st : Nat) (r : List Byte) : (complete s e st r).swIn = s.swIn := by
  obtain ⟨_, e⟩ := complete_frame s e st r; rw [e]
@[simp] theorem complete_swOut (s : State) (e : SubEntry) (st : Nat) (r : List Byte) : (complete s e st r).swOut = s.swOut := by
  obtain ⟨_, e⟩ := complete_frame s e st r; rw [e]
@[simp] theorem complete_swWait (s : State) (e : SubEntry) (st : Nat) (r : List Byte) : (complete s e st r).swWait = s.swWait := by
  obtain ⟨_, e⟩ := complete_frame s e st r; rw [e]
@[simp] theorem complete_swTurn (s : State) (e : SubEntry) (st : Nat) (r : List Byte) : (complete s e st r).swTurn = s.swTurn := by
  obtain ⟨_, e⟩ := complete_frame s e st r; rw [e]
@[simp] theorem complete_islA (s : State) (e : SubEntry) (st : Nat) (r : List Byte) : (complete s e st r).islA = s.islA := by
  obtain ⟨_, e⟩ := complete_frame s e st r; rw [e]
@[simp] theorem complete_islB (s : State) (e : SubEntry) (st : Nat) (r : List Byte) : (complete s e st r).islB = s.islB := by
  obtain ⟨_, e⟩ := complete_frame s e st r; rw [e]
@[simp] theorem complete_vg (s : State) (e : SubEntry) (st : Nat) (r : List Byte) : (complete s e st r).vg = s.vg := by
  obtain ⟨_, e⟩ := complete_frame s e st r; rw [e]
@[simp] theorem complete_twinNotes (s : State) (e : SubEntry) (st : Nat) (r : List Byte) : (complete s e st r).twinNotes = s.twinNotes := by
  obtain ⟨_, e⟩ := complete_frame s e st r; rw [e]
@[simp] theorem complete_health (s : State) (e : SubEntry) (st : Nat) (r : List Byte) : (complete s e st r).health = s.health := by
  obtain ⟨_, e⟩ := complete_frame s e st r; rw [e]
@[simp] theorem complete_hltQ (s : State) (e : SubEntry) (st : Nat) (r : List Byte) : (complete s e st r).hltQ = s.hltQ := by
  obtain ⟨_, e⟩ := complete_frame s e st r; rw [e]
@[simp] theorem complete_hEvents (s : State) (e : SubEntry) (st : Nat) (r : List Byte) : (complete s e st r).hEvents = s.hEvents := by
  obtain ⟨_, e⟩ := complete_frame s e st r; rw [e]
@[simp] theorem complete_hRecent (s : State) (e : SubEntry) (st : Nat) (r : List Byte) : (complete s e st r).hRecent = s.hRecent := by
  obtain ⟨_, e⟩ := complete_frame s e st r; rw [e]
@[simp] theorem complete_engDisp (s : State) (e : SubEntry) (st : Nat) (r : List Byte) : (complete s e st r).engDisp = s.engDisp := by
  obtain ⟨_, e⟩ := complete_frame s e st r; rw [e]
@[simp] theorem complete_repairs (s : State) (e : SubEntry) (st : Nat) (r : List Byte) : (complete s e st r).repairs = s.repairs := by
  obtain ⟨_, e⟩ := complete_frame s e st r; rw [e]
@[simp] theorem complete_tileFails (s : State) (e : SubEntry) (st : Nat) (r : List Byte) : (complete s e st r).tileFails = s.tileFails := by
  obtain ⟨_, e⟩ := complete_frame s e st r; rw [e]
@[simp] theorem complete_hbJudged (s : State) (e : SubEntry) (st : Nat) (r : List Byte) : (complete s e st r).hbJudged = s.hbJudged := by
  obtain ⟨_, e⟩ := complete_frame s e st r; rw [e]
@[simp] theorem complete_quarantines (s : State) (e : SubEntry) (st : Nat) (r : List Byte) : (complete s e st r).quarantines = s.quarantines := by
  obtain ⟨_, e⟩ := complete_frame s e st r; rw [e]
@[simp] theorem complete_hards (s : State) (e : SubEntry) (st : Nat) (r : List Byte) : (complete s e st r).hards = s.hards := by
  obtain ⟨_, e⟩ := complete_frame s e st r; rw [e]
@[simp] theorem complete_commons (s : State) (e : SubEntry) (st : Nat) (r : List Byte) : (complete s e st r).commons = s.commons := by
  obtain ⟨_, e⟩ := complete_frame s e st r; rw [e]
@[simp] theorem complete_suspects (s : State) (e : SubEntry) (st : Nat) (r : List Byte) : (complete s e st r).suspects = s.suspects := by
  obtain ⟨_, e⟩ := complete_frame s e st r; rw [e]
@[simp] theorem complete_moved (s : State) (e : SubEntry) (st : Nat) (r : List Byte) : (complete s e st r).moved = s.moved := by
  obtain ⟨_, e⟩ := complete_frame s e st r; rw [e]
@[simp] theorem complete_exclDone (s : State) (e : SubEntry) (st : Nat) (r : List Byte) : (complete s e st r).exclDone = s.exclDone := by
  obtain ⟨_, e⟩ := complete_frame s e st r; rw [e]
@[simp] theorem complete_st (s : State) (e : SubEntry) (st : Nat) (r : List Byte) : (complete s e st r).st = s.st := by
  obtain ⟨_, e⟩ := complete_frame s e st r; rw [e]
@[simp] theorem complete_alm (s : State) (e : SubEntry) (st : Nat) (r : List Byte) : (complete s e st r).alm = s.alm := by
  obtain ⟨_, e⟩ := complete_frame s e st r; rw [e]
@[simp] theorem complete_hostMem (s : State) (e : SubEntry) (st : Nat) (r : List Byte) : (complete s e st r).hostMem = s.hostMem := by
  obtain ⟨_, e⟩ := complete_frame s e st r; rw [e]
@[simp] theorem complete_flash (s : State) (e : SubEntry) (st : Nat) (r : List Byte) : (complete s e st r).flash = s.flash := by
  obtain ⟨_, e⟩ := complete_frame s e st r; rw [e]
@[simp] theorem complete_season (s : State) (e : SubEntry) (st : Nat) (r : List Byte) : (complete s e st r).season = s.season := by
  obtain ⟨_, e⟩ := complete_frame s e st r; rw [e]
@[simp] theorem complete_upd (s : State) (e : SubEntry) (st : Nat) (r : List Byte) : (complete s e st r).upd = s.upd := by
  obtain ⟨_, e⟩ := complete_frame s e st r; rw [e]
@[simp] theorem complete_pm (s : State) (e : SubEntry) (st : Nat) (r : List Byte) : (complete s e st r).pm = s.pm := by
  obtain ⟨_, e⟩ := complete_frame s e st r; rw [e]
@[simp] theorem complete_links (s : State) (e : SubEntry) (st : Nat) (r : List Byte) : (complete s e st r).links = s.links := by
  obtain ⟨_, e⟩ := complete_frame s e st r; rw [e]
@[simp] theorem complete_time (s : State) (e : SubEntry) (st : Nat) (r : List Byte) : (complete s e st r).time = s.time := by
  obtain ⟨_, e⟩ := complete_frame s e st r; rw [e]

/-! ## settleStray -/

/-- `settleStray` changes nothing but the host interface. -/
theorem settleStray_frame (s : State) (n : Nat) : ∃ x0, settleStray s n = { s with host := x0 } := by
  induction n generalizing s with
  | zero => exact ⟨_, rfl⟩
  | succ n ih =>
    unfold settleStray
    split
    · obtain ⟨h, e⟩ := ih (complete s _ _ [])
      obtain ⟨h', e'⟩ := complete_frame s _ _ []
      exact ⟨h, by rw [e, e']⟩
    · exact ⟨_, rfl⟩
@[simp] theorem settleStray_pending (s : State) (n : Nat) : (settleStray s n).pending = s.pending := by
  obtain ⟨_, e⟩ := settleStray_frame s n; rw [e]
@[simp] theorem settleStray_now (s : State) (n : Nat) : (settleStray s n).now = s.now := by
  obtain ⟨_, e⟩ := settleStray_frame s n; rw [e]
@[simp] theorem settleStray_fresh (s : State) (n : Nat) : (settleStray s n).fresh = s.fresh := by
  obtain ⟨_, e⟩ := settleStray_frame s n; rw [e]
@[simp] theorem settleStray_inReset (s : State) (n : Nat) : (settleStray s n).inReset = s.inReset := by
  obtain ⟨_, e⟩ := settleStray_frame s n; rw [e]
@[simp] theorem settleStray_railsLow (s : State) (n : Nat) : (settleStray s n).railsLow = s.railsLow := by
  obtain ⟨_, e⟩ := settleStray_frame s n; rw [e]
@[simp] theorem settleStray_boot0 (s : State) (n : Nat) : (settleStray s n).boot0 = s.boot0 := by
  obtain ⟨_, e⟩ := settleStray_frame s n; rw [e]
@[simp] theorem settleStray_cal (s : State) (n : Nat) : (settleStray s n).cal = s.cal := by
  obtain ⟨_, e⟩ := settleStray_frame s n; rw [e]
@[simp] theorem settleStray_trig (s : State) (n : Nat) : (settleStray s n).trig = s.trig := by
  obtain ⟨_, e⟩ := settleStray_frame s n; rw [e]
@[simp] theorem settleStray_stats (s : State) (n : Nat) : (settleStray s n).stats = s.stats := by
  obtain ⟨_, e⟩ := settleStray_frame s n; rw [e]
@[simp] theorem settleStray_reportPend (s : State) (n : Nat) : (settleStray s n).reportPend = s.reportPend := by
  obtain ⟨_, e⟩ := settleStray_frame s n; rw [e]
@[simp] theorem settleStray_reportRaw (s : State) (n : Nat) : (settleStray s n).reportRaw = s.reportRaw := by
  obtain ⟨_, e⟩ := settleStray_frame s n; rw [e]
@[simp] theorem settleStray_plans (s : State) (n : Nat) : (settleStray s n).plans = s.plans := by
  obtain ⟨_, e⟩ := settleStray_frame s n; rw [e]
@[simp] theorem settleStray_units (s : State) (n : Nat) : (settleStray s n).units = s.units := by
  obtain ⟨_, e⟩ := settleStray_frame s n; rw [e]
@[simp] theorem settleStray_flights (s : State) (n : Nat) : (settleStray s n).flights = s.flights := by
  obtain ⟨_, e⟩ := settleStray_frame s n; rw [e]
@[simp] theorem settleStray_clu (s : State) (n : Nat) : (settleStray s n).clu = s.clu := by
  obtain ⟨_, e⟩ := settleStray_frame s n; rw [e]
@[simp] theorem settleStray_nle (s : State) (n : Nat) : (settleStray s n).nle = s.nle := by
  obtain ⟨_, e⟩ := settleStray_frame s n; rw [e]
@[simp] theorem settleStray_mem (s : State) (n : Nat) : (settleStray s n).mem = s.mem := by
  obtain ⟨_, e⟩ := settleStray_frame s n; rw [e]
@[simp] theorem settleStray_side (s : State) (n : Nat) : (settleStray s n).side = s.side := by
  obtain ⟨_, e⟩ := settleStray_frame s n; rw [e]
@[simp] theorem settleStray_tags (s : State) (n : Nat) : (settleStray s n).tags = s.tags := by
  obtain ⟨_, e⟩ := settleStray_frame s n; rw [e]
@[simp] theorem settleStray_tagPend (s : State) (n : Nat) : (settleStray s n).tagPend = s.tagPend := by
  obtain ⟨_, e⟩ := settleStray_frame s n; rw [e]
@[simp] theorem settleStray_tagUse (s : State) (n : Nat) : (settleStray s n).tagUse = s.tagUse := by
  obtain ⟨_, e⟩ := settleStray_frame s n; rw [e]
@[simp] theorem settleStray_seqs (s : State) (n : Nat) : (settleStray s n).seqs = s.seqs := by
  obtain ⟨_, e⟩ := settleStray_frame s n; rw [e]
@[simp] theorem settleStray_regions (s : State) (n : Nat) : (settleStray s n).regions = s.regions := by
  obtain ⟨_, e⟩ := settleStray_frame s n; rw [e]
@[simp] theorem settleStray_fines (s : State) (n : Nat) : (settleStray s n).fines = s.fines := by
  obtain ⟨_, e⟩ := settleStray_frame s n; rw [e]
@[simp] theorem settleStray_cvu (s : State) (n : Nat) : (settleStray s n).cvu = s.cvu := by
  obtain ⟨_, e⟩ := settleStray_frame s n; rw [e]
@[simp] theorem settleStray_stc (s : State) (n : Nat) : (settleStray s n).stc = s.stc := by
  obtain ⟨_, e⟩ := settleStray_frame s n; rw [e]
@[simp] theorem settleStray_streams (s : State) (n : Nat) : (settleStray s n).streams = s.streams := by
  obtain ⟨_, e⟩ := settleStray_frame s n; rw [e]
@[simp] theorem settleStray_fus (s : State) (n : Nat) : (settleStray s n).fus = s.fus := by
  obtain ⟨_, e⟩ := settleStray_frame s n; rw [e]
@[simp] theorem settleStray_pln (s : State) (n : Nat) : (settleStray s n).pln = s.pln := by
  obtain ⟨_, e⟩ := settleStray_frame s n; rw [e]
@[simp] theorem settleStray_ident (s : State) (n : Nat) : (settleStray s n).ident = s.ident := by
  obtain ⟨_, e⟩ := settleStray_frame s n; rw [e]
@[simp] theorem settleStray_rgl (s : State) (n : Nat) : (settleStray s n).rgl = s.rgl := by
  obtain ⟨_, e⟩ := settleStray_frame s n; rw [e]
@[simp] theorem settleStray_ports (s : State) (n : Nat) : (settleStray s n).ports = s.ports := by
  obtain ⟨_, e⟩ := settleStray_frame s n; rw [e]
@[simp] theorem settleStray_swIn (s : State) (n : Nat) : (settleStray s n).swIn = s.swIn := by
  obtain ⟨_, e⟩ := settleStray_frame s n; rw [e]
@[simp] theorem settleStray_swOut (s : State) (n : Nat) : (settleStray s n).swOut = s.swOut := by
  obtain ⟨_, e⟩ := settleStray_frame s n; rw [e]
@[simp] theorem settleStray_swWait (s : State) (n : Nat) : (settleStray s n).swWait = s.swWait := by
  obtain ⟨_, e⟩ := settleStray_frame s n; rw [e]
@[simp] theorem settleStray_swTurn (s : State) (n : Nat) : (settleStray s n).swTurn = s.swTurn := by
  obtain ⟨_, e⟩ := settleStray_frame s n; rw [e]
@[simp] theorem settleStray_islA (s : State) (n : Nat) : (settleStray s n).islA = s.islA := by
  obtain ⟨_, e⟩ := settleStray_frame s n; rw [e]
@[simp] theorem settleStray_islB (s : State) (n : Nat) : (settleStray s n).islB = s.islB := by
  obtain ⟨_, e⟩ := settleStray_frame s n; rw [e]
@[simp] theorem settleStray_vg (s : State) (n : Nat) : (settleStray s n).vg = s.vg := by
  obtain ⟨_, e⟩ := settleStray_frame s n; rw [e]
@[simp] theorem settleStray_twinNotes (s : State) (n : Nat) : (settleStray s n).twinNotes = s.twinNotes := by
  obtain ⟨_, e⟩ := settleStray_frame s n; rw [e]
@[simp] theorem settleStray_health (s : State) (n : Nat) : (settleStray s n).health = s.health := by
  obtain ⟨_, e⟩ := settleStray_frame s n; rw [e]
@[simp] theorem settleStray_hltQ (s : State) (n : Nat) : (settleStray s n).hltQ = s.hltQ := by
  obtain ⟨_, e⟩ := settleStray_frame s n; rw [e]
@[simp] theorem settleStray_hEvents (s : State) (n : Nat) : (settleStray s n).hEvents = s.hEvents := by
  obtain ⟨_, e⟩ := settleStray_frame s n; rw [e]
@[simp] theorem settleStray_hRecent (s : State) (n : Nat) : (settleStray s n).hRecent = s.hRecent := by
  obtain ⟨_, e⟩ := settleStray_frame s n; rw [e]
@[simp] theorem settleStray_engDisp (s : State) (n : Nat) : (settleStray s n).engDisp = s.engDisp := by
  obtain ⟨_, e⟩ := settleStray_frame s n; rw [e]
@[simp] theorem settleStray_repairs (s : State) (n : Nat) : (settleStray s n).repairs = s.repairs := by
  obtain ⟨_, e⟩ := settleStray_frame s n; rw [e]
@[simp] theorem settleStray_tileFails (s : State) (n : Nat) : (settleStray s n).tileFails = s.tileFails := by
  obtain ⟨_, e⟩ := settleStray_frame s n; rw [e]
@[simp] theorem settleStray_hbJudged (s : State) (n : Nat) : (settleStray s n).hbJudged = s.hbJudged := by
  obtain ⟨_, e⟩ := settleStray_frame s n; rw [e]
@[simp] theorem settleStray_quarantines (s : State) (n : Nat) : (settleStray s n).quarantines = s.quarantines := by
  obtain ⟨_, e⟩ := settleStray_frame s n; rw [e]
@[simp] theorem settleStray_hards (s : State) (n : Nat) : (settleStray s n).hards = s.hards := by
  obtain ⟨_, e⟩ := settleStray_frame s n; rw [e]
@[simp] theorem settleStray_commons (s : State) (n : Nat) : (settleStray s n).commons = s.commons := by
  obtain ⟨_, e⟩ := settleStray_frame s n; rw [e]
@[simp] theorem settleStray_suspects (s : State) (n : Nat) : (settleStray s n).suspects = s.suspects := by
  obtain ⟨_, e⟩ := settleStray_frame s n; rw [e]
@[simp] theorem settleStray_moved (s : State) (n : Nat) : (settleStray s n).moved = s.moved := by
  obtain ⟨_, e⟩ := settleStray_frame s n; rw [e]
@[simp] theorem settleStray_exclDone (s : State) (n : Nat) : (settleStray s n).exclDone = s.exclDone := by
  obtain ⟨_, e⟩ := settleStray_frame s n; rw [e]
@[simp] theorem settleStray_st (s : State) (n : Nat) : (settleStray s n).st = s.st := by
  obtain ⟨_, e⟩ := settleStray_frame s n; rw [e]
@[simp] theorem settleStray_alm (s : State) (n : Nat) : (settleStray s n).alm = s.alm := by
  obtain ⟨_, e⟩ := settleStray_frame s n; rw [e]
@[simp] theorem settleStray_hostMem (s : State) (n : Nat) : (settleStray s n).hostMem = s.hostMem := by
  obtain ⟨_, e⟩ := settleStray_frame s n; rw [e]
@[simp] theorem settleStray_flash (s : State) (n : Nat) : (settleStray s n).flash = s.flash := by
  obtain ⟨_, e⟩ := settleStray_frame s n; rw [e]
@[simp] theorem settleStray_season (s : State) (n : Nat) : (settleStray s n).season = s.season := by
  obtain ⟨_, e⟩ := settleStray_frame s n; rw [e]
@[simp] theorem settleStray_upd (s : State) (n : Nat) : (settleStray s n).upd = s.upd := by
  obtain ⟨_, e⟩ := settleStray_frame s n; rw [e]
@[simp] theorem settleStray_pm (s : State) (n : Nat) : (settleStray s n).pm = s.pm := by
  obtain ⟨_, e⟩ := settleStray_frame s n; rw [e]
@[simp] theorem settleStray_links (s : State) (n : Nat) : (settleStray s n).links = s.links := by
  obtain ⟨_, e⟩ := settleStray_frame s n; rw [e]
@[simp] theorem settleStray_time (s : State) (n : Nat) : (settleStray s n).time = s.time := by
  obtain ⟨_, e⟩ := settleStray_frame s n; rw [e]

/-! ## bufOut -/

/-- `bufOut` changes nothing but hostMem. -/
theorem bufOut_frame (s : State) (e : SubEntry) (bs : List Byte) :
    ∃ x0, bufOut s e bs = { s with hostMem := x0 } := ⟨_, rfl⟩
@[simp] theorem bufOut_pending (s : State) (e : SubEntry) (bs : List Byte) : (bufOut s e bs).pending = s.pending := by
  obtain ⟨_, e⟩ := bufOut_frame s e bs; rw [e]
@[simp] theorem bufOut_now (s : State) (e : SubEntry) (bs : List Byte) : (bufOut s e bs).now = s.now := by
  obtain ⟨_, e⟩ := bufOut_frame s e bs; rw [e]
@[simp] theorem bufOut_fresh (s : State) (e : SubEntry) (bs : List Byte) : (bufOut s e bs).fresh = s.fresh := by
  obtain ⟨_, e⟩ := bufOut_frame s e bs; rw [e]
@[simp] theorem bufOut_inReset (s : State) (e : SubEntry) (bs : List Byte) : (bufOut s e bs).inReset = s.inReset := by
  obtain ⟨_, e⟩ := bufOut_frame s e bs; rw [e]
@[simp] theorem bufOut_railsLow (s : State) (e : SubEntry) (bs : List Byte) : (bufOut s e bs).railsLow = s.railsLow := by
  obtain ⟨_, e⟩ := bufOut_frame s e bs; rw [e]
@[simp] theorem bufOut_boot0 (s : State) (e : SubEntry) (bs : List Byte) : (bufOut s e bs).boot0 = s.boot0 := by
  obtain ⟨_, e⟩ := bufOut_frame s e bs; rw [e]
@[simp] theorem bufOut_cal (s : State) (e : SubEntry) (bs : List Byte) : (bufOut s e bs).cal = s.cal := by
  obtain ⟨_, e⟩ := bufOut_frame s e bs; rw [e]
@[simp] theorem bufOut_trig (s : State) (e : SubEntry) (bs : List Byte) : (bufOut s e bs).trig = s.trig := by
  obtain ⟨_, e⟩ := bufOut_frame s e bs; rw [e]
@[simp] theorem bufOut_stats (s : State) (e : SubEntry) (bs : List Byte) : (bufOut s e bs).stats = s.stats := by
  obtain ⟨_, e⟩ := bufOut_frame s e bs; rw [e]
@[simp] theorem bufOut_reportPend (s : State) (e : SubEntry) (bs : List Byte) : (bufOut s e bs).reportPend = s.reportPend := by
  obtain ⟨_, e⟩ := bufOut_frame s e bs; rw [e]
@[simp] theorem bufOut_reportRaw (s : State) (e : SubEntry) (bs : List Byte) : (bufOut s e bs).reportRaw = s.reportRaw := by
  obtain ⟨_, e⟩ := bufOut_frame s e bs; rw [e]
@[simp] theorem bufOut_plans (s : State) (e : SubEntry) (bs : List Byte) : (bufOut s e bs).plans = s.plans := by
  obtain ⟨_, e⟩ := bufOut_frame s e bs; rw [e]
@[simp] theorem bufOut_units (s : State) (e : SubEntry) (bs : List Byte) : (bufOut s e bs).units = s.units := by
  obtain ⟨_, e⟩ := bufOut_frame s e bs; rw [e]
@[simp] theorem bufOut_flights (s : State) (e : SubEntry) (bs : List Byte) : (bufOut s e bs).flights = s.flights := by
  obtain ⟨_, e⟩ := bufOut_frame s e bs; rw [e]
@[simp] theorem bufOut_clu (s : State) (e : SubEntry) (bs : List Byte) : (bufOut s e bs).clu = s.clu := by
  obtain ⟨_, e⟩ := bufOut_frame s e bs; rw [e]
@[simp] theorem bufOut_nle (s : State) (e : SubEntry) (bs : List Byte) : (bufOut s e bs).nle = s.nle := by
  obtain ⟨_, e⟩ := bufOut_frame s e bs; rw [e]
@[simp] theorem bufOut_mem (s : State) (e : SubEntry) (bs : List Byte) : (bufOut s e bs).mem = s.mem := by
  obtain ⟨_, e⟩ := bufOut_frame s e bs; rw [e]
@[simp] theorem bufOut_side (s : State) (e : SubEntry) (bs : List Byte) : (bufOut s e bs).side = s.side := by
  obtain ⟨_, e⟩ := bufOut_frame s e bs; rw [e]
@[simp] theorem bufOut_tags (s : State) (e : SubEntry) (bs : List Byte) : (bufOut s e bs).tags = s.tags := by
  obtain ⟨_, e⟩ := bufOut_frame s e bs; rw [e]
@[simp] theorem bufOut_tagPend (s : State) (e : SubEntry) (bs : List Byte) : (bufOut s e bs).tagPend = s.tagPend := by
  obtain ⟨_, e⟩ := bufOut_frame s e bs; rw [e]
@[simp] theorem bufOut_tagUse (s : State) (e : SubEntry) (bs : List Byte) : (bufOut s e bs).tagUse = s.tagUse := by
  obtain ⟨_, e⟩ := bufOut_frame s e bs; rw [e]
@[simp] theorem bufOut_seqs (s : State) (e : SubEntry) (bs : List Byte) : (bufOut s e bs).seqs = s.seqs := by
  obtain ⟨_, e⟩ := bufOut_frame s e bs; rw [e]
@[simp] theorem bufOut_regions (s : State) (e : SubEntry) (bs : List Byte) : (bufOut s e bs).regions = s.regions := by
  obtain ⟨_, e⟩ := bufOut_frame s e bs; rw [e]
@[simp] theorem bufOut_fines (s : State) (e : SubEntry) (bs : List Byte) : (bufOut s e bs).fines = s.fines := by
  obtain ⟨_, e⟩ := bufOut_frame s e bs; rw [e]
@[simp] theorem bufOut_cvu (s : State) (e : SubEntry) (bs : List Byte) : (bufOut s e bs).cvu = s.cvu := by
  obtain ⟨_, e⟩ := bufOut_frame s e bs; rw [e]
@[simp] theorem bufOut_stc (s : State) (e : SubEntry) (bs : List Byte) : (bufOut s e bs).stc = s.stc := by
  obtain ⟨_, e⟩ := bufOut_frame s e bs; rw [e]
@[simp] theorem bufOut_streams (s : State) (e : SubEntry) (bs : List Byte) : (bufOut s e bs).streams = s.streams := by
  obtain ⟨_, e⟩ := bufOut_frame s e bs; rw [e]
@[simp] theorem bufOut_fus (s : State) (e : SubEntry) (bs : List Byte) : (bufOut s e bs).fus = s.fus := by
  obtain ⟨_, e⟩ := bufOut_frame s e bs; rw [e]
@[simp] theorem bufOut_pln (s : State) (e : SubEntry) (bs : List Byte) : (bufOut s e bs).pln = s.pln := by
  obtain ⟨_, e⟩ := bufOut_frame s e bs; rw [e]
@[simp] theorem bufOut_ident (s : State) (e : SubEntry) (bs : List Byte) : (bufOut s e bs).ident = s.ident := by
  obtain ⟨_, e⟩ := bufOut_frame s e bs; rw [e]
@[simp] theorem bufOut_rgl (s : State) (e : SubEntry) (bs : List Byte) : (bufOut s e bs).rgl = s.rgl := by
  obtain ⟨_, e⟩ := bufOut_frame s e bs; rw [e]
@[simp] theorem bufOut_ports (s : State) (e : SubEntry) (bs : List Byte) : (bufOut s e bs).ports = s.ports := by
  obtain ⟨_, e⟩ := bufOut_frame s e bs; rw [e]
@[simp] theorem bufOut_swIn (s : State) (e : SubEntry) (bs : List Byte) : (bufOut s e bs).swIn = s.swIn := by
  obtain ⟨_, e⟩ := bufOut_frame s e bs; rw [e]
@[simp] theorem bufOut_swOut (s : State) (e : SubEntry) (bs : List Byte) : (bufOut s e bs).swOut = s.swOut := by
  obtain ⟨_, e⟩ := bufOut_frame s e bs; rw [e]
@[simp] theorem bufOut_swWait (s : State) (e : SubEntry) (bs : List Byte) : (bufOut s e bs).swWait = s.swWait := by
  obtain ⟨_, e⟩ := bufOut_frame s e bs; rw [e]
@[simp] theorem bufOut_swTurn (s : State) (e : SubEntry) (bs : List Byte) : (bufOut s e bs).swTurn = s.swTurn := by
  obtain ⟨_, e⟩ := bufOut_frame s e bs; rw [e]
@[simp] theorem bufOut_islA (s : State) (e : SubEntry) (bs : List Byte) : (bufOut s e bs).islA = s.islA := by
  obtain ⟨_, e⟩ := bufOut_frame s e bs; rw [e]
@[simp] theorem bufOut_islB (s : State) (e : SubEntry) (bs : List Byte) : (bufOut s e bs).islB = s.islB := by
  obtain ⟨_, e⟩ := bufOut_frame s e bs; rw [e]
@[simp] theorem bufOut_vg (s : State) (e : SubEntry) (bs : List Byte) : (bufOut s e bs).vg = s.vg := by
  obtain ⟨_, e⟩ := bufOut_frame s e bs; rw [e]
@[simp] theorem bufOut_twinNotes (s : State) (e : SubEntry) (bs : List Byte) : (bufOut s e bs).twinNotes = s.twinNotes := by
  obtain ⟨_, e⟩ := bufOut_frame s e bs; rw [e]
@[simp] theorem bufOut_health (s : State) (e : SubEntry) (bs : List Byte) : (bufOut s e bs).health = s.health := by
  obtain ⟨_, e⟩ := bufOut_frame s e bs; rw [e]
@[simp] theorem bufOut_hltQ (s : State) (e : SubEntry) (bs : List Byte) : (bufOut s e bs).hltQ = s.hltQ := by
  obtain ⟨_, e⟩ := bufOut_frame s e bs; rw [e]
@[simp] theorem bufOut_hEvents (s : State) (e : SubEntry) (bs : List Byte) : (bufOut s e bs).hEvents = s.hEvents := by
  obtain ⟨_, e⟩ := bufOut_frame s e bs; rw [e]
@[simp] theorem bufOut_hRecent (s : State) (e : SubEntry) (bs : List Byte) : (bufOut s e bs).hRecent = s.hRecent := by
  obtain ⟨_, e⟩ := bufOut_frame s e bs; rw [e]
@[simp] theorem bufOut_engDisp (s : State) (e : SubEntry) (bs : List Byte) : (bufOut s e bs).engDisp = s.engDisp := by
  obtain ⟨_, e⟩ := bufOut_frame s e bs; rw [e]
@[simp] theorem bufOut_repairs (s : State) (e : SubEntry) (bs : List Byte) : (bufOut s e bs).repairs = s.repairs := by
  obtain ⟨_, e⟩ := bufOut_frame s e bs; rw [e]
@[simp] theorem bufOut_tileFails (s : State) (e : SubEntry) (bs : List Byte) : (bufOut s e bs).tileFails = s.tileFails := by
  obtain ⟨_, e⟩ := bufOut_frame s e bs; rw [e]
@[simp] theorem bufOut_hbJudged (s : State) (e : SubEntry) (bs : List Byte) : (bufOut s e bs).hbJudged = s.hbJudged := by
  obtain ⟨_, e⟩ := bufOut_frame s e bs; rw [e]
@[simp] theorem bufOut_quarantines (s : State) (e : SubEntry) (bs : List Byte) : (bufOut s e bs).quarantines = s.quarantines := by
  obtain ⟨_, e⟩ := bufOut_frame s e bs; rw [e]
@[simp] theorem bufOut_hards (s : State) (e : SubEntry) (bs : List Byte) : (bufOut s e bs).hards = s.hards := by
  obtain ⟨_, e⟩ := bufOut_frame s e bs; rw [e]
@[simp] theorem bufOut_commons (s : State) (e : SubEntry) (bs : List Byte) : (bufOut s e bs).commons = s.commons := by
  obtain ⟨_, e⟩ := bufOut_frame s e bs; rw [e]
@[simp] theorem bufOut_suspects (s : State) (e : SubEntry) (bs : List Byte) : (bufOut s e bs).suspects = s.suspects := by
  obtain ⟨_, e⟩ := bufOut_frame s e bs; rw [e]
@[simp] theorem bufOut_moved (s : State) (e : SubEntry) (bs : List Byte) : (bufOut s e bs).moved = s.moved := by
  obtain ⟨_, e⟩ := bufOut_frame s e bs; rw [e]
@[simp] theorem bufOut_exclDone (s : State) (e : SubEntry) (bs : List Byte) : (bufOut s e bs).exclDone = s.exclDone := by
  obtain ⟨_, e⟩ := bufOut_frame s e bs; rw [e]
@[simp] theorem bufOut_st (s : State) (e : SubEntry) (bs : List Byte) : (bufOut s e bs).st = s.st := by
  obtain ⟨_, e⟩ := bufOut_frame s e bs; rw [e]
@[simp] theorem bufOut_alm (s : State) (e : SubEntry) (bs : List Byte) : (bufOut s e bs).alm = s.alm := by
  obtain ⟨_, e⟩ := bufOut_frame s e bs; rw [e]
@[simp] theorem bufOut_host (s : State) (e : SubEntry) (bs : List Byte) : (bufOut s e bs).host = s.host := by
  obtain ⟨_, e⟩ := bufOut_frame s e bs; rw [e]
@[simp] theorem bufOut_flash (s : State) (e : SubEntry) (bs : List Byte) : (bufOut s e bs).flash = s.flash := by
  obtain ⟨_, e⟩ := bufOut_frame s e bs; rw [e]
@[simp] theorem bufOut_season (s : State) (e : SubEntry) (bs : List Byte) : (bufOut s e bs).season = s.season := by
  obtain ⟨_, e⟩ := bufOut_frame s e bs; rw [e]
@[simp] theorem bufOut_upd (s : State) (e : SubEntry) (bs : List Byte) : (bufOut s e bs).upd = s.upd := by
  obtain ⟨_, e⟩ := bufOut_frame s e bs; rw [e]
@[simp] theorem bufOut_pm (s : State) (e : SubEntry) (bs : List Byte) : (bufOut s e bs).pm = s.pm := by
  obtain ⟨_, e⟩ := bufOut_frame s e bs; rw [e]
@[simp] theorem bufOut_links (s : State) (e : SubEntry) (bs : List Byte) : (bufOut s e bs).links = s.links := by
  obtain ⟨_, e⟩ := bufOut_frame s e bs; rw [e]
@[simp] theorem bufOut_time (s : State) (e : SubEntry) (bs : List Byte) : (bufOut s e bs).time = s.time := by
  obtain ⟨_, e⟩ := bufOut_frame s e bs; rw [e]

/-! ## expertRefuse -/

/-- `expertRefuse` changes nothing but host, alm. -/
theorem expertRefuse_frame (s : State) (o : Nat) :
    ∃ x0 x1, expertRefuse s o = { s with host := x0, alm := x1 } := by
  obtain ⟨a, h, e⟩ := alm_frame { s with host := { s.host with refused := sat 0xFFFFFFFF (s.host.refused + 1) } } 0x0000 .expert 2 [0, o]
  exact ⟨h, a, by unfold expertRefuse; rw [e]⟩
@[simp] theorem expertRefuse_pending (s : State) (o : Nat) : (expertRefuse s o).pending = s.pending := by
  obtain ⟨_, _, e⟩ := expertRefuse_frame s o; rw [e]
@[simp] theorem expertRefuse_now (s : State) (o : Nat) : (expertRefuse s o).now = s.now := by
  obtain ⟨_, _, e⟩ := expertRefuse_frame s o; rw [e]
@[simp] theorem expertRefuse_fresh (s : State) (o : Nat) : (expertRefuse s o).fresh = s.fresh := by
  obtain ⟨_, _, e⟩ := expertRefuse_frame s o; rw [e]
@[simp] theorem expertRefuse_inReset (s : State) (o : Nat) : (expertRefuse s o).inReset = s.inReset := by
  obtain ⟨_, _, e⟩ := expertRefuse_frame s o; rw [e]
@[simp] theorem expertRefuse_railsLow (s : State) (o : Nat) : (expertRefuse s o).railsLow = s.railsLow := by
  obtain ⟨_, _, e⟩ := expertRefuse_frame s o; rw [e]
@[simp] theorem expertRefuse_boot0 (s : State) (o : Nat) : (expertRefuse s o).boot0 = s.boot0 := by
  obtain ⟨_, _, e⟩ := expertRefuse_frame s o; rw [e]
@[simp] theorem expertRefuse_cal (s : State) (o : Nat) : (expertRefuse s o).cal = s.cal := by
  obtain ⟨_, _, e⟩ := expertRefuse_frame s o; rw [e]
@[simp] theorem expertRefuse_trig (s : State) (o : Nat) : (expertRefuse s o).trig = s.trig := by
  obtain ⟨_, _, e⟩ := expertRefuse_frame s o; rw [e]
@[simp] theorem expertRefuse_stats (s : State) (o : Nat) : (expertRefuse s o).stats = s.stats := by
  obtain ⟨_, _, e⟩ := expertRefuse_frame s o; rw [e]
@[simp] theorem expertRefuse_reportPend (s : State) (o : Nat) : (expertRefuse s o).reportPend = s.reportPend := by
  obtain ⟨_, _, e⟩ := expertRefuse_frame s o; rw [e]
@[simp] theorem expertRefuse_reportRaw (s : State) (o : Nat) : (expertRefuse s o).reportRaw = s.reportRaw := by
  obtain ⟨_, _, e⟩ := expertRefuse_frame s o; rw [e]
@[simp] theorem expertRefuse_plans (s : State) (o : Nat) : (expertRefuse s o).plans = s.plans := by
  obtain ⟨_, _, e⟩ := expertRefuse_frame s o; rw [e]
@[simp] theorem expertRefuse_units (s : State) (o : Nat) : (expertRefuse s o).units = s.units := by
  obtain ⟨_, _, e⟩ := expertRefuse_frame s o; rw [e]
@[simp] theorem expertRefuse_flights (s : State) (o : Nat) : (expertRefuse s o).flights = s.flights := by
  obtain ⟨_, _, e⟩ := expertRefuse_frame s o; rw [e]
@[simp] theorem expertRefuse_clu (s : State) (o : Nat) : (expertRefuse s o).clu = s.clu := by
  obtain ⟨_, _, e⟩ := expertRefuse_frame s o; rw [e]
@[simp] theorem expertRefuse_nle (s : State) (o : Nat) : (expertRefuse s o).nle = s.nle := by
  obtain ⟨_, _, e⟩ := expertRefuse_frame s o; rw [e]
@[simp] theorem expertRefuse_mem (s : State) (o : Nat) : (expertRefuse s o).mem = s.mem := by
  obtain ⟨_, _, e⟩ := expertRefuse_frame s o; rw [e]
@[simp] theorem expertRefuse_side (s : State) (o : Nat) : (expertRefuse s o).side = s.side := by
  obtain ⟨_, _, e⟩ := expertRefuse_frame s o; rw [e]
@[simp] theorem expertRefuse_tags (s : State) (o : Nat) : (expertRefuse s o).tags = s.tags := by
  obtain ⟨_, _, e⟩ := expertRefuse_frame s o; rw [e]
@[simp] theorem expertRefuse_tagPend (s : State) (o : Nat) : (expertRefuse s o).tagPend = s.tagPend := by
  obtain ⟨_, _, e⟩ := expertRefuse_frame s o; rw [e]
@[simp] theorem expertRefuse_tagUse (s : State) (o : Nat) : (expertRefuse s o).tagUse = s.tagUse := by
  obtain ⟨_, _, e⟩ := expertRefuse_frame s o; rw [e]
@[simp] theorem expertRefuse_seqs (s : State) (o : Nat) : (expertRefuse s o).seqs = s.seqs := by
  obtain ⟨_, _, e⟩ := expertRefuse_frame s o; rw [e]
@[simp] theorem expertRefuse_regions (s : State) (o : Nat) : (expertRefuse s o).regions = s.regions := by
  obtain ⟨_, _, e⟩ := expertRefuse_frame s o; rw [e]
@[simp] theorem expertRefuse_fines (s : State) (o : Nat) : (expertRefuse s o).fines = s.fines := by
  obtain ⟨_, _, e⟩ := expertRefuse_frame s o; rw [e]
@[simp] theorem expertRefuse_cvu (s : State) (o : Nat) : (expertRefuse s o).cvu = s.cvu := by
  obtain ⟨_, _, e⟩ := expertRefuse_frame s o; rw [e]
@[simp] theorem expertRefuse_stc (s : State) (o : Nat) : (expertRefuse s o).stc = s.stc := by
  obtain ⟨_, _, e⟩ := expertRefuse_frame s o; rw [e]
@[simp] theorem expertRefuse_streams (s : State) (o : Nat) : (expertRefuse s o).streams = s.streams := by
  obtain ⟨_, _, e⟩ := expertRefuse_frame s o; rw [e]
@[simp] theorem expertRefuse_fus (s : State) (o : Nat) : (expertRefuse s o).fus = s.fus := by
  obtain ⟨_, _, e⟩ := expertRefuse_frame s o; rw [e]
@[simp] theorem expertRefuse_pln (s : State) (o : Nat) : (expertRefuse s o).pln = s.pln := by
  obtain ⟨_, _, e⟩ := expertRefuse_frame s o; rw [e]
@[simp] theorem expertRefuse_ident (s : State) (o : Nat) : (expertRefuse s o).ident = s.ident := by
  obtain ⟨_, _, e⟩ := expertRefuse_frame s o; rw [e]
@[simp] theorem expertRefuse_rgl (s : State) (o : Nat) : (expertRefuse s o).rgl = s.rgl := by
  obtain ⟨_, _, e⟩ := expertRefuse_frame s o; rw [e]
@[simp] theorem expertRefuse_ports (s : State) (o : Nat) : (expertRefuse s o).ports = s.ports := by
  obtain ⟨_, _, e⟩ := expertRefuse_frame s o; rw [e]
@[simp] theorem expertRefuse_swIn (s : State) (o : Nat) : (expertRefuse s o).swIn = s.swIn := by
  obtain ⟨_, _, e⟩ := expertRefuse_frame s o; rw [e]
@[simp] theorem expertRefuse_swOut (s : State) (o : Nat) : (expertRefuse s o).swOut = s.swOut := by
  obtain ⟨_, _, e⟩ := expertRefuse_frame s o; rw [e]
@[simp] theorem expertRefuse_swWait (s : State) (o : Nat) : (expertRefuse s o).swWait = s.swWait := by
  obtain ⟨_, _, e⟩ := expertRefuse_frame s o; rw [e]
@[simp] theorem expertRefuse_swTurn (s : State) (o : Nat) : (expertRefuse s o).swTurn = s.swTurn := by
  obtain ⟨_, _, e⟩ := expertRefuse_frame s o; rw [e]
@[simp] theorem expertRefuse_islA (s : State) (o : Nat) : (expertRefuse s o).islA = s.islA := by
  obtain ⟨_, _, e⟩ := expertRefuse_frame s o; rw [e]
@[simp] theorem expertRefuse_islB (s : State) (o : Nat) : (expertRefuse s o).islB = s.islB := by
  obtain ⟨_, _, e⟩ := expertRefuse_frame s o; rw [e]
@[simp] theorem expertRefuse_vg (s : State) (o : Nat) : (expertRefuse s o).vg = s.vg := by
  obtain ⟨_, _, e⟩ := expertRefuse_frame s o; rw [e]
@[simp] theorem expertRefuse_twinNotes (s : State) (o : Nat) : (expertRefuse s o).twinNotes = s.twinNotes := by
  obtain ⟨_, _, e⟩ := expertRefuse_frame s o; rw [e]
@[simp] theorem expertRefuse_health (s : State) (o : Nat) : (expertRefuse s o).health = s.health := by
  obtain ⟨_, _, e⟩ := expertRefuse_frame s o; rw [e]
@[simp] theorem expertRefuse_hltQ (s : State) (o : Nat) : (expertRefuse s o).hltQ = s.hltQ := by
  obtain ⟨_, _, e⟩ := expertRefuse_frame s o; rw [e]
@[simp] theorem expertRefuse_hEvents (s : State) (o : Nat) : (expertRefuse s o).hEvents = s.hEvents := by
  obtain ⟨_, _, e⟩ := expertRefuse_frame s o; rw [e]
@[simp] theorem expertRefuse_hRecent (s : State) (o : Nat) : (expertRefuse s o).hRecent = s.hRecent := by
  obtain ⟨_, _, e⟩ := expertRefuse_frame s o; rw [e]
@[simp] theorem expertRefuse_engDisp (s : State) (o : Nat) : (expertRefuse s o).engDisp = s.engDisp := by
  obtain ⟨_, _, e⟩ := expertRefuse_frame s o; rw [e]
@[simp] theorem expertRefuse_repairs (s : State) (o : Nat) : (expertRefuse s o).repairs = s.repairs := by
  obtain ⟨_, _, e⟩ := expertRefuse_frame s o; rw [e]
@[simp] theorem expertRefuse_tileFails (s : State) (o : Nat) : (expertRefuse s o).tileFails = s.tileFails := by
  obtain ⟨_, _, e⟩ := expertRefuse_frame s o; rw [e]
@[simp] theorem expertRefuse_hbJudged (s : State) (o : Nat) : (expertRefuse s o).hbJudged = s.hbJudged := by
  obtain ⟨_, _, e⟩ := expertRefuse_frame s o; rw [e]
@[simp] theorem expertRefuse_quarantines (s : State) (o : Nat) : (expertRefuse s o).quarantines = s.quarantines := by
  obtain ⟨_, _, e⟩ := expertRefuse_frame s o; rw [e]
@[simp] theorem expertRefuse_hards (s : State) (o : Nat) : (expertRefuse s o).hards = s.hards := by
  obtain ⟨_, _, e⟩ := expertRefuse_frame s o; rw [e]
@[simp] theorem expertRefuse_commons (s : State) (o : Nat) : (expertRefuse s o).commons = s.commons := by
  obtain ⟨_, _, e⟩ := expertRefuse_frame s o; rw [e]
@[simp] theorem expertRefuse_suspects (s : State) (o : Nat) : (expertRefuse s o).suspects = s.suspects := by
  obtain ⟨_, _, e⟩ := expertRefuse_frame s o; rw [e]
@[simp] theorem expertRefuse_moved (s : State) (o : Nat) : (expertRefuse s o).moved = s.moved := by
  obtain ⟨_, _, e⟩ := expertRefuse_frame s o; rw [e]
@[simp] theorem expertRefuse_exclDone (s : State) (o : Nat) : (expertRefuse s o).exclDone = s.exclDone := by
  obtain ⟨_, _, e⟩ := expertRefuse_frame s o; rw [e]
@[simp] theorem expertRefuse_st (s : State) (o : Nat) : (expertRefuse s o).st = s.st := by
  obtain ⟨_, _, e⟩ := expertRefuse_frame s o; rw [e]
@[simp] theorem expertRefuse_hostMem (s : State) (o : Nat) : (expertRefuse s o).hostMem = s.hostMem := by
  obtain ⟨_, _, e⟩ := expertRefuse_frame s o; rw [e]
@[simp] theorem expertRefuse_flash (s : State) (o : Nat) : (expertRefuse s o).flash = s.flash := by
  obtain ⟨_, _, e⟩ := expertRefuse_frame s o; rw [e]
@[simp] theorem expertRefuse_season (s : State) (o : Nat) : (expertRefuse s o).season = s.season := by
  obtain ⟨_, _, e⟩ := expertRefuse_frame s o; rw [e]
@[simp] theorem expertRefuse_upd (s : State) (o : Nat) : (expertRefuse s o).upd = s.upd := by
  obtain ⟨_, _, e⟩ := expertRefuse_frame s o; rw [e]
@[simp] theorem expertRefuse_pm (s : State) (o : Nat) : (expertRefuse s o).pm = s.pm := by
  obtain ⟨_, _, e⟩ := expertRefuse_frame s o; rw [e]
@[simp] theorem expertRefuse_links (s : State) (o : Nat) : (expertRefuse s o).links = s.links := by
  obtain ⟨_, _, e⟩ := expertRefuse_frame s o; rw [e]
@[simp] theorem expertRefuse_time (s : State) (o : Nat) : (expertRefuse s o).time = s.time := by
  obtain ⟨_, _, e⟩ := expertRefuse_frame s o; rw [e]

/-! ## countBytes -/

/-- `countBytes` changes nothing but stc, swIn, swOut. -/
theorem countBytes_frame (s : State) (port cls a n : Nat) (w : Bool) :
    ∃ x0 x1 x2, countBytes s port cls a n w = { s with stc := x0, swIn := x1, swOut := x2 } := by
  unfold countBytes
  split
  · dsimp only; unfold crossSwitch; split
    · exact ⟨_, _, _, rfl⟩
    · split <;> exact ⟨_, _, _, rfl⟩
  · unfold crossSwitch; split <;> exact ⟨_, _, _, rfl⟩
  · dsimp only; unfold crossSwitch; split
    · exact ⟨_, _, _, rfl⟩
    · split <;> exact ⟨_, _, _, rfl⟩
  · exact ⟨_, _, _, rfl⟩
@[simp] theorem countBytes_pending (s : State) (port cls a n : Nat) (w : Bool) : (countBytes s port cls a n w).pending = s.pending := by
  obtain ⟨_, _, _, e⟩ := countBytes_frame s port cls a n w; rw [e]
@[simp] theorem countBytes_now (s : State) (port cls a n : Nat) (w : Bool) : (countBytes s port cls a n w).now = s.now := by
  obtain ⟨_, _, _, e⟩ := countBytes_frame s port cls a n w; rw [e]
@[simp] theorem countBytes_fresh (s : State) (port cls a n : Nat) (w : Bool) : (countBytes s port cls a n w).fresh = s.fresh := by
  obtain ⟨_, _, _, e⟩ := countBytes_frame s port cls a n w; rw [e]
@[simp] theorem countBytes_inReset (s : State) (port cls a n : Nat) (w : Bool) : (countBytes s port cls a n w).inReset = s.inReset := by
  obtain ⟨_, _, _, e⟩ := countBytes_frame s port cls a n w; rw [e]
@[simp] theorem countBytes_railsLow (s : State) (port cls a n : Nat) (w : Bool) : (countBytes s port cls a n w).railsLow = s.railsLow := by
  obtain ⟨_, _, _, e⟩ := countBytes_frame s port cls a n w; rw [e]
@[simp] theorem countBytes_boot0 (s : State) (port cls a n : Nat) (w : Bool) : (countBytes s port cls a n w).boot0 = s.boot0 := by
  obtain ⟨_, _, _, e⟩ := countBytes_frame s port cls a n w; rw [e]
@[simp] theorem countBytes_cal (s : State) (port cls a n : Nat) (w : Bool) : (countBytes s port cls a n w).cal = s.cal := by
  obtain ⟨_, _, _, e⟩ := countBytes_frame s port cls a n w; rw [e]
@[simp] theorem countBytes_trig (s : State) (port cls a n : Nat) (w : Bool) : (countBytes s port cls a n w).trig = s.trig := by
  obtain ⟨_, _, _, e⟩ := countBytes_frame s port cls a n w; rw [e]
@[simp] theorem countBytes_stats (s : State) (port cls a n : Nat) (w : Bool) : (countBytes s port cls a n w).stats = s.stats := by
  obtain ⟨_, _, _, e⟩ := countBytes_frame s port cls a n w; rw [e]
@[simp] theorem countBytes_reportPend (s : State) (port cls a n : Nat) (w : Bool) : (countBytes s port cls a n w).reportPend = s.reportPend := by
  obtain ⟨_, _, _, e⟩ := countBytes_frame s port cls a n w; rw [e]
@[simp] theorem countBytes_reportRaw (s : State) (port cls a n : Nat) (w : Bool) : (countBytes s port cls a n w).reportRaw = s.reportRaw := by
  obtain ⟨_, _, _, e⟩ := countBytes_frame s port cls a n w; rw [e]
@[simp] theorem countBytes_plans (s : State) (port cls a n : Nat) (w : Bool) : (countBytes s port cls a n w).plans = s.plans := by
  obtain ⟨_, _, _, e⟩ := countBytes_frame s port cls a n w; rw [e]
@[simp] theorem countBytes_units (s : State) (port cls a n : Nat) (w : Bool) : (countBytes s port cls a n w).units = s.units := by
  obtain ⟨_, _, _, e⟩ := countBytes_frame s port cls a n w; rw [e]
@[simp] theorem countBytes_flights (s : State) (port cls a n : Nat) (w : Bool) : (countBytes s port cls a n w).flights = s.flights := by
  obtain ⟨_, _, _, e⟩ := countBytes_frame s port cls a n w; rw [e]
@[simp] theorem countBytes_clu (s : State) (port cls a n : Nat) (w : Bool) : (countBytes s port cls a n w).clu = s.clu := by
  obtain ⟨_, _, _, e⟩ := countBytes_frame s port cls a n w; rw [e]
@[simp] theorem countBytes_nle (s : State) (port cls a n : Nat) (w : Bool) : (countBytes s port cls a n w).nle = s.nle := by
  obtain ⟨_, _, _, e⟩ := countBytes_frame s port cls a n w; rw [e]
@[simp] theorem countBytes_mem (s : State) (port cls a n : Nat) (w : Bool) : (countBytes s port cls a n w).mem = s.mem := by
  obtain ⟨_, _, _, e⟩ := countBytes_frame s port cls a n w; rw [e]
@[simp] theorem countBytes_side (s : State) (port cls a n : Nat) (w : Bool) : (countBytes s port cls a n w).side = s.side := by
  obtain ⟨_, _, _, e⟩ := countBytes_frame s port cls a n w; rw [e]
@[simp] theorem countBytes_tags (s : State) (port cls a n : Nat) (w : Bool) : (countBytes s port cls a n w).tags = s.tags := by
  obtain ⟨_, _, _, e⟩ := countBytes_frame s port cls a n w; rw [e]
@[simp] theorem countBytes_tagPend (s : State) (port cls a n : Nat) (w : Bool) : (countBytes s port cls a n w).tagPend = s.tagPend := by
  obtain ⟨_, _, _, e⟩ := countBytes_frame s port cls a n w; rw [e]
@[simp] theorem countBytes_tagUse (s : State) (port cls a n : Nat) (w : Bool) : (countBytes s port cls a n w).tagUse = s.tagUse := by
  obtain ⟨_, _, _, e⟩ := countBytes_frame s port cls a n w; rw [e]
@[simp] theorem countBytes_seqs (s : State) (port cls a n : Nat) (w : Bool) : (countBytes s port cls a n w).seqs = s.seqs := by
  obtain ⟨_, _, _, e⟩ := countBytes_frame s port cls a n w; rw [e]
@[simp] theorem countBytes_regions (s : State) (port cls a n : Nat) (w : Bool) : (countBytes s port cls a n w).regions = s.regions := by
  obtain ⟨_, _, _, e⟩ := countBytes_frame s port cls a n w; rw [e]
@[simp] theorem countBytes_fines (s : State) (port cls a n : Nat) (w : Bool) : (countBytes s port cls a n w).fines = s.fines := by
  obtain ⟨_, _, _, e⟩ := countBytes_frame s port cls a n w; rw [e]
@[simp] theorem countBytes_cvu (s : State) (port cls a n : Nat) (w : Bool) : (countBytes s port cls a n w).cvu = s.cvu := by
  obtain ⟨_, _, _, e⟩ := countBytes_frame s port cls a n w; rw [e]
@[simp] theorem countBytes_streams (s : State) (port cls a n : Nat) (w : Bool) : (countBytes s port cls a n w).streams = s.streams := by
  obtain ⟨_, _, _, e⟩ := countBytes_frame s port cls a n w; rw [e]
@[simp] theorem countBytes_fus (s : State) (port cls a n : Nat) (w : Bool) : (countBytes s port cls a n w).fus = s.fus := by
  obtain ⟨_, _, _, e⟩ := countBytes_frame s port cls a n w; rw [e]
@[simp] theorem countBytes_pln (s : State) (port cls a n : Nat) (w : Bool) : (countBytes s port cls a n w).pln = s.pln := by
  obtain ⟨_, _, _, e⟩ := countBytes_frame s port cls a n w; rw [e]
@[simp] theorem countBytes_ident (s : State) (port cls a n : Nat) (w : Bool) : (countBytes s port cls a n w).ident = s.ident := by
  obtain ⟨_, _, _, e⟩ := countBytes_frame s port cls a n w; rw [e]
@[simp] theorem countBytes_rgl (s : State) (port cls a n : Nat) (w : Bool) : (countBytes s port cls a n w).rgl = s.rgl := by
  obtain ⟨_, _, _, e⟩ := countBytes_frame s port cls a n w; rw [e]
@[simp] theorem countBytes_ports (s : State) (port cls a n : Nat) (w : Bool) : (countBytes s port cls a n w).ports = s.ports := by
  obtain ⟨_, _, _, e⟩ := countBytes_frame s port cls a n w; rw [e]
@[simp] theorem countBytes_swWait (s : State) (port cls a n : Nat) (w : Bool) : (countBytes s port cls a n w).swWait = s.swWait := by
  obtain ⟨_, _, _, e⟩ := countBytes_frame s port cls a n w; rw [e]
@[simp] theorem countBytes_swTurn (s : State) (port cls a n : Nat) (w : Bool) : (countBytes s port cls a n w).swTurn = s.swTurn := by
  obtain ⟨_, _, _, e⟩ := countBytes_frame s port cls a n w; rw [e]
@[simp] theorem countBytes_islA (s : State) (port cls a n : Nat) (w : Bool) : (countBytes s port cls a n w).islA = s.islA := by
  obtain ⟨_, _, _, e⟩ := countBytes_frame s port cls a n w; rw [e]
@[simp] theorem countBytes_islB (s : State) (port cls a n : Nat) (w : Bool) : (countBytes s port cls a n w).islB = s.islB := by
  obtain ⟨_, _, _, e⟩ := countBytes_frame s port cls a n w; rw [e]
@[simp] theorem countBytes_vg (s : State) (port cls a n : Nat) (w : Bool) : (countBytes s port cls a n w).vg = s.vg := by
  obtain ⟨_, _, _, e⟩ := countBytes_frame s port cls a n w; rw [e]
@[simp] theorem countBytes_twinNotes (s : State) (port cls a n : Nat) (w : Bool) : (countBytes s port cls a n w).twinNotes = s.twinNotes := by
  obtain ⟨_, _, _, e⟩ := countBytes_frame s port cls a n w; rw [e]
@[simp] theorem countBytes_health (s : State) (port cls a n : Nat) (w : Bool) : (countBytes s port cls a n w).health = s.health := by
  obtain ⟨_, _, _, e⟩ := countBytes_frame s port cls a n w; rw [e]
@[simp] theorem countBytes_hltQ (s : State) (port cls a n : Nat) (w : Bool) : (countBytes s port cls a n w).hltQ = s.hltQ := by
  obtain ⟨_, _, _, e⟩ := countBytes_frame s port cls a n w; rw [e]
@[simp] theorem countBytes_hEvents (s : State) (port cls a n : Nat) (w : Bool) : (countBytes s port cls a n w).hEvents = s.hEvents := by
  obtain ⟨_, _, _, e⟩ := countBytes_frame s port cls a n w; rw [e]
@[simp] theorem countBytes_hRecent (s : State) (port cls a n : Nat) (w : Bool) : (countBytes s port cls a n w).hRecent = s.hRecent := by
  obtain ⟨_, _, _, e⟩ := countBytes_frame s port cls a n w; rw [e]
@[simp] theorem countBytes_engDisp (s : State) (port cls a n : Nat) (w : Bool) : (countBytes s port cls a n w).engDisp = s.engDisp := by
  obtain ⟨_, _, _, e⟩ := countBytes_frame s port cls a n w; rw [e]
@[simp] theorem countBytes_repairs (s : State) (port cls a n : Nat) (w : Bool) : (countBytes s port cls a n w).repairs = s.repairs := by
  obtain ⟨_, _, _, e⟩ := countBytes_frame s port cls a n w; rw [e]
@[simp] theorem countBytes_tileFails (s : State) (port cls a n : Nat) (w : Bool) : (countBytes s port cls a n w).tileFails = s.tileFails := by
  obtain ⟨_, _, _, e⟩ := countBytes_frame s port cls a n w; rw [e]
@[simp] theorem countBytes_hbJudged (s : State) (port cls a n : Nat) (w : Bool) : (countBytes s port cls a n w).hbJudged = s.hbJudged := by
  obtain ⟨_, _, _, e⟩ := countBytes_frame s port cls a n w; rw [e]
@[simp] theorem countBytes_quarantines (s : State) (port cls a n : Nat) (w : Bool) : (countBytes s port cls a n w).quarantines = s.quarantines := by
  obtain ⟨_, _, _, e⟩ := countBytes_frame s port cls a n w; rw [e]
@[simp] theorem countBytes_hards (s : State) (port cls a n : Nat) (w : Bool) : (countBytes s port cls a n w).hards = s.hards := by
  obtain ⟨_, _, _, e⟩ := countBytes_frame s port cls a n w; rw [e]
@[simp] theorem countBytes_commons (s : State) (port cls a n : Nat) (w : Bool) : (countBytes s port cls a n w).commons = s.commons := by
  obtain ⟨_, _, _, e⟩ := countBytes_frame s port cls a n w; rw [e]
@[simp] theorem countBytes_suspects (s : State) (port cls a n : Nat) (w : Bool) : (countBytes s port cls a n w).suspects = s.suspects := by
  obtain ⟨_, _, _, e⟩ := countBytes_frame s port cls a n w; rw [e]
@[simp] theorem countBytes_moved (s : State) (port cls a n : Nat) (w : Bool) : (countBytes s port cls a n w).moved = s.moved := by
  obtain ⟨_, _, _, e⟩ := countBytes_frame s port cls a n w; rw [e]
@[simp] theorem countBytes_exclDone (s : State) (port cls a n : Nat) (w : Bool) : (countBytes s port cls a n w).exclDone = s.exclDone := by
  obtain ⟨_, _, _, e⟩ := countBytes_frame s port cls a n w; rw [e]
@[simp] theorem countBytes_st (s : State) (port cls a n : Nat) (w : Bool) : (countBytes s port cls a n w).st = s.st := by
  obtain ⟨_, _, _, e⟩ := countBytes_frame s port cls a n w; rw [e]
@[simp] theorem countBytes_alm (s : State) (port cls a n : Nat) (w : Bool) : (countBytes s port cls a n w).alm = s.alm := by
  obtain ⟨_, _, _, e⟩ := countBytes_frame s port cls a n w; rw [e]
@[simp] theorem countBytes_host (s : State) (port cls a n : Nat) (w : Bool) : (countBytes s port cls a n w).host = s.host := by
  obtain ⟨_, _, _, e⟩ := countBytes_frame s port cls a n w; rw [e]
@[simp] theorem countBytes_hostMem (s : State) (port cls a n : Nat) (w : Bool) : (countBytes s port cls a n w).hostMem = s.hostMem := by
  obtain ⟨_, _, _, e⟩ := countBytes_frame s port cls a n w; rw [e]
@[simp] theorem countBytes_flash (s : State) (port cls a n : Nat) (w : Bool) : (countBytes s port cls a n w).flash = s.flash := by
  obtain ⟨_, _, _, e⟩ := countBytes_frame s port cls a n w; rw [e]
@[simp] theorem countBytes_season (s : State) (port cls a n : Nat) (w : Bool) : (countBytes s port cls a n w).season = s.season := by
  obtain ⟨_, _, _, e⟩ := countBytes_frame s port cls a n w; rw [e]
@[simp] theorem countBytes_upd (s : State) (port cls a n : Nat) (w : Bool) : (countBytes s port cls a n w).upd = s.upd := by
  obtain ⟨_, _, _, e⟩ := countBytes_frame s port cls a n w; rw [e]
@[simp] theorem countBytes_pm (s : State) (port cls a n : Nat) (w : Bool) : (countBytes s port cls a n w).pm = s.pm := by
  obtain ⟨_, _, _, e⟩ := countBytes_frame s port cls a n w; rw [e]
@[simp] theorem countBytes_links (s : State) (port cls a n : Nat) (w : Bool) : (countBytes s port cls a n w).links = s.links := by
  obtain ⟨_, _, _, e⟩ := countBytes_frame s port cls a n w; rw [e]
@[simp] theorem countBytes_time (s : State) (port cls a n : Nat) (w : Bool) : (countBytes s port cls a n w).time = s.time := by
  obtain ⟨_, _, _, e⟩ := countBytes_frame s port cls a n w; rw [e]

end Sys2Proof.Machine
end

