-- ==== Sys2Proof/Laws/Shared.lean ====
section
/-!
SUPPORT. What the operations that several meanings share over hub SRAM, the switches, segments and the islands' link can do: each lemma names the fields
its operation may change.
-/

namespace Sys2Proof.Machine

/-- A count of a run's bytes moves the byte counters alone. -/
theorem countRun_frame (s : State) (ok : Nat → Bool) (v : Cvu) :
    ∃ x0 x1 x2, countRun s ok v = { s with stc := x0, swIn := x1, swOut := x2 } := by
  unfold countRun
  split
  · exact ⟨_, _, _, rfl⟩
  · exact countBytes_frame ..

/-- A swap's traffic moves the byte counters alone. -/
theorem countSwap_frame (s : State) (u : Nat) :
    ∃ x0 x1 x2, countSwap s u = { s with stc := x0, swIn := x1, swOut := x2 } := by
  unfold countSwap
  split
  · dsimp only
    split
    · obtain ⟨_, _, _, e⟩ := countBytes_frame s (rQ u) (clsOfPart (((ctxOf s u _).map (·.part)).getD 3)) (0x100000000000 + rQ u * 0x1000000) 4096 false
      rw [e]
      obtain ⟨_, _, _, e⟩ := countBytes_frame { s with stc := _, swIn := _, swOut := _ } (rQ u) _ (0x100000000000 + rQ u * 0x1000000) 4096 true
      exact ⟨_, _, _, by rw [e]⟩
    · exact countBytes_frame ..
  · exact ⟨_, _, _, rfl⟩

/-- The switch hands requests from its queue to the die's channels: nothing else changes. -/
theorem drainSwitch_frame (n die : Nat) (s : State) :
    ∃ x0 x1 x2, drainSwitch n die s = { s with stc := x0, swWait := x1, swTurn := x2 } := by
  induction n generalizing s with
  | zero => exact ⟨_, _, _, rfl⟩
  | succ n ih =>
    unfold drainSwitch
    dsimp only
    split
    · exact ⟨_, _, _, rfl⟩
    · obtain ⟨_, _, _, e⟩ := ih { s with stc := _, swWait := _, swTurn := _ }
      exact ⟨_, _, _, by rw [e]⟩

/-- A request that leaves its port reaches its channel or the switch's queue: nothing else changes. -/
theorem sendReq_frame (s : State) (die : Nat) (q : Req) :
    ∃ x0 x1 x2, sendReq s die q = { s with stc := x0, swWait := x1, swTurn := x2 } := by
  unfold sendReq
  split
  · exact ⟨_, _, _, rfl⟩
  · dsimp only
    obtain ⟨_, _, _, e⟩ := drainSwitch_frame (tget s.swWait die [] ++ [q]).length die { s with swWait := tput s.swWait die (tget s.swWait die [] ++ [q]) }
    exact ⟨_, _, _, by rw [e]⟩

/-- A write that bypasses tile checks changes bytes and the marks of wrong bits alone. -/
theorem hubWrite_frame (s : State) (who a : Nat) (bs : List Byte) :
    ∃ x0 x1, hubWrite s who a bs = { s with mem := x0, host := { s.host with wrongBits := x1 } } := by
  unfold hubWrite
  refine foldl_keeps (fun t => ∃ x0 x1, t = { s with mem := x0, host := { s.host with wrongBits := x1 } }) _ ?_ _ s ⟨_, _, rfl⟩
  rintro _ u ⟨_, _, rfl⟩
  dsimp only
  split <;> exact ⟨_, _, rfl⟩

/-- A write that bypasses tile checks keeps the canonical form of memory. -/
theorem hubWrite_wf (s : State) (who a : Nat) (bs : List Byte) (h : Memory.wf s.mem = true) : Memory.wf (hubWrite s who a bs).mem = true := by
  unfold hubWrite
  refine foldl_keeps (fun t : State => Memory.wf t.mem = true) _ (fun t u ht => ?_) _ s h
  dsimp only
  split
  · exact wr_wf _ _ _ ht
  · exact ht

/-- An island that takes its partner for lost changes the islands, Vigil's book-keeping and the Almanac alone. -/
theorem takeLoss_frame (s : State) (i : Isl) (cause : Nat) :
    ∃ x0 x1 x2 x3 x4, takeLoss s i cause = { s with islA := x0, islB := x1, vg := x2, alm := x3, host := x4 } := by
  unfold takeLoss
  obtain ⟨_, _, e⟩ : ∃ x0 x1, holdIsl s i (fun x => { x with hPeerLost := true, lostSinceEve := true, hbSince := none, peerCmpOk := false }) =
    { s with islA := x0, islB := x1 } := modIsl_frame ..
  rw [e]
  cases i
  · exact ⟨_, _, _, _, _, rfl⟩
  · obtain ⟨_, e⟩ := breach_frame { s with islA := _, islB := _ }
    dsimp only
    rw [e]
    obtain ⟨_, _, e⟩ := alm_frame { s with islA := _, islB := _, vg := _ } 0x9000 .vigilBreach 3 [22, cause]
    exact ⟨_, _, _, _, _, by rw [e]⟩

end Sys2Proof.Machine
end

