-- ==== Sys2Proof/Laws/Step.lean ====
section
/-! SUPPORT. What a step and the shared end of a meaning do. -/

namespace Sys2Proof.Machine

/-- On an empty queue a step lets time pass. -/
theorem step_empty (s : State) (h : s.pending = []) : step s = idle s := by
  unfold step; rw [h]

/-- The end of a meaning answers a next state with the queue as the step left it. -/
theorem done_next (s t : State) : done s t = .next { t with pending := s.pending } := rfl

end Sys2Proof.Machine
end

