-- ==== Sys2Proof/Laws/Table.lean ====
section
/-! SUPPORT. Sparse tables: what a lookup gives after an update, on any table. -/

namespace Sys2Proof.Machine

theorem tfind_tput_self {β : Type} (t : Tbl β) (k : Nat) (v : β) : tfind (tput t k v) k = some v := by
  induction t with
  | nil => simp [tput, tfind]
  | cons p r ih =>
    obtain ⟨a, b⟩ := p
    simp only [tput]
    split
    · simp [tfind]
    · split
      · simp [tfind]
      · next h => simp [tfind, ih, Ne.symm h]

theorem tfind_tput_ne {β : Type} (t : Tbl β) (k j : Nat) (v : β) (h : j ≠ k) : tfind (tput t k v) j = tfind t j := by
  induction t with
  | nil => simp [tput, tfind, Ne.symm h]
  | cons p r ih =>
    obtain ⟨a, b⟩ := p
    simp only [tput]
    split
    · simp [tfind, Ne.symm h]
    · split
      · next h2 => subst h2; simp [tfind, Ne.symm h]
      · simp [tfind, ih]

@[simp] theorem tget_tput_self {β : Type} (t : Tbl β) (k : Nat) (v d : β) : tget (tput t k v) k d = v := by
  simp [tget, tfind_tput_self]

theorem tget_tput_ne {β : Type} (t : Tbl β) (k j : Nat) (v d : β) (h : j ≠ k) : tget (tput t k v) j d = tget t j d := by
  simp [tget, tfind_tput_ne _ _ _ _ h]

@[simp] theorem tget_tmod_self {β : Type} (t : Tbl β) (k : Nat) (d : β) (f : β → β) : tget (tmod t k d f) k d = f (tget t k d) := by
  simp [tmod]

theorem tget_tmod_ne {β : Type} (t : Tbl β) (k j : Nat) (d e : β) (f : β → β) (h : j ≠ k) : tget (tmod t k d f) j e = tget t j e := by
  simp [tmod, tget_tput_ne _ _ _ _ _ h]

@[simp] theorem tfind_tdel_self {β : Type} (t : Tbl β) (k : Nat) : tfind (tdel t k) k = none := by
  induction t with
  | nil => rfl
  | cons p r ih =>
    obtain ⟨a, b⟩ := p
    unfold tdel at *
    by_cases h : a = k <;> simp_all [List.filter, tfind]

theorem tfind_tdel_ne {β : Type} (t : Tbl β) (k j : Nat) (h : j ≠ k) : tfind (tdel t k) j = tfind t j := by
  induction t with
  | nil => rfl
  | cons p r ih =>
    obtain ⟨a, b⟩ := p
    unfold tdel at *
    by_cases h2 : a = k
    · subst h2; simp_all [List.filter, tfind, Ne.symm h]
    · simp_all [List.filter, tfind]

/-- A change of every entry changes what a lookup finds in the same way. -/
theorem tfind_tmap {β : Type} (t : Tbl β) (f : β → β) (k : Nat) : tfind (tmap t f) k = (tfind t k).map f := by
  induction t with
  | nil => rfl
  | cons p r ih =>
    obtain ⟨a, b⟩ := p
    simp only [tmap, List.map, tfind] at *
    split
    · rfl
    · exact ih

end Sys2Proof.Machine
end

