-- ==== Sys2Proof/Tests/Slice0.lean ====
section
/-!
SUPPORT. Tests: what WellFormed refuses; for every statement with hypotheses a state and operands that meet them; worked examples of the spec.
-/

namespace Sys2Proof.Tests
open Sys2Proof Sys2Proof.Machine

-- One theorem at a time: elaborated side by side, each would wait for the kernel in a thread of its own.
set_option Elab.async false

/-! ## Small states and entries -/

/-- A package that is up, with all four store stacks: mailbox and plans accepted, host transfers enabled. -/
def up : State :=
  let s := State.reset
  { s with inReset := false, railsLow := false, ident := { s.ident with present := 0xF }, host := { s.host with mbxReady := true, ready := true, dmaOn := true } }

/-- A submission entry with tag 1 and a flat buffer of `len` bytes at host address 0x1000. -/
def ent (op : Nat) (par : List Nat) (len : Nat) : SubEntry :=
  { opcode := op, flags := 0, tag := 1, bufAddr := if len = 0 then 0 else 0x1000, bufLen := len, rsv := 0,
    param := padTo 40 (par.map (fun x => BitVec.ofNat 8 x)) }

/-- A state whose host buffer at 0x1000 holds bytes. -/
def withBuf (s : State) (bs : List Byte) : State := { s with hostMem := mwrite s.hostMem 0x1000 bs }

/-- A package in the Service Season. -/
def service : State := { up with host := { up.host with season := 3 }, season := { up.season with cfg := { up.season.cfg with num := 3 } } }

/-- A state whose host buffer at 0x1000 holds an entry's bytes, with device memory and the rest as in `up`; and a region of one 256-byte tile. -/
def withRegion : State := { up with regions := [(5, { valid := true, base := 0x110000000000, size := 256, log2Tile := 8, part := 3, gen := 1 })] }

/-- A package with one sequence of 32 positions. -/
def withSeq (d : SeqDesc) : State := { up with seqs := [(3, d)] }

/-- A sequence descriptor, its round closed. -/
def seqD : SeqDesc := { valid := true, base := 0x10000, layerStride := 65536, maxLen := 32, curLen := 20, layers := 1, hq := 1, hkv := 1,
                        headDim32 := 1, kvFmt := 2, part := 3 }

/-- A package with an empty result ring of four entries. -/
def withRing : State := { up with host := { up.host with rings := [(2, { isSet := true, log2Entry := 8, log2Count := 2 })] } }

/-- A package with cluster 9 in a state. -/
def withClu (c : CluState) : State := { up with health := [(9, { state := c })] }

/-- Whether Xiuth runs an entry, as a Bool. -/
def accepts (k : MbxCmd) (e : SubEntry) (s : State) : Bool :=
  s.host.mbxReady && !waitsTurn s e && k.check e s == stOk && !dmaHeld k e s

theorem accepted_iff (k : MbxCmd) (e : SubEntry) (s : State) : Accepted k e s ↔ accepts k e s = true := by
  simp [Accepted, accepts, and_assoc]

/-- A submission entry with PARAM as bytes. -/
def entB (op : Nat) (par : List Byte) (len : Nat) : SubEntry := { ent op [] len with param := padTo 40 par }

/-- A package whose firmware update is in a state. -/
def upUpd (f : Upd → Upd) : State := { up with upd := f up.upd }

theorem pair_of_snd {α β : Type} (x : α × β) (b : β) (h : x.2 = b) : x = (x.1, b) := by cases x; simp at h; simp [h]

/-- A plan of one SYNC on cluster 0 in partition P3: a task, its command, a demand entry, a slot, and one output of 256 bytes of the store. -/
def planBody0 : List Byte :=
  [3, 0, 0, 0] ++ natLe 2 0 ++ natLe 2 0xFFFF ++ natLe 4 1000 ++ natLe 4 0 ++ natLe 4 64 ++ natLe 2 1 ++ padTo 42 [] ++
  ([3, 4, 0, 3] ++ padTo 60 []) ++
  (natLe 4 0x01000000 ++ [0, 3] ++ natLe 2 0 ++ natLe 8 1000) ++
  (natLe 4 0x01000000 ++ padTo 12 []) ++
  (natLe 8 0x110000000000 ++ natLe 4 256 ++ [8] ++ padTo 19 [])

/-- Its image. -/
def plan0 : List Byte :=
  natLe 4 0x50464E43 ++ natLe 2 1 ++ natLe 2 256 ++ natLe 8 7 ++ natLe 4 192 ++ sha384 planBody0 ++ natLe 4 0 ++ natLe 2 250 ++ [0xFF, 8] ++
  natLe 4 1 ++ natLe 4 0 ++ natLe 4 1 ++ natLe 4 128 ++ natLe 4 1 ++ natLe 4 144 ++ natLe 4 160 ++ natLe 4 1 ++ natLe 4 1 ++ padTo 144 [] ++
  planBody0

/-- A map of one straight edge of 1 m driven at 1 m/s: two nodes, one primitive, one run, one root with one candidate. -/
def mapBody0 : List Byte :=
  padTo 256 (padTo 12 [] ++ natLe 2 0 ++ [0, 0] ++ natLe 4 0x3F800000 ++ padTo 8 [] ++ natLe 2 1000) ++
  padTo 256 (natLe 4 0 ++ natLe 4 1 ++ natLe 4 0 ++ natLe 4 0 ++ natLe 2 1) ++
  padTo 256 ([0, 2] ++ natLe 2 0 ++ natLe 4 0x3F800000 ++ natLe 4 0x3F800000 ++ natLe 4 0x3F800000) ++
  padTo 256 [] ++ padTo 256 [] ++ padTo 256 [0, 1] ++
  padTo 256 (padTo 8 [] ++ natLe 4 1 ++ natLe 2 0 ++ natLe 2 1) ++
  padTo 256 (natLe 4 0 ++ natLe 4 0x41200000 ++ natLe 4 0x3F800000 ++ natLe 4 0x3F800000 ++ natLe 4 0xBF800000 ++ natLe 4 0x3F800000 ++
    natLe 4 0x3F800000 ++ natLe 4 0x3F800000)

/-- Its image. -/
def map0 : List Byte :=
  natLe 4 0x50444D52 ++ natLe 2 1 ++ natLe 2 256 ++ natLe 8 5 ++ sha384 mapBody0 ++ natLe 4 2 ++ natLe 4 1 ++ natLe 4 1 ++ natLe 4 1 ++
  natLe 2 1 ++ [1, 1] ++ natLe 2 0 ++ natLe 2 0 ++ natLe 2 1000 ++ natLe 2 0 ++ natLe 4 1 ++
  natLe 4 0 ++ natLe 4 256 ++ natLe 4 512 ++ natLe 4 768 ++ natLe 4 1024 ++ natLe 4 1280 ++ natLe 4 1536 ++ natLe 4 1792 ++ padTo 128 [] ++ mapBody0

/-! ## The hypotheses of the statements can be met -/

/-- Hypotheses of MailboxChecksComeFirst: a failing check, an accepted entry, a mailbox that is not up, and an entry that waits. -/
theorem meets_MailboxChecksComeFirst :
    cmdNop.check (ent 0x1FF [] 0) up = stBadOpcode ∧ waitsTurn up (ent 0x1FF [] 0) = false ∧ up.host.mbxReady = true ∧
    accepts cmdNop (ent 0x0100 [] 0) up = true ∧ State.reset.host.mbxReady = false ∧
    waitsTurn { up with host := { up.host with taken := [ent 0x0101 [] 0, ent 0x0100 [] 0] } } (ent 0x0100 [] 0) = true ∧
    cmdNop.check (ent 0x0100 [1] 0) up = stRange ∧
    cmdPlanAdmit.check (ent 0x0201 [7] 0) { up with host := { up.host with ready := false } } = stNotReady ∧
    cmdVigilDebugEnable.check (ent 0x0605 [0, 1] 0) up = stWrongSeason ∧
    cmdGetCerts.check (ent 0x0B02 [] 64) up = stBusy := by decide +kernel

/-- Hypotheses of ReportCommandsAnswer, one conjunct for each clause. -/
theorem meets_ReportCommandsAnswer :
    accepts cmdNop (ent 0x0100 [] 0) up = true ∧
    (accepts cmdGetEvents (ent 0x0101 [1] 32) up = true ∧ 32 ≤ bufLenOf (ent 0x0101 [1] 32)) ∧
    accepts cmdSeasonRead (ent 0x0104 [3] 64) up = true ∧ accepts cmdGetSurroundings (ent 0x0105 [] 64) up = true ∧
    accepts cmdGetIdentity (ent 0x0B00 [] 64) up = true ∧
    accepts cmdGetCerts (ent 0x0B02 [] 64) { up with upd := { up.upd with keysReady := true } } = true ∧
    accepts cmdQueueStatus (ent 0x0204 [0x1F, 1] 64) up = true ∧ accepts cmdMapStatus (ent 0x0307 [] 0) up = true ∧
    accepts cmdHealthStatus (ent 0x0600 [] 64) up = true ∧ accepts cmdVigilStatus (ent 0x0604 [] 0) up = true ∧
    accepts cmdGetSafetyReport (ent 0x0606 [] 64) up = true ∧ accepts cmdUpdStatus (ent 0x0803 [] 0) up = true ∧
    accepts cmdPwrStatus (ent 0x0900 [] 64) up = true := by decide +kernel

/-- Hypotheses of ReadCommandsAnswer. -/
theorem meets_ReadCommandsAnswer :
    (accepts cmdDataRead (ent 0x0301 [0, 0, 0, 0, 0, 0x11] 64) up = true ∧
      mapped (fld (parOf (ent 0x0301 [0, 0, 0, 0, 0, 0x11] 64)) 0 6) (bufLenOf (ent 0x0301 [0, 0, 0, 0, 0, 0x11] 64)) = true) ∧
    (accepts cmdDataCheck (ent 0x0302 [0, 0, 0, 0, 0, 0x11, 9] 0) up = true ∧
      (List.range 16).find? (fun k => 8 ≤ k && !(cvuOf up k).busy) = some 8) ∧
    (accepts cmdSeqRead (ent 0x0402 [3] 128) (withSeq seqD) = true ∧ (seqOf (withSeq seqD) (parByte (ent 0x0402 [3] 128) 0)).valid = true) ∧
    (accepts cmdResultRingStatus (ent 0x0502 [2] 0) withRing = true ∧
      (tget withRing.host.rings (parByte (ent 0x0502 [2] 0) 0) {}).isSet = true) ∧
    (accepts cmdAlmRead (ent 0x0700 [1] 64) up = true ∧ 64 ≤ bufLenOf (ent 0x0700 [1] 64)) ∧
    accepts cmdAlmInfo (ent 0x0701 [] 64) up = true ∧
    accepts cmdAttest (ent 0x0B01 [] 64) { up with upd := { up.upd with keysReady := true } } = true := by decide +kernel

/-- Hypotheses of BufferOutputFrame: an address beside the buffer. -/
theorem meets_BufferOutputFrame : ∀ g ∈ (segments up (ent 0x0100 [] 64)).getD [], 0xFFF < g.1 ∨ g.1 + g.2 ≤ 0xFFF := by decide +kernel

/-- A command's buffer holds what stands at 0x1000. -/
theorem bufAll_withBuf (s : State) (bs par : List Byte) (op n : Nat) (h : Memory.wf s.hostMem = true) (hn : bs.length = n) (h0 : n ≠ 0) :
    bufAll (withBuf s bs) (entB op par n) = bs := by
  have e1 : bufLenOf (entB op par n) = n := by simp [bufLenOf, entB, ent, h0]
  have e2 : segments (withBuf s bs) (entB op par n) = some [(0x1000, n)] := by
    simp [segments, entB, ent, h0, show bit 0 1 = false from by decide]
  simp only [bufAll, bufIn, e1, e2, Option.getD_some, gather, h0, if_false, Nat.min_self, List.append_nil]
  rw [← hn]
  exact mread_mwrite s.hostMem 0x1000 bs h

theorem plan0_length : plan0.length = 448 := by decide +kernel

/-- The entry of a PLAN_LOAD of `plan0`, and the package whose buffer holds it. -/
def planEnt : SubEntry := entB 0x0200 [] 448

theorem planBuf : bufAll (withBuf up plan0) planEnt = plan0 := bufAll_withBuf up plan0 [] 0x0200 448 (by decide) plan0_length (by decide)

/-- The package with the plan loaded, or admitted. -/
def planUp (adm : Bool) : State :=
  { up with plans := [{ planId := 7, image := plan0, dirFirst := 1, admitted := adm }] }

/-- The plan of such a package. -/
def thePlan (adm : Bool) : Plan := { planId := 7, image := plan0, dirFirst := 1, admitted := adm }

/-- Hypotheses of PlanCommandsTakeEffect. -/
theorem meets_PlanCommandsTakeEffect :
    (Accepted cmdPlanLoad planEnt (withBuf up plan0) ∧ loadOk (bufAll (withBuf up plan0) planEnt) = true ∧
      oldFmtOk (withBuf up plan0) 0 (ph (bufAll (withBuf up plan0) planEnt) 4 2) = true ∧
      (∀ p ∈ (withBuf up plan0).plans, p.planId ≠ ph (bufAll (withBuf up plan0) planEnt) 8 8) ∧ (withBuf up plan0).plans.length < 16 ∧
      (reserveDir (withBuf up plan0).host (ph (bufAll (withBuf up plan0) planEnt) 8 8)
        ((List.range (outputCount (bufAll (withBuf up plan0) planEnt))).map (outAt (bufAll (withBuf up plan0) planEnt)))).isSome = true) ∧
    (∃ t, Accepted cmdPlanAdmit (ent 0x0201 [7] 0) (planUp false) ∧
      livePlan (planUp false) (fld (parOf (ent 0x0201 [7] 0)) 0 8) = some (thePlan false) ∧ admitPlan (planUp false) (thePlan false) = (t, none)) ∧
    (Accepted cmdPlanSelect (ent 0x0202 [7] 0) (planUp true) ∧
      livePlan (planUp true) (fld (parOf (ent 0x0202 [7] 0)) 0 8) = some (thePlan true) ∧ (thePlan true).admitted = true ∧
      parByte (ent 0x0202 [7] 0) 8 < variantCount plan0 ∧
      selectBar (planUp true) plan0 (parByte (ent 0x0202 [7] 0) 8) (effectFrame (planUp true)) = none) ∧
    (Accepted cmdPlanRetire (ent 0x0203 [7] 0) (planUp true) ∧
      livePlan (planUp true) (fld (parOf (ent 0x0203 [7] 0)) 0 8) = some (thePlan true)) := by
  simp only [planBuf, accepted_iff]
  exact ⟨by decide +kernel, ⟨(admitPlan (planUp false) (thePlan false)).1, by decide +kernel, by decide +kernel,
    pair_of_snd _ _ (by decide +kernel)⟩, by decide +kernel, by decide +kernel⟩

/-- The entry of a DATA_WRITE: region 5, OP, partition P3, 4 KiB tiles at the store's address 0, one tile. -/
def dataEnt (op len : Nat) : SubEntry :=
  entB 0x0300 (natLe 2 5 ++ [BitVec.ofNat 8 op, 3, 12, 0] ++ natLe 6 0x10000 ++ natLe 6 0 ++ natLe 8 4096 ++ natLe 8 0) len

/-- The region it creates. -/
def reg0 : Region := { valid := true, base := 0x10000, size := 4096, log2Tile := 12, part := 3, gen := 1 }

/-- A package with that region, its tile invalid. -/
def regUp : State := { up with regions := [(5, reg0)] }

/-- Hypotheses of DataCommandsTakeEffect. -/
theorem meets_DataCommandsTakeEffect :
    (accepts cmdDataWriteCreate (dataEnt 0 0) up = true ∧ createRegion (dataEnt 0 0) = reg0 ∧ (tget up.regions 5 {}).valid = false ∧
      fld (parOf (dataEnt 0 0)) 0 2 = 5 ∧
      overlapsRegion up reg0 (fun _ => true) = false ∧ overlapsRegion up reg0 (fun x => x.mapSlot.isSome) = false ∧
      regionPlaced up reg0 = true ∧ (openRegion up 5 reg0).isSome = true) ∧
    (accepts cmdDataWriteRewrite (dataEnt 1 4096) regUp = true ∧ tget regUp.regions (fld (parOf (dataEnt 1 4096)) 0 2) {} = reg0 ∧
      bufLenOf (dataEnt 1 4096) = reg0.size ∧ regionBound regUp reg0 = false) ∧
    (accepts cmdDataWriteRepair (dataEnt 2 4096) regUp = true ∧ fld (parOf (dataEnt 2 4096)) 26 8 % 2 ^ reg0.log2Tile = 0 ∧
      bufLenOf (dataEnt 2 4096) = 2 ^ reg0.log2Tile ∧ fld (parOf (dataEnt 2 4096)) 26 8 + 2 ^ reg0.log2Tile ≤ reg0.size ∧
      weightInvalid regUp reg0 (fld (parOf (dataEnt 2 4096)) 26 8 / 2 ^ reg0.log2Tile) = true) ∧
    (accepts cmdDataWriteDelete (dataEnt 3 0) regUp = true ∧ tget regUp.regions (fld (parOf (dataEnt 3 0)) 0 2) {} = reg0) ∧
    (accepts cmdStoreRetain (ent 0x0303 [0xFF, 0xFF, 0xFF, 0xFF] 0) up = true ∧ anyAdmitted up = false ∧
      (∀ d, d < 4 → fld (parOf (ent 0x0303 [0xFF, 0xFF, 0xFF, 0xFF] 0)) d 1 = 0xFF)) ∧
    (accepts cmdStoreResume (ent 0x0304 [] 0) up = true ∧ (stcOf { up with stc := [(3, { stcOf up 3 with retaining := true })] } 3).retaining = true ∧
      up.regions = [] ∧ up.seqs = []) := by decide +kernel

theorem map0_length : map0.length = 2304 := by decide +kernel

/-- The entry of a MAP_LOAD of `map0` into slot 1, partition P3, at store address 0x10000000. -/
def mapEnt : SubEntry := entB 0x0305 ([1, 3] ++ natLe 6 0x10000000) 2304

theorem mapBuf : bufAll (withBuf up map0) mapEnt = map0 :=
  bufAll_withBuf up map0 _ 0x0305 2304 (by decide) map0_length (by decide)

/-- The 128 bytes that define a sequence: one layer, one head of 32, 32 positions, at store address 0x10000. -/
def seqBytes : List Byte :=
  natLe 8 0x10000 ++ natLe 4 65536 ++ natLe 4 32 ++ padTo 12 [] ++ natLe 2 1 ++ natLe 2 0 ++ [1, 1, 1, 1, 2, 5] ++ natLe 2 0 ++
  natLe 4 0x461C4000 ++ [0, 0, 3] ++ padTo 81 []

theorem seqBuf : bufAll (withBuf up seqBytes) (entB 0x0400 [] 128) = seqBytes :=
  bufAll_withBuf up seqBytes [] 0x0400 128 (by decide) (by decide +kernel) (by decide)

/-- The entry of a SEQ_EDIT of sequence 3 with one run. -/
def editEnt (op v runs len : Nat) : SubEntry := entB 0x0401 ([3, BitVec.ofNat 8 op, 0, BitVec.ofNat 8 runs] ++ natLe 4 v) len

/-- Hypotheses of ObjectCommandsTakeEffect. -/
theorem meets_ObjectCommandsTakeEffect :
    ((∃ t, accepts cmdMapLoad mapEnt (withBuf up map0) = true ∧ slotInUse up (fld (parOf mapEnt) 0 1) = false ∧
      oldFmtOk up 1 (fld map0 4 2) = true ∧
      loadMap up (fld (parOf mapEnt) 0 1) (fld (parOf mapEnt) 1 1) (fld (parOf mapEnt) 2 6) (fld (parOf mapEnt) 8 6) map0 = (t, none))) ∧
    (accepts cmdMapSelect (ent 0x0306 [1] 0) up = true ∧
      (slotOf { up with pln := { up.pln with slots := [(1, { loaded := true })] } } (parByte (ent 0x0306 [1] 0) 0)).loaded = true) ∧
    (accepts cmdSeqDefine (entB 0x0400 [] 128) (withBuf up seqBytes) = true ∧ bufLenOf (entB 0x0400 [] 128) = 128 ∧
      seqRanged seqBytes = true ∧ seqFits (seqDesc seqBytes) = true ∧ seqPlaced up (seqDesc seqBytes) = true ∧
      (List.range 64).find? (fun i => !(seqOf up i).valid) = some 0 ∧ (seqFines up 0 (seqDesc seqBytes)).isSome = true) ∧
    (accepts cmdSeqEditTruncate (editEnt 0 20 0 0) (withSeq seqD) = true ∧ seqOf (withSeq seqD) (fld (parOf (editEnt 0 20 0 0)) 0 1) = seqD ∧
      seqD.isOpen = false ∧ fld (parOf (editEnt 0 20 0 0)) 4 4 ≤ seqD.curLen) ∧
    (accepts cmdSeqEditSetWindow (editEnt 1 8192 0 0) (withSeq seqD) = true ∧ fld (parOf (editEnt 1 8192 0 0)) 4 4 ≤ 8192) ∧
    (accepts cmdSeqEditSetGlobals (editEnt 2 1 1 64) (withSeq seqD) = true ∧
      runsOk seqD.maxLen ((List.range (fld (parOf (editEnt 2 1 1 64)) 3 1)).map (fun i => fld (bufAll (withSeq seqD) (editEnt 2 1 1 64)) (4 * i) 4))
        = true ∧ bufLenOf (editEnt 2 1 1 64) = 64) ∧
    accepts cmdSeqEditReset (editEnt 3 0 0 0) (withSeq seqD) = true ∧
    (accepts cmdSeqDelete (ent 0x0403 [3] 0) (withSeq seqD) = true ∧ (seqOf (withSeq seqD) 3).boundPlan = none) ∧
    (accepts cmdResultRingSet (ent 0x0500 [2, 0, 8, 2] 0) up = true ∧ (tget up.host.rings 2 {}).isSet = false) ∧
    (accepts cmdResultRingRemove (ent 0x0500 [2, 1] 0) withRing = true ∧ (tget withRing.host.rings 2 {}).isSet = true) ∧
    (accepts cmdResultAck (ent 0x0501 [2, 0, 0, 0, 3] 0) { withRing with host := { withRing.host with rings :=
        [(2, { isSet := true, log2Entry := 8, log2Count := 2, tail := 3, head := 1 })] } } = true ∧
      fld (parOf (ent 0x0501 [2, 0, 0, 0, 3] 0)) 4 4 < 2 ^ 2 ∧ (3 + 4 - 1) % 4 ≤ (3 + 4 - 1) % 4) ∧
    (accepts cmdSeqEditTruncate (editEnt 0 20 0 0) (withSeq { seqD with isOpen := true }) = true ∧ ({ seqD with isOpen := true } : SeqDesc).isOpen = true) := by
  refine ⟨⟨(loadMap up (fld (parOf mapEnt) 0 1) (fld (parOf mapEnt) 1 1) (fld (parOf mapEnt) 2 6) (fld (parOf mapEnt) 8 6) map0).1,
    by decide +kernel, by decide +kernel, by decide +kernel, pair_of_snd _ _ (by decide +kernel)⟩, by decide +kernel⟩

/-- Hypotheses of ServiceCommandsTakeEffect. -/
theorem meets_ServiceCommandsTakeEffect :
    (accepts cmdFenceClusterFence (ent 0x0601 [9, 0, 0] 0) (withClu .inService) = true ∧ (healthOf (withClu .inService) 9).state ≠ .inTest) ∧
    (accepts cmdFenceClusterRelease (ent 0x0601 [9, 0, 1] 0) (withClu .fenced) = true ∧ (healthOf (withClu .fenced) 9).state = .fenced) ∧
    (accepts cmdClusterRestrictRestrict (ent 0x0602 [9, 0, 0] 0) (withClu .quarantined) = true ∧
      (healthOf (withClu .quarantined) 9).state = .quarantined ∧ (healthOf (withClu .quarantined) 9).hardQ = false) ∧
    (accepts cmdClusterRestrictUnrestrict (ent 0x0602 [9, 0, 1] 0) (withClu .restricted) = true ∧
      (healthOf (withClu .restricted) 9).state = .restricted) ∧
    (accepts cmdHealthResume (ent 0x0603 [3] 0) { up with hltQ := [(3, { suspended := true })] } = true ∧
      (hltQOf { up with hltQ := [(3, { suspended := true })] } 3).suspended = true) ∧
    accepts cmdVigilDebugEnable (ent 0x0605 [1, 1] 0) service = true ∧ accepts cmdVigilDebugDisable (ent 0x0605 [1, 0] 0) service = true ∧
    accepts cmdExpertUnlockP3 (ent 0x0A00 [0] 0) up = true ∧ accepts cmdExpertUnlockService (ent 0x0A00 [1] 0) service = true ∧
    accepts cmdExpertLock (ent 0x0A01 [] 0) up = true := by decide +kernel

/-- A package whose update is loaded, and one whose update waits for confirmation until frame 100. -/
def updUp (n : Nat) : State := upUpd (fun u => { u with state := n, windowEnd := if n = 4 then some 100 else none })

/-- Hypotheses of SystemCommandsTakeEffect, but for the two clauses that rest on checks the model leaves open. -/
theorem meets_SystemCommandsTakeEffect :
    (accepts (cmdSetSeason up) (ent 0x0102 [0] 0) up = true ∧ (seasonOf up 0).isSome = true ∧
      (factorySeason 0).xor = up.season.cfg.xor ∧ (factorySeason 0).dlyTrim = up.season.cfg.dlyTrim ∧ up.host.serviceOnly = false) ∧
    (accepts (cmdSetSeason up) (ent 0x0102 [3, 2] 0) up = true ∧ accepts (cmdSetSeason up) (ent 0x0102 [3, 1] 0) up = false) ∧
    (accepts cmdUpdLoad (ent 0x0800 [0] 64) (updUp 1) = true ∧
      fld (parOf (ent 0x0800 [0] 64)) 0 4 = (bankOf (updUp 1) (otherBank (updUp 1))).image.length ∧
      fld (parOf (ent 0x0800 [0] 64)) 0 4 + (bufAll (updUp 1) (ent 0x0800 [0] 64)).length ≤ 16777216 ∧
      bit (fld (parOf (ent 0x0800 [0] 64)) 4 1) 0 = false) ∧
    (accepts (cmdUpdSchedule (updUp 2)) (ent 0x0801 [] 0) (updUp 2) = true ∧ (updUp 2).upd.handover = 0) ∧
    (accepts cmdUpdConfirm (ent 0x0802 [] 0) (updUp 4) = true ∧ (updUp 4).upd.windowEnd = some 100 ∧ (updUp 4).cal.frame < 100 ∧
      fwRaise (fwHeader (bankOf (updUp 4) (updUp 4).upd.bank).image) = false) ∧
    (accepts cmdUpdCancel (ent 0x0804 [] 0) (updUp 1) = true ∧ unfinishedLoads (updUp 1) (ent 0x0804 [] 0) = []) ∧
    (accepts cmdUpdCancel (ent 0x0804 [] 0) (updUp 4) = true ∧ unfinishedLoads (updUp 4) (ent 0x0804 [] 0) = []) ∧
    (accepts cmdPwrLimit (ent 0x0901 [20] 0) up = true ∧ 20 ≤ fld (parOf (ent 0x0901 [20] 0)) 0 2 ∧
      fld (parOf (ent 0x0901 [20] 0)) 0 2 ≤ up.season.cfg.capW) ∧
    (accepts cmdPwrLimit (ent 0x0901 [] 0) up = true ∧ fld (parOf (ent 0x0901 [] 0)) 0 2 = 0) := by decide +kernel

/-- Hypotheses of the SEASON_STORE clause: an image that passes the checks (whose section layouts the model leaves open), for a slot that is
not the running Season's. -/
theorem meets_SeasonStore (img : List Byte) (n : Nat) (hn : img.length = n) (h0 : n ≠ 0)
    (hb : seasonBad (withBuf up img) 2 img = 0) :
    accepts cmdSeasonStore (entB 0x0103 [2] n) (withBuf up img) = true ∧
    seasonBad (withBuf up img) (parByte (entB 0x0103 [2] n) 0) (bufAll (withBuf up img) (entB 0x0103 [2] n)) = 0 ∧
    parByte (entB 0x0103 [2] n) 0 ≠ (withBuf up img).season.cfg.num ∧ (withBuf up img).season.pending = none := by
  have e : bufAll (withBuf up img) (entB 0x0103 [2] n) = img := bufAll_withBuf up img [2] 0x0103 n (by decide) hn h0
  have p : parByte (entB 0x0103 [2] n) 0 = 2 := by
    have : parOf (entB 0x0103 [2] n) = padTo 40 (padTo 40 [2]) := rfl
    simp only [parByte, this]; decide
  refine ⟨?_, by rw [e, p]; exact hb, by rw [p]; exact (by decide : 2 ≠ up.season.cfg.num), rfl⟩
  have b : (entB 0x0103 [2] n).bufAddr = 0x1000 := if_neg h0
  have d : dmaHeld cmdSeasonStore (entB 0x0103 [2] n) (withBuf up img) = false := by simp [dmaHeld, withBuf, up, State.reset]
  have r : cmdSeasonStore.reservedOk (entB 0x0103 [2] n) = true := by
    have : (List.range 40).all (fun i => cmdSeasonStore.defines i || parByte (entB 0x0103 [2] n) i = 0) = true := by
      simp only [parByte, show parOf (entB 0x0103 [2] n) = padTo 40 (padTo 40 [2]) from rfl]; decide +kernel
    simp only [MbxCmd.reservedOk, b, this, show (entB 0x0103 [2] n).flags = 0 from rfl, show (entB 0x0103 [2] n).rsv = 0 from rfl]; rfl
  have g : segments (withBuf up img) (entB 0x0103 [2] n) = some [(0x1000, n)] := by
    simp [segments, entB, ent, h0, show bit 0 1 = false from by decide]
  have c : cmdSeasonStore.check (entB 0x0103 [2] n) (withBuf up img) = stOk := by
    simp only [MbxCmd.check, r, g, show parOf (entB 0x0103 [2] n) = padTo 40 (padTo 40 [2]) from rfl]; rfl
  simp only [accepts, c, d]; rfl

/-- Hypotheses of the ALM_CLEAR clause: an authorisation token whose signatures pass (their checks are open to the model). -/
theorem meets_AlmClear (tok : List Byte) (hn : tok.length = 16672) (ht : tokenOk (withBuf up tok) tok = true) :
    accepts cmdAlmClear (entB 0x0702 [] 16672) (withBuf up tok) = true ∧ bufLenOf (entB 0x0702 [] 16672) = 16672 ∧
    tokenOk (withBuf up tok) (bufIn (withBuf up tok) (entB 0x0702 [] 16672) 16672) = true ∧ p0Admitted (withBuf up tok) = false := by
  have e : bufAll (withBuf up tok) (entB 0x0702 [] 16672) = tok := bufAll_withBuf up tok [] 0x0702 16672 (by decide) hn (by decide)
  have l : bufLenOf (entB 0x0702 [] 16672) = 16672 := by decide +kernel
  refine ⟨?_, l, ?_, (by decide : p0Admitted up = false)⟩
  · rfl
  · rw [bufAll, l] at e
    rw [e]; exact ht

/-- The middle of frame 1, long before Eve. -/
def frame1 : State :=
  { up with now := 2000000
            cal := { up.cal with frame := 1, calend := 1000000, eve := 25500000, next := 26000000, evalDone := false } }

/-- A trigger at 100 µs, of 100 µs. -/
def trig0 : Trig := { en := true, driven := true, offsetUs := 100 }

/-- Hypotheses of FrameInstantsTakeEffect, CalendSlewIsBounded and TriggerPulses. -/
theorem meets_FrameInstantsTakeEffect :
    (up.host.ready = true ∧ up.inReset = false ∧ up.railsLow = false) ∧ frame1.cal.frame ≠ 0 ∧
    ({ up with reportPend := true } : State).reportPend = true ∧
    (∃ s : State, s.season.pending = some (0, 1) ∧ s.host.ready = true ∧ 1 ≤ s.cal.frame ∧ seasonOf s 0 = some (factorySeason 0)) ∧
    400 ≤ up.cal.periodReg * 100000 ∧
    (trig0.active = false ∧ trig0.pulseStart ≠ frame1.cal.calend + trig0.offsetUs * 1000 ∧
      frame1.cal.calend + trig0.offsetUs * 1000 < frame1.cal.next ∧ tget [(11, trig0)] 11 {} = trig0) :=
  ⟨by decide, by decide, rfl, ⟨{ frame1 with season := { frame1.season with pending := some (0, 1) } }, rfl, rfl, by decide, rfl⟩, by decide, by decide⟩

/-- A submission ring with one NOP in it. -/
def sqUp : State := { up with host := { up.host with sqTail := 1, sq := [(1, 1)] } }

/-- A completion that waits. -/
def done0 : MbxDone := { tag := 1, opcode := 0x0100, status := 0, result := [] }

/-- A package with expert access of the service scope. -/
def expert : State := { up with host := { up.host with expertOn := true, expertScope := true } }

/-- A unit whose run waits for bytes at its data port, and one that waits for none. -/
def cvuUp (n : Nat) : State := { up with cvu := [(7, { busy := true, ctrl := 0x40, left := n })] }

/-- A MAP_LOAD whose buffer is on its way, its package ready. -/
def dmaUp : State := { up with host := { up.host with taken := [mapEnt] } }

/-- Hypotheses of the statements on the mailbox's rings, doorbells, accesses, CVUs and resets. -/
theorem meets_HostInterface :
    (sqUp.host.mbxReady = true ∧ sqUp.host.sqHead ≠ sqUp.host.sqTail ∧
      (entryOf (ringBytes sqUp.host.sq (64 * sqUp.host.sqHead) 64)).opcode = 0x0100) ∧
    (∃ s : State, s.host.waiting = [done0] ∧ (s.host.cqTail + 1) % 64 ≠ s.host.cqHead) ∧
    (expert.host.expertOn = true ∧ mapped (aperAddr expert 64) 512 = true ∧ mayWrite expert (expertOwner expert) (aperAddr expert 64) 512 = true) ∧
    (up.host.expertOn = false ∧ State.reset.host.mbxReady = false) ∧
    ((cvuOf up 7).busy = false ∧ (cvuOf (cvuUp 4) 7).busy = true ∧ (cvuOf (cvuUp 4) 7).port = true ∧ (cvuOf (cvuUp 0) 7).left = 0) ∧
    (dmaEntry dmaUp 1 = some mapEnt ∧ begunRewrite dmaUp mapEnt = false) :=
  ⟨by decide +kernel, ⟨{ up with host := { up.host with waiting := [done0] } }, rfl, by decide⟩, by decide +kernel, by decide, by decide +kernel,
    by decide +kernel⟩

/-- The unit an opcode runs on: the last cluster, the last NLE, the fusion engine, or the planning engine. -/
def unitOfOp (op : Nat) : Nat := if op < 0x38 then 0x01030047 else if op < 0x40 then 0x07030000 else if op < 0x60 then 0x01030047
  else if op < 0x70 then 0x05000000 else 0x06000000

/-- An armed command of frame 1 with an input slot, an output counter, or neither. -/
def armedOf (op ins outs : Nat) : Armed := { frame := 1, planId := 7, desc := padTo 64 [BitVec.ofNat 8 op, 0, 31, 3, 0, 0, 4, BitVec.ofNat 8 ins, 5, BitVec.ofNat 8 outs] }

/-- Its context, with a token in the slot and a credit in the counter. -/
def ctxFor (a : Armed) : Ctx :=
  { planId := 7, part := 3, resident := true, queue := [a], slots := [(4, [{ frame := 1, slot := 4, ctx := 31 }])], credits := [(5, 1)],
    creditInit := [(5, 2)] }

/-- A package in which a unit holds one context, number 31. -/
def seqUp (u : Nat) (c : Ctx) : State := { frame1 with units := [(u, { ctxs := [(31, c)] })] }

/-- Hypotheses of SequencerCommandsIssue, for each of its 28 opcodes; and of IssueRule. -/
theorem meets_SequencerCommandsIssue :
    ∀ op ∈ [0x01, 0x02, 0x03, 0x10, 0x11, 0x12, 0x20, 0x21, 0x22, 0x30, 0x31, 0x32, 0x33, 0x34, 0x38, 0x39, 0x3A, 0x3B, 0x3C, 0x40, 0x41, 0x42,
      0x60, 0x61, 0x62, 0x70, 0x71, 0x72],
      nextIssue (seqUp (unitOfOp op) (ctxFor (armedOf op 1 1))) (unitOfOp op) = some 31 ∧
      ctxOf (seqUp (unitOfOp op) (ctxFor (armedOf op 1 1))) (unitOfOp op) 31 = some (ctxFor (armedOf op 1 1)) ∧
      (ctxFor (armedOf op 1 1)).queue.head? = some (armedOf op 1 1) ∧ dOp (armedOf op 1 1).desc = op ∧ dIns (armedOf op 1 1).desc = [4] ∧
      dOuts (armedOf op 1 1).desc = [5] := by decide +kernel

/-- The witness of SyncMovesNoData, in the words of its hypothesis. -/
theorem meets_SyncMovesNoData :
    Issues 0x03 (unitOfOp 3) 31 (seqUp (unitOfOp 3) (ctxFor (armedOf 3 1 1))) (ctxFor (armedOf 3 1 1)) (armedOf 3 1 1) := by
  unfold Issues; decide +kernel

/-- A token for the context, of a frame. -/
def tok (n : Nat) : Token := { frame := n, slot := 4, ctx := 31 }

/-- Hypotheses of MessagesArrive: a message on its way, the oldest of its channel and not; no context, a token below the floor, a slot that is full,
one with room; a credit below the initial value and one at it. -/
theorem meets_MessagesArrive :
    let c := ctxFor (armedOf 3 1 1)
    let f (n : Nat) : Flight := { src := 1, dst := unitOfOp 3, tok := some (tok n) }
    let g (n : Nat) : Flight := { src := 1, dst := unitOfOp 3, cred := some { ctx := 31, counter := 5, frame := n } }
    let at_ (n : Nat) (x : Flight) : Bool := x.dst = unitOfOp 3 && x.tok = some (tok n)
    let cr (n : Nat) (x : Flight) : Bool := x.dst = unitOfOp 3 && x.cred = some { ctx := 31, counter := 5, frame := n }
    (inFlight [f 1] (at_ 1) = true ∧ takeFlight [f 1] (at_ 1) = some (f 1, [])) ∧
    (inFlight [f 1, f 2] (at_ 2) = true ∧ takeFlight [f 1, f 2] (at_ 2) = none) ∧
    (inFlight [g 1] (cr 1) = true ∧ takeFlight [g 1] (cr 1) = some (g 1, [])) ∧
    (inFlight [g 1, g 2] (cr 2) = true ∧ takeFlight [g 1, g 2] (cr 2) = none) ∧
    inFlight frame1.flights (fun f => f.dst = unitOfOp 3 && f.tok = some (tok 1)) = false ∧ ctxOf frame1 (unitOfOp 3) 31 = none ∧
    ctxOf (seqUp (unitOfOp 3) c) (unitOfOp 3) 31 = some c ∧
    (tok 0).frame < slotFloor c 4 ∧
    (slotFloor c 4 ≤ (tok 2).frame ∧ (tget c.slots 4 []).length < 2) ∧
    (slotFloor c 4 ≤ (tok 3).frame ∧ 2 ≤ (tget ({ c with slots := [(4, [tok 1, tok 2])] } : Ctx).slots 4 []).length) ∧
    tget c.credits 5 0 < tget c.creditInit 5 0 ∧ tget c.creditInit 6 0 ≤ tget c.credits 6 0 := by decide +kernel

/-- Hypotheses of ChannelKeepsOrder. -/
theorem meets_ChannelKeepsOrder :
    takeFlight [{ src := 1, dst := 2, tok := some (tok 1) }, { src := 3, dst := 2, tok := some (tok 2) }] (fun f => f.tok = some (tok 2)) =
      some ({ src := 3, dst := 2, tok := some (tok 2) }, [{ src := 1, dst := 2, tok := some (tok 1) }]) := by decide +kernel

/-- A context whose command runs: released or not, in the comparator's hands or not. -/
def running (rel : Bool) (tw : Nat) : Ctx :=
  { ctxFor (armedOf 3 0 0) with twin := tw, partner := 0x01000000, run := some { cmd := { armedOf 3 0 0 with desc := padTo 64 [3, 5] }, released := rel } }

/-- Hypotheses of CommandsEnd: a VOID input, a released run, one that is not, and a command two frames old. -/
theorem meets_CommandsEnd :
    voidIn { ctxFor (armedOf 3 1 0) with slots := [(4, [{ tok 1 with void := some .checkFail }])] } (armedOf 3 1 0) = true ∧
    (ctxOf (seqUp 0x01000001 (running true 0)) 0x01000001 31 = some (running true 0) ∧ (running true 0).run.map (·.released) = some true) ∧
    (running false 0).run.map (·.released) = some false ∧
    (unissued (ctxFor (armedOf 3 0 0))).find? (fun a => a.frame + 2 ≤ 3) = some (armedOf 3 0 0) := by decide +kernel

/-- A context that is blocked: its command waits for a token. -/
def blockedCtx (k : Nat) : Ctx := { ctxFor (armedOf 3 1 0) with slots := [], lastIssue := 8 - k }

/-- A cluster with eight such contexts, and a ready one that is not resident. -/
def crowdedUnit : SeqUnit :=
  { ctxs := (List.range 8).map (fun k => (k, blockedCtx k)) ++ [(31, { ctxFor (armedOf 3 1 0) with resident := false })] }

/-- Hypotheses of ContextSwaps, of its start and of its end. -/
theorem meets_ContextSwaps :
    let s : State := { frame1 with units := [(0x01000000, crowdedUnit)] }
    let t : State := { frame1 with units := [(0x01000000, { crowdedUnit with swap := some (31, some 7) })] }
    isClu 0x01000000 = true ∧ (unitOf s 0x01000000).swap = none ∧ swapIn (unitOf s 0x01000000) = some 31 ∧ 8 ≤ residents (unitOf s 0x01000000) ∧
    allBlocked (unitOf s 0x01000000) = true ∧ swapOut (unitOf s 0x01000000) = some 7 ∧
    (unitOf t 0x01000000).swap = some (31, some 7) ∧ swapIn (unitOf (endSwap t 0x01000000) 0x01000000) = none ∧
    (ctxOf t 0x01000000 31).isSome = true := by decide +kernel

/-- Hypotheses of TwinNotesMeet: no note yet, and the partner's note there. -/
theorem meets_TwinNotesMeet :
    let c := running false 1
    let s := seqUp 0x01000001 c
    let t : State := { s with twinNotes := [(0x01000000, 31, { cmd := { armedOf 3 0 0 with desc := padTo 64 [3, 5] } })] }
    c.twin ≠ 0 ∧ dTwin (padTo 64 [3, 5]) = true ∧ c.run.map (fun r => (r.noted, r.released, r.status)) = some (false, false, none) ∧
    s.twinNotes.find? (fun n => n.1 = c.partner && n.2.1 = 31 && n.2.2.cmd.frame = 1 && n.2.2.cmd.idx = 0) = none ∧
    (t.twinNotes.find? (fun n => n.1 = c.partner && n.2.1 = 31 && n.2.2.cmd.frame = 1 && n.2.2.cmd.idx = 0)).map (·.2.2.status) = some none := by
  decide +kernel

/-- The address of the plan's output. -/
def outA : Nat := 0x110000000000

/-- The package with the admitted plan, its output's directory entry active and its tile, of zeros, good. -/
def outUp : State :=
  { planUp true with host := { up.host with dir := [(1, { state := 2, planId := 7, output := 0, bufOfs := [0, 256, 512] })] }
                     cal := frame1.cal, now := frame1.now, side := [(outA / 256, 2 ^ 63 + 2 ^ 62 + 2 ^ 32 + 0xf39643bd)] }

/-- Eight steps of 32 bytes to the checksum of a tile of 256 zeros. -/
theorem zeroCrc : tileCrc outA 1 (List.replicate 256 0) = 0xf39643bd := by
  have h0 : crc32cRun 0xFFFFFFFF (foldPrefix outA 1) = 0xb5963af6 := by decide +kernel
  have h (n : Nat) (c : Nat) : crc32cRun c (List.replicate (32 + n) 0) = crc32cRun (crc32cRun c (List.replicate 32 0)) (List.replicate n 0) := by
    rw [← List.replicate_append_replicate]; exact List.foldl_append
  have e : crc32cRun 0xFFFFFFFF (foldPrefix outA 1 ++ List.replicate 256 0) = crc32cRun 0xb5963af6 (List.replicate (32 + 224) 0) := by
    rw [← h0]; exact List.foldl_append
  rw [tileCrc, crc32c, e, h 224 0xb5963af6, (by decide +kernel : crc32cRun 0xb5963af6 (List.replicate 32 0) = 0xee23da02),
    h 192 0xee23da02, (by decide +kernel : crc32cRun 0xee23da02 (List.replicate 32 0) = 0xefdc8da1),
    h 160 0xefdc8da1, (by decide +kernel : crc32cRun 0xefdc8da1 (List.replicate 32 0) = 0x56ec61b0),
    h 128 0x56ec61b0, (by decide +kernel : crc32cRun 0x56ec61b0 (List.replicate 32 0) = 0x43d58f69),
    h 96 0x43d58f69, (by decide +kernel : crc32cRun 0x43d58f69 (List.replicate 32 0) = 0xa750b61f),
    h 64 0xa750b61f, (by decide +kernel : crc32cRun 0xa750b61f (List.replicate 32 0) = 0x8aae0f29),
    h 32 0x8aae0f29, (by decide +kernel : crc32cRun 0x8aae0f29 (List.replicate 32 0) = 0x54541374),
    (by decide +kernel : crc32cRun 0x54541374 (List.replicate 32 0) = 0xc69bc42)]
  decide

theorem outEntry (s : State) (h : s.side = outUp.side) : tileEntry s outA = { valid := true, gen := 1, log2 := 8, crc := 0xf39643bd } := by
  have m : memLevel outA = some 2 := by decide +kernel
  simp only [tileEntry, m, h]
  decide +kernel

theorem outRd (s : State) (h : s.mem = []) : rd s outA (2 ^ 8) = List.replicate 256 0 := by
  simp only [rd, h]
  decide +kernel

/-- The token of the output. -/
def outTok : Token := { frame := 1, gen := 1, slot := 0, ctx := 0 }

/-- Hypotheses of ResultTokensPublish: a token on its way and one that is not; a VOID token, and a valid one on time, late, of a safety output and of
another, and of no output. -/
theorem meets_ResultTokensPublish :
    (let f : Flight := { src := 1, dst := rResult, planId := 7, tok := some outTok, stamp := 5 }
     takeFlight [f] (fun f => f.dst = rResult && f.planId = 7 && f.tok = some outTok) = some (f, [])) ∧
    (eveOf outUp outTok.frame ≤ outUp.cal.eve ∧ (outAt plan0 0).safety = false ∧ ({ outAt plan0 0 with flags := 1 } : OutEntry).safety = true ∧
      planOf outUp 8 = none ∧ outputDir outUp.host 7 1 = none ∧ ({ outTok with void := some .lapsed } : Token).void = some .lapsed) ∧
    takeFlight outUp.flights (fun f => f.dst = rResult && f.planId = 7 && f.tok = some outTok) = none ∧
    (planOf outUp 7).map (·.admitted) = some true ∧ outputDir outUp.host 7 (outTok.ctx * 64 + outTok.slot) = some 1 ∧
    outUp.now < eveOf outUp outTok.frame ∧
    (readOutput outUp (resultReader 7 plan0 outTok []) (outAt plan0 (outTok.ctx * 64 + outTok.slot)) outTok.gen).1.ok = true := by
  refine ⟨by decide +kernel, by decide +kernel, by decide +kernel, by decide +kernel, by decide +kernel, by decide +kernel, ?_⟩
  have o : outAt plan0 (outTok.ctx * 64 + outTok.slot) = { addr := outA, length := 256, log2 := 8, flags := 0, rsv := 0 } := by decide +kernel
  have m : mapped outA (2 ^ 8) = true := by decide +kernel
  have p : tilePass outUp outA 8 1 = true := by rw [tilePass, outEntry outUp rfl, outRd outUp rfl, zeroCrc]; decide
  have n : List.range (cdiv 256 (2 ^ 8)) = [0] := by decide
  have f : (resultReader 7 plan0 outTok []).ph.flaky = [] := rfl
  rw [o]
  simp only [readOutput, n, List.foldl_cons, List.foldl_nil, Nat.zero_mul, Nat.add_zero, show outTok.gen = 1 from rfl, checkTile, m, outEntry outUp rfl, p, f]
  rfl

/-- Hypotheses of PublicationSparesTheReader and of the clauses of ResultRingsFill. -/
theorem meets_ResultRingsFill :
    (2 : Nat) < 3 ∧ 2 ^ ({} : Ring).log2Entry < 257 ∧ (256 : Nat) ≤ 2 ^ ({} : Ring).log2Entry ∧
    (({ tail := 3 } : Ring).tail + 1) % 2 ^ ({} : Ring).log2Count = 0 ∧ (({ tail := 2 } : Ring).tail + 1) % 2 ^ ({} : Ring).log2Count ≠ 0 ∧
    up.host.d3hot = false := by decide +kernel

/-- The package with the admitted plan and a state of cluster 0. -/
def switchUp (c : CluState) (mv : List Nat) : State :=
  { planUp true with plans := [{ thePlan true with select := [(0, 1)] }], health := [(0, { state := c, decided := if mv = [] then some 0 else none })],
                     moved := mv }

/-- Hypotheses of SwitchesTakeEffect. -/
theorem meets_SwitchesTakeEffect :
    let p : Plan := { thePlan true with select := [(0, 1)] }
    (livePlan (switchUp .inService []) 7 = some p ∧ (selectDue p 1).isSome = true ∧ exclusionDue (switchUp .inService []) p 1 = false) ∧
    exclusionDue (switchUp .quarantined [0]) p 1 = true ∧
    quarantineDue (switchUp .inService []) 0 1 0 = true ∧
    deferredDue { up with health := [(73, { decided := some 0, deferred := true })] } 1 0 = some 73 ∧
    (∃ s : State, dueSelect s.pln.select (s.cal.frame + 1) = some 1) ∧
    (List.range (variantCount plan0)).find? (fun v => (variantExcluded (switchUp .inService []) plan0 v).isEmpty) = some 0 :=
  ⟨by decide +kernel, by decide +kernel, by decide +kernel, by decide +kernel, ⟨{ up with pln := { up.pln with select := [(1, 1)] } }, by decide⟩,
    by decide +kernel⟩

/-- Two islands whose cores run, in the middle of frame 1. -/
def isles : State := { frame1 with islA := { running := true }, islB := { running := true } }

/-- Those islands with island A changed. -/
def islesA (f : Island → Island) : State := { isles with islA := f isles.islA }

/-- Hypotheses of EveCheckJudges and SafeEdges, at the earliest instant and at the latest. -/
theorem meets_EveCheck :
    (isles.cal.frame ≠ 0 ∧ max isles.now (isles.cal.eve + 5000) ≤ isles.cal.eve + 150000 ∧ isles.islA.works = true ∧ isles.islA.judged = false) ∧
    max ({ isles with now := isles.cal.eve + 150000 } : State).now (isles.cal.eve + 5000) ≤ isles.cal.eve + 150000 ∧
    (let s := islesA (fun x => { x with judged := true, good := true })
     s.islA.edged = false ∧ s.islA.held = false ∧ s.islA.works = true ∧ max s.now (s.cal.eve + 10000) ≤ s.cal.eve + 200000) ∧
    (isles.islA.good = false ∧ (islesA (fun x => { x with hDebug := true })).islA.held = true) ∧
    (let s : State := { isles with islB := { isles.islB with judged := true }, cal := { isles.cal with evalDone := true } }
     s.islA.judged = false ∧ s.islB.judged = true ∧ s.cal.evalDone = true) ∧
    (let s : State := { islesA (fun x => { x with judged := true }) with now := isles.cal.eve + 150001 }
     s.islA.judged = true ∧ s.islB.judged = false ∧ s.cal.eve + 150000 < s.now) := by decide +kernel

/-- Hypotheses of PairRestarts. -/
theorem meets_PairRestarts :
    isles.islA.works = true ∧ (isles.islA.restarting = false ∧ isles.islA.waiting = false ∧ isles.islA.deferred = false) ∧
    (islesA (fun x => { x with waiting := true })).islA.waiting = true ∧
    (islesA (fun x => { x with restarting := true })).islA.restarting = true ∧
    (restartOk (islesA (fun x => { x with restarting := true })) .a (2 ^ 64 - 1) true = true ∧
      restartOk (islesA (fun x => { x with restarting := true })) .a 1 true = false ∧
      (islesA (fun x => { x with snapshot := some {} })).islA.snapshot.isSome = true) ∧
    (let s := islesA (fun x => { x with lastWdog := 1920000 })
     s.islA.lastWdog + 80000 ≤ s.now ∧ s.now ≤ s.islA.lastWdog + 120000 ∧ (islesA (fun x => { x with lastWdog := 1920001 })).now < 1920001 + 80000) ∧
    (isles.islA.lastWdog + 120000 < isles.now ∧ (islesA (fun x => { x with deferred := true })).islA.deferred = true) ∧
    (cmpPass (2 ^ 64 - 1) true = true ∧ cmpPass (2 ^ 64 - 1) false = false ∧ cmpPass (2 ^ 64 - 2) true = false) ∧
    (isles.islB.running = true ∧ isles.islB.restarting = false ∧ isles.islA.hPeerLost = false) ∧
    (2 ≤ (islesA (fun x => { x with fails := 2 })).islA.fails ∧ (islesA (fun x => { x with fails := 1 })).islA.fails < 2) ∧
    State.reset.islA.running = false := by decide +kernel

/-- Hypotheses of HeartbeatsAndLoss: 300 µs without one, exactly. -/
theorem meets_HeartbeatsAndLoss :
    isles.islA.works = true ∧ (islesA (fun x => { x with hbOut := some {} })).islA.hbOut = some {} ∧ isles.islA.hbOut = none ∧
    ((islesA (fun x => { x with running := false })).islA.works = false ∧ (islesA (fun x => { x with noticeIn := true })).islA.noticeIn = true) ∧
    (let s := islesA (fun x => { x with lastHb := 1700000 })
     s.islA.hPeerLost = false ∧ s.islA.peerDebug = false ∧ s.islA.lastHb + 300000 ≤ s.now) := by decide +kernel

/-- A context of a P0 task, or of another, that has run longer than its budget. -/
def overCtx (part : Nat) : Ctx :=
  { running false 0 with part := part, budget := 999, run := some { cmd := armedOf 3 0 0, cycles := 1000 } }

/-- Hypotheses of VigilWatches. -/
theorem meets_VigilWatches :
    isles.host.ready = true ∧ isles.islA.inp ≠ 7 % 8 ∧
    (vgPasses { kind := .taskStart } = true ∧ vgPasses { kind := .completion, status := 1 } = true ∧
      startsStopped (vgPush isles { kind := .taskStart }) { kind := .taskStart } = false) ∧
    (let s := seqUp 0x01000001 { overCtx 0 with planId := 7, task := 0, stopped := some 1 }
     startsStopped (vgPush s { kind := .taskStart, unit := 0x01000001, planId := 7, frame := 1 })
       { kind := .taskStart, unit := 0x01000001, planId := 7, frame := 1 } = true) ∧
    (∀ p ∈ [0, 3], ctxOf (seqUp 0x01000001 (overCtx p)) 0x01000001 31 = some (overCtx p) ∧ (overCtx p).overrun ≠ some 1 ∧ (overCtx p).twin = 0 ∧
      ((overCtx p).run.bind (budgetAt (seqUp 0x01000001 (overCtx p)) 0x01000001 (overCtx p) · 1000)).isSome = true ∧
      (overCtx p).run.map (budgetAt (seqUp 0x01000001 (overCtx p)) 0x01000001 { overCtx p with budget := 1000 } · 1001) = some none) ∧
    ((islOf isles (itemWatcher 9)).works = true ∧ itemBreached isles 9 (railNominal 9 + railNominal 9) = true ∧
      itemBreached isles 9 (railNominal 9) = false ∧ itemQuarter 9 = none ∧ itemBreached isles 19 250 = true ∧ itemBreached isles 19 249 = false ∧
      itemBreached isles 20 231 = true ∧ itemBreached isles 20 230 = false) ∧
    (isles.vg.queue.length < 8192 ∧ 8192 ≤ (List.replicate 8192 ({ kind := .taskStart } : VgEvent)).length) := by
  refine ⟨by decide, by decide, by decide +kernel, by decide +kernel, by decide +kernel, by decide +kernel, by decide, Nat.le_of_eq List.length_replicate.symm⟩

/-- Hypotheses of BoardLink and DebugOfAnIsland. -/
theorem meets_BoardLink :
    isles.islB.running = true ∧ spiBad 0 0 0 = true ∧ spiBad 1 0 (crc16 [1, 0] + 1) = true ∧ spiBad 3 0 (crc16 [3, 0]) = false ∧
    (let s := islesA (fun x => { x with debugEn := true })
     s.islA.debugEn = true ∧ s.islA.attached = false ∧ isles.islA.debugEn = false) ∧
    (let s := islesA (fun x => { x with debugEn := true, attached := true, halted := true })
     s.islA.dbg = true ∧ s.islA.replay.length < 256 ∧ s.islA.halted = true) := by decide +kernel

/-- A package with one cluster's health, in the middle of frame 1. -/
def cluUp (h : Health) : State := { frame1 with health := [(9, h)] }

/-- Hypotheses of HealthEventsTakeEffect. -/
theorem meets_HealthEventsTakeEffect :
    (healthOf (cluUp { state := .restricted }) 9).state = .restricted ∧
    (let s : State := { frame1 with units := [(0x01000009, { hbOut := some [0x01000008] })] }
     isClu 0x01000009 = true ∧ (unitOf s 0x01000009).hbOut = some [0x01000008]) ∧
    (frame1.cal.frame ≠ 0 ∧ frame1.hbJudged ≠ frame1.cal.frame) ∧ 1000 ≤ (healthOf (cluUp { clean := 1000 }) 9).clean ∧
    ((healthOf (cluUp { state := .probation, cleanRun := 10000 }) 9).state = .probation ∧
      10000 ≤ (healthOf (cluUp { state := .probation, cleanRun := 10000 }) 9).cleanRun) := by decide +kernel

/-- A tile failure seen by a unit, the tile's entry valid or not. -/
def fail0 (a u : Nat) (v : Bool) : TileFail := { loc := a, log2 := 8, gen := 1, unit := u, opcode := 0x10, frame := 1, valid := v }

/-- A package with a good tile and one tile failure. -/
def failUp (f : TileFail) : State := { outUp with tileFails := [f] }

/-- Hypotheses of AttributionAndRepair: CVUs 4 and 7 are free, a stored tile passes, seen by a cluster and by an engine, and one fails, in cluster
SRAM and elsewhere. -/
theorem meets_AttributionAndRepair :
    ((failUp (fail0 outA 0x01000047 true)).tileFails = [fail0 outA 0x01000047 true] ∧ (cvuOf (failUp (fail0 outA 0x01000047 true)) 4).busy = false ∧
      (cvuOf (failUp (fail0 outA 0x01000047 true)) 7).busy = false) ∧
    (∀ u ∈ [0x01000047, 0x05000000], recheck (failUp (fail0 outA u true)) (fail0 outA u true) = true) ∧
    isClu 0x01000047 = true ∧ isClu 0x05000000 = false ∧
    (recheck up (fail0 0x120000000000 0x01000047 false) = false ∧ memLevel 0x120000000000 = some 0) ∧
    (recheck up (fail0 outA 0x01000047 false) = false ∧ memLevel outA ≠ some 0) ∧
    (let s : State := { up with repairs := [(0x10000, 0x200010000, 12, 1, 0)] }
     s.repairs.find? (fun r => r.1 = 0x10000) = some (0x10000, 0x200010000, 12, 1, 0)) := by
  refine ⟨by decide +kernel, fun u hu => ?_, by decide, by decide, by decide +kernel, by decide +kernel, by decide +kernel⟩
  show (true && decide (_ = _)) = true
  rw [show (fail0 outA u true).loc = outA from rfl, outEntry (failUp (fail0 outA u true)) rfl, show (fail0 outA u true).log2 = 8 from rfl, outRd (failUp (fail0 outA u true)) rfl,
    show (fail0 outA u true).gen = 1 from rfl, zeroCrc]
  decide

/-- Hypotheses of SelfTestsTakeEffect. -/
theorem meets_SelfTestsTakeEffect :
    mayTest (cluUp { state := .quarantined }) 9 = true ∧
    (let s := cluUp { state := .quarantined, testing := true, fails := 7 }
     (healthOf s 9).testing = true ∧ (healthOf s 9).state = .quarantined ∧ relayGood s 9 = true ∧ 7 ≤ (healthOf s 9).fails) ∧
    (quarterOn frame1 0 = true ∧ (rotOf frame1 0).active = false ∧
      testable (passOver (atCalend frame1) 0 72) 0 (rotOf (passOver (atCalend frame1) 0 72) 0).pointer = true) ∧
    (let s : State := { cluUp { state := .inTest } with st := { frame1.st with rot := [(0, { active := true, pointer := 9 })] } }
     (rotOf s 0).active = true ∧ (healthOf s (72 * 0 + (rotOf s 0).pointer)).state = .inTest ∧ (rotOf s 0).passed = none) ∧
    (let s : State := { cluUp { state := .inTest } with
       st := { frame1.st with rot := [(0, { active := true, pointer := 9, passed := some 0 })] }
       cal := { frame1.cal with frame := 4 } }
     stepOver s 0 s.cal.frame = true) ∧
    (usedClusters frame1).contains (72 * 0 + (rotOf frame1 0).pointer) = false := by decide +kernel

/-- Hypotheses of SegmentsAndDebt. -/
theorem meets_SegmentsAndDebt :
    segmentMayStart frame1 4 7 10000 = true ∧ segmentMayStart frame1 2 10 15000 = true ∧
    (∃ k i, segmentMayStart frame1 k i (segmentLen frame1 k) = true ∧ scheduled frame1 k i = true) ∧ scheduled frame1 4 7 = false ∧
    (∃ s : State, s.st.seg = some { kind := 4, item := 7, start := 0, len := 10000 }) ∧ max 60000 (0 + 10000) ≤ 0 + 60000 ∧ 0 + 60000 < max 60001 (0 + 10000) ∧
    (let s : State := { frame1 with now := 750000000 }
     debtLevel (debtOf s 2) (kindInterval 2) ≠ 0 ∧ tget s.st.debtState 2 0 = 0) ∧
    (let s : State := { frame1 with now := 1000000000 }
     debtLevel (debtOf s 2) (kindInterval 2) = 2 ∧ tget s.st.debtState 2 0 ≠ 2) ∧
    debtLevel (debtOf { frame1 with now := 749999999 } 2) (kindInterval 2) = 0 :=
  ⟨by decide +kernel, by decide +kernel, ⟨1, 0, by decide +kernel⟩, by decide +kernel, ⟨{ frame1 with st := { frame1.st with seg := some { kind := 4, item := 7, start := 0, len := 10000 } } }, rfl⟩,
    by decide, by decide, by decide +kernel, by decide +kernel, by decide +kernel⟩

/-- A package with one controller in a state. -/
def stcUp (c : Stc) : State := { frame1 with stc := [(3, c)] }

/-- A request of a class, aged or not, an ingest write or not. -/
def req0 (cls atT : Nat) (ing : Bool) : Req := { port := 5, cls := cls, addr := 0x100, wr := ing, ingest := ing, atT := atT }

/-- Hypotheses of StoreControllersAct. -/
theorem meets_StoreControllersAct :
    (stcOf frame1 3).retaining = false ∧ segmentHolds frame1 580 3 = false ∧
    (let s : State := { stcUp { window := 2, belowSince := some 0 } with now := 1000000000 }
     (stcOf s 3).belowSince = some 0 ∧ 0 + 1000000000 ≤ s.now ∧ (stcOf s 3).window ≠ 0) ∧
    ((stcOf frame1 3).level + 131072 ≤ 131072 ∧ (stcOf frame1 3).panicOn * 8192 ≤ (stcOf frame1 3).level + 98304 ∧
      (stcOf frame1 3).level + 98303 < (stcOf frame1 3).panicOn * 8192) ∧
    (let s := stcUp { band := 5, tempHalf := 100 }
     nextBand (stcOf s 3).band (stcOf s 3).tempHalf ≠ (stcOf s 3).band) := by decide +kernel

/-- Hypotheses of SchedulerChoice, clause by clause: a request to serve, an idle row at 72 ns and one before it, ingest in panic, an old request, and
the lowest class. -/
theorem meets_SchedulerChoice :
    (let c : Stc := { chans := [(31, { queue := [req0 2 0 false] })] }
     (stcOf (stcUp c) 3).retaining = false ∧
      segmentHoldsCh (stcUp c) 3 31 = false ∧ chooseReq (refreshFirst frame1.now (stcOf (stcUp c) 3) 31)
        (tget (refreshFirst frame1.now (stcOf (stcUp c) 3) 31).chans 31 {}) frame1.now = some (req0 2 0 false)) ∧
    (let c : Stc := {}
     chooseReq (refreshFirst frame1.now (stcOf (stcUp c) 3) 31) (tget (refreshFirst frame1.now (stcOf (stcUp c) 3) 31).chans 31 {}) frame1.now = none) ∧
    (switchNext 8000 0 [req0 0 1 false, req0 3 0 false] = some (req0 3 0 false) ∧ switchNext 7999 0 [req0 1 1 false, req0 0 2 false] = some (req0 0 2 false) ∧
      switchNext 7999 0 [req0 2 1 false, req0 1 2 false] = some (req0 1 2 false) ∧ switchNext 7999 2 [req0 3 1 false, req0 2 2 false] = some (req0 2 2 false) ∧
      switchNext 7999 3 [req0 2 1 false, req0 3 2 false] = some (req0 3 2 false)) ∧
    (let s := stcUp { chans := [(31, { banks := [(31, { openRow := some 5, lastUse := 1999928 })] })] }
     (tget (tget (stcOf s 3).chans 31 {}).banks 31 {}).openRow = some 5 ∧ (tget (tget (stcOf s 3).chans 31 {}).banks 31 {}).lastUse + 72 ≤ s.now) ∧
    (let s := stcUp { chans := [(31, { banks := [(31, { openRow := some 5, lastUse := 1999929 })] })] }
     s.now < (tget (tget (stcOf s 3).chans 31 {}).banks 31 {}).lastUse + 72) ∧
    chooseReq { panic := true } { queue := [req0 0 0 false, req0 3 8000 true] } 8000 = some (req0 3 8000 true) ∧
    chooseReq {} { queue := [req0 0 8000 false, req0 3 0 false] } 8000 = some (req0 3 0 false) ∧
    chooseReq {} { queue := [req0 3 1 false, req0 1 8000 false] } 8000 = some (req0 1 8000 false) := by decide +kernel

/-- A package whose RGL instance of port 5 has partition P3's bucket on. -/
def bucketUp (level : Nat) : State :=
  { frame1 with rgl := [(rglOfPort 5, { tbEn := [(3, true)], tbLevel := [(3, level)], tbRate := [(3, 1)], tbBurst := [(3, 1)] })] }

/-- A transaction. -/
def tx0 (part : Nat) : StoreTx := { die := 3, addr := 0x1FFFFFF80, wr := false, part := part }

/-- Hypotheses of TrafficRegulation. -/
theorem meets_TrafficRegulation :
    (mayIssueTx frame1 5 3 3 = true ∧ bucketed frame1 5 3 = false ∧ (stcOf frame1 3).retaining = false ∧ swOfPort 5 ≠ 3) ∧
    (mayIssueTx frame1 287 3 3 = true ∧ swOfPort 287 = 3 ∧ channelRoom (stcOf frame1 3) (reqOf frame1 287 (tx0 3)) = true) ∧
    (let s := stcUp { chans := [(decCh {} (tx0 3).addr, { queue := List.replicate 64 (req0 2 0 false) })] }
     swOfPort 287 = 3 ∧ channelRoom (stcOf s 3) (reqOf s 287 (tx0 3)) = false) ∧
    (mayIssueTx (bucketUp 128) 5 3 3 = true ∧ bucketed (bucketUp 128) 5 3 = true) ∧ mayIssueTx (bucketUp 127) 5 3 3 = false ∧
    (∃ i p : Nat, i < 5 ∧ 1 ≤ p ∧ p ≤ 3 ∧ tget (rglOf (bucketUp 0) i).tbEn p false = true) ∧
    max (tget (rglOf frame1 (rglOfPort 5)).lastLevel 3 0) (tget (rglOf frame1 (rglOfPort 5)).stale (staleKey 5 3) 0) + 9103 ≤ frame1.now :=
  ⟨by decide +kernel, by decide +kernel, by decide +kernel, by decide +kernel, by decide +kernel, ⟨rglOfPort 5, 3, by decide +kernel⟩, by decide +kernel⟩

/-- A defined stream of two lines of 16 bytes, and one of datagrams. -/
def csi0 : Stream := { defd := true, kind := 0, port := 11, vc := 15, dt := 0x2A, width := 16, height := 2, ringBase := 0x10000 }
def udp0 : Stream := { defd := true, kind := 1, udp := 5000, gapMode := true, gapUs := 20, ringBase := 0x10000 }

/-- A sample that is open since 1 ms. -/
def smp0 : Sample := { seq := 1, gen := 1, rows := 2, lastAt := 1000000, data := List.replicate 32 7 }

/-- A package with a stream. -/
def strUp (t : Stream) : State := { frame1 with streams := [(31, t)] }

/-- An Ethernet frame with a UDP datagram of one byte for port 5000. -/
def eth0 : List Byte :=
  padTo 12 [] ++ [0x08, 0x00] ++ [0x45, 0, 0, 29, 0, 0, 0, 0, 64, 17, 0, 0] ++ padTo 8 [] ++ [0, 1, 0x13, 0x88, 0, 9, 0, 0, 0xAA]

/-- Hypotheses of SensorSamples. -/
theorem meets_SensorSamples :
    csiStreams (strUp csi0) 11 15 = [31] ∧ ((parseUdp eth0).map (·.dport) = some 5000) ∧
    ((streamOf (strUp csi0) 31).cur = none ∧ (stcOf (strUp csi0) csi0.die).retaining = false) ∧
    (smp0.fail = 0 ∧ smp0.rows = csi0.height ∧ smp0.emb = csi0.embLines) ∧ ({ smp0 with rows := 1 } : Sample).rows ≠ csi0.height ∧
    (udp0.kind = 1 ∧ udp0.gapMode = true ∧ smp0.lastAt + udp0.gapUs * 1000 ≤ frame1.now) ∧
    (let s := strUp { csi0 with closing := [smp0] }
     [smp0].find? (fun x => x.moved < x.data.length) = some smp0 ∧ (moveTile s 31 smp0 true).isSome = true ∧ segmentHolds s 580 csi0.die = false) ∧
    (let y : Sample := { smp0 with moved := 32, placed := true }
     let s := strUp { csi0 with closing := [y] }
     y.data.length ≤ y.moved ∧ (stcOf s csi0.die).level + 256 ≤ 131072 ∧ placeSample csi0 y = some y ∧ segmentHolds s 580 csi0.die = false) ∧
    (let s : State := { frame1 with st := { frame1.st with seg := some { kind := 5, item := 0, start := 0, len := 10000, die := some csi0.die } } }
     segmentHolds s 580 csi0.die = true) ∧
    (3 ≤ csi0.slots ∧ freeSampleSlot csi0 = some 1 ∧ up.host.ready = true ∧ parseUdp [] = none) := by decide +kernel

/-- Hypotheses of TimeAndLinks: before Ready, and after it at each boundary of the slew. -/
theorem meets_TimeAndLinks :
    (let s : State := { up with host := { up.host with ready := false } }
     s.inReset = false ∧ s.host.ready = false ∧ s.time.locked = false ∧ (1 : Int) ≠ 0) ∧
    (up.host.ready = true ∧ (1000000 : Int) < 1000001 ∧ (-1000001 : Int) < -1000000 ∧ (-1000000 : Int) ≤ 1000000) ∧
    (∃ s : State, s.time.gmPresent = true) ∧ (up.railsLow = false ∧ 19 < 20) ∧ 3 < 4 :=
  ⟨by decide, by decide, ⟨{ up with time := { up.time with gmPresent := true } }, rfl⟩, by decide, by decide⟩

/-- A message for the Almanac. -/
def msg0 : AlmMsg := { source := 0x1000, code := .health, severity := 2, payload := [1], time := 5 }

/-- A record that it repeats. -/
def rec0 : AlmRec := { seq := 9, source := 0x1000, code := .health, severity := 2, payload := [1], time := 1, lastTime := 1 }

/-- An Almanac that is ready. -/
def almUp (f : Alm → Alm) : State := { frame1 with alm := f { frame1.alm with ready := true } }

/-- Hypotheses of AlmanacEventsAndJournal, but for a full ring. -/
theorem meets_AlmanacEvents :
    (let s := almUp id
     s.alm.ready = true ∧ s.alm.clearing = false ∧ repeatSlot s.alm msg0.source msg0.code msg0.severity msg0.payload msg0.time = none ∧
       placeSlot s.alm 2 = some 0) ∧
    (let s (n : Nat) : State := almUp (fun a => { a with clearing := true, clearBuffer := List.replicate n msg0 })
     (s 255).alm.ready = true ∧ (s 255).alm.clearing = true ∧ (s 255).alm.clearBuffer.length < 256 ∧ 256 ≤ (s 256).alm.clearBuffer.length) ∧
    (let s := almUp (fun a => { a with ring := [(3, rec0)], newest := [(0x1000, .health, 9)], head := 9 })
     repeatSlot s.alm msg0.source msg0.code msg0.severity msg0.payload msg0.time = some (3, rec0)) ∧
    (let s := almUp (fun a => { a with due := [{ img := rec0, due := 2000000 }] })
     s.alm.due.filter (fun e => decide (e.due ≤ s.now)) ≠ []) ∧
    (frame1.inReset = false ∧ frame1.railsLow = false) ∧
    (∃ s : State, 4 ≤ s.host.bootStage ∧ s.season.applied = true) :=
  ⟨by decide +kernel, by decide +kernel, by decide +kernel, by decide +kernel, by decide,
    ⟨{ frame1 with host := { frame1.host with bootStage := 4 }, season := { frame1.season with applied := true } }, by decide, rfl⟩⟩

/-- Hypotheses of the clauses on a compaction: a half of 49,152 entries, and a compaction whose time has come. -/
theorem meets_Compaction :
    (∃ s : State, s.alm.compacting = false ∧ 49152 ≤ (tget s.alm.halves s.alm.half []).length) ∧
    (let s := almUp (fun a => { a with compacting := true, compactAt := 2000000 })
     s.alm.compacting = true ∧ s.alm.compactAt ≤ s.now ∧ s.alm.half < 2 ∧ (tget s.alm.halves s.alm.half []).length < 49152 ∧
       s.alm.due.filter (fun e => decide (e.due ≤ s.now)) = []) :=
  ⟨⟨almUp (fun a => { a with halves := [(0, List.replicate 49152 { img := rec0, due := 0 })] }), rfl, Nat.le_of_eq List.length_replicate.symm⟩,
    by decide +kernel⟩

/-- A ring of `n` slots, every one with a safety record. -/
def safetyRing (l : List Nat) : Tbl AlmRec := l.map (fun k => (k, { severity := 4 }))

theorem safetyRing_has (l : List Nat) (k : Nat) (h : k ∈ l) : thas (safetyRing l) k = true := by
  induction l with
  | nil => cases h
  | cons x l ih =>
    by_cases e : x = k
    · simp [safetyRing, thas, tfind, e]
    · have := ih ((List.mem_cons.1 h).resolve_left (fun c => e c.symm))
      simpa [safetyRing, thas, tfind, e] using this

theorem safetyRing_free (l : List Nat) (h : ∀ k, k % almSlots ∈ l) (n k : Nat) : freeSlot (safetyRing l) n k = none := by
  induction n generalizing k with
  | zero => rfl
  | succ n ih => rw [freeSlot, if_pos (safetyRing_has l _ (h k)), ih]

theorem safetyRing_old (l : List Nat) : oldestSlot (safetyRing l) 2 = none := by
  induction l with
  | nil => rfl
  | cons x l ih => simpa [oldestSlot, safetyRing] using ih

theorem safetyRing_full (l : List Nat) (h : ∀ k, k % almSlots ∈ l) : placeSlot { ring := safetyRing l } 2 = none := by
  simp only [placeSlot, safetyRing_free l h, safetyRing_old, Option.map_none]

theorem mod_almSlots (k : Nat) : k % almSlots ∈ List.range almSlots := List.mem_range.2 (Nat.mod_lt _ (by unfold almSlots; omega))

/-- Hypotheses of the clause of a full ring: nothing gives way to a warning. -/
theorem meets_FullRing : placeSlot { ring := safetyRing (List.range almSlots) } 2 = none := safetyRing_full _ mod_almSlots

/-- The device released from its reset, at a boot stage. -/
def bootUp (n : Nat) : State :=
  { State.reset with inReset := false, railsLow := false
                     host := { State.reset.host with bootStage := n }, flash := { State.reset.flash with mib := 256 } }

/-- Hypotheses of ResetsAndBootStages; of the flash without a good bank. -/
theorem meets_ResetsAndBootStages :
    State.reset.inReset = true ∧ (∃ s : State, s.railsLow = true) ∧
    (∀ n ∈ [1, 2, 3, 4, 5, 6, 7], atStage (bootUp n) n = true) ∧ (bootUp 7).host.ready = false ∧
    ((bootUp 2).ident.hubFuseOk = true ∧ knownType (bootUp 2).ident.hwType = true ∧ 256 ≤ (bootUp 2).flash.mib ∧
      (tryBanks (bootOrder (rejectTried (bootUp 2)).1) (rejectTried (bootUp 2)).1 (rejectTried (bootUp 2)).2).2.2 = none) ∧
    0 < (bootUp 7).cal.periodReg :=
  ⟨by decide, ⟨{ State.reset with railsLow := true }, rfl⟩, by decide +kernel, by decide, by decide +kernel, by decide⟩

/-- Hypotheses of the IMAGE_LOAD clause with a good bank: an image that passes the checks of Table 19.4, of which the signatures are open to the
model. -/
theorem meets_ImageLoad (img : List Byte) (h : bankPasses ({ bootUp 2 with upd := { (bootUp 2).upd with banks := [(1, { state := 3, image := img })] } }) img
      = true) :
    let s : State := { bootUp 2 with upd := { (bootUp 2).upd with banks := [(1, { state := 3, image := img })] } }
    (tryBanks (bootOrder (rejectTried s).1) (rejectTried s).1 (rejectTried s).2).2.2 = some 1 := by
  intro s
  have e : bootOrder (rejectTried s).1 = [1] := rfl
  have r : rejectTried s = (s, 0) := rfl
  rw [e, r]
  simp only [tryBanks]
  have b : bankOf s 1 = { state := 3, image := img } := rfl
  rw [b]
  simp only [show ¬ ((3 : Nat) = 2) from by decide, if_false, b]
  rw [if_pos h]

/-- A package in SURVIVAL for 20 ms, hotter than its cap. -/
def hotUp (f : Pm → Pm) : State := { frame1 with pm := f { frame1.pm with state := 3 } }

/-- Hypotheses of PowerEventsTakeEffect. -/
theorem meets_PowerEvents :
    (∃ s : State, s.season.cfg.flowMon = true ∧ s.season.applied = true ∧ s.inReset = false ∧ s.railsLow = false) ∧
    ((-5120 : Int) ≤ 14080) ∧
    (let s := hotUp (fun m => { m with survAt := 0, tjHist := [(19000000, 500, 4000)] })
     let s1 : State := { s with now := max s.now (s.pm.survAt + 20000000) }
     s.pm.p0Stopped = false ∧ survivalCap s * 10 * (powerOver s1 10000000).2 < (powerOver s1 10000000).1) ∧
    (let s : State := { hotUp (fun m => { m with coolSince := some 0 }) with now := 10000000000 }
     s.pm.coolSince = some 0 ∧ 0 + 10000000000 ≤ s.now) ∧
    (let s : State := { frame1 with pm := { frame1.pm with pairs := [(0, { tripRun := 2 })] } }
     s.vg.tripped = false ∧ s.pm.pairs.any (fun p => decide (2 ≤ p.2.tripRun)) = true) ∧
    (let s : State := { frame1 with season := { frame1.season with cfg := { frame1.season.cfg with warmHold := true } } }
     warmMayRun s = true ∧ warmMayRun frame1 = false) ∧
    (let s : State := { frame1 with pm := { frame1.pm with tjHist := [(2000000, 500, 4000)] } }
     s.pm.state ≠ 3 ∧ (powerOver s 10000000).2 ≠ 0) ∧
    (let s : State := { frame1 with pm := { frame1.pm with q := [(3, { pendingStep := some 2, warmBelow := some 0 })] } }
     (pmQ s 3).pendingStep = some 2 ∧ (pmQ s 3).warmBelow = some 0) ∧
    (capTarget { frame1 with pm := { frame1.pm with capW := 400 } } ≤ 400 ∧ frame1.pm.capW < capTarget frame1) :=
  ⟨⟨{ frame1 with season := { frame1.season with applied := true } }, by decide, rfl, rfl, rfl⟩, by decide, by decide +kernel, by decide +kernel,
    by decide +kernel, by decide +kernel, by decide +kernel, by decide +kernel, by decide +kernel⟩

/-- Hypotheses of UpdateEpochsTakeEffect. -/
theorem meets_UpdateEpochs :
    (let s : State := { frame1 with upd := { frame1.upd with state := 3, epoch := some 1 } }
     s.host.ready = true ∧ s.upd.state = 3 ∧ s.upd.epoch = some 1 ∧ 1 ≤ s.cal.frame ∧ s.upd.handover ≠ 1 ∧
      ({ s with upd := { s.upd with handover := 1 } } : State).upd.handover = 1) ∧
    (let s : State := { frame1 with upd := { frame1.upd with state := 4, windowEnd := some 1 } }
     s.upd.windowEnd = some 1 ∧ 1 ≤ s.cal.frame) ∧
    (let s : State := { frame1 with upd := { frame1.upd with state := 5, fallback := some 1 } }
     s.upd.fallback = some 1 ∧ s.upd.restartKind = false ∧ ({ s with upd := { s.upd with restartKind := true } } : State).upd.restartKind = true) ∧
    (frame1.host.ready = true ∧ frame1.upd.keysReady = false) := by decide +kernel

/-- Hypotheses of MemoryStaysCanonical, CheckValueUnitsComputeTheirCrcs, StepRunsTheFrontCommand. -/
theorem meets_Memory : Memory.wf State.reset.mem = true ∧ Memory.wf State.reset.hostMem = true ∧ (∃ t, step State.reset = .next t) ∧ (3 : Nat) < 4 :=
  ⟨by decide, by decide, ⟨_, rfl⟩, by decide⟩

/-! ## WellFormed refuses what does not fit -/

/-- The submission entries: one that fits, and one for each check. -/
theorem test_wf_entry :
    (Instr.nop (ent 0x0100 [] 0)).wf = true ∧ (Instr.nop (ent 0x0101 [] 0)).wf = false ∧
    (Instr.nop { ent 0x0100 [] 0 with param := [] }).wf = false ∧ (Instr.nop { ent 0x0100 [] 0 with flags := 256 }).wf = false ∧
    (Instr.nop { ent 0x0100 [] 0 with tag := 2 ^ 32 }).wf = false ∧ (Instr.nop { ent 0x0100 [] 0 with bufAddr := 2 ^ 64 }).wf = false ∧
    (Instr.nop { ent 0x0100 [] 0 with bufLen := 2 ^ 32 }).wf = false ∧ (Instr.nop { ent 0x0100 [] 0 with rsv := 2 ^ 40 }).wf = false ∧
    (Instr.dataWriteRewrite (ent 0x0300 [0, 0, 1] 64)).wf = true ∧ (Instr.dataWriteRewrite (ent 0x0300 [0, 0, 2] 64)).wf = false ∧
    (Instr.seqEditReset (ent 0x0401 [0, 3] 0)).wf = true ∧ (Instr.seqEditReset (ent 0x0401 [0, 0] 0)).wf = false ∧
    (Instr.expertUnlockService (ent 0x0A00 [0] 0)).wf = false ∧ (Instr.almClear (ent 0x0700 [] 0) false).wf = false := by decide +kernel

/-- Units, contexts, tokens and credits, at their borders. -/
theorem test_wf_units :
    (Instr.sync 0x01030047 31 {}).wf = true ∧ (Instr.sync 0x01030048 31 {}).wf = false ∧ (Instr.sync 0x01030047 32 {}).wf = false ∧
    (Instr.sync 0x01040000 0 {}).wf = false ∧ (Instr.nleCrop 0x07030000 7 {}).wf = true ∧ (Instr.nleCrop 0x07030001 7 {}).wf = false ∧
    (Instr.seqHeartbeat 0x02000000).wf = false ∧
    (Instr.tokenArrival 0x05000000 (tok (2 ^ 48 - 1))).wf = true ∧ (Instr.tokenArrival 0x05000000 (tok (2 ^ 48))).wf = false ∧
    (Instr.tokenArrival 0x05000000 { tok 1 with slot := 64 }).wf = false ∧ (Instr.tokenArrival 0x05000000 { tok 1 with ctx := 32 }).wf = false ∧
    (Instr.tokenArrival 0x05000000 { tok 1 with gen := 65536 }).wf = false ∧ (Instr.resultToken (2 ^ 64) (tok 1)).wf = false ∧
    (Instr.resultToken 7 { tok 1 with tileId := 2 ^ 32 }).wf = false ∧
    (Instr.creditArrival 0x06000000 { frame := 1, counter := 31, ctx := 31 }).wf = true ∧
    (Instr.creditArrival 0x06000000 { frame := 1, counter := 32, ctx := 31 }).wf = false ∧
    (Instr.variantSwitch (2 ^ 64)).wf = false ∧ (Instr.vigilEvent { unit := 0 }).wf = false := by decide +kernel

/-- Registers, windows and check-value units. -/
theorem test_wf_host :
    (Instr.registerWrite 0x10000 64 0).wf = true ∧ (Instr.registerWrite (2 ^ 29) 4 0).wf = false ∧ (Instr.registerWrite 0 0 0).wf = false ∧
    (Instr.registerWrite 0 4097 0).wf = false ∧ (Instr.registerWrite 0 1 256).wf = false ∧ (Instr.sqTailDoorbell (2 ^ 32)).wf = false ∧
    (Instr.apertureRead (2 ^ 30) 4).wf = false ∧ (Instr.apertureRead 0 8192).wf = false ∧ (Instr.apertureWrite (2 ^ 30) []).wf = false ∧
    (Instr.cvuStart 15 0x700).wf = true ∧ (Instr.cvuStart 16 0).wf = false ∧ (Instr.cvuStart 0 (2 ^ 32)).wf = false ∧
    (Instr.cvuDataWrite 0 3 0).wf = false ∧ (Instr.cvuDataWrite 0 2 65536).wf = false ∧ (Instr.cvuRunDone 16).wf = false ∧
    (Instr.dmaTimeout (2 ^ 32)).wf = false ∧ (Instr.spiBadCommand 256 0 0).wf = false ∧ (Instr.spiBadCommand 0 0 65536).wf = false := by decide +kernel

/-- Clusters, Quarters, islands, stores, sensors. -/
theorem test_wf_ranges :
    (Instr.quarantine 287).wf = true ∧ (Instr.quarantine 288).wf = false ∧ (Instr.rotationStepStart 4).wf = false ∧
    (Instr.checkAttribution 4).wf = true ∧ (Instr.checkAttribution 3).wf = false ∧ (Instr.checkAttribution 8).wf = false ∧
    (Instr.weightRepair (2 ^ 48)).wf = false ∧ (Instr.holidaySegmentStart 0 0 0).wf = false ∧ (Instr.holidaySegmentStart 6 0 0).wf = false ∧
    (Instr.testOverdue 6).wf = false ∧ (Instr.peerLossTimeout .a 3).wf = false ∧ (Instr.comparatorMismatch .b 64 true).wf = false ∧
    (Instr.islandResetRelease .a (2 ^ 64) true).wf = false ∧ (Instr.vigilInputChange .a 8).wf = false ∧
    (Instr.storeRequest 4 0).wf = false ∧ (Instr.rowClose 0 32 0).wf = false ∧ (Instr.refreshDue 3 31 32).wf = false ∧
    (Instr.transactionIssue 0 { die := 4, addr := 0, wr := false }).wf = false ∧
    (Instr.transactionIssue 0 { die := 0, addr := 2 ^ 33, wr := false }).wf = false ∧ (Instr.transactionComplete 0 3 4).wf = false ∧
    (Instr.csi2FrameStart 12 0 0).wf = false ∧ (Instr.csi2FrameStart 0 16 0).wf = false ∧ (Instr.csi2FrameEnd 0 0 65536).wf = false ∧
    (Instr.csi2Packet 0 { vc := 0, dt := 64, payload := [] }).wf = false ∧ (Instr.ethernetFrame 4 { bytes := [] }).wf = false ∧
    (Instr.sampleComplete 32).wf = false ∧ (Instr.almanacEvent { source := 0, code := .boot, severity := 5, payload := [], time := 0 }).wf = false ∧
    (Instr.trigPulseStart 11).wf = true ∧ (Instr.trigPulseStart 12).wf = false ∧ (Instr.ethLinkDown 4).wf = false := by decide +kernel

/-! ## Worked examples of the spec -/

/-- Round to nearest even, saturating. -/
def conv (f : Nat) (x : Machine.Num) : Nat := (encodeNum f rne false x).1

/-- Table 4.3: 300.0, 0.3 (as FP32), −17.0 and 2.5 in the five small float formats. -/
theorem test_table_4_3 :
    [3, 4, 5, 6, 7].map (fun f => conv f (.ofInt 300)) = [0x79, 0x5D, 0x1F, 0x1F, 0x7] ∧
    [3, 4, 5, 6, 7].map (fun f => conv f (ofFp32 0x3E99999A)) = [0x2A, 0x35, 0x05, 0x02, 0x1] ∧
    [3, 4, 5, 6, 7].map (fun f => conv f (.ofInt (-17))) = [0xD8, 0xCC, 0x3C, 0x3F, 0xF] ∧
    [3, 4, 5, 6, 7].map (fun f => conv f (.fin false 5 (-1))) = [0x42, 0x41, 0x11, 0x12, 0x4] := by decide +kernel

/-- R91: 464 rounds to 448 in E4M3, and beyond it overflow saturates to 448. -/
theorem test_e4m3_border : conv 3 (.ofInt 464) = 0x7E ∧ conv 3 (.ofInt 465) = 0x7E ∧ conv 3 (.ofInt 449) = 0x7E := by decide +kernel

/-- The example of R88: a block of three products sums to 2⁻¹⁸, and with scales 125 and 130 adds 2⁻¹⁷. -/
theorem test_block_exact :
    let s := blockSum false [.fin false 1 (-9), .ofInt 448, .ofInt (-448)] [.fin false 1 (-9), .ofInt 448, .ofInt 448]
    s.2 = false ∧ fp32 (scaledBlock s.1 (some (125 - 127)) (some (130 - 127))) = fp32 (.fin false 1 (-17)) := by decide +kernel

/-- The example of chapter 5: an FP8 command with M = 512, K = 4,096, N = 256 takes 131,874 cycles. -/
theorem test_matmul_cycles : arrCycles 3 3 512 256 4096 = 131874 := by decide +kernel

/-- The example of chapter 6: column 0 of a box from 25,600 to 32,000 at S = 7 samples at 25,929. -/
theorem test_crop_position : cropPos 25600 32000 7 0 = 25929 := by decide +kernel

/-- The example of chapter 7: the value entry of layer 5, position 10,000 lies at BASE + 0x173C_4000, and its tile starts at BASE + 0x173C_0000. -/
theorem test_arena_address :
    let d : SeqDesc := { valid := true, base := 0, layerStride := 0x4200000, maxLen := 32768, layers := 32, hq := 32, hkv := 8, headDim32 := 4,
                         kvFmt := 0x13, log2TilePos := 6 }
    d.ek = 1024 ∧ d.es = 32 ∧ d.footprint = 69206016 ∧ ((areasOf d)[1]?).map (posAddr d 5 10000) = some 0x173C4000 := by decide +kernel

/-- The examples of chapter 8: the fold prefixes of a weight tile and of its copy, and the tile's check entry and validity bit. -/
theorem test_fold_prefix :
    foldPrefix 0x200410000 0x105 = [0x00, 0x00, 0x41, 0x00, 0x02, 0x00, 0x05, 0x01] ∧
    foldPrefix 0x12001BA40000 0x105 = [0x00, 0x00, 0xA4, 0x1B, 0x00, 0x12, 0x05, 0x01] ∧
    storeCheck up 0x200410000 = (0x200000000 + 0x1FF801040, 0x200000000 + 0x1FF7C0082, 0) := by decide +kernel

/-- The example of R188: 1.5 GiB of P0 weights with a reserve at P = 25.0 ms give a quota of 196,608 B. -/
theorem test_scrub_quota :
    scrubQuotaOf { up with regions := [(1, { valid := true, part := 0, size := 1610612736, base := 0, reserve := 0x200000000 })] } = 196608 := by
  decide +kernel

/-- The example of chapter 9: per-Quarter address 0x0_0C05_3A80 is in channel 22, bank 3, row 48 under the factory masks. -/
theorem test_store_address : decCh {} 0x0C053A80 = 22 ∧ decBank {} 0x0C053A80 = 3 ∧ rowOf 0x0C053A80 = 48 := by decide +kernel

/-- Table 8.6: the check values of the nine ASCII bytes "123456789". -/
theorem test_check_values :
    (List.range 4).map (fun p => cvuSum p ((List.range 9).map (fun i => BitVec.ofNat 8 (0x31 + i)))) =
      [0xE3069283, 0xCBF43926, 0x29B1, 0x6C40DF5F0B497347] := by decide +kernel

/-- The example of R27: device time 5.0 ms ahead of the schedule shortens the frame by 62.5 µs. -/
theorem test_slew : (schedule { up with cal := { up.cal with phaseUs := 0 } } 105000000).cal.next = 105000000 + 25000000 - 62500 := by decide +kernel

/-! ## Single steps -/

/-- A doorbell at the end of the ring moves the tail; a second at the same place changes nothing; one too far is ignored with an error (R362). -/
theorem test_doorbell :
    ((nextOf (exec (.sqTailDoorbell 63) up)).map (fun t => (t.host.sqTail, t.host.doorbellErr))) = some (63, false) ∧
    ((nextOf (exec (.sqTailDoorbell 5) { up with host := { up.host with sqTail := 10 } })).map (fun t => (t.host.sqTail, t.host.doorbellErr))) =
      some (10, true) := by decide +kernel

/-- A NOP that was fetched completes with its tag (R363, R364). -/
theorem test_nop :
    ((nextOf (step { up with pending := [.nop (ent 0x0100 [] 0)] })).map (fun t => (t.host.waiting, t.pending))) = some ([{ done0 with result := padTo 20 [] }], []) := by decide +kernel

/-- On an empty queue device time advances (log 3). -/
theorem test_idle : (nextOf (step up)).map (·.now) = some (up.now + 1) := by decide +kernel

/-- PERST# releases the mailbox pointers and ends expert access (R360, R381). -/
theorem test_perst : (nextOf (exec .perstRelease expert)).map (fun t => (t.host.expertOn, t.host.sqTail)) = some (false, 0) := by decide +kernel

end Sys2Proof.Tests
end

section
/-! Trigger outputs (R30, R451): what each trigger command answers, what the end of a frame leaves of the pulses, and the statement O15. -/

namespace Sys2Proof.Machine

theorem exec_trigPulseStart (k : Nat) (s : State) : exec (.trigPulseStart k) s = execTrigPulseStart k s := rfl

theorem exec_trigPulseEnd (k : Nat) (s : State) : exec (.trigPulseEnd k) s = execTrigPulseEnd k s := rfl

/-- A command that changes nothing answers the state it ran on. -/
theorem done_self (s : State) : done s s = .next s := rfl

/-- A change of every entry that keeps the default changes what a lookup with that default gives in the same way. -/
theorem tget_tmap {β : Type} (t : Tbl β) (f : β → β) (k : Nat) (d : β) (hd : f d = d) :
    tget (tmap t f) k d = f (tget t k d) := by
  unfold tget
  rw [tfind_tmap]
  cases tfind t k with
  | none => exact hd.symm
  | some v => rfl

/-- The instant in the present frame at which the pulse of output `k` is due (R30). -/
def trigDue (s : State) (k : Nat) : Nat := s.cal.calend + (tget s.trig k {}).offsetUs * 1000

/-- The instant at which a pulse of output `k` that is on ends: after its width, or at the next Calend if that is earlier (R30). -/
def trigOver (s : State) (k : Nat) : Nat :=
  min ((tget s.trig k {}).pulseStart + (tget s.trig k {}).widthUs * 1000) s.cal.next

/-- May the pulse of output `k` start: the output is enabled, its pin driven and inactive, a frame runs in which it has not pulsed, and
the pulse is due before the next Calend (R30, R451). -/
structure TrigMayStart (s : State) (k : Nat) : Prop where
  /-- there are 12 outputs. -/
  lt : k < 12
  enabled : (tget s.trig k {}).en = true
  driven : (tget s.trig k {}).driven = true
  inactive : (tget s.trig k {}).active = false
  inFrame : s.cal.frame ≠ 0
  notPulsed : (tget s.trig k {}).pulseStart ≠ trigDue s k
  beforeNext : trigDue s k < s.cal.next

/-- None of the conditions that hold a pulse back holds of one that may start. -/
theorem execTrigPulseStart_starts {s : State} {k : Nat} (h : TrigMayStart s k) :
    execTrigPulseStart k s = .next { s with
      now := max s.now (trigDue s k)
      trig := tput s.trig k { tget s.trig k {} with active := true, pulseStart := trigDue s k } } := by
  obtain ⟨hk, hen, hdriven, hinactive, hframe, hnot, hnext⟩ := h
  unfold trigDue at hnot hnext
  exact if_neg (by simp [hen, hdriven, hinactive, hframe, hnot, hk, hnext])

theorem execTrigPulseStart_disabled {s : State} {k : Nat} (hen : (tget s.trig k {}).en = false) :
    execTrigPulseStart k s = .next s := by
  rw [← done_self]
  exact if_pos (by simp [hen])

theorem execTrigPulseEnd_inactive {s : State} {k : Nat} (h : (tget s.trig k {}).active = false) :
    execTrigPulseEnd k s = .next s := by
  rw [← done_self]
  exact if_pos (by simp [h])

theorem execTrigPulseEnd_active {s : State} {k : Nat} (h : (tget s.trig k {}).active = true) :
    execTrigPulseEnd k s = .next { s with
      now := max s.now (trigOver s k)
      trig := tput s.trig k { tget s.trig k {} with active := false } } :=
  if_neg (by simp [h])

/-- The end of a frame switches every trigger output off, whatever the Eve deadline and the overruns before it did. -/
theorem endFrame_trig (s : State) (hframe : s.cal.frame ≠ 0) :
    (endFrame s).trig = tmap (noteOverruns (eveDeadline s)).trig (fun t => { t with active := false }) := by
  unfold endFrame
  rw [if_neg hframe]

/-- No pulse outlasts its frame (R30). -/
theorem endFrame_trig_inactive (s : State) (k : Nat) (hframe : s.cal.frame ≠ 0) :
    (tget (endFrame s).trig k {}).active = false := by
  rw [endFrame_trig s hframe, tget_tmap _ _ _ _ rfl]

/-- Settles O15 (R30, R451): what the two trigger commands answer in each case, and that the end of a frame leaves no pulse on. -/
theorem triggerPulses : Obligations.TriggerPulses := by
  unfold Obligations.TriggerPulses
  rintro s k _ rfl
  rw [exec_trigPulseStart, exec_trigPulseEnd]
  refine ⟨?starts, execTrigPulseStart_disabled, execTrigPulseEnd_inactive, endFrame_trig_inactive s k, execTrigPulseEnd_active⟩
  case starts =>
    intro hk hen hdriven hinactive hframe hnot hnext
    exact execTrigPulseStart_starts ⟨hk, hen, hdriven, hinactive, hframe, hnot, hnext⟩

end Sys2Proof.Machine
end

section
/-! Check-value units (R190, R191, R193): the byte-wise registers of the model against the bit-by-bit registers that Table 8.6 defines, and the
statement O59. The idea: a step is linear, so a byte may be added to the register at once and its bits meet the feedback as the register shifts
them out; a reflected CRC is the same register with its bits in mirrored order. -/

namespace Sys2Proof.Machine

/-! ## A byte at once or bit by bit -/

theorem bit_eq_testBit (v i : Nat) : bit v i = v.testBit i := by
  rw [bit, Nat.testBit_eq_decide_div_mod_eq, Nat.shiftRight_eq_div_pow]

theorem bit_xor (x y i : Nat) : bit (x ^^^ y) i = xor (bit x i) (bit y i) := by
  simp only [bit_eq_testBit, Nat.testBit_xor]

/-- The bits of one byte in the order they enter the register. -/
def crcByteBits (refl : Bool) (b : Byte) : List Bool :=
  (List.range 8).map (fun i => bit b.toNat (if refl then i else 7 - i))

theorem foldl_crcRefBits (refl : Bool) (step : Nat → Bool → Nat) (c : Nat) (bs : List Byte) :
    (crcRefBits refl bs).foldl step c = bs.foldl (fun c b => (crcByteBits refl b).foldl step c) c :=
  List.foldl_flatMap

/-- `n` steps of a register on empty bits. -/
def crcIdle (step : Nat → Bool → Nat) (n c : Nat) : Nat := (List.replicate n false).foldl step c

theorem crcIdle_succ (step : Nat → Bool → Nat) (n c : Nat) : crcIdle step (n + 1) c = crcIdle step n (step c false) := rfl

theorem crcIdle_succ' (step : Nat → Bool → Nat) (n c : Nat) : crcIdle step (n + 1) c = step (crcIdle step n c) false := by
  simp only [crcIdle, List.replicate_succ', List.foldl_append, List.foldl_cons, List.foldl_nil]

/-- If a step with the word `rest i` pending in the register is the step that takes the bit `out i`, with `rest (i + 1)` pending after it, then `n`
steps on empty bits take the first `n` bits of `out`. -/
theorem crcIdle_xor {step : Nat → Bool → Nat} {out : Nat → Bool} {rest : Nat → Nat}
    (h : ∀ c i, step (c ^^^ rest i) false = step c (out i) ^^^ rest (i + 1)) (n c : Nat) :
    crcIdle step n (c ^^^ rest 0) = ((List.range n).map out).foldl step c ^^^ rest n := by
  induction n with
  | zero => rfl
  | succ n ih =>
    rw [crcIdle_succ', ih, h, List.range_succ, List.map_append, List.foldl_append]
    rfl

/-! ## Most significant bit first (POLY 2 and 3) -/

theorem xor_mul_two (x y : Nat) : (x ^^^ y) * 2 = x * 2 ^^^ y * 2 := by
  have hshift := Nat.shiftLeft_xor_distrib (i := 1) (a := x) (b := y)
  simp only [Nat.shiftLeft_eq, Nat.pow_one] at hshift
  exact hshift

theorem crcRefStep_xor (w poly c d : Nat) :
    crcRefStep w poly (c ^^^ d) false = crcRefStep w poly c (bit d (w - 1)) ^^^ (d * 2) % 2 ^ w := by
  have hshift : ((c ^^^ d) * 2) % 2 ^ w = (c * 2) % 2 ^ w ^^^ (d * 2) % 2 ^ w := by
    rw [← Nat.xor_mod_two_pow, xor_mul_two]
  unfold crcRefStep
  rw [hshift, bit_xor, Bool.xor_false]
  split
  · ac_rfl
  · rfl

theorem crcRefStep_lt {w poly : Nat} (hpoly : poly < 2 ^ w) (c : Nat) (b : Bool) : crcRefStep w poly c b < 2 ^ w := by
  have hmod : (c * 2) % 2 ^ w < 2 ^ w := Nat.mod_lt _ (Nat.two_pow_pos w)
  unfold crcRefStep
  split
  · exact Nat.xor_lt_two_pow hmod hpoly
  · exact hmod

theorem foldl_crcRefStep_lt {w poly : Nat} (hpoly : poly < 2 ^ w) (bits : List Bool) {c : Nat} (hc : c < 2 ^ w) :
    bits.foldl (crcRefStep w poly) c < 2 ^ w := by
  induction bits generalizing c with
  | nil => exact hc
  | cons b bits ih => exact ih (crcRefStep_lt hpoly c b)

theorem two_pow_eight_mul {w : Nat} (hw : 8 ≤ w) : 2 ^ 8 * 2 ^ (w - 8) = 2 ^ w := by rw [← Nat.pow_add, Nat.add_sub_cancel' hw]

theorem byte_mul_two_pow_lt {w : Nat} (hw : 8 ≤ w) (b : Byte) : b.toNat * 2 ^ (w - 8) < 2 ^ w := by
  rw [← two_pow_eight_mul hw]
  exact Nat.mul_lt_mul_of_pos_right b.isLt (Nat.two_pow_pos _)

/-- What is left of a byte added at the top of a register of `w` bits after `i` shifts. -/
def crcTopRest (w : Nat) (b : Byte) (i : Nat) : Nat := (b.toNat * 2 ^ (w - 8) * 2 ^ i) % 2 ^ w

theorem crcTopRest_zero {w : Nat} (hw : 8 ≤ w) (b : Byte) : crcTopRest w b 0 = b.toNat * 2 ^ (w - 8) := by
  rw [crcTopRest, Nat.pow_zero, Nat.mul_one, Nat.mod_eq_of_lt (byte_mul_two_pow_lt hw b)]

theorem crcTopRest_succ (w : Nat) (b : Byte) (i : Nat) : crcTopRest w b (i + 1) = (crcTopRest w b i * 2) % 2 ^ w := by
  rw [crcTopRest, crcTopRest, Nat.mod_mul_mod, Nat.pow_succ, Nat.mul_assoc _ (2 ^ i)]

theorem crcTopRest_eight {w : Nat} (hw : 8 ≤ w) (b : Byte) : crcTopRest w b 8 = 0 := by
  rw [crcTopRest, Nat.mul_assoc, Nat.mul_comm (2 ^ (w - 8)), two_pow_eight_mul hw, Nat.mul_mod_left]

theorem bit_crcTopRest {w i : Nat} (hw : 8 ≤ w) (hi : i < 8) (b : Byte) : bit (crcTopRest w b i) (w - 1) = bit b.toNat (7 - i) := by
  have hin : w - 1 < w ∧ i ≤ w - 1 ∧ w - 8 ≤ w - 1 - i := by omega
  obtain ⟨hlt, hle, hge⟩ := hin
  rw [bit_eq_testBit, bit_eq_testBit, crcTopRest, Nat.testBit_mod_two_pow, Nat.testBit_mul_two_pow, Nat.testBit_mul_two_pow,
    decide_eq_true hlt, decide_eq_true hle, decide_eq_true hge, Bool.true_and, Bool.true_and, Bool.true_and,
    (by omega : w - 1 - i - (w - 8) = 7 - i)]

/-- A byte added at the top of the register: eight steps take its bits, the highest first. -/
theorem crcIdle_crcRefStep_byte {w : Nat} (hw : 8 ≤ w) (poly c : Nat) (b : Byte) :
    crcIdle (crcRefStep w poly) 8 (c ^^^ b.toNat * 2 ^ (w - 8)) = (crcByteBits false b).foldl (crcRefStep w poly) c := by
  have hbits : (List.range 8).map (fun i => bit (crcTopRest w b i) (w - 1)) = crcByteBits false b :=
    List.map_congr_left fun i hi => bit_crcTopRest hw (List.mem_range.mp hi) b
  have hstep : ∀ c i, crcRefStep w poly (c ^^^ crcTopRest w b i) false =
      crcRefStep w poly c (bit (crcTopRest w b i) (w - 1)) ^^^ crcTopRest w b (i + 1) := by
    intro c i
    rw [crcRefStep_xor, crcTopRest_succ]
  rw [← crcTopRest_zero hw, crcIdle_xor hstep, hbits, crcTopRest_eight hw, Nat.xor_zero]

/-- A register of `w + 1` bits has its top bit set where it is at least `2 ^ w`. -/
theorem crcRefStep_of_lt {w c : Nat} (hc : c < 2 ^ (w + 1)) (poly : Nat) :
    crcRefStep (w + 1) poly c false = if c ≥ 2 ^ w then ((c * 2) % 2 ^ (w + 1)) ^^^ poly else c * 2 := by
  unfold crcRefStep
  rw [bit_eq_testBit, Bool.xor_false, Nat.add_sub_cancel]
  by_cases hge : c ≥ 2 ^ w
  · rw [Nat.testBit_of_two_pow_le_and_two_pow_add_one_gt hge hc, if_pos rfl, if_pos hge]
  · have hlt : c < 2 ^ w := Nat.lt_of_not_le hge
    have hfits : c * 2 < 2 ^ (w + 1) := by
      rw [Nat.pow_succ]
      exact Nat.mul_lt_mul_of_pos_right hlt (by decide)
    rw [Nat.testBit_lt_two_pow hlt, if_neg Bool.false_ne_true, if_neg hge, Nat.mod_eq_of_lt hfits]

/-- A function that clocks a register of `w + 1` bits `n` times on its top bit steps it `n` times on empty bits. -/
theorem clock_eq_crcIdle {w poly : Nat} (hpoly : poly < 2 ^ (w + 1)) {clock : Nat → Nat → Nat} (hzero : ∀ c, clock 0 c = c)
    (hsucc : ∀ n c, clock (n + 1) c = clock n (if c ≥ 2 ^ w then ((c * 2) % 2 ^ (w + 1)) ^^^ poly else c * 2))
    (n : Nat) {c : Nat} (hc : c < 2 ^ (w + 1)) :
    clock n c = crcIdle (crcRefStep (w + 1) poly) n c := by
  induction n generalizing c with
  | zero => exact hzero c
  | succ n ih => rw [crcIdle_succ, ← ih (crcRefStep_lt hpoly c false), crcRefStep_of_lt hc, hsucc]

theorem crc16Bits_eq (n : Nat) {c : Nat} (hc : c < 2 ^ 16) :
    crc16Bits n c = crcIdle (crcRefStep 16 0x1021) n c :=
  clock_eq_crcIdle (by decide) (fun _ => rfl) (fun _ _ => rfl) n hc

theorem crc64Bits_eq (n : Nat) {c : Nat} (hc : c < 2 ^ 64) :
    crc64Bits n c = crcIdle (crcRefStep 64 0x42F0E1EBA9EA3693) n c :=
  clock_eq_crcIdle (by decide) (fun _ => rfl) (fun _ _ => rfl) n hc

/-- A register that takes whole bytes at its top and then steps eight times, as `clock` does, takes the bits of the message. -/
theorem foldl_bytes_eq_bits {w poly : Nat} (hw : 8 ≤ w) (hpoly : poly < 2 ^ w) {clock : Nat → Nat}
    (hclock : ∀ {c}, c < 2 ^ w → clock c = crcIdle (crcRefStep w poly) 8 c) (bs : List Byte) {c : Nat} (hc : c < 2 ^ w) :
    bs.foldl (fun c b => clock (c ^^^ b.toNat * 2 ^ (w - 8))) c = (crcRefBits false bs).foldl (crcRefStep w poly) c := by
  rw [foldl_crcRefBits]
  induction bs generalizing c with
  | nil => rfl
  | cons b bs ih =>
    have hin : c ^^^ b.toNat * 2 ^ (w - 8) < 2 ^ w := Nat.xor_lt_two_pow hc (byte_mul_two_pow_lt hw b)
    rw [List.foldl_cons, List.foldl_cons, hclock hin, crcIdle_crcRefStep_byte hw]
    exact ih (foldl_crcRefStep_lt hpoly _ hc)

/-- A CRC that is not reflected, by Table 8.6's columns, is what such a register holds. -/
theorem crcRef_direct {w poly init : Nat} (hw : 8 ≤ w) (hpoly : poly < 2 ^ w) (hinit : init < 2 ^ w) {clock : Nat → Nat}
    (hclock : ∀ {c}, c < 2 ^ w → clock c = crcIdle (crcRefStep w poly) 8 c) (fin : Nat) (bs : List Byte) :
    crcRef w poly init false fin bs = bs.foldl (fun c b => clock (c ^^^ b.toNat * 2 ^ (w - 8))) init ^^^ fin := by
  rw [foldl_bytes_eq_bits hw hpoly hclock bs hinit]
  rfl

/-! ## Least significant bit first (POLY 0 and 1) -/

/-- One step of a reflected register, least significant bit first, with the polynomial's bits mirrored: the next message bit meets the lowest bit. -/
def crcLowStep (poly c : Nat) (b : Bool) : Nat := if xor (bit c 0) b then (c >>> 1) ^^^ poly else c >>> 1

theorem crcLowStep_xor (poly c d : Nat) : crcLowStep poly (c ^^^ d) false = crcLowStep poly c (bit d 0) ^^^ d >>> 1 := by
  unfold crcLowStep
  rw [Nat.shiftRight_xor_distrib, bit_xor, Bool.xor_false]
  split
  · ac_rfl
  · rfl

theorem crcLowStep_false (poly c : Nat) : crcLowStep poly c false = if c % 2 = 1 then (c >>> 1) ^^^ poly else c >>> 1 := by
  simp only [crcLowStep, bit, Bool.xor_false, Nat.shiftRight_zero, decide_eq_true_eq]

theorem crcBits_eq (poly n c : Nat) : crcBits poly n c = crcIdle (crcLowStep poly) n c := by
  induction n generalizing c with
  | zero => rfl
  | succ n ih => rw [crcBits, crcIdle_succ, ih, crcLowStep_false]

/-- A byte added at the bottom of the register: eight steps take its bits, the lowest first. -/
theorem crcBits_byte (poly c : Nat) (b : Byte) :
    crcBits poly 8 (c ^^^ b.toNat) = (crcByteBits true b).foldl (crcLowStep poly) c := by
  have hbits : (List.range 8).map (fun i => bit (b.toNat >>> i) 0) = crcByteBits true b :=
    List.map_congr_left fun i _ => by rw [bit, Nat.shiftRight_zero, if_pos rfl, bit]
  have hstep : ∀ c i, crcLowStep poly (c ^^^ b.toNat >>> i) false = crcLowStep poly c (bit (b.toNat >>> i) 0) ^^^ b.toNat >>> (i + 1) :=
    fun c i => crcLowStep_xor poly c (b.toNat >>> i)
  have hgone : b.toNat >>> 8 = 0 := Nat.shiftRight_eq_zero _ _ b.isLt
  have hbyte := crcIdle_xor hstep 8 c
  rw [hbits, hgone, Nat.xor_zero] at hbyte
  rw [crcBits_eq]
  exact hbyte

theorem crcRun_eq (poly c : Nat) (bs : List Byte) : crcRun poly c bs = (crcRefBits true bs).foldl (crcLowStep poly) c := by
  simp only [crcRun, foldl_crcRefBits, crcBits_byte]

/-! ## The mirror -/

/-- One more bit doubles the weight of each bit before it. -/
theorem foldl_weights_double (w c n : Nat) (hn : n ≤ w) :
    (List.range n).foldl (fun a i => a + b2n (bit c i) * 2 ^ (w - i)) 0 =
      2 * (List.range n).foldl (fun a i => a + b2n (bit c i) * 2 ^ (w - 1 - i)) 0 := by
  induction n with
  | zero => rfl
  | succ n ih =>
    have hweight : 2 ^ (w - n) = 2 * 2 ^ (w - 1 - n) := by
      rw [(by omega : w - n = w - 1 - n + 1), Nat.pow_succ, Nat.mul_comm]
    rw [List.range_succ, List.foldl_append, List.foldl_append, ih (by omega)]
    simp only [List.foldl_cons, List.foldl_nil]
    rw [hweight, Nat.mul_left_comm, Nat.mul_add]

theorem crcRefMirror_succ (w c : Nat) : crcRefMirror (w + 1) c = 2 * crcRefMirror w c + b2n (bit c w) := by
  rw [crcRefMirror, List.range_succ, List.foldl_append, Nat.add_sub_cancel, foldl_weights_double w c w (Nat.le_refl w)]
  simp only [List.foldl_cons, List.foldl_nil, Nat.sub_self, Nat.pow_zero, Nat.mul_one, crcRefMirror]

theorem b2n_lt (b : Bool) : b2n b < 2 := by cases b <;> decide

theorem testBit_b2n_zero (n : Nat) (b : Bool) : (2 * n + b2n b).testBit 0 = b := by
  rw [Nat.testBit_zero, Nat.mul_add_mod]
  cases b <;> rfl

theorem testBit_crcRefMirror (w c i : Nat) : (crcRefMirror w c).testBit i = (decide (i < w) && c.testBit (w - 1 - i)) := by
  induction w generalizing i with
  | zero =>
    rw [decide_eq_false (Nat.not_lt_zero i), Bool.false_and]
    exact Nat.zero_testBit i
  | succ w ih =>
    rw [crcRefMirror_succ, bit_eq_testBit]
    cases i with
    | zero => rw [testBit_b2n_zero, decide_eq_true (Nat.succ_pos w), Bool.true_and, Nat.add_sub_cancel, Nat.sub_zero]
    | succ i =>
      have hflag := b2n_lt (c.testBit w)
      have hhalf : (2 * crcRefMirror w c + b2n (c.testBit w)) / 2 = crcRefMirror w c := by omega
      rw [Nat.testBit_succ, hhalf, ih, (by omega : w + 1 - 1 - (i + 1) = w - 1 - i), decide_eq_decide.mpr Nat.succ_lt_succ_iff]

theorem crcRefMirror_xor (w x y : Nat) : crcRefMirror w (x ^^^ y) = crcRefMirror w x ^^^ crcRefMirror w y :=
  Nat.eq_of_testBit_eq fun i => by simp only [testBit_crcRefMirror, Nat.testBit_xor, Bool.and_xor_distrib_left]

theorem crcRefMirror_double (w c : Nat) : crcRefMirror w ((c * 2) % 2 ^ w) = crcRefMirror w c >>> 1 := by
  refine Nat.eq_of_testBit_eq fun i => ?_
  have htwo : c * 2 = c * 2 ^ 1 := rfl
  rw [testBit_crcRefMirror, Nat.testBit_mod_two_pow, htwo, Nat.testBit_mul_two_pow, Nat.testBit_shiftRight, testBit_crcRefMirror,
    (by omega : w - 1 - i - 1 = w - 1 - (1 + i))]
  by_cases hi : 1 + i < w
  · simp [hi, (by omega : i < w ∧ w - 1 - i < w ∧ 1 ≤ w - 1 - i)]
  · simp [hi, (by omega : w - 1 - i = 0)]

theorem bit_crcRefMirror_zero {w : Nat} (hw : 0 < w) (c : Nat) : bit (crcRefMirror w c) 0 = bit c (w - 1) := by
  rw [bit_eq_testBit, testBit_crcRefMirror, bit_eq_testBit, decide_eq_true hw, Bool.true_and, Nat.sub_zero]

/-- The mirror takes the steps of one register to those of the other. -/
theorem crcLowStep_crcRefMirror {w : Nat} (hw : 0 < w) (poly c : Nat) (b : Bool) :
    crcLowStep (crcRefMirror w poly) (crcRefMirror w c) b = crcRefMirror w (crcRefStep w poly c b) := by
  unfold crcLowStep crcRefStep
  rw [bit_crcRefMirror_zero hw, ← crcRefMirror_double]
  split
  · rw [crcRefMirror_xor]
  · rfl

/-- A reflected CRC by Table 8.6's columns is what the model's reflected register holds. -/
theorem crcRef_reflected {w : Nat} (hw : 0 < w) (poly init fin : Nat) (bs : List Byte) :
    crcRef w poly init true fin bs = crcRun (crcRefMirror w poly) (crcRefMirror w init) bs ^^^ fin := by
  rw [crcRun_eq, List.foldl_hom (crcRefMirror w) (crcLowStep_crcRefMirror hw poly)]
  rfl

/-! ## The check values of Table 8.6 -/

/-- The rows of Table 8.6: the reflected ones by the mirror of their polynomial, the others by whole bytes at the top of the register. -/
theorem cvuSum_eq_crcTable86 (p : Nat) (bs : List Byte) : cvuSum p bs = crcTable86 p bs := by
  have hinit : crcRefMirror 32 0xFFFFFFFF = 0xFFFFFFFF := by decide
  unfold crcTable86
  split
  · have hpoly : crcRefMirror 32 0x1EDC6F41 = 0x82F63B78 := by decide
    rw [crcRef_reflected (by decide), hpoly, hinit]
    rfl
  · have hpoly : crcRefMirror 32 0x04C11DB7 = 0xEDB88320 := by decide
    rw [crcRef_reflected (by decide), hpoly, hinit]
    rfl
  · rw [crcRef_direct (by decide) (by decide) (by decide) (crc16Bits_eq 8)]
    rfl
  next h0 h1 h2 =>
    simp only [imp_false] at h0 h1 h2
    obtain ⟨n, rfl⟩ : ∃ n, p = n + 3 := Nat.exists_eq_add_of_le' (by omega)
    rw [crcRef_direct (by decide) (by decide) (by decide) (crc64Bits_eq 8)]
    rfl

/-- The nine ASCII bytes "123456789". -/
def crcDigits : List Byte := (List.range 9).map (fun i => BitVec.ofNat 8 (0x31 + i))

theorem cvuSum_digits {p : Nat} (hp : p < 4) : cvuSum p crcDigits = [0xE3069283, 0xCBF43926, 0x29B1, 0x6C40DF5F0B497347].getD p 0 := by
  revert p
  decide +kernel

/-! ## A run over the data port -/

/-- What HUB_CVU_CTRL = `p + 0x140` selects: polynomial `p` with FINAL, the data port, a fresh start and no folding. -/
theorem portFinal_fields {p : Nat} (hp : p < 4) :
    let c := (p + 0x140) &&& 0x3FB
    c % 4 = p ∧ bit c 3 = false ∧ bit c 4 = false ∧ bit c 6 = true ∧ bit c 7 = false ∧ bit c 8 = true := by
  revert p
  decide

/-- Such a run, once begun, waits for as many bytes as LEN says with the initial value in the register. -/
theorem begin_portFinal (v : Cvu) {p : Nat} (hp : p < 4) :
    v.begin (p + 0x140) = { v with
      ctrl := (p + 0x140) &&& 0x3FB, busy := true, done := false, mismatch := false, fault := false, run := cvuInit p, left := v.len } := by
  obtain ⟨hpoly, haddr, hseq, hport, hcont, -⟩ := portFinal_fields hp
  have hempty : cvuHash p (cvuInit p) [] = cvuInit p := by
    unfold cvuHash
    split <;> rfl
  simp [Cvu.begin, Cvu.cont, Cvu.port, Cvu.poly, Cvu.pre, Cvu.foldAddr, Cvu.foldSeq, hpoly, haddr, hseq, hport, hcont, hempty]

/-- A run over all its bytes from the data port ends with their complete check value in RESULT. -/
theorem portFinal_run_result (v : Cvu) {p : Nat} (hp : p < 4) (bs : List Byte) :
    ((({ v with len := bs.length }.begin (p + 0x140)).feed bs).finish false).result = cvuSum p bs := by
  obtain ⟨hpoly, -, -, hport, -, hfinal⟩ := portFinal_fields hp
  rw [begin_portFinal _ hp]
  simp [Cvu.feed, Cvu.finish, Cvu.port, Cvu.poly, Cvu.final, hpoly, hport, hfinal, cvuSum]

/-- Settles O59 (R190): the model's byte-wise registers compute the CRCs of Table 8.6, whose check values are evaluated. -/
theorem checkValueUnitsComputeTheirCrcs : Obligations.CheckValueUnitsComputeTheirCrcs := by
  unfold Obligations.CheckValueUnitsComputeTheirCrcs
  intro v p bs hp
  refine ⟨?crc, rfl, rfl, ?digits⟩
  case crc => rw [portFinal_run_result v hp, cvuSum_eq_crcTable86]
  case digits => exact (portFinal_run_result v hp crcDigits).trans (cvuSum_digits hp)

end Sys2Proof.Machine
end

section
/-! Doorbells of the mailbox rings (R362): when a write moves its pointer, what an ignored one records, and the statement O16. -/

namespace Sys2Proof.Machine

theorem exec_sqTailDoorbell (v : Nat) (s : State) : exec (.sqTailDoorbell v) s = done s (sqTailWrite s v) := rfl

theorem exec_cqHeadDoorbell (v : Nat) (s : State) : exec (.cqHeadDoorbell v) s = done s (cqHeadWrite s v) := rfl

/-- A command that changes the host interface alone answers that change. -/
theorem done_host (s : State) (h : HostS) : done s { s with host := h } = .next { s with host := h } := rfl

/-! ## The submission tail -/

/-- Before MBX_READY a write of the tail is ignored without an error. -/
theorem sqTailWrite_notReady {s : State} (h : s.host.mbxReady = false) (v : Nat) : sqTailWrite s v = s :=
  if_pos (by simp [h])

/-- The ring keeps one entry free: from SQ_HEAD on, the tail covers at most 63. -/
theorem sqTailWrite_ready {s : State} (h : s.host.mbxReady = true) (v : Nat) :
    sqTailWrite s v =
      if (v % 64 + 64 - s.host.sqTail) % 64 ≤ 63 - (s.host.sqTail + 64 - s.host.sqHead) % 64
      then { s with host := { s.host with sqTail := v % 64 } }
      else doorbellBad s 0 (v % 64) :=
  if_neg (by simp [h])

/-! ## The completion head -/

/-- Before MBX_READY a write of the head is ignored without an error. -/
theorem cqHeadWrite_notReady {s : State} (h : s.host.mbxReady = false) (v : Nat) : cqHeadWrite s v = s :=
  if_pos (by simp [h])

/-- The head follows CQ_TAIL and never passes it. -/
theorem cqHeadWrite_ready {s : State} (h : s.host.mbxReady = true) (v : Nat) :
    cqHeadWrite s v =
      if (v % 64 + 64 - s.host.cqHead) % 64 ≤ (s.host.cqTail + 64 - s.host.cqHead) % 64
      then { s with host := { s.host with cqHead := v % 64 } }
      else doorbellBad s 1 (v % 64) :=
  if_neg (by simp [h])

/-! ## The statement -/

/-- Settles O16 (R362): each doorbell is the write of its pointer, moved or refused once the mailbox is ready and ignored before. -/
theorem doorbellsMoveThePointers : Obligations.DoorbellsMoveThePointers := by
  unfold Obligations.DoorbellsMoveThePointers
  intro s v
  rw [exec_sqTailDoorbell, exec_cqHeadDoorbell]
  refine ⟨fun hready => ⟨?tail, ?head⟩, fun hnot => ?before⟩
  case tail => rw [sqTailWrite_ready hready, apply_ite (done s), done_host, doorbellBad]
  case head => rw [cqHeadWrite_ready hready, apply_ite (done s), done_host, doorbellBad]
  case before =>
    rw [sqTailWrite_notReady hnot, cqHeadWrite_notReady hnot, done_self]
    exact ⟨rfl, rfl⟩

end Sys2Proof.Machine
end

section
/-! SUPPORT. The arm of `exec` that each command takes. -/

namespace Sys2Proof.Machine

theorem exec_calend (s : State) : exec .calend s = execCalend s := rfl
theorem exec_seasonEpoch (s : State) : exec .seasonEpoch s = execSeasonEpoch s := rfl
theorem exec_eveCheck (s : State) : exec .eveCheck s = execEveCheck s := rfl
theorem exec_eveDeadline (s : State) : exec .eveDeadline s = execEveDeadline s := rfl
theorem exec_safeEdge (isl : Isl) (s : State) : exec (.safeEdge isl) s = execSafeEdge isl s := rfl
theorem exec_frameReportPublish (s : State) : exec .frameReportPublish s = execFrameReportPublish s := rfl
theorem exec_nop (e : SubEntry) (s : State) : exec (.nop e) s = execNop e s := rfl
theorem exec_getEvents (e : SubEntry) (s : State) : exec (.getEvents e) s = execGetEvents e s := rfl
theorem exec_setSeason (e : SubEntry) (s : State) : exec (.setSeason e) s = execSetSeason e s := rfl
theorem exec_seasonStore (e : SubEntry) (flashFail : Bool) (s : State) :
    exec (.seasonStore e flashFail) s = execSeasonStore e flashFail s := rfl
theorem exec_seasonRead (e : SubEntry) (s : State) : exec (.seasonRead e) s = execSeasonRead e s := rfl
theorem exec_getSurroundings (e : SubEntry) (s : State) : exec (.getSurroundings e) s = execGetSurroundings e s := rfl
theorem exec_getIdentity (e : SubEntry) (s : State) : exec (.getIdentity e) s = execGetIdentity e s := rfl
theorem exec_attest (e : SubEntry) (s : State) : exec (.attest e) s = execAttest e s := rfl
theorem exec_getCerts (e : SubEntry) (s : State) : exec (.getCerts e) s = execGetCerts e s := rfl
theorem exec_planLoad (e : SubEntry) (s : State) : exec (.planLoad e) s = execPlanLoad e s := rfl
theorem exec_planAdmit (e : SubEntry) (s : State) : exec (.planAdmit e) s = execPlanAdmit e s := rfl
theorem exec_planSelect (e : SubEntry) (s : State) : exec (.planSelect e) s = execPlanSelect e s := rfl
theorem exec_planRetire (e : SubEntry) (s : State) : exec (.planRetire e) s = execPlanRetire e s := rfl
theorem exec_queueStatus (e : SubEntry) (s : State) : exec (.queueStatus e) s = execQueueStatus e s := rfl
theorem exec_dataWriteCreate (e : SubEntry) (s : State) : exec (.dataWriteCreate e) s = execDataWriteCreate e s := rfl
theorem exec_dataWriteRewrite (e : SubEntry) (s : State) : exec (.dataWriteRewrite e) s = execDataWriteRewrite e s := rfl
theorem exec_dataWriteRepair (e : SubEntry) (s : State) : exec (.dataWriteRepair e) s = execDataWriteRepair e s := rfl
theorem exec_dataWriteDelete (e : SubEntry) (s : State) : exec (.dataWriteDelete e) s = execDataWriteDelete e s := rfl
theorem exec_dataRead (e : SubEntry) (s : State) : exec (.dataRead e) s = execDataRead e s := rfl
theorem exec_dataCheck (e : SubEntry) (s : State) : exec (.dataCheck e) s = execDataCheck e s := rfl
theorem exec_storeRetain (e : SubEntry) (s : State) : exec (.storeRetain e) s = execStoreRetain e s := rfl
theorem exec_storeResume (e : SubEntry) (s : State) : exec (.storeResume e) s = execStoreResume e s := rfl
theorem exec_mapLoad (e : SubEntry) (s : State) : exec (.mapLoad e) s = execMapLoad e s := rfl
theorem exec_mapSelect (e : SubEntry) (s : State) : exec (.mapSelect e) s = execMapSelect e s := rfl
theorem exec_mapStatus (e : SubEntry) (s : State) : exec (.mapStatus e) s = execMapStatus e s := rfl
theorem exec_seqDefine (e : SubEntry) (s : State) : exec (.seqDefine e) s = execSeqDefine e s := rfl
theorem exec_seqEditTruncate (e : SubEntry) (s : State) : exec (.seqEditTruncate e) s = execSeqEditTruncate e s := rfl
theorem exec_seqEditSetWindow (e : SubEntry) (s : State) : exec (.seqEditSetWindow e) s = execSeqEditSetWindow e s := rfl
theorem exec_seqEditSetGlobals (e : SubEntry) (s : State) : exec (.seqEditSetGlobals e) s = execSeqEditSetGlobals e s := rfl
theorem exec_seqEditReset (e : SubEntry) (s : State) : exec (.seqEditReset e) s = execSeqEditReset e s := rfl
theorem exec_seqRead (e : SubEntry) (s : State) : exec (.seqRead e) s = execSeqRead e s := rfl
theorem exec_seqDelete (e : SubEntry) (s : State) : exec (.seqDelete e) s = execSeqDelete e s := rfl
theorem exec_resultRingSet (e : SubEntry) (s : State) : exec (.resultRingSet e) s = execResultRingSet e s := rfl
theorem exec_resultRingRemove (e : SubEntry) (s : State) : exec (.resultRingRemove e) s = execResultRingRemove e s := rfl
theorem exec_resultAck (e : SubEntry) (s : State) : exec (.resultAck e) s = execResultAck e s := rfl
theorem exec_resultRingStatus (e : SubEntry) (s : State) : exec (.resultRingStatus e) s = execResultRingStatus e s := rfl
theorem exec_healthStatus (e : SubEntry) (s : State) : exec (.healthStatus e) s = execHealthStatus e s := rfl
theorem exec_fenceClusterFence (e : SubEntry) (s : State) : exec (.fenceClusterFence e) s = execFenceClusterFence e s := rfl
theorem exec_fenceClusterRelease (e : SubEntry) (s : State) : exec (.fenceClusterRelease e) s = execFenceClusterRelease e s := rfl
theorem exec_clusterRestrictRestrict (e : SubEntry) (s : State) :
    exec (.clusterRestrictRestrict e) s = execClusterRestrictRestrict e s := rfl
theorem exec_clusterRestrictUnrestrict (e : SubEntry) (s : State) :
    exec (.clusterRestrictUnrestrict e) s = execClusterRestrictUnrestrict e s := rfl
theorem exec_healthResume (e : SubEntry) (s : State) : exec (.healthResume e) s = execHealthResume e s := rfl
theorem exec_vigilStatus (e : SubEntry) (s : State) : exec (.vigilStatus e) s = execVigilStatus e s := rfl
theorem exec_vigilDebugEnable (e : SubEntry) (s : State) : exec (.vigilDebugEnable e) s = execVigilDebugEnable e s := rfl
theorem exec_vigilDebugDisable (e : SubEntry) (s : State) : exec (.vigilDebugDisable e) s = execVigilDebugDisable e s := rfl
theorem exec_getSafetyReport (e : SubEntry) (s : State) : exec (.getSafetyReport e) s = execGetSafetyReport e s := rfl
theorem exec_almRead (e : SubEntry) (s : State) : exec (.almRead e) s = execAlmRead e s := rfl
theorem exec_almInfo (e : SubEntry) (s : State) : exec (.almInfo e) s = execAlmInfo e s := rfl
theorem exec_almClear (e : SubEntry) (flashFail : Bool) (s : State) : exec (.almClear e flashFail) s = execAlmClear e flashFail s := rfl
theorem exec_updLoad (e : SubEntry) (relayFail : List Nat) (s : State) : exec (.updLoad e relayFail) s = execUpdLoad e relayFail s := rfl
theorem exec_updSchedule (e : SubEntry) (s : State) : exec (.updSchedule e) s = execUpdSchedule e s := rfl
theorem exec_updConfirm (e : SubEntry) (s : State) : exec (.updConfirm e) s = execUpdConfirm e s := rfl
theorem exec_updStatus (e : SubEntry) (s : State) : exec (.updStatus e) s = execUpdStatus e s := rfl
theorem exec_updCancel (e : SubEntry) (s : State) : exec (.updCancel e) s = execUpdCancel e s := rfl
theorem exec_pwrStatus (e : SubEntry) (s : State) : exec (.pwrStatus e) s = execPwrStatus e s := rfl
theorem exec_pwrLimit (e : SubEntry) (s : State) : exec (.pwrLimit e) s = execPwrLimit e s := rfl
theorem exec_expertUnlockP3 (e : SubEntry) (s : State) : exec (.expertUnlockP3 e) s = execExpertUnlockP3 e s := rfl
theorem exec_expertUnlockService (e : SubEntry) (s : State) : exec (.expertUnlockService e) s = execExpertUnlockService e s := rfl
theorem exec_expertLock (e : SubEntry) (s : State) : exec (.expertLock e) s = execExpertLock e s := rfl
theorem exec_submissionFetch (s : State) : exec .submissionFetch s = execSubmissionFetch s := rfl
theorem exec_completionPost (s : State) : exec .completionPost s = execCompletionPost s := rfl
theorem exec_registerWrite (addr size value : Nat) (s : State) :
    exec (.registerWrite addr size value) s = execRegisterWrite addr size value s := rfl
theorem exec_frameLoRead (s : State) : exec .frameLoRead s = execFrameLoRead s := rfl
theorem exec_timeLoRead (s : State) : exec .timeLoRead s = execTimeLoRead s := rfl
theorem exec_almHeadLoRead (s : State) : exec .almHeadLoRead s = execAlmHeadLoRead s := rfl
theorem exec_apertureRead (ofs len : Nat) (s : State) : exec (.apertureRead ofs len) s = execApertureRead ofs len s := rfl
theorem exec_apertureWrite (ofs : Nat) (bytes : List Byte) (s : State) :
    exec (.apertureWrite ofs bytes) s = execApertureWrite ofs bytes s := rfl
theorem exec_cvuStart (k ctrl : Nat) (s : State) : exec (.cvuStart k ctrl) s = execCvuStart k ctrl s := rfl
theorem exec_cvuDataWrite (k len value : Nat) (s : State) : exec (.cvuDataWrite k len value) s = execCvuDataWrite k len value s := rfl
theorem exec_cvuRunDone (k : Nat) (s : State) : exec (.cvuRunDone k) s = execCvuRunDone k s := rfl
theorem exec_inputVoidComplete (u ctx : Nat) (s : State) : exec (.inputVoidComplete u ctx) s = execInputVoidComplete u ctx s := rfl
theorem exec_load (u ctx : Nat) (ph : Phys) (s : State) : exec (.load u ctx ph) s = execLoad u ctx ph s := rfl
theorem exec_store (u ctx : Nat) (ph : Phys) (s : State) : exec (.store u ctx ph) s = execStore u ctx ph s := rfl
theorem exec_sync (u ctx : Nat) (ph : Phys) (s : State) : exec (.sync u ctx ph) s = execSync u ctx ph s := rfl
theorem exec_matmul (u ctx : Nat) (ph : Phys) (s : State) : exec (.matmul u ctx ph) s = execMatmul u ctx ph s := rfl
theorem exec_matmulDx (u ctx : Nat) (ph : Phys) (s : State) : exec (.matmulDx u ctx ph) s = execMatmulDx u ctx ph s := rfl
theorem exec_matmulDw (u ctx : Nat) (ph : Phys) (s : State) : exec (.matmulDw u ctx ph) s = execMatmulDw u ctx ph s := rfl
theorem exec_vec (u ctx : Nat) (ph : Phys) (s : State) : exec (.vec u ctx ph) s = execVec u ctx ph s := rfl
theorem exec_sfu (u ctx : Nat) (ph : Phys) (s : State) : exec (.sfu u ctx ph) s = execSfu u ctx ph s := rfl
theorem exec_optStep (u ctx : Nat) (ph : Phys) (s : State) : exec (.optStep u ctx ph) s = execOptStep u ctx ph s := rfl
theorem exec_conv (u ctx : Nat) (ph : Phys) (s : State) : exec (.conv u ctx ph) s = execConv u ctx ph s := rfl
theorem exec_convFused (u ctx : Nat) (ph : Phys) (s : State) : exec (.convFused u ctx ph) s = execConvFused u ctx ph s := rfl
theorem exec_dwconv (u ctx : Nat) (ph : Phys) (s : State) : exec (.dwconv u ctx ph) s = execDwconv u ctx ph s := rfl
theorem exec_pool (u ctx : Nat) (ph : Phys) (s : State) : exec (.pool u ctx ph) s = execPool u ctx ph s := rfl
theorem exec_layout (u ctx : Nat) (ph : Phys) (s : State) : exec (.layout u ctx ph) s = execLayout u ctx ph s := rfl
theorem exec_nleConvIn (u ctx : Nat) (ph : Phys) (s : State) : exec (.nleConvIn u ctx ph) s = execNleConvIn u ctx ph s := rfl
theorem exec_nleConvOut (u ctx : Nat) (ph : Phys) (s : State) : exec (.nleConvOut u ctx ph) s = execNleConvOut u ctx ph s := rfl
theorem exec_nleCrop (u ctx : Nat) (ph : Phys) (s : State) : exec (.nleCrop u ctx ph) s = execNleCrop u ctx ph s := rfl
theorem exec_nlePool (u ctx : Nat) (ph : Phys) (s : State) : exec (.nlePool u ctx ph) s = execNlePool u ctx ph s := rfl
theorem exec_nleResample (u ctx : Nat) (ph : Phys) (s : State) : exec (.nleResample u ctx ph) s = execNleResample u ctx ph s := rfl
theorem exec_attnStep (u ctx : Nat) (ph : Phys) (s : State) : exec (.attnStep u ctx ph) s = execAttnStep u ctx ph s := rfl
theorem exec_attnPrefill (u ctx : Nat) (ph : Phys) (s : State) : exec (.attnPrefill u ctx ph) s = execAttnPrefill u ctx ph s := rfl
theorem exec_attnCommit (u ctx : Nat) (ph : Phys) (s : State) : exec (.attnCommit u ctx ph) s = execAttnCommit u ctx ph s := rfl
theorem exec_fusEgo (u ctx : Nat) (ph : Phys) (s : State) : exec (.fusEgo u ctx ph) s = execFusEgo u ctx ph s := rfl
theorem exec_fusUpdate (u ctx : Nat) (ph : Phys) (s : State) : exec (.fusUpdate u ctx ph) s = execFusUpdate u ctx ph s := rfl
theorem exec_fusPublish (u ctx : Nat) (ph : Phys) (s : State) : exec (.fusPublish u ctx ph) s = execFusPublish u ctx ph s := rfl
theorem exec_plnGrid (u ctx : Nat) (ph : Phys) (s : State) : exec (.plnGrid u ctx ph) s = execPlnGrid u ctx ph s := rfl
theorem exec_plnCheck (u ctx : Nat) (ph : Phys) (s : State) : exec (.plnCheck u ctx ph) s = execPlnCheck u ctx ph s := rfl
theorem exec_plnCommit (u ctx : Nat) (ph : Phys) (s : State) : exec (.plnCommit u ctx ph) s = execPlnCommit u ctx ph s := rfl
theorem exec_commandComplete (u ctx : Nat) (s : State) : exec (.commandComplete u ctx) s = execCommandComplete u ctx s := rfl
theorem exec_tokenArrival (dst : Nat) (t : Token) (s : State) : exec (.tokenArrival dst t) s = execTokenArrival dst t s := rfl
theorem exec_creditArrival (dst : Nat) (c : Credit) (s : State) : exec (.creditArrival dst c) s = execCreditArrival dst c s := rfl
theorem exec_commandLapse (u ctx : Nat) (s : State) : exec (.commandLapse u ctx) s = execCommandLapse u ctx s := rfl
theorem exec_contextSwapStart (u ctx : Nat) (s : State) : exec (.contextSwapStart u ctx) s = execContextSwapStart u ctx s := rfl
theorem exec_contextSwapComplete (u : Nat) (s : State) : exec (.contextSwapComplete u) s = execContextSwapComplete u s := rfl
theorem exec_twinNote (u ctx : Nat) (s : State) : exec (.twinNote u ctx) s = execTwinNote u ctx s := rfl
theorem exec_resultToken (planId : Nat) (t : Token) (s : State) : exec (.resultToken planId t) s = execResultToken planId t s := rfl
theorem exec_variantSwitch (planId : Nat) (s : State) : exec (.variantSwitch planId) s = execVariantSwitch planId s := rfl
theorem exec_exclusionSwitch (planId : Nat) (s : State) : exec (.exclusionSwitch planId) s = execExclusionSwitch planId s := rfl
theorem exec_mapSwitch (s : State) : exec .mapSwitch s = execMapSwitch s := rfl
theorem exec_quarantine (g : Nat) (s : State) : exec (.quarantine g) s = execQuarantine g s := rfl
theorem exec_deferredExpulsion (q : Nat) (s : State) : exec (.deferredExpulsion q) s = execDeferredExpulsion q s := rfl
theorem exec_seqHeartbeat (u : Nat) (s : State) : exec (.seqHeartbeat u) s = execSeqHeartbeat u s := rfl
theorem exec_heartbeatDeadline (s : State) : exec .heartbeatDeadline s = execHeartbeatDeadline s := rfl
theorem exec_checkAttribution (k : Nat) (s : State) : exec (.checkAttribution k) s = execCheckAttribution k s := rfl
theorem exec_weightRepair (addr : Nat) (s : State) : exec (.weightRepair addr) s = execWeightRepair addr s := rfl
theorem exec_cleanRunCredit (g : Nat) (s : State) : exec (.cleanRunCredit g) s = execCleanRunCredit g s := rfl
theorem exec_probationEnd (g : Nat) (s : State) : exec (.probationEnd g) s = execProbationEnd g s := rfl
theorem exec_deepSelfTestStart (g : Nat) (s : State) : exec (.deepSelfTestStart g) s = execDeepSelfTestStart g s := rfl
theorem exec_deepSelfTestDone (g : Nat) (pass lbist : Bool) (s : State) :
    exec (.deepSelfTestDone g pass lbist) s = execDeepSelfTestDone g pass lbist s := rfl
theorem exec_rotationStepStart (q : Nat) (s : State) : exec (.rotationStepStart q) s = execRotationStepStart q s := rfl
theorem exec_rotationTestDone (q : Nat) (pass : Bool) (s : State) : exec (.rotationTestDone q pass) s = execRotationTestDone q pass s := rfl
theorem exec_rotationStepEnd (q : Nat) (s : State) : exec (.rotationStepEnd q) s = execRotationStepEnd q s := rfl
theorem exec_holidaySegmentStart (kind item len : Nat) (s : State) :
    exec (.holidaySegmentStart kind item len) s = execHolidaySegmentStart kind item len s := rfl
theorem exec_holidaySegmentEnd (pass : Bool) (flaky : List Nat) (s : State) :
    exec (.holidaySegmentEnd pass flaky) s = execHolidaySegmentEnd pass flaky s := rfl
theorem exec_segmentWatchdog (s : State) : exec .segmentWatchdog s = execSegmentWatchdog s := rfl
theorem exec_testDebtWarning (kind : Nat) (s : State) : exec (.testDebtWarning kind) s = execTestDebtWarning kind s := rfl
theorem exec_testOverdue (kind : Nat) (s : State) : exec (.testOverdue kind) s = execTestOverdue kind s := rfl
theorem exec_budgetExceeded (u ctx count : Nat) (s : State) : exec (.budgetExceeded u ctx count) s = execBudgetExceeded u ctx count s := rfl
theorem exec_vigilEvent (e : VgEvent) (s : State) : exec (.vigilEvent e) s = execVigilEvent e s := rfl
theorem exec_vigilWatchdogExpiry (w : WdogService) (s : State) : exec (.vigilWatchdogExpiry w) s = execVigilWatchdogExpiry w s := rfl
theorem exec_vigilHeartbeatSend (isl : Isl) (s : State) : exec (.vigilHeartbeatSend isl) s = execVigilHeartbeatSend isl s := rfl
theorem exec_vigilHeartbeat (isl : Isl) (s : State) : exec (.vigilHeartbeat isl) s = execVigilHeartbeat isl s := rfl
theorem exec_peerLossTimeout (isl : Isl) (cause : Nat) (s : State) :
    exec (.peerLossTimeout isl cause) s = execPeerLossTimeout isl cause s := rfl
theorem exec_lossNotice (isl : Isl) (s : State) : exec (.lossNotice isl) s = execLossNotice isl s := rfl
theorem exec_comparatorMismatch (isl : Isl) (group : Nat) (async : Bool) (s : State) :
    exec (.comparatorMismatch isl group async) s = execComparatorMismatch isl group async s := rfl
theorem exec_restartRetry (isl : Isl) (s : State) : exec (.restartRetry isl) s = execRestartRetry isl s := rfl
theorem exec_islandResetRelease (isl : Isl) (flagged : Nat) (clean : Bool) (s : State) :
    exec (.islandResetRelease isl flagged clean) s = execIslandResetRelease isl flagged clean s := rfl
theorem exec_vigilInputChange (isl : Isl) (level : Nat) (s : State) :
    exec (.vigilInputChange isl level) s = execVigilInputChange isl level s := rfl
theorem exec_vigilBBreach (item : Nat) (reading : Int) (s : State) :
    exec (.vigilBBreach item reading) s = execVigilBBreach item reading s := rfl
theorem exec_readStatus (s : State) : exec .readStatus s = execReadStatus s := rfl
theorem exec_hold (s : State) : exec .hold s = execHold s := rfl
theorem exec_release (s : State) : exec .release s = execRelease s := rfl
theorem exec_spiBadCommand (cmd arg crc : Nat) (s : State) : exec (.spiBadCommand cmd arg crc) s = execSpiBadCommand cmd arg crc s := rfl
theorem exec_debugAttach (isl : Isl) (s : State) : exec (.debugAttach isl) s = execDebugAttach isl s := rfl
theorem exec_debugRegisterWrite (isl : Isl) (reg value : Nat) (s : State) :
    exec (.debugRegisterWrite isl reg value) s = execDebugRegisterWrite isl reg value s := rfl
theorem exec_debugResume (isl : Isl) (s : State) : exec (.debugResume isl) s = execDebugResume isl s := rfl
theorem exec_debugDetach (isl : Isl) (s : State) : exec (.debugDetach isl) s = execDebugDetach isl s := rfl
theorem exec_storeRequest (die ch : Nat) (s : State) : exec (.storeRequest die ch) s = execStoreRequest die ch s := rfl
theorem exec_refreshDue (die ch bank : Nat) (s : State) : exec (.refreshDue die ch bank) s = execRefreshDue die ch bank s := rfl
theorem exec_refreshWindowReturn (die : Nat) (s : State) : exec (.refreshWindowReturn die) s = execRefreshWindowReturn die s := rfl
theorem exec_ingestWrite (die bytes : Nat) (s : State) : exec (.ingestWrite die bytes) s = execIngestWrite die bytes s := rfl
theorem exec_levelStale (port die : Nat) (s : State) : exec (.levelStale port die) s = execLevelStale port die s := rfl
theorem exec_transactionIssue (port : Nat) (r : StoreTx) (s : State) :
    exec (.transactionIssue port r) s = execTransactionIssue port r s := rfl
theorem exec_delayUpdate (die : Nat) (s : State) : exec (.delayUpdate die) s = execDelayUpdate die s := rfl
theorem exec_csi2FrameStart (port vc frameNo : Nat) (s : State) :
    exec (.csi2FrameStart port vc frameNo) s = execCsi2FrameStart port vc frameNo s := rfl
theorem exec_ethernetFrame (port : Nat) (f : EthFrame) (s : State) : exec (.ethernetFrame port f) s = execEthernetFrame port f s := rfl
theorem exec_gapExpiry (k : Nat) (s : State) : exec (.gapExpiry k) s = execGapExpiry k s := rfl
theorem exec_ingestTileMove (k : Nat) (s : State) : exec (.ingestTileMove k) s = execIngestTileMove k s := rfl
theorem exec_sampleComplete (k : Nat) (s : State) : exec (.sampleComplete k) s = execSampleComplete k s := rfl
theorem exec_gptpSync (offset : Int) (gm steps : Nat) (s : State) :
    exec (.gptpSync offset gm steps) s = execGptpSync offset gm steps s := rfl
theorem exec_gptpHoldover (lost : Bool) (s : State) : exec (.gptpHoldover lost) s = execGptpHoldover lost s := rfl
theorem exec_almanacEvent (e : AlmMsg) (s : State) : exec (.almanacEvent e) s = execAlmanacEvent e s := rfl
theorem exec_journalFlush (fail : FlushFail) (s : State) : exec (.journalFlush fail) s = execJournalFlush fail s := rfl
theorem exec_almanacSummary (s : State) : exec .almanacSummary s = execAlmanacSummary s := rfl
theorem exec_settingsJournalWrite (s : State) : exec .settingsJournalWrite s = execSettingsJournalWrite s := rfl
theorem exec_porstRelease (s : State) : exec .porstRelease s = execPorstRelease s := rfl
theorem exec_hubClockLock (fuseOk : Bool) (s : State) : exec (.hubClockLock fuseOk) s = execHubClockLock fuseOk s := rfl
theorem exec_imageLoad (ph : BootPhys) (s : State) : exec (.imageLoad ph) s = execImageLoad ph s := rfl
theorem exec_discovery (ph : BootPhys) (s : State) : exec (.discovery ph) s = execDiscovery ph s := rfl
theorem exec_delaySetup (ph : BootPhys) (s : State) : exec (.delaySetup ph) s = execDelaySetup ph s := rfl
theorem exec_errorInjection (ph : BootPhys) (s : State) : exec (.errorInjection ph) s = execErrorInjection ph s := rfl
theorem exec_seasonSelection (ph : BootPhys) (s : State) : exec (.seasonSelection ph) s = execSeasonSelection ph s := rfl
theorem exec_ready (s : State) : exec .ready s = execReady s := rfl
theorem exec_perstRelease (s : State) : exec .perstRelease s = execPerstRelease s := rfl
theorem exec_hostInterfaceReset (kind : Nat) (s : State) : exec (.hostInterfaceReset kind) s = execHostInterfaceReset kind s := rfl
theorem exec_pciePowerState (d3 : Bool) (s : State) : exec (.pciePowerState d3) s = execPciePowerState d3 s := rfl
theorem exec_dmaCompletion (tag : Nat) (good : Bool) (s : State) : exec (.dmaCompletion tag good) s = execDmaCompletion tag good s := rfl
theorem exec_dmaTimeout (tag : Nat) (s : State) : exec (.dmaTimeout tag) s = execDmaTimeout tag s := rfl
theorem exec_rthJournal (s : State) : exec .rthJournal s = execRthJournal s := rfl
theorem exec_updateEpoch (s : State) : exec .updateEpoch s = execUpdateEpoch s := rfl
theorem exec_confirmWindowExpiry (s : State) : exec .confirmWindowExpiry s = execConfirmWindowExpiry s := rfl
theorem exec_fallbackEpoch (s : State) : exec .fallbackEpoch s = execFallbackEpoch s := rfl
theorem exec_keyDerivationDone (s : State) : exec .keyDerivationDone s = execKeyDerivationDone s := rfl
theorem exec_pairRestartDone (isl : Isl) (flagged : Nat) (clean : Bool) (s : State) :
    exec (.pairRestartDone isl flagged clean) s = execPairRestartDone isl flagged clean s := rfl
theorem exec_hubRailRecover (s : State) : exec .hubRailRecover s = execHubRailRecover s := rfl
theorem exec_linkTraining (link : Nat) (m : LinkMeasure) (s : State) : exec (.linkTraining link m) s = execLinkTraining link m s := rfl
theorem exec_ethLinkDown (mac : Nat) (s : State) : exec (.ethLinkDown mac) s = execEthLinkDown mac s := rfl
theorem exec_debugHalt (isl : Isl) (s : State) : exec (.debugHalt isl) s = execDebugHalt isl s := rfl
theorem exec_debugSingleStep (isl : Isl) (s : State) : exec (.debugSingleStep isl) s = execDebugSingleStep isl s := rfl
theorem exec_debugMemoryWrite (isl : Isl) (addr : Nat) (bytes : List Byte) (s : State) :
    exec (.debugMemoryWrite isl addr bytes) s = execDebugMemoryWrite isl addr bytes s := rfl
theorem exec_rowClose (die ch bank : Nat) (s : State) : exec (.rowClose die ch bank) s = execRowClose die ch bank s := rfl

end Sys2Proof.Machine
end

section
/-! PROOFS. Every step goes on. -/

namespace Sys2Proof.Machine
/-- The outcome `o` of a step from `s` goes on, and the queue stays the step's. -/
def GoesOn (s : State) (o : Out) : Prop := ∃ t, o = .next t ∧ t.pending = s.pending

@[simp] theorem goesOn_done (s t : State) : GoesOn s (done s t) := ⟨_, rfl, rfl⟩

/-- A mailbox command goes on whatever its checks say, also where earlier commands were ended before it. -/
theorem goesOn_mailbox {s s0 : State} (h : s0.pending = s.pending) (k : MbxCmd) (e : SubEntry) (body : State → Answer) :
    GoesOn s (mailbox k e body s0) := by
  unfold mailbox
  dsimp only
  repeat' split
  all_goals exact ⟨_, rfl, h⟩

theorem foldl_complete_pending (st : Nat) (l : List SubEntry) (s : State) :
    (l.foldl (fun s x => complete s x st []) s).pending = s.pending :=
  foldl_keeps (fun t => t.pending = s.pending) (fun t x => complete t x st []) (fun _ _ h => (complete_pending _ _ _ _).trans h) l s rfl

@[simp] theorem goesOn_mailbox_self (k : MbxCmd) (e : SubEntry) (body : State → Answer) (s : State) : GoesOn s (mailbox k e body s) :=
  goesOn_mailbox rfl k e body

theorem exec_goesOn (i : Instr) (s : State) : GoesOn s (exec i s) := by
  cases i
  all_goals dsimp only [exec,
    execLoad, execStore, execSync, execMatmul, execMatmulDx, execMatmulDw, execVec, execSfu, execOptStep, execConv, execConvFused,
    execDwconv, execPool, execLayout, execNleConvIn, execNleConvOut, execNleCrop, execNlePool, execNleResample, execTransactionIssue,
    execTransactionComplete, execBucketRefill, execLevelBroadcast, execLevelStale, execRefreshDue, execRefreshWindowReturn,
    execStoreRequest, execRowClose, execIngestWrite, execDelayUpdate, execCvuStart, execCvuDataWrite, execCvuRunDone, execWeightRepair,
    execHardFault, execBusTimeout, execQuarantine, execDeferredExpulsion, execCleanRunCredit, execProbationEnd, execSeqHeartbeat,
    execHeartbeatDeadline, execCheckAttribution, execDeepSelfTestStart, execDeepSelfTestDone, execEveCheck, execEveDeadline, execSafeEdge,
    execComparatorMismatch, execVigilWatchdogExpiry, execIslandBrownOut, execRestartRetry, execPairRestartDone, execIslandResetRelease,
    execIslandResetAssert, execVigilHeartbeatSend, execVigilHeartbeat, execPeerLossTimeout, execLossNotice, execVigilBBreach,
    execVigilInputChange, execReadStatus, execHold, execRelease, execSpiBadCommand, execDebugAttach, execDebugHalt, execDebugRegisterWrite,
    execDebugResume, execDebugSingleStep, execDebugMemoryWrite, execDebugDetach, execVigilEvent, execBudgetExceeded, execRotationStepStart,
    execRotationStepEnd, execRotationTestDone, execTestDebtWarning, execTestOverdue, execHolidaySegmentStart, execHolidaySegmentEnd,
    execSegmentWatchdog, execSqTailDoorbell, execCqHeadDoorbell, execSubmissionFetch, execCompletionPost, execNop, execGetEvents,
    execResultRingSet, execResultRingRemove, execResultAck, execResultRingStatus, execExpertUnlockP3, execExpertUnlockService,
    execExpertLock, execHealthStatus, execFenceClusterFence, execFenceClusterRelease, execClusterRestrictRestrict,
    execClusterRestrictUnrestrict, execHealthResume, execVigilStatus, execVigilDebugEnable, execVigilDebugDisable, execGetSafetyReport,
    execAlmanacEvent, execAlmanacSummary, execAlmRead, execAlmInfo, execAlmHeadLoRead, execAlmClear, execJournalFlush, execAttnStep,
    execAttnPrefill, execAttnCommit, execResultToken, execFrameReportPublish, execFusEgo, execFusUpdate, execFusPublish, execPlnGrid,
    execPlnCheck, execPlnCommit, execDataWriteCreate, execDataWriteRewrite, execDataWriteRepair, execDataWriteDelete, execDataRead,
    execDataCheck, execStoreRetain, execStoreResume, execMapLoad, execMapSelect, execMapStatus, execMapSwitch, execSeqDefine,
    execSeqEditTruncate, execSeqEditSetWindow, execSeqEditSetGlobals, execSeqEditReset, execSeqRead, execSeqDelete, execQueueStatus,
    execGptpSync, execGptpHoldover, execTimeLoRead, execCsi2FrameStart, execCsi2Packet, execCsi2FrameEnd, execEthernetFrame, execGapExpiry,
    execIngestTileMove, execSampleComplete, execPlanLoad, execPlanAdmit, execPlanSelect, execPlanRetire, execVariantSwitch,
    execExclusionSwitch, execDvfsStepComplete, execSurvivalP0Stop, execSurvivalExit, execPmSample, execThermtrip, execCoolantRead,
    execCoolantLost, execCoolFlowPulse, execFlowTimeout, execCapLawUpdate, execCapControl, execWarmHoldAdjust, execWarmShort,
    execAgeingReplan, execPwrStatus, execPwrLimit, execSetSeason, execSeasonStore, execSeasonRead, execTrigPulseStart, execTrigPulseEnd,
    execLinkTraining, execEthLinkDown, execGetSurroundings, execSettingsJournalWrite, execRthJournal, execPorstAssert, execPorstRelease,
    execHubRailLow, execHubRailRecover, execHubClockLock, execImageLoad, execDiscovery, execDelaySetup, execErrorInjection,
    execSeasonSelection, execReady, execGetIdentity, execKeyDerivationDone, execGetCerts, execAttest, execUpdLoad, execUpdSchedule,
    execUpdStatus, execUpdateEpoch, execUpdConfirm, execConfirmWindowExpiry, execFallbackEpoch, execUpdCancel, execCalend, execSeasonEpoch,
    execApertureRead, execApertureWrite, execRegisterWrite, execFrameLoRead, execHostInterfaceReset, execPerstRelease, execPciePowerState,
    execDmaCompletion, execDmaTimeout, execTokenArrival, execCreditArrival, execInputVoidComplete, execCommandComplete, execCommandLapse,
    execContextSwapStart, execContextSwapComplete, execTwinNote]
  all_goals repeat' split
  case updCancel.isFalse => exact goesOn_mailbox (foldl_complete_pending _ _ _) _ _ _
  all_goals simp

theorem idle_goesOn (s : State) : GoesOn s (idle s) := by
  unfold idle
  split <;> exact goesOn_done _ _

/-- Settles O2: every arm of `exec` ends in `done` or in the mailbox's common ending, and both keep the queue of the state they are given. -/
theorem everyStepGoesOn : Obligations.EveryStepGoesOn := by
  intro s
  unfold step
  cases hq : s.pending with
  | nil =>
    obtain ⟨t, ht, hp⟩ := idle_goesOn s
    exact ⟨t, ht, by simp [hp, hq]⟩
  | cons c rest => exact exec_goesOn c { s with pending := rest }

/-- Settles O1: `step` is defined by the front of the queue. -/
theorem stepRunsTheFrontCommand : Obligations.StepRunsTheFrontCommand := fun _ _ _ => rfl

end Sys2Proof.Machine
end

section
/-! PROOFS. The mailbox: how a command is checked, how it ends, and what the reporting commands answer. -/

namespace Sys2Proof.Machine

/-! ## How a command ends -/

/-- A command that ends changes Xiuth's book-keeping only: it is taken off, its DMA channel is granted again and its completion waits. -/
theorem complete_books (s : State) (e : SubEntry) (st : Nat) (r : List Byte) : ∃ dc, complete s e st r =
    { s with host := { s.host with taken := s.host.taken.erase e, dmaDone := s.host.dmaDone.erase e.tag, dmaChan := dc,
                                   waiting := s.host.waiting ++ [completionOf e st r] } } := by
  obtain ⟨dc, h⟩ := grantChannels_chan { s with host := { s.host with
    taken := s.host.taken.erase e, dmaDone := s.host.dmaDone.erase e.tag, dmaChan := s.host.dmaChan.filter (fun p => p.2 ≠ e.tag),
    waiting := s.host.waiting ++ [completionOf e st r] } }
  exact ⟨dc, h⟩

/-- An entry that no row of the command tables covers ends with BAD_OPCODE, RANGE or NOT_READY. -/
theorem strayStatus_cases {s : State} {e : SubEntry} (h : (strayStatus s e).isSome = true) :
    (strayStatus s e).getD 0 = stBadOpcode ∨ (strayStatus s e).getD 0 = stRange ∨ (strayStatus s e).getD 0 = stNotReady := by
  rcases hf : mbxTable.find? (fun r => r.1 = e.opcode) with _ | ⟨op, _ | ⟨o, m⟩, early⟩ <;> simp only [strayStatus, hf] at h ⊢
  · exact .inl rfl
  · cases h
  · by_cases hle : parByte e o ≤ m
    · simp [hle] at h
    · simp only [hle, if_false, Option.getD_some]
      split
      · exact .inr (.inl rfl)
      · exact .inr (.inr rfl)

/-- The completion of an entry that no row of the command tables covers. -/
def IsStrayDone (d : MbxDone) : Prop :=
  d.result = padTo 20 [] ∧ (d.status = stBadOpcode ∨ d.status = stRange ∨ d.status = stNotReady)

/-- Entries that no row covers end in their place: only Xiuth's book-keeping changes, and behind the completions that waited stand only theirs. -/
theorem settleStray_books (s : State) (n : Nat) : ∃ tk dd dc w, settleStray s n =
    { s with host := { s.host with taken := tk, dmaDone := dd, dmaChan := dc, waiting := s.host.waiting ++ w } } ∧
    (∀ x ∈ tk, x ∈ s.host.taken) ∧ ∀ d ∈ w, IsStrayDone d := by
  induction n generalizing s with
  | zero => exact ⟨_, _, _, [], by simp [settleStray]; rfl, fun _ h => h, by simp⟩
  | succ n ih =>
    unfold settleStray
    split
    next e hfind =>
      have hstray : (strayStatus s e).isSome = true := by
        have := List.find?_some hfind
        simp only [Bool.and_eq_true] at this
        exact this.1
      obtain ⟨dc, hc⟩ := complete_books s e ((strayStatus s e).getD 0) []
      obtain ⟨tk, dd, dc', w, heq, htk, hw⟩ := ih (complete s e ((strayStatus s e).getD 0) [])
      refine ⟨tk, dd, dc', completionOf e ((strayStatus s e).getD 0) [] :: w, ?_, fun x hx => ?_, fun d hd => ?_⟩
      · rw [heq, hc]; simp
      · have := htk x hx
        rw [hc] at this
        exact List.mem_of_mem_erase this
      · rcases List.mem_cons.mp hd with rfl | hd
        · exact ⟨rfl, strayStatus_cases hstray⟩
        · exact hw d hd
    · exact ⟨_, _, _, [], by simp; rfl, fun _ h => h, by simp⟩

/-- Settles O3: the completion goes to the end of the wait, and the entries that end behind it are only those no row covers. -/
theorem answeredCommandCompletes : Obligations.AnsweredCommandCompletes := by
  intro s t e status result
  obtain ⟨dc, hc⟩ := complete_books t e status result
  obtain ⟨tk, dd, dc', w, heq, htk, hw⟩ := settleStray_books (complete t e status result) 64
  refine ⟨tk, dd, dc', w, ?_, fun x hx => ?_, hw⟩
  · rw [answered, heq, hc]; simp [done]
  · have := htk x hx
    rw [hc] at this
    exact List.mem_of_mem_erase this

/-! ## The checks of R365 -/

/-- A command that Xiuth does not run leaves the state as it is. -/
theorem mailbox_held {k : MbxCmd} {e : SubEntry} {body : State → Answer} {s : State}
    (h : (!s.host.mbxReady || waitsTurn s e || (k.check e s = 0 && dmaHeld k e s)) = true) : mailbox k e body s = .next s :=
  if_pos h

theorem mailbox_refused {k : MbxCmd} {e : SubEntry} {body : State → Answer} {s : State} (hr : s.host.mbxReady = true)
    (hw : waitsTurn s e = false) (hc : k.check e s ≠ stOk) : mailbox k e body s = answered s s e (k.check e s) [] := by
  have hc' : k.check e s ≠ 0 := hc
  simp [mailbox, hr, hw, hc', answered]

theorem check_badOpcode {k : MbxCmd} {e : SubEntry} {s : State} (h : e.opcode ≠ k.opcode) : k.check e s = stBadOpcode :=
  if_pos h

theorem check_notReady {k : MbxCmd} {e : SubEntry} {s : State} (ho : e.opcode = k.opcode) (hr : s.host.ready = false) (he : k.early = false) :
    k.check e s = stNotReady := by
  simp [MbxCmd.check, ho, hr, he]

theorem check_reserved {k : MbxCmd} {e : SubEntry} {s : State} (ho : e.opcode = k.opcode) (hr : s.host.ready = true ∨ k.early = true)
    (hres : k.reservedOk e = false) : k.check e s = stRange := by
  rcases hr with hr | hr <;> simp [MbxCmd.check, ho, hr, hres]

/-- A status past the RANGE checks says that opcode, readiness and ranges passed, and which of the later ones did. -/
theorem check_past_range {k : MbxCmd} {e : SubEntry} {s : State} (h1 : k.check e s ≠ stBadOpcode) (h2 : k.check e s ≠ stNotReady)
    (h3 : k.check e s ≠ stRange) :
    e.opcode = k.opcode ∧ k.reservedOk e = true ∧ k.ranged (parOf e) = true ∧
      k.check e s = if !k.season s then stWrongSeason else if k.busy s (parOf e) || objectHeld s e then stBusy else stOk := by
  have ho : e.opcode = k.opcode := Classical.not_not.mp (mt check_badOpcode h1)
  unfold MbxCmd.check at h2 h3 ⊢
  rw [if_neg (Classical.not_not.mpr ho)] at h2 h3 ⊢
  by_cases hr : (!s.host.ready && !k.early) = true
  · exact absurd (if_pos hr) h2
  rw [if_neg hr] at h3 ⊢
  refine (Classical.em _).elim (fun hg => absurd (if_pos hg) h3) (fun hg => ?_)
  rw [if_neg hg]
  simp only [Bool.or_eq_true, not_or, Bool.not_eq_true, Bool.not_eq_false'] at hg
  obtain ⟨⟨⟨hres, hran⟩, -⟩, -⟩ := hg
  exact ⟨ho, hres, hran, rfl⟩

/-- Settles O4: `mailbox` tests readiness, turn and checks before its body, and `check` is R365's order written as a chain of conditions. -/
theorem mailboxChecksComeFirst : Obligations.MailboxChecksComeFirst := by
  refine ⟨fun k e body s => ⟨mailbox_refused, mailbox_accepted k e s body, fun h => mailbox_held (by simp [h]), fun hc hd => ?_,
    fun h => mailbox_held (by simp [h])⟩, fun k e s => ⟨check_badOpcode, check_notReady, check_reserved, fun h => ?_, fun h => ?_, fun h => ?_⟩⟩
  · have hc' : k.check e s = 0 := hc
    exact mailbox_held (by simp [hc', hd])
  all_goals
    obtain ⟨ho, hres, hran, hrest⟩ := check_past_range (k := k) (e := e) (s := s) (by rw [h]; decide) (by rw [h]; decide) (by rw [h]; decide)
    rw [h] at hrest
    split at hrest
  · simp_all
  · split at hrest <;> cases hrest
  · cases hrest
  · split at hrest
    · simp_all
    · cases hrest
  · cases hrest
  · split at hrest
    · cases hrest
    · simp_all

/-! ## The output buffer -/

/-- Scattered bytes reach no address outside the segments. -/
theorem mget_scatter_outside (m : Memory) (segs : List (Nat × Nat)) (bs : List Byte) (a : Nat)
    (h : ∀ g ∈ segs, a < g.1 ∨ g.1 + g.2 ≤ a) : mget (scatter m segs bs) a = mget m a := by
  induction segs generalizing m bs with
  | nil => rfl
  | cons g r ih =>
    obtain ⟨b, k⟩ := g
    unfold scatter
    split
    · rfl
    · rw [ih _ _ (fun g hg => h g (List.mem_cons_of_mem _ hg))]
      refine mget_mwrite_outside m b a _ ?_
      rcases h (b, k) List.mem_cons_self with hlt | hge
      · exact .inl hlt
      · have : (bs.take k).length ≤ k := List.length_take_le k bs
        exact .inr (by omega)

/-- Settles O7: an output is scattered over the segments, and `scatter` writes nowhere else. -/
theorem bufferOutputFrame : Obligations.BufferOutputFrame :=
  fun s _ _ => ⟨⟨_, rfl⟩, fun a h => mget_scatter_outside s.hostMem _ _ a h⟩

/-! ## The reporting commands -/

/-- An accepted command ends as its row's body says. -/
theorem accepted_ends {k : MbxCmd} {e : SubEntry} {s t : State} {body : State → Answer} {o : Out} {status : Nat} {result : List Byte}
    (h : Accepted k e s) (ho : o = mailbox k e body s) (hb : body s = { st := t, status := status, result := result }) :
    o = answered s t e status result := by
  rw [ho, mailbox_accepted k e s body h, hb]

theorem getEvents_room {e : SubEntry} (s : State) (h : 32 ≤ bufLenOf e) : getEvents e s =
    (let n := min (min (fld (parOf e) 0 2) (bufLenOf e / 32)) s.host.notifs.length
     let t := bufOut s e ((s.host.notifs.take n).flatMap notifBytes)
     { st := { t with host := { t.host with notifs := s.host.notifs.drop n, lost := 0 } }, result := natLe 4 n ++ natLe 4 s.host.lost }) :=
  if_neg (Nat.not_lt.mpr h)

theorem getEvents_short {e : SubEntry} (s : State) (h : bufLenOf e < 32) : getEvents e s = refuse s stRange :=
  if_pos h

theorem flatMap_range_two {α : Type} (f : Nat → List α) : (List.range 2).flatMap f = f 0 ++ f 1 := by
  simp [List.range_succ]

/-- The RESULT of MAP_STATUS: state and MAP_ID of slot 0, then of slot 1. -/
theorem mapStatus_result (s : State) :
    (List.range 2).flatMap (fun k => natLe 1 (slotState s k) ++ natLe 8 (slotOf s k).mapId) =
      natLe 1 (slotState s 0) ++ natLe 8 (slotOf s 0).mapId ++ natLe 1 (slotState s 1) ++ natLe 8 (slotOf s 1).mapId := by
  rw [flatMap_range_two, ← List.append_assoc]

/-- Settles O5: each report is the body of its row, which an accepted command runs. -/
theorem reportCommandsAnswer : Obligations.ReportCommandsAnswer := by
  intro s e
  exact ⟨fun h => accepted_ends h (exec_nop e s) rfl,
    fun h hl => accepted_ends h (exec_getEvents e s) (getEvents_room s hl),
    fun h hl => accepted_ends h (exec_getEvents e s) (getEvents_short s hl),
    fun h => accepted_ends h (exec_seasonRead e s) rfl,
    fun h => accepted_ends h (exec_getSurroundings e s) rfl,
    fun h => accepted_ends h (exec_getIdentity e s) rfl,
    fun h => accepted_ends h (exec_getCerts e s) rfl,
    fun h => accepted_ends h (exec_queueStatus e s) rfl,
    fun h => accepted_ends h (exec_mapStatus e s) (congrArg (Answer.mk s stOk) (mapStatus_result s)),
    fun h => accepted_ends h (exec_healthStatus e s) rfl,
    fun h => accepted_ends h (exec_vigilStatus e s) rfl,
    fun h => accepted_ends h (exec_getSafetyReport e s) rfl,
    fun h => accepted_ends h (exec_updStatus e s) rfl,
    fun h => accepted_ends h (exec_pwrStatus e s) rfl⟩

end Sys2Proof.Machine
end

section
/-! PROOFS. The commands that read memory, sequences, result rings and the Almanac. -/

namespace Sys2Proof.Machine

theorem dataRead_mapped {e : SubEntry} (s : State) (h : mapped (fld (parOf e) 0 6) (bufLenOf e) = true) : dataRead e s =
    { st := bufOut (countBytes s 5 3 (fld (parOf e) 0 6) (bufLenOf e) false) e (hubRead s (fld (parOf e) 0 6) (bufLenOf e)) } :=
  if_neg (by simp [h])

theorem dataRead_unmapped {e : SubEntry} (s : State) (h : mapped (fld (parOf e) 0 6) (bufLenOf e) = false) : dataRead e s = refuse s stRange :=
  if_pos (by simp [h])

/-- With units 8 to 15 all in a run, DATA_CHECK finds none. -/
theorem dataCheck_none {e : SubEntry} {s : State} (h : ∀ k, 8 ≤ k → k < 16 → (cvuOf s k).busy = true) : dataCheck e s = refuse s stBusy := by
  have hnone : (List.range 16).find? (fun k => 8 ≤ k && !(cvuOf s k).busy) = none := by
    refine List.find?_eq_none.mpr fun k hk => ?_
    have hlt := List.mem_range.mp hk
    by_cases h8 : 8 ≤ k
    · simp [h k h8 hlt]
    · simp [h8]
  rw [dataCheck, hnone]

theorem seqRead_valid {e : SubEntry} {s : State} (h : (seqOf s (parByte e 0)).valid = true) :
    seqRead e s = { st := bufOut s e (seqOf s (parByte e 0)).image } := by
  simp [seqRead, h]

theorem seqRead_undefined {e : SubEntry} {s : State} (h : (seqOf s (parByte e 0)).valid = false) : seqRead e s = refuse s stNotFound := by
  simp [seqRead, h]

theorem resultRingStatus_unset {e : SubEntry} {s : State} (h : (tget s.host.rings (parByte e 0) {}).isSet = false) :
    resultRingStatus e s = refuse s stNotFound := by
  simp [resultRingStatus, h]

theorem resultRingStatus_set {e : SubEntry} {s : State} (h : (tget s.host.rings (parByte e 0) {}).isSet = true) :
    resultRingStatus e s =
      (let r := tget s.host.rings (parByte e 0) {}
       { st := s, result := natLe 4 r.tail ++ natLe 4 r.head ++ natLe 4 r.dropped ++ natLe 4 r.tooBig }) := by
  simp [resultRingStatus, h]

theorem almRead_short {e : SubEntry} (s : State) (h : bufLenOf e < 64) : almRead e s = refuse s stRange :=
  if_pos h

theorem almRead_room {e : SubEntry} (s : State) (h : 64 ≤ bufLenOf e) : almRead e s =
    (let rs := recordsFrom s.alm (fld (parOf e) 0 6)
     let n := min (bufLenOf e / 64) rs.length
     let next := match rs.drop n with | r :: _ => r.seq | [] => s.alm.head + 1
     { st := bufOut s e ((rs.take n).flatMap recBytes), result := natLe 4 n ++ natLe 6 next }) :=
  if_neg (Nat.not_lt.mpr h)

/-- Settles O6: each row's body, in the case its object is there and in the case it is not. -/
theorem readCommandsAnswer : Obligations.ReadCommandsAnswer := by
  intro s e
  refine ⟨fun h hm => accepted_ends h (exec_dataRead e s) (dataRead_mapped s hm),
    fun h hm => accepted_ends h (exec_dataRead e s) (dataRead_unmapped s hm),
    fun h hk => accepted_ends h (exec_dataCheck e s) (dataCheck_none hk), fun k h hk => accepted_ends h (exec_dataCheck e s) ?check,
    fun h hv => accepted_ends h (exec_seqRead e s) (seqRead_valid hv),
    fun h hv => accepted_ends h (exec_seqRead e s) (seqRead_undefined hv),
    fun h hv => accepted_ends h (exec_resultRingStatus e s) (resultRingStatus_unset hv),
    fun h hl => accepted_ends h (exec_almRead e s) (almRead_short s hl),
    fun h hv => accepted_ends h (exec_resultRingStatus e s) (resultRingStatus_set hv),
    fun h hl => accepted_ends h (exec_almRead e s) (almRead_room s hl),
    fun h => accepted_ends h (exec_almInfo e s) rfl,
    fun h => accepted_ends h (exec_attest e s) rfl⟩
  case check =>
    unfold dataCheck
    rw [hk]

end Sys2Proof.Machine
end

section
/-! PROOFS. PLAN_LOAD, PLAN_ADMIT, PLAN_SELECT and PLAN_RETIRE. -/

namespace Sys2Proof.Machine

/-! ## Loading -/

theorem loadPlan_unreadable {s : State} {img : List Byte} (h : loadOk img = false ∨ oldFmtOk s 0 (ph img 4 2) = false) :
    loadPlan s img = (s, stRange) :=
  if_pos (by rcases h with h | h <;> simp [h])

section
variable {s : State} {img : List Byte} (hload : loadOk img = true) (hfmt : oldFmtOk s 0 (ph img 4 2) = true)
include hload hfmt

theorem loadPlan_known (hid : ∃ p ∈ s.plans, p.planId = ph img 8 8) : loadPlan s img = (s, stBusy) := by
  simp [loadPlan, hload, hfmt, hid]

variable (hid : ∀ p ∈ s.plans, p.planId ≠ ph img 8 8)
include hid

theorem loadPlan_full (hfull : 16 ≤ s.plans.length) : loadPlan s img = (s, stNoSlot) := by
  unfold loadPlan
  dsimp only
  rw [if_neg (by simp [hload, hfmt]), if_neg (by simpa using hid), if_pos hfull]

theorem loadPlan_noDir (hroom : s.plans.length < 16)
    (hdir : reserveDir s.host (ph img 8 8) ((List.range (outputCount img)).map (outAt img)) = none) : loadPlan s img = (s, stNoSlot) := by
  unfold loadPlan
  dsimp only
  rw [if_neg (by simp [hload, hfmt]), if_neg (by simpa using hid), if_neg (Nat.not_le.mpr hroom), hdir]

theorem loadPlan_loaded {first : Nat} {h : HostS} (hroom : s.plans.length < 16)
    (hdir : reserveDir s.host (ph img 8 8) ((List.range (outputCount img)).map (outAt img)) = some (first, h)) : loadPlan s img =
    ({ s with host := h, plans := s.plans ++ [{ planId := ph img 8 8, image := img, dirFirst := first }] }, stOk) := by
  unfold loadPlan
  dsimp only
  rw [if_neg (by simp [hload, hfmt]), if_neg (by simpa using hid), if_neg (Nat.not_le.mpr hroom), hdir]

end

theorem planLoad_refused {e : SubEntry} {s : State} {st : Nat} (h : loadPlan s (bufAll s e) = (s, st)) (hst : st ≠ stOk) :
    planLoad e s = refuse s st := by
  simp [planLoad, h, hst]

/-- A plan that no earlier entry names is found behind the ones that stood before it. -/
theorem planOf_append {s : State} {h : HostS} {q : Plan} (hid : ∀ p ∈ s.plans, p.planId ≠ q.planId) :
    planOf { s with host := h, plans := s.plans ++ [q] } q.planId = some q := by
  have hnone : s.plans.find? (fun p => p.planId = q.planId) = none := by simpa using hid
  simp [planOf, List.find?_append, hnone]

theorem planLoad_loaded {e : SubEntry} {s t : State} {q : Plan} (hl : loadPlan s (bufAll s e) = (t, stOk))
    (hq : planOf t (ph (bufAll s e) 8 8) = some q) :
    planLoad e s = { st := t, result := natLe 8 (ph (bufAll s e) 8 8) ++ natLe 2 q.dirFirst } := by
  simp [planLoad, hl, hq]

/-! ## Admission, selection and retirement -/

theorem planAdmit_admitted {e : SubEntry} {s t : State} {p : Plan} (hp : livePlan s (fld (parOf e) 0 8) = some p)
    (ha : admitPlan s p = (t, none)) : planAdmit e s = { st := t, result := planNoBytes { reason := 0, variant := 0 } } := by
  simp only [planAdmit, hp, ha]

theorem planAdmit_refused {e : SubEntry} {s t : State} {p : Plan} {x} (hp : livePlan s (fld (parOf e) 0 8) = some p)
    (ha : admitPlan s p = (t, some x)) : planAdmit e s = refuse s stPlanRefused (planNoBytes x) := by
  simp only [planAdmit, hp, ha]

section
variable {e : SubEntry} {s : State} {p : Plan} (hp : livePlan s (fld (parOf e) 0 8) = some p) (ha : p.admitted = true)
include hp ha

theorem planSelect_outOfRange (hv : variantCount p.image ≤ parByte e 8) : planSelect e s = refuse s stRange := by
  simp [planSelect, hp, ha, hv]

theorem planSelect_barred {r : Nat} (hv : parByte e 8 < variantCount p.image)
    (hr : selectBar s p.image (parByte e 8) (effectFrame s) = some r) :
    planSelect e s = refuse s stPlanRefused (planNoBytes { reason := rsVariant, variant := parByte e 8, res := r }) := by
  simp [planSelect, hp, ha, Nat.not_le.mpr hv, hr]

theorem planSelect_selected (hv : parByte e 8 < variantCount p.image) (hr : selectBar s p.image (parByte e 8) (effectFrame s) = none) :
    planSelect e s = { st := modPlan s p.planId (fun q => { q with select := setSelect q.select (parByte e 8) (effectFrame s) }),
                       result := natLe 6 (effectFrame s) } := by
  simp [planSelect, hp, ha, Nat.not_le.mpr hv, hr]

end

theorem planRetire_live {e : SubEntry} {s : State} {p : Plan} (hp : livePlan s (fld (parOf e) 0 8) = some p) :
    planRetire e s =
      if p.admitted then { st := modPlan s p.planId (fun q => { q with retiring := true }), result := natLe 6 (s.cal.frame + 1) }
      else { st := dropPlan s p.planId, result := natLe 6 s.cal.frame } := by
  simp only [planRetire, hp]

section
variable {e : SubEntry} {s : State} (h : livePlan s (fld (parOf e) 0 8) = none)
include h

theorem planAdmit_unknown : planAdmit e s = refuse s stNotFound := by simp only [planAdmit, h]

theorem planSelect_unknown : planSelect e s = refuse s stNotFound := by simp only [planSelect, h]

theorem planRetire_unknown : planRetire e s = refuse s stNotFound := by simp only [planRetire, h]

end

/-- Settles O8: the bodies of the four rows, one case of each after another. -/
theorem planCommandsTakeEffect : Obligations.PlanCommandsTakeEffect := by
  intro s e
  refine ⟨fun id h hid hload hfmt => ⟨fun hknown => ?known, fun hnew hfull => ?full, fun hnew hroom =>
    ⟨fun hdir => ?noDir, fun first h' hdir => ?loaded⟩⟩,
    fun h hbad => accepted_ends h (exec_planLoad e s) (planLoad_refused (loadPlan_unreadable hbad) (by decide)),
    fun p t h hp ha => accepted_ends h (exec_planAdmit e s) (planAdmit_admitted hp ha),
    fun p t x h hp ha => accepted_ends h (exec_planAdmit e s) (planAdmit_refused hp ha),
    fun p h hp ha => ⟨fun hv => ?outOfRange, fun hv => ⟨fun r hr => ?barred, fun hr => ?selected⟩⟩, fun p h hp => ?retire,
    fun hp => ⟨fun h => accepted_ends h (exec_planAdmit e s) (planAdmit_unknown hp),
      fun h => accepted_ends h (exec_planSelect e s) (planSelect_unknown hp),
      fun h => accepted_ends h (exec_planRetire e s) (planRetire_unknown hp)⟩⟩
  case known =>
    subst hid
    exact accepted_ends h (exec_planLoad e s) (planLoad_refused (loadPlan_known hload hfmt hknown) (by decide))
  case full =>
    subst hid
    exact accepted_ends h (exec_planLoad e s) (planLoad_refused (loadPlan_full hload hfmt hnew hfull) (by decide))
  case noDir =>
    subst hid
    exact accepted_ends h (exec_planLoad e s) (planLoad_refused (loadPlan_noDir hload hfmt hnew hroom hdir) (by decide))
  case loaded =>
    subst hid
    exact accepted_ends h (exec_planLoad e s) (planLoad_loaded (loadPlan_loaded hload hfmt hnew hroom hdir)
      (planOf_append (q := { planId := ph (bufAll s e) 8 8, image := bufAll s e, dirFirst := first }) hnew))
  case outOfRange => exact accepted_ends h (exec_planSelect e s) (planSelect_outOfRange hp ha hv)
  case barred => exact accepted_ends h (exec_planSelect e s) (planSelect_barred hp ha hv hr)
  case selected => exact accepted_ends h (exec_planSelect e s) (planSelect_selected hp ha hv hr)
  case retire =>
    split
    next hadm => exact accepted_ends h (exec_planRetire e s) ((planRetire_live hp).trans (if_pos hadm))
    next hadm => exact accepted_ends h (exec_planRetire e s) ((planRetire_live hp).trans (if_neg hadm))

end Sys2Proof.Machine
end

section
/-! PROOFS. DATA_WRITE and the store commands. -/

namespace Sys2Proof.Machine

/-! ## Regions -/

section
variable {e : SubEntry} {s : State}

theorem dataCreate_refused (h : (createRegion e).log2Tile < 8 ∨ 16 < (createRegion e).log2Tile ∨ 3 < (createRegion e).part ∨
    (tget s.regions (fld (parOf e) 0 2) {}).valid = true) : dataCreate e s = refuse s stRange :=
  if_pos (by simpa [or_assoc] using h)

/-- A CREATE whose fields are in range: what else can refuse it, in order. -/
theorem dataCreate_ranged (h8 : 8 ≤ (createRegion e).log2Tile) (h16 : (createRegion e).log2Tile ≤ 16) (hp : (createRegion e).part ≤ 3)
    (hv : (tget s.regions (fld (parOf e) 0 2) {}).valid = false) : dataCreate e s =
      if overlapsRegion s (createRegion e) (fun x => x.mapSlot.isSome) then refuse s stInUse
      else if !regionPlaced s (createRegion e) || overlapsRegion s (createRegion e) (fun _ => true) then refuse s stRange
      else if 1024 ≤ (s.regions.filter (fun p => p.2.valid && p.2.mapSlot.isNone)).length then refuse s stNoSlot
      else (openRegion s (fld (parOf e) 0 2) (createRegion e)).elim (refuse s stRange) (fun t => { st := t, result := natLe 2 1 }) := by
  have hneg : ¬ ((createRegion e).log2Tile < 8 || 16 < (createRegion e).log2Tile || 3 < (createRegion e).part ||
      (tget s.regions (fld (parOf e) 0 2) {}).valid) = true := by
    simp [Nat.not_lt.mpr h8, Nat.not_lt.mpr h16, Nat.not_lt.mpr hp, hv]
  refine (if_neg hneg).trans ?_
  cases openRegion s (fld (parOf e) 0 2) (createRegion e) <;> rfl

theorem dataRewrite_range (hv : (tget s.regions (fld (parOf e) 0 2) {}).valid = true)
    (hl : bufLenOf e ≠ (tget s.regions (fld (parOf e) 0 2) {}).size) : dataRewrite e s = refuse s stRange := by
  simp [dataRewrite, hv, hl]

theorem dataRewrite_inUse {r : Region} (hr : tget s.regions (fld (parOf e) 0 2) {} = r) (hv : r.valid = true) (hl : bufLenOf e = r.size)
    (hb : regionBound s r = true) (hi : ∃ i, i < r.tiles ∧ weightInvalid s r i = false) : dataRewrite e s = refuse s stInUse := by
  simp [dataRewrite, hr, hv, hl, hb, hi]

theorem dataRewrite_written {r : Region} {gen : Nat} (hr : tget s.regions (fld (parOf e) 0 2) {} = r) (hv : r.valid = true)
    (hl : bufLenOf e = r.size) (hb : regionBound s r = true → ∀ i, i < r.tiles → weightInvalid s r i = true)
    (hg : gen = if regionBound s r = true then r.gen else (r.gen + 1) % 65536) : dataRewrite e s =
      (let t := writeTiles s r 0 gen (bufAll s e)
       { st := { t with regions := tput t.regions (fld (parOf e) 0 2) { r with gen := gen, asked := [] } }, result := natLe 2 gen }) := by
  have hany : (regionBound s r && (List.range r.tiles).any (fun i => !weightInvalid s r i)) = false := by
    simpa using hb
  subst hg
  simp [dataRewrite, hr, hv, hl, hany]

theorem dataRepair_range {r : Region} {ofs : Nat} (hr : tget s.regions (fld (parOf e) 0 2) {} = r) (hv : r.valid = true)
    (ho : fld (parOf e) 26 8 = ofs)
    (h : ofs % 2 ^ r.log2Tile ≠ 0 ∨ bufLenOf e % 2 ^ r.log2Tile ≠ 0 ∨ bufLenOf e = 0 ∨ r.size < ofs + bufLenOf e) :
    dataRepair e s = refuse s stRange := by
  subst hr ho
  unfold dataRepair
  dsimp only
  rw [if_neg (by simp [hv]), if_pos (by simpa [or_assoc] using h)]

/-- A REPAIR of a run of whole tiles inside its region. -/
theorem dataRepair_run {r : Region} {ofs : Nat} {is : List Nat} (hr : tget s.regions (fld (parOf e) 0 2) {} = r) (hv : r.valid = true)
    (ho : fld (parOf e) 26 8 = ofs) (h1 : ofs % 2 ^ r.log2Tile = 0) (h2 : bufLenOf e % 2 ^ r.log2Tile = 0) (h3 : bufLenOf e ≠ 0)
    (h4 : ofs + bufLenOf e ≤ r.size) (his : is = (List.range (bufLenOf e / 2 ^ r.log2Tile)).map (· + ofs / 2 ^ r.log2Tile)) :
    dataRepair e s = if regionBound s r && is.any (fun i => !weightInvalid s r i) then refuse s stInUse
      else { st := settleAsked ((is.filter (weightInvalid s r)).foldl (fun t i =>
               putWeight t r i r.gen (slice (bufAll s e) (i * 2 ^ r.log2Tile - ofs) (2 ^ r.log2Tile))) s) (fld (parOf e) 0 2) is,
             result := natLe 2 r.gen } := by
  subst hr ho his
  rw [List.foldl_filter]
  unfold dataRepair
  dsimp only
  rw [if_neg (by simp [hv]), if_neg (by simp [h1, h2, h3, Nat.not_lt.mpr h4])]

theorem dataDelete_valid {r : Region} (hr : tget s.regions (fld (parOf e) 0 2) {} = r) (hv : r.valid = true) :
    dataDelete e s = if regionBound s r then refuse s stInUse else { st := closeRegion s (fld (parOf e) 0 2), result := natLe 2 r.gen } := by
  simp [dataDelete, hr, hv]

variable (hv : (tget s.regions (fld (parOf e) 0 2) {}).valid = false)
include hv

theorem dataRewrite_notFound : dataRewrite e s = refuse s stNotFound := by simp [dataRewrite, hv]

theorem dataRepair_notFound : dataRepair e s = refuse s stNotFound := by simp [dataRepair, hv]

theorem dataDelete_notFound : dataDelete e s = refuse s stNotFound := by simp [dataDelete, hv]

end

/-! ## Retention -/

@[simp] theorem stcOf_modStc_self (s : State) (d : Nat) (f : Stc → Stc) : stcOf (modStc s d f) d = f (stcOf s d) := by
  simp [stcOf]

theorem stcOf_modStc_ne (s : State) (d k : Nat) (f : Stc → Stc) (h : k ≠ d) : stcOf (modStc s d f) k = stcOf s k := by
  simp [stcOf, tget_tmod_ne _ _ _ _ _ _ h]

/-- A fold that sets something of each die it names has set it of every die named. -/
theorem stcOf_foldl_modStc {P : Stc → Prop} {g : Nat → Stc → Stc} (hg : ∀ d c, P (g d c)) (l : List Nat) (s : State) (k : Nat)
    (hk : k ∈ l ∨ P (stcOf s k)) : P (stcOf (l.foldl (fun t d => modStc t d (g d)) s) k) := by
  induction l generalizing s with
  | nil => exact hk.resolve_left (by simp)
  | cons d l ih =>
    refine ih _ ?_
    by_cases hkd : k = d
    · subst hkd
      exact .inr (by rw [stcOf_modStc_self]; exact hg _ _)
    · rw [stcOf_modStc_ne _ _ _ _ hkd]
      exact hk.imp_left fun h => (List.mem_cons.mp h).resolve_left hkd

theorem mem_dies {d : Nat} (h : d < 4) : d ∈ [0, 1, 2, 3] := by
  simp
  omega

theorem storeRetain_admitted {e : SubEntry} {s : State} (h : anyAdmitted s = true) : storeRetain e s = refuse s stInUse :=
  if_pos h

theorem storeRetain_retains {e : SubEntry} {s : State} (h : anyAdmitted s = false) :
    ∃ t, storeRetain e s = { st := t } ∧ ∀ d, d < 4 → (stcOf t d).retaining = true :=
  ⟨_, if_neg (by simp [h]), fun d hd => stcOf_foldl_modStc (P := fun c => c.retaining = true) (fun _ _ => rfl) _ _ d (.inl (mem_dies hd))⟩

/-- With every segment of every die to be kept, a retention loses none. -/
theorem storeRetain_whole {e : SubEntry} {s : State} (h : anyAdmitted s = false) (hm : ∀ d, d < 4 → fld (parOf e) d 1 = 0xFF) :
    storeRetain e s =
      (let t := [0, 1, 2, 3].foldl (fun t d =>
         modStc t d (fun c => { c with retaining := true, retained := if c.retaining then c.retained &&& 0xFF else 0xFF }))
         { s with streams := tmap s.streams Stream.dropForRetain }
       { st := t }) := by
  have hkept : (List.range 8).filter (fun k => !bit 0xFF k) = [] := by decide
  unfold storeRetain
  dsimp only
  rw [if_neg (by simp [h])]
  simp [hm 0, hm 1, hm 2, hm 3, hkept]

theorem storeResume_awake {s : State} (h : ∀ d, d < 4 → (stcOf s d).retaining = false) : storeResume s = refuse s stRange :=
  if_pos (by simpa using h)

section
variable {s : State} {d : Nat} (hd : d < 4) (h : (stcOf s d).retaining = true)
include hd h

theorem storeResume_wakes : ∃ t, storeResume s = { st := t } ∧ ∀ d, d < 4 → (stcOf t d).retaining = false :=
  ⟨_, if_neg (by simpa using ⟨d, hd, h⟩),
    fun d hd => stcOf_foldl_modStc (P := fun c => c.retaining = false) (fun _ _ => rfl) _ _ d (.inl (mem_dies hd))⟩

theorem storeResume_bare (hr : s.regions = []) (hq : s.seqs = []) :
    storeResume s = { st := [0, 1, 2, 3].foldl (fun t d => modStc t d (fun c => { c with retaining := false })) s } := by
  unfold storeResume
  dsimp only
  rw [if_neg (by simpa using ⟨d, hd, h⟩)]
  simp [hr, hq]

end

/-- Settles O9: the bodies of the rows, one case of each after another. -/
theorem dataCommandsTakeEffect : Obligations.DataCommandsTakeEffect := by
  rintro s e id r rfl rfl
  refine ⟨fun h => ⟨fun hbad => accepted_ends h (exec_dataWriteCreate e s) (dataCreate_refused hbad), fun h8 h16 hp hv => ?create⟩,
    fun h hv => ⟨fun hl => accepted_ends h (exec_dataWriteRewrite e s) (dataRewrite_range hv hl),
      fun hl hb hi => accepted_ends h (exec_dataWriteRewrite e s) (dataRewrite_inUse rfl hv hl hb hi),
      fun gen hl hb hg => accepted_ends h (exec_dataWriteRewrite e s) (dataRewrite_written rfl hv hl hb hg)⟩,
    fun ofs h hv ho => ⟨fun hbad => accepted_ends h (exec_dataWriteRepair e s) (dataRepair_range rfl hv ho.symm hbad),
      fun is h1 h2 h3 h4 his => ⟨fun hb hi => ?repairInUse, fun hb => ?repaired⟩⟩,
    fun h hv => ⟨fun hb => accepted_ends h (exec_dataWriteDelete e s) ((dataDelete_valid rfl hv).trans (if_pos hb)),
      fun hb => accepted_ends h (exec_dataWriteDelete e s) ((dataDelete_valid rfl hv).trans (if_neg (by simp [hb])))⟩,
    fun hv => ⟨fun h => accepted_ends h (exec_dataWriteRewrite e s) (dataRewrite_notFound hv),
      fun h => accepted_ends h (exec_dataWriteRepair e s) (dataRepair_notFound hv),
      fun h => accepted_ends h (exec_dataWriteDelete e s) (dataDelete_notFound hv)⟩,
    fun h ha => accepted_ends h (exec_storeRetain e s) (storeRetain_admitted ha), fun h ha => ?retain,
    fun h ha hm => accepted_ends h (exec_storeRetain e s) (storeRetain_whole ha hm),
    fun h hd => accepted_ends h (exec_storeResume e s) (storeResume_awake hd),
    fun d h hd hr => ⟨?resume, fun hreg hq => accepted_ends h (exec_storeResume e s) (storeResume_bare hd hr hreg hq)⟩⟩
  case create =>
    have hc := dataCreate_ranged h8 h16 hp hv
    refine ⟨fun hov => accepted_ends h (exec_dataWriteCreate e s) (hc.trans (if_pos hov)), fun hov => ?_⟩
    rw [if_neg (by simp [hov])] at hc
    refine ⟨fun hbad => accepted_ends h (exec_dataWriteCreate e s) (hc.trans (if_pos (by simpa using hbad))), fun hpl hov' => ?_⟩
    rw [if_neg (by simp [hpl, hov'])] at hc
    refine ⟨fun hfull => accepted_ends h (exec_dataWriteCreate e s) (hc.trans (if_pos hfull)), fun hroom => ?_⟩
    rw [if_neg (Nat.not_le.mpr hroom)] at hc
    exact ⟨fun ho => accepted_ends h (exec_dataWriteCreate e s) (hc.trans (by rw [ho]; rfl)),
      fun t ho => accepted_ends h (exec_dataWriteCreate e s) (hc.trans (by rw [ho]; rfl))⟩
  case repairInUse =>
    exact accepted_ends h (exec_dataWriteRepair e s)
      ((dataRepair_run rfl hv ho.symm h1 h2 h3 h4 his).trans (if_pos (by simpa [hb] using hi)))
  case repaired =>
    exact accepted_ends h (exec_dataWriteRepair e s)
      ((dataRepair_run rfl hv ho.symm h1 h2 h3 h4 his).trans (if_neg (by simpa using hb)))
  case retain =>
    obtain ⟨t, ht, hret⟩ := storeRetain_retains (e := e) ha
    exact ⟨t, accepted_ends h (exec_storeRetain e s) ht, hret⟩
  case resume =>
    obtain ⟨t, ht, hret⟩ := storeResume_wakes hd hr
    exact ⟨t, accepted_ends h (exec_storeResume e s) ht, hret⟩

end Sys2Proof.Machine
end

section
/-! PROOFS. The map, sequence and result-ring commands. -/

namespace Sys2Proof.Machine

/-! ## Maps -/

section
variable {e : SubEntry} {s : State}

theorem mapLoad_inUse (h : slotInUse s (fld (parOf e) 0 1) = true) : mapLoad e s = refuse s stInUse :=
  if_pos h

variable (hu : slotInUse s (fld (parOf e) 0 1) = false)
include hu

theorem mapLoad_oldFormat (hf : fmtVersionOk s 1 (fld (bufAll s e) 4 2) = true) (ho : oldFmtOk s 1 (fld (bufAll s e) 4 2) = false) :
    mapLoad e s = refuse s stRange := by
  simp [mapLoad, hu, hf, ho]

variable (hf : fmtVersionOk s 1 (fld (bufAll s e) 4 2) = false ∨ oldFmtOk s 1 (fld (bufAll s e) 4 2) = true)
include hf

theorem mapLoad_loaded {t : State}
    (hl : loadMap s (fld (parOf e) 0 1) (fld (parOf e) 1 1) (fld (parOf e) 2 6) (fld (parOf e) 8 6) (bufAll s e) = (t, none)) :
    mapLoad e s = { st := t } := by
  unfold mapLoad
  dsimp only
  rw [if_neg (by simp [hu]), if_neg (by rcases hf with h | h <;> simp [h]), hl]

theorem mapLoad_fault {t : State} {d i : Nat}
    (hl : loadMap s (fld (parOf e) 0 1) (fld (parOf e) 1 1) (fld (parOf e) 2 6) (fld (parOf e) 8 6) (bufAll s e) = (t, some (d, i))) :
    mapLoad e s = { st := alm t 0x4000 .mapFault 2 [fld (parOf e) 0 1, d, i], status := stRange,
                    result := natLe 1 d ++ natLe 3 0 ++ natLe 4 i } := by
  unfold mapLoad
  dsimp only
  rw [if_neg (by simp [hu]), if_neg (by rcases hf with h | h <;> simp [h]), hl]

end

theorem mapSelect_empty {e : SubEntry} {s : State} (h : (slotOf s (parByte e 0)).loaded = false) : mapSelect e s = refuse s stRange := by
  simp [mapSelect, h]

theorem mapSelect_loaded {e : SubEntry} {s : State} (h : (slotOf s (parByte e 0)).loaded = true) : mapSelect e s =
    { st := { s with pln := { s.pln with select := setSelect s.pln.select (parByte e 0) (effectFrame s) } },
      result := natLe 6 (effectFrame s) } := by
  simp [mapSelect, h]

/-! ## Sequences -/

theorem seqDefine_refused {e : SubEntry} {s : State} (h : bufLenOf e ≠ 128 ∨ seqRanged (bufAll s e) = false ∨
    seqFits (seqDesc (bufAll s e)) = false ∨ seqPlaced s (seqDesc (bufAll s e)) = false) : seqDefine e s = refuse s stRange :=
  if_pos (by simpa [or_assoc] using h)

section
variable {e : SubEntry} {s : State} (hl : bufLenOf e = 128) (hr : seqRanged (bufAll s e) = true)
  (hf : seqFits (seqDesc (bufAll s e)) = true) (hp : seqPlaced s (seqDesc (bufAll s e)) = true)
include hl hr hf hp

theorem seqDefine_noSlot (h : ∀ i, i < 64 → (seqOf s i).valid = true) : seqDefine e s = refuse s stNoSlot := by
  have hnone : (List.range 64).find? (fun i => !(seqOf s i).valid) = none :=
    List.find?_eq_none.mpr fun i hi => by simp [h i (List.mem_range.mp hi)]
  unfold seqDefine
  dsimp only
  rw [if_neg (by simp [hl, hr, hf, hp]), hnone]

variable {id : Nat} (hid : (List.range 64).find? (fun i => !(seqOf s i).valid) = some id)
include hid

theorem seqDefine_noFines (h : seqFines s id (seqDesc (bufAll s e)) = none) : seqDefine e s = refuse s stRange := by
  unfold seqDefine
  dsimp only
  rw [if_neg (by simp [hl, hr, hf, hp]), hid]
  dsimp only
  rw [h]

theorem seqDefine_defined {t : State} (h : seqFines s id (seqDesc (bufAll s e)) = some t) : seqDefine e s =
    { st := putSeq (claim t (keySeq id) (seqDesc (bufAll s e)).part (unitsOf (seqDesc (bufAll s e)).base (seqDesc (bufAll s e)).bytes)) id
        (seqDesc (bufAll s e)), result := natLe 1 id } := by
  unfold seqDefine
  dsimp only
  rw [if_neg (by simp [hl, hr, hf, hp]), hid]
  dsimp only
  rw [h]

end

/-- A SEQ_EDIT row ends as its operation, value and run words say. -/
theorem seqEdit_ends {s : State} {e : SubEntry} {c : Instr} {k : MbxCmd} {op v : Nat} {runs : List Nat} {ok : Prop} (h : Accepted k e s)
    (hc : exec c s = mailbox k e (seqEdit e op) s) (hv : (if op = 2 then fld (parOf e) 3 1 else fld (parOf e) 4 4) = v)
    (hruns : (if op = 2 then runWords (bufAll s e) else []) = runs)
    (hok : ok ↔ (!editOk (seqOf s (fld (parOf e) 0 1)) op v runs || (op = 2 && bufLenOf e ≠ 64)) = false) : EditEnds s e c op v runs ok := by
  have hbody : seqEdit e op s =
      if !(seqOf s (fld (parOf e) 0 1)).valid || (!editOk (seqOf s (fld (parOf e) 0 1)) op v runs || (op = 2 && bufLenOf e ≠ 64)) then refuse s stRange
      else if (seqOf s (fld (parOf e) 0 1)).isOpen then
        if !bit (fld (parOf e) 2 1) 0 || (seqOf s (fld (parOf e) 0 1)).pendingEdit.isSome then refuse s stBusy
        else { st := putSeq s (fld (parOf e) 0 1) { seqOf s (fld (parOf e) 0 1) with pendingEdit := some (op, v, runs) }, status := stDeferred }
      else { st := putSeq s (fld (parOf e) 0 1) (applyEdit (seqOf s (fld (parOf e) 0 1)) op v runs),
             result := natLe 4 (applyEdit (seqOf s (fld (parOf e) 0 1)) op v runs).gen } := by
    subst hv hruns
    rw [← Bool.or_assoc]
    rfl
  generalize hbad : (!editOk (seqOf s (fld (parOf e) 0 1)) op v runs || (op = 2 && bufLenOf e ≠ 64)) = bad at hok hbody
  generalize hd : seqOf s (fld (parOf e) 0 1) = d at hbody
  unfold EditEnds
  dsimp only
  rw [hd]
  refine ⟨fun hbad => accepted_ends h hc (hbody.trans (if_pos ?_)), fun hval hok' hop hdef hnone => accepted_ends h hc (hbody.trans ?_),
    fun hval hok' hop hbusy => accepted_ends h hc (hbody.trans ?_), fun hval hok' hop => accepted_ends h hc (hbody.trans ?_)⟩
  · rcases hbad with hval | hnok
    · simp [hval]
    · simp [eq_true_of_ne_false (mt hok.mpr hnok)]
  · rw [if_neg (by simp [hval, hok.mp hok']), if_pos hop, if_neg (by simp [hdef, hnone])]
  · rw [if_neg (by simp [hval, hok.mp hok']), if_pos hop, if_pos (by simpa [Option.isSome_iff_ne_none] using hbusy)]
    rfl
  · rw [if_neg (by simp [hval, hok.mp hok']), if_neg (by simp [hop])]
    rfl

theorem seqDelete_undefined {e : SubEntry} {s : State} (h : (seqOf s (parByte e 0)).valid = false) : seqDelete e s = refuse s stNotFound := by
  simp [seqDelete, h]

theorem seqDelete_unbound {e : SubEntry} {s : State} (h : (seqOf s (parByte e 0)).valid = true) (hb : (seqOf s (parByte e 0)).boundPlan = none) :
    seqDelete e s = { st := release (putSeq s (parByte e 0) {}) (keySeq (parByte e 0)) } := by
  simp [seqDelete, h, hb]

theorem seqDelete_bound {e : SubEntry} {s : State} (h : (seqOf s (parByte e 0)).valid = true) (hb : (seqOf s (parByte e 0)).boundPlan ≠ none) :
    seqDelete e s = refuse s stInUse := by
  simp [seqDelete, h, Option.isSome_iff_ne_none.mpr hb]

/-! ## Result rings -/

theorem resultRingSet_inUse {e : SubEntry} {s : State} (h : (tget s.host.rings (fld (parOf e) 0 1) {}).isSet = true) :
    resultRingSet e s = refuse s stInUse :=
  if_pos h

theorem resultRingSet_set {e : SubEntry} {s : State} (h : (tget s.host.rings (fld (parOf e) 0 1) {}).isSet = false) : resultRingSet e s =
    (let p := parOf e
     let r : Ring := { isSet := true, log2Entry := fld p 2 1, log2Count := fld p 3 1, base := fld p 4 8, tailAddr := fld p 12 8,
                       outFirst := fld p 20 2, outCount := fld p 22 2 }
     { st := { s with host := { s.host with rings := tput s.host.rings (fld p 0 1) r } } }) :=
  if_neg (by simp [h])

theorem resultRingRemove_unset {e : SubEntry} {s : State} (h : (tget s.host.rings (parByte e 0) {}).isSet = false) :
    resultRingRemove e s = refuse s stNotFound :=
  if_neg (by simp [h])

theorem resultRingRemove_set {e : SubEntry} {s : State} (h : (tget s.host.rings (parByte e 0) {}).isSet = true) :
    resultRingRemove e s = { st := { s with host := { s.host with rings := tdel s.host.rings (parByte e 0) } } } :=
  if_pos h

/-- RESULT_ACK of a ring: no such ring, a head out of range or past the tail, or the new head. -/
theorem resultAck_eq {e : SubEntry} {s : State} {r : Ring} {h n : Nat} (hr : tget s.host.rings (parByte e 0) {} = r)
    (hh : h = fld (parOf e) 4 4) (hn : n = 2 ^ r.log2Count) : resultAck e s =
      if r.isSet = false then refuse s stNotFound
      else if n ≤ h ∨ (r.tail + n - r.head) % n < (h + n - r.head) % n then refuse s stRange
      else { st := { s with host := { s.host with rings := tput s.host.rings (parByte e 0) { r with head := h } } } } := by
  subst hr hh hn
  simp [resultAck]

/-- Settles O10: the bodies of the rows, one case of each after another; the four SEQ_EDIT rows end alike (`seqEdit_ends`). -/
theorem objectCommandsTakeEffect : Obligations.ObjectCommandsTakeEffect := by
  refine ⟨?maps, fun s e h => ⟨fun hl => accepted_ends h (exec_mapSelect e s) (mapSelect_empty hl),
    fun hl => accepted_ends h (exec_mapSelect e s) (mapSelect_loaded hl)⟩, ?define, fun s e => ⟨fun h => ?truncate, fun h => ?window,
    fun h => ?globals, fun h => ?reset⟩, fun s e h => ⟨fun hv => accepted_ends h (exec_seqDelete e s) (seqDelete_undefined hv), fun hv => ?delete⟩,
    fun s e => ⟨fun h hs => accepted_ends h (exec_resultRingSet e s) (resultRingSet_inUse hs),
      fun h hs => accepted_ends h (exec_resultRingSet e s) (resultRingSet_set hs),
      fun h hs => accepted_ends h (exec_resultRingRemove e s) (resultRingRemove_unset hs),
      fun h hs => accepted_ends h (exec_resultRingRemove e s) (resultRingRemove_set hs), ?ack⟩⟩
  case maps =>
    rintro s e k img h rfl rfl
    refine ⟨fun hu => accepted_ends h (exec_mapLoad e s) (mapLoad_inUse hu),
      fun hu hf ho => accepted_ends h (exec_mapLoad e s) (mapLoad_oldFormat hu hf ho), fun t o hu hf hl => ?_⟩
    match o, hl with
    | none, hl => exact accepted_ends h (exec_mapLoad e s) (mapLoad_loaded hu hf hl)
    | some (d, i), hl => exact accepted_ends h (exec_mapLoad e s) (mapLoad_fault hu hf hl)
  case define =>
    rintro s e d h rfl
    exact ⟨fun hbad => accepted_ends h (exec_seqDefine e s) (seqDefine_refused hbad), fun hl hr hf hp =>
      ⟨fun hall => accepted_ends h (exec_seqDefine e s) (seqDefine_noSlot hl hr hf hp hall), fun id hid =>
        ⟨fun hn => accepted_ends h (exec_seqDefine e s) (seqDefine_noFines hl hr hf hp hid hn),
          fun t ht => accepted_ends h (exec_seqDefine e s) (seqDefine_defined hl hr hf hp hid ht)⟩⟩⟩
  case truncate => exact seqEdit_ends h (exec_seqEditTruncate e s) rfl rfl (by simp [editOk])
  case window => exact seqEdit_ends h (exec_seqEditSetWindow e s) rfl rfl (by simp [editOk])
  case globals => exact seqEdit_ends h (exec_seqEditSetGlobals e s) rfl rfl (by simp [editOk, and_comm])
  case reset => exact seqEdit_ends h (exec_seqEditReset e s) rfl rfl (by simp [editOk])
  case delete =>
    split
    next hb => exact accepted_ends h (exec_seqDelete e s) (seqDelete_unbound hv hb)
    next hb => exact accepted_ends h (exec_seqDelete e s) (seqDelete_bound hv hb)
  case ack =>
    intro r h n ha hr hh hn
    have hbody := resultAck_eq hr hh hn
    refine ⟨fun hs => accepted_ends ha (exec_resultAck e s) (hbody.trans (if_pos hs)), fun hs hbad => ?_, fun hs hlt hle => ?_⟩
    · rw [if_neg (by simp [hs]), if_pos hbad] at hbody
      exact accepted_ends ha (exec_resultAck e s) hbody
    · rw [if_neg (by simp [hs]), if_neg (by omega)] at hbody
      exact accepted_ends ha (exec_resultAck e s) hbody

end Sys2Proof.Machine
end

section
/-! PROOFS. The health, Vigil-debug and expert-access commands. -/

namespace Sys2Proof.Machine

theorem fenceRelease_fenced {e : SubEntry} {s : State} {g : Nat} (hg : fld (parOf e) 0 2 = g) (h : (healthOf s g).state = .fenced) :
    fenceRelease e s = { st := releaseClu s g, result := natLe 1 (stateCode (healthOf (releaseClu s g) g).state) } := by
  simp [fenceRelease, hg, h]

theorem fenceRelease_refused {e : SubEntry} {s : State} {g : Nat} (hg : fld (parOf e) 0 2 = g) (h : (healthOf s g).state ≠ .fenced) :
    fenceRelease e s = refuse s stRange := by
  simp [fenceRelease, hg, h]

/-- Only a quarantine that no hard fault made can be turned into a restriction. -/
theorem clusterRestrict_eq {e : SubEntry} {s : State} {g : Nat} (hg : fld (parOf e) 0 2 = g) : clusterRestrict e s =
    if (healthOf s g).state = .quarantined ∧ (healthOf s g).hardQ = false
    then { st := alm (modHealth s g (fun h => { h with state := .restricted, testing := false, passes := 0, fails := 0, lastTest := none }))
             (srcClu g) .health 2 [5, (healthOf s g).score], result := natLe 1 5 }
    else refuse s stRange := by
  subst hg
  unfold clusterRestrict
  dsimp only
  split
  next h =>
    rw [if_neg]
    simpa [Decidable.or_iff_not_imp_left] using h
  next h =>
    rw [if_pos]
    simpa [Decidable.or_iff_not_imp_left] using h

theorem clusterUnrestrict_eq {e : SubEntry} {s : State} {g : Nat} (hg : fld (parOf e) 0 2 = g) : clusterUnrestrict e s =
    if (healthOf s g).state = .restricted then { st := quarantineNow s g false, result := natLe 1 3 } else refuse s stRange := by
  subst hg
  exact ite_not ..

theorem healthResume_eq {e : SubEntry} {s : State} {q : Nat} (hq : parByte e 0 = q) : healthResume e s =
    if (hltQOf s q).suspended = true then { st := modHltQ s q (fun h => { h with suspended := false }) } else refuse s stRange := by
  subst hq
  cases h : (hltQOf s (parByte e 0)).suspended <;> simp [healthResume, h]

/-- An accepted command whose body goes one of two ways. -/
theorem accepted_ends_ite {k : MbxCmd} {e : SubEntry} {s t t' : State} {body : State → Answer} {o : Out} {st st' : Nat} {r r' : List Byte}
    {c : Prop} [Decidable c] (h : Accepted k e s) (ho : o = mailbox k e body s)
    (hb : body s = if c then { st := t, status := st, result := r } else { st := t', status := st', result := r' }) :
    o = if c then answered s t e st r else answered s t' e st' r' := by
  split
  next hc => exact accepted_ends h ho (hb.trans (if_pos hc))
  next hc => exact accepted_ends h ho (hb.trans (if_neg hc))

/-- Settles O11: the bodies of the rows. -/
theorem serviceCommandsTakeEffect : Obligations.ServiceCommandsTakeEffect := by
  intro s e
  refine ⟨?fence, fun g h hg => ?release, fun g h hg => accepted_ends_ite h (exec_clusterRestrictRestrict e s) (clusterRestrict_eq hg),
    fun g h hg => accepted_ends_ite h (exec_clusterRestrictUnrestrict e s) (clusterUnrestrict_eq hg),
    fun q h hq => accepted_ends_ite h (exec_healthResume e s) (healthResume_eq hq), fun h => accepted_ends h (exec_vigilDebugEnable e s) rfl,
    fun h => accepted_ends h (exec_vigilDebugDisable e s) rfl, fun h => accepted_ends h (exec_expertUnlockP3 e s) rfl,
    fun h => accepted_ends h (exec_expertUnlockService e s) rfl, fun h => accepted_ends h (exec_expertLock e s) rfl⟩
  case fence =>
    rintro g t h rfl rfl
    exact accepted_ends h (exec_fenceClusterFence e s) rfl
  case release =>
    split
    next hf => exact accepted_ends h (exec_fenceClusterRelease e s) (fenceRelease_fenced hg hf)
    next hf => exact accepted_ends h (exec_fenceClusterRelease e s) (fenceRelease_refused hg hf)

end Sys2Proof.Machine
end

section
/-! PROOFS. The Season, update, power-limit and Almanac-clear commands. -/

namespace Sys2Proof.Machine

/-! ## Seasons -/

theorem setSeason_none {e : SubEntry} {s : State} (h : seasonOf s (parByte e 0) = none) : setSeason e s = refuse s stRange := by
  simp [setSeason, h]

section
variable {e : SubEntry} {s : State} {c : SeasonCfg} (hc : seasonOf s (parByte e 0) = some c)
include hc

theorem setSeason_restart (h : c.xor ≠ s.season.cfg.xor ∨ c.dlyTrim ≠ s.season.cfg.dlyTrim) : setSeason e s = refuse s stRestart := by
  have hor : (decide (c.xor ≠ s.season.cfg.xor) || decide (c.dlyTrim ≠ s.season.cfg.dlyTrim)) = true := by simpa using h
  simp only [setSeason, hc, hor, if_true]

theorem setSeason_same {n : Nat} (hn : n = if fld (parOf e) 1 6 = 0 then s.cal.frame + 2 else fld (parOf e) 1 6)
    (hx : c.xor = s.season.cfg.xor) (ht : c.dlyTrim = s.season.cfg.dlyTrim) : setSeason e s =
      if s.host.serviceOnly = true ∧ parByte e 0 ≠ 3 then refuse s stUnqualified
      else { st := { s with season := { s.season with pending := some (parByte e 0, n) } }, result := natLe 6 n } := by
  subst hn
  simp [setSeason, hc, hx, ht]

end

section
variable {e : SubEntry} {s : State} {fail : Bool}

theorem seasonStore_bad {d : Nat} (hd : d = seasonBadBy (unitHeld s) s (parByte e 0) (bufAll s e)) (h : d ≠ 0) :
    seasonStore e fail s = refuse s stRange (natLe 1 d) := by
  subst hd
  simp [seasonStore, h]

theorem seasonStore_inUse (hd : 0 = seasonBadBy (unitHeld s) s (parByte e 0) (bufAll s e))
    (h : parByte e 0 = s.season.cfg.num ∨ ∃ f, s.season.pending = some (parByte e 0, f)) : seasonStore e fail s = refuse s stInUse := by
  unfold seasonStore
  dsimp only
  rw [if_neg (by simp [← hd]), if_pos]
  rcases h with h | ⟨f, h⟩ <;> simp [h]

theorem seasonStore_free (hd : 0 = seasonBadBy (unitHeld s) s (parByte e 0) (bufAll s e)) (hk : parByte e 0 ≠ s.season.cfg.num)
    (hp : ∀ f, s.season.pending ≠ some (parByte e 0, f)) : seasonStore e fail s =
      if fail then refuse (tornSlot s (parByte e 0) (bufAll s e)) stFlashFail
      else { st := { s with season := { s.season with slots := tput s.season.slots (parByte e 0) (bufAll s e) } }, result := natLe 1 0 } := by
  have hany : s.season.pending.any (fun p => decide (p.1 = parByte e 0)) = false := by
    cases hs : s.season.pending with
    | none => rfl
    | some p =>
      refine decide_eq_false fun heq => hp p.2 ?_
      rw [hs, ← heq]
  unfold seasonStore
  dsimp only
  rw [if_neg (by simp [← hd]), if_neg (by simp [hk, hany])]

end

/-! ## Updates -/

section
variable {e : SubEntry} {s : State} {relay : List Nat}

theorem updLoad_outOfPlace (hst : s.upd.state = 1) (h : fld (parOf e) 0 4 ≠ (bankOf s (otherBank s)).image.length ∨
    16777216 < (bankOf s (otherBank s)).image.length + (bufAll s e).length) : updLoad e relay s = refusePart s stRange :=
  (if_pos hst).trans (if_pos (by simpa using h))

theorem updLoad_next (hst : s.upd.state = 1) (ho : fld (parOf e) 0 4 = (bankOf s (otherBank s)).image.length)
    (hl : (bankOf s (otherBank s)).image.length + (bufAll s e).length ≤ 16777216) : updLoad e relay s =
      (let t := modBank s (otherBank s) (fun x => { x with image := x.image ++ bufAll s e })
       if bit (fld (parOf e) 4 1) 0 then lastPart t relay else { st := t }) :=
  (if_pos hst).trans (if_neg (by simpa [ho] using hl))

theorem updLoad_refused (hst : s.upd.state ≠ 1)
    (h : fld (parOf e) 0 4 ≠ 0 ∨ (bufAll s e).length < fwBodyStart ∨ 16777216 < (bufAll s e).length) :
    updLoad e relay s = refuse s stRange :=
  (if_neg hst).trans (if_pos (by simpa [or_assoc] using h))

variable (hst : s.upd.state ≠ 1) (ho : fld (parOf e) 0 4 = 0) (hmin : fwBodyStart ≤ (bufAll s e).length)
  (hmax : (bufAll s e).length ≤ 16777216)
include hst ho hmin hmax

theorem updLoad_badImage {st k : Nat} (hf : fwFail (writeDir s (fun b => tput b (otherBank s) {})) (bufAll s e) = some (st, k)) :
    updLoad e relay s = refuseImage (writeDir s (fun b => tput b (otherBank s) {})) st k := by
  unfold updLoad
  dsimp only
  rw [if_neg hst, if_neg (by simp [ho, Nat.not_lt.mpr hmin, Nat.not_lt.mpr hmax]), hf]

theorem updLoad_first (hf : fwFail (writeDir s (fun b => tput b (otherBank s) {})) (bufAll s e) = none) : updLoad e relay s =
    (let t := modUpd (modBank (writeDir s (fun b => tput b (otherBank s) {})) (otherBank s) (fun x => { x with image := bufAll s e }))
       (fun u => { u with state := 1, staged := [], epoch := none, handover := 0 })
     if bit (fld (parOf e) 4 1) 0 then lastPart t relay else { st := t }) := by
  unfold updLoad
  dsimp only
  rw [if_neg hst, if_neg (by simp [ho, Nat.not_lt.mpr hmin, Nat.not_lt.mpr hmax]), hf]

end

section
variable {e : SubEntry} {s : State}

theorem updSchedule_empty (h : s.upd.state ≠ 2) : updSchedule e s = refuse s stRange :=
  if_pos h

theorem updSchedule_restart (h : s.upd.state = 2) (hh : s.upd.handover = 1) (hb : bit (fld (parOf e) 6 1) 0 = false) :
    updSchedule e s = refuse s stRestart := by
  simp [updSchedule, h, hh, hb]

theorem updSchedule_set {n : Nat} (hn : n = if fld (parOf e) 0 6 = 0 then s.cal.frame + 2 else fld (parOf e) 0 6) (h : s.upd.state = 2)
    (hh : s.upd.handover ≠ 1 ∨ bit (fld (parOf e) 6 1) 0 = true) :
    updSchedule e s = { st := modUpd s (fun u => { u with state := 3, epoch := some n }), result := natLe 6 n } := by
  subst hn
  unfold updSchedule
  dsimp only
  rw [if_neg (by simp [h]), if_neg (by rcases hh with hh | hh <;> simp [hh])]

end

/-- Bit `k` of a sum of distinct powers of two says whether `2 ^ k` is among them. -/
theorem bit_powerSum (c : Nat → Bool) {k : Nat} (hk : k < 4) :
    bit ((List.range 4).foldl (fun m k => if c k then m + 2 ^ k else m) 0) k = c k := by
  have h4 : (List.range 4).foldl (fun m k => if c k then m + 2 ^ k else m) 0 =
      (c 0).toNat + 2 * (c 1).toNat + 4 * (c 2).toNat + 8 * (c 3).toNat := by
    cases h0 : c 0 <;> cases h1 : c 1 <;> cases h2 : c 2 <;> cases h3 : c 3 <;> simp [List.range_succ, h0, h1, h2, h3]
  rw [h4]
  have hall : ∀ (b0 b1 b2 b3 : Bool) (i : Fin 4), bit (b0.toNat + 2 * b1.toNat + 4 * b2.toNat + 8 * b3.toNat) i = [b0, b1, b2, b3][i] := by decide
  obtain rfl | rfl | rfl | rfl : k = 0 ∨ k = 1 ∨ k = 2 ∨ k = 3 := by omega
  all_goals exact hall _ _ _ _ ⟨_, hk⟩

theorem updConfirm_closed {s : State}
    (h : s.upd.state ≠ 4 ∨ s.upd.windowEnd = none ∨ (∃ w, s.upd.windowEnd = some w ∧ w ≤ s.cal.frame)) : updConfirm s = refuse s stRange := by
  cases hw : s.upd.windowEnd with
  | none => simp only [updConfirm, hw]
  | some w =>
    simp only [updConfirm, hw]
    refine if_pos ?_
    simpa [hw] using h

/-- The keys a confirmed update revokes: those its header names, without its own. -/
def revokeMask (s : State) : Nat :=
  (List.range 4).foldl (fun m k =>
    if bit (fld (fwHeader (bankOf s s.upd.bank).image) 0x27 1) k && k ≠ fwKey (bankOf s s.upd.bank).image then m + 2 ^ k else m) 0

theorem updConfirm_open {s t : State} {w : Nat} (hst : s.upd.state = 4) (hw : s.upd.windowEnd = some w) (hlt : s.cal.frame < w)
    (ht : t = modUpd (writeDir s (fun t => tmod (tmod t s.upd.bank {} (fun x => { x with state := 3, attempts := 0 })) (1 - s.upd.bank) {}
           (fun x => if x.state = 3 then { x with state := 1 } else x)))
         (fun u => { u with state := 0, windowEnd := none, staged := [], restartKind := false })) :
    updConfirm s =
      if fwRaise (fwHeader (bankOf s s.upd.bank).image)
      then { st := blowFloor t (fwSecVer (fwHeader (bankOf s s.upd.bank).image)) (revokeMask s) } else { st := t } := by
  subst ht
  simp only [updConfirm, hw]
  rw [if_neg (by simp [hst, Nat.not_le.mpr hlt])]
  split <;> rfl

section
variable {s : State} {cut : Bool}

theorem updCancel_loaded (h1 : 1 ≤ s.upd.state) (h3 : s.upd.state ≤ 3) : updCancel cut s = { st := discardUpdate s } :=
  if_pos (by simp [h1, h3])

theorem updCancel_unconfirmed (h : s.upd.state = 4) : updCancel cut s = { st := scheduleFallback s (s.cal.frame + 2) } := by
  simp [updCancel, h]

theorem updCancel_nothing (h : s.upd.state = 0 ∨ 4 < s.upd.state) :
    updCancel cut s = if cut then { st := s } else refuse s stRange := by
  unfold updCancel
  rw [if_neg (by simp; omega), if_neg (by omega)]

end

/-! ## The power limit -/

section
variable {e : SubEntry} {s : State} {w : Nat} (hw : w = fld (parOf e) 0 2)
include hw

theorem pwrLimit_range (h0 : w ≠ 0) (h : w < 20 ∨ s.season.cfg.capW < w) : pwrLimit e s = refuse s stRange := by
  subst hw
  exact if_pos (by simpa [h0] using h)

theorem pwrLimit_set (h : w = 0 ∨ (20 ≤ w ∧ w ≤ s.season.cfg.capW)) : pwrLimit e s =
    (let t := moveCap (modPm s (fun m => { m with pwrLimit := if w = 0 then none else some w }))
     { st := t, result := natLe 2 t.pm.capW }) := by
  subst hw
  refine if_neg ?_
  rcases h with h | ⟨h1, h2⟩
  · simp [h]
  · simp [Nat.not_lt.mpr h1, Nat.not_lt.mpr h2]

end

/-! ## Clearing the Almanac -/

/-- An event changes of the Almanac, outside a clear, neither the journal's halves nor what a clear is known by. -/
theorem alm_keeps (s : State) (src : Nat) (c : AlmCode) (sev : Nat) (p : List Nat) (h : s.alm.clearing = false) :
    (alm s src c sev p).alm.halves = s.alm.halves ∧ (alm s src c sev p).alm.clearGen = s.alm.clearGen ∧
      (alm s src c sev p).alm.clearing = false := by
  unfold alm almAt
  split
  · exact ⟨rfl, rfl, h⟩
  rw [if_neg (by simp [h])]
  split
  · exact ⟨rfl, rfl, h⟩
  unfold almCreate
  split
  · exact ⟨rfl, rfl, h⟩
  dsimp only
  split
  · simp [h]
  · exact ⟨rfl, rfl, h⟩

/-- A clear that fails leaves the journal and the generation as they were. -/
theorem closeClear_failed (s : State) (hb : s.alm.clearBuffer = []) :
    (closeClear s true).alm.halves = s.alm.halves ∧ (closeClear s true).alm.clearGen = s.alm.clearGen ∧
      (closeClear s true).alm.clearing = false := by
  have hk := fun t : State => alm_keeps t srcAlm .clearFail 3 [s.alm.clearGen]
  simp only [closeClear, if_true, hb, List.foldl_nil]
  exact hk _ rfl

/-- A clear that ends well leaves the ring with the CLEAR record alone, of the next generation, and no drop counted. -/
theorem closeClear_ended (s : State) (hb : s.alm.clearBuffer = []) (hd : s.alm.clearDrops = []) :
    (closeClear s false).alm.clearing = false ∧ (closeClear s false).alm.clearGen = (s.alm.clearGen + 1) % 2 ^ 15 ∧
      (closeClear s false).alm.head = s.alm.head + 1 ∧
      (∃ r, (closeClear s false).alm.ring = [(0, r)] ∧ r.isClear = true ∧ r.severity = 4 ∧ r.seq = s.alm.head + 1) ∧
      (∀ k, tget (closeClear s false).alm.drops k 0 = 0) := by
  have hdrop : ∀ k, tget ([] : Tbl Nat) k 0 = 0 := fun _ => rfl
  simp only [closeClear, hb, List.foldl_nil, hd, hdrop, if_true, Bool.false_eq_true, if_false]
  exact ⟨trivial, by simp [cleared], by simp [cleared], ⟨_, by simp [cleared]; rfl, rfl, rfl, rfl⟩, fun k => by simp [cleared, hdrop]⟩

theorem cmdAlmClear_busy {s : State} {e : SubEntry} (h : s.alm.clearing = true ∨ s.alm.compacting = true) : cmdAlmClear.check e s ≠ stOk := by
  intro hok
  obtain ⟨-, -, -, hrest⟩ := check_past_range (k := cmdAlmClear) (e := e) (s := s) (by rw [hok]; decide) (by rw [hok]; decide) (by rw [hok]; decide)
  have hbusy : cmdAlmClear.busy s (parOf e) = true := by rcases h with h | h <;> simp [cmdAlmClear, h]
  rw [hok, hbusy] at hrest
  rw [Bool.true_or, if_pos rfl] at hrest
  split at hrest <;> cases hrest

/-- No clear is in progress where ALM_CLEAR is accepted. -/
theorem almClear_accepted_idle {s : State} {e : SubEntry} (h : Accepted cmdAlmClear e s) : s.alm.clearing = false := by
  obtain ⟨-, -, hc, -⟩ := h
  refine Classical.byContradiction fun hcl => ?_
  exact cmdAlmClear_busy (.inl (eq_true_of_ne_false hcl)) hc

theorem almClear_runs {s : State} {e : SubEntry} (h : Accepted cmdAlmClear e s) : mailboxRuns cmdAlmClear e s = true := by
  obtain ⟨hr, hw, hc, hd⟩ := h
  have hc' : cmdAlmClear.check e s = 0 := hc
  simp [mailboxRuns, hr, hw, hc', hd]

theorem almClear_refused {s : State} {e : SubEntry} {fail : Bool} {st : Nat} (h : Accepted cmdAlmClear e s) (hs : clearStatus e s = st)
    (hst : st ≠ stOk) : exec (.almClear e fail) s = answered s s e st [] := by
  subst hs
  refine accepted_ends (body := fun s => refuse s (clearStatus e s)) h ?_ rfl
  rw [exec_almClear, execAlmClear, if_neg (by simp [almClear_accepted_idle h]), if_neg (by simp [hst])]

theorem almClear_begins {s : State} {e : SubEntry} {fail : Bool} (h : Accepted cmdAlmClear e s) (hs : clearStatus e s = stOk) :
    exec (.almClear e fail) s = done s (beginClear s e fail) := by
  rw [exec_almClear, execAlmClear, if_neg (by simp [almClear_accepted_idle h]), if_pos (by simp [almClear_runs h, hs])]

/-- The flush after the clear began ends it, and answers the command. -/
theorem journalFlush_endsClear (s : State) (e : SubEntry) (fail : Bool) (f : FlushFail) :
    exec (.journalFlush f) (beginClear s e fail) =
      answered (beginClear s e fail) (closeClear (beginClear s e fail) (fail || f.program || f.compact)) e
        (if fail || f.program || f.compact then stFlashFail else stOk) [] := rfl

/-! ## The statement -/

theorem mailbox_updCancel {s : State} {e : SubEntry} (hr : s.host.mbxReady = true) (hc : cmdUpdCancel.check e s = stOk) :
    exec (.updCancel e) s = mailbox cmdUpdCancel e (updCancel (!(unfinishedLoads s e).isEmpty))
      ((unfinishedLoads s e).foldl (fun t x => complete t x stAborted []) s) := by
  have hc' : cmdUpdCancel.check e s = 0 := hc
  rw [exec_updCancel, execUpdCancel]
  exact if_neg (by simp [hr, hc'])

/-- Settles O12: the bodies of the rows, one case of each after another; a clear is followed to the flush that ends it. -/
theorem systemCommandsTakeEffect : Obligations.SystemCommandsTakeEffect := by
  refine ⟨fun s e n h hn => ⟨fun hc => accepted_ends h (exec_setSeason e s) (setSeason_none hc), fun c hc =>
      ⟨fun hx => accepted_ends h (exec_setSeason e s) (setSeason_restart hc hx),
        fun hx ht => accepted_ends_ite h (exec_setSeason e s) (setSeason_same hc hn hx ht)⟩⟩,
    ?store, ?load, fun s e n h hn => ⟨fun hst => accepted_ends h (exec_updSchedule e s) (updSchedule_empty hst),
      fun hst hh hb => accepted_ends h (exec_updSchedule e s) (updSchedule_restart hst hh hb),
      fun hst hh => accepted_ends h (exec_updSchedule e s) (updSchedule_set hn hst hh)⟩,
    fun s e h => ⟨fun hcl => accepted_ends h (exec_updConfirm e s) (updConfirm_closed hcl), fun w t hst hw hlt ht => ?confirm⟩, ?cancel,
    fun s e w h hw => ⟨fun h0 hbad => accepted_ends h (exec_pwrLimit e s) (pwrLimit_range hw h0 hbad),
      fun hok => accepted_ends h (exec_pwrLimit e s) (pwrLimit_set hw hok)⟩, fun s e fail h => ?clear, fun s e => cmdAlmClear_busy⟩
  case store =>
    rintro s e fail d k h rfl hd
    refine ⟨fun h0 => accepted_ends h (exec_seasonStore e fail s) (seasonStore_bad hd h0), ?_, ?_⟩
    · rintro rfl hu
      exact accepted_ends h (exec_seasonStore e fail s) (seasonStore_inUse hd hu)
    · rintro rfl hk hp
      exact accepted_ends_ite h (exec_seasonStore e fail s) (seasonStore_free hd hk hp)
  case load =>
    rintro s t e relay h rfl
    refine ⟨fun hst => ⟨fun hbad => accepted_ends h (exec_updLoad e relay s) (updLoad_outOfPlace hst hbad),
        fun ho hl => accepted_ends_ite h (exec_updLoad e relay s) (updLoad_next hst ho hl)⟩,
      fun hst hbad => accepted_ends h (exec_updLoad e relay s) (updLoad_refused hst hbad), ?_⟩
    rintro u hst ho hmin hmax rfl
    refine ⟨fun st k hf => accepted_ends h (exec_updLoad e relay s) (updLoad_badImage hst ho hmin hmax hf), ?_⟩
    rintro v hf rfl
    exact accepted_ends_ite h (exec_updLoad e relay s) (updLoad_first hst ho hmin hmax hf)
  case confirm =>
    have hbody := updConfirm_open hst hw hlt ht
    refine ⟨fun hr => accepted_ends h (exec_updConfirm e s) (hbody.trans (if_neg (by simp [hr]))),
      fun hr => ⟨revokeMask s, accepted_ends h (exec_updConfirm e s) (hbody.trans (if_pos hr)), fun k hk => bit_powerSum _ hk⟩⟩
  case cancel =>
    rintro s s1 e h hc hr rfl
    have hm := mailbox_updCancel hr hc
    refine ⟨fun h1 h3 => accepted_ends h hm (updCancel_loaded h1 h3), fun h4 => accepted_ends h hm (updCancel_unconfirmed h4), fun hno => ?_⟩
    refine accepted_ends h hm ((updCancel_nothing hno).trans ?_)
    cases unfinishedLoads s e <;> rfl
  case clear =>
    refine ⟨fun hl => almClear_refused h (if_pos hl) (by decide), fun hl ht => almClear_refused h ?auth (by decide),
      fun hl ht hp => almClear_refused h ?inUse (by decide), fun hl ht hp => ?begins⟩
    case auth => simp [clearStatus, hl, ht]
    case inUse => simp [clearStatus, hl, ht, hp]
    case begins =>
      obtain ⟨hh, hg, hcl⟩ := closeClear_failed (beginClear s e fail) rfl
      obtain ⟨hcl', hg', hhead, hring, hdrops⟩ := closeClear_ended (beginClear s e fail) rfl rfl
      exact ⟨almClear_begins h (by simp [clearStatus, hl, ht, hp]), rfl, rfl, rfl, journalFlush_endsClear s e fail, hh, hg, hcl, hcl', hg', hhead,
        hring, hdrops⟩

end Sys2Proof.Machine
end

section
/-! PROOFS. The instants of a frame and the schedule of the Calends. -/

namespace Sys2Proof.Machine

/-! ## The schedule -/

theorem clampAbs_natAbs_le (m : Nat) (x : Int) : (clampAbs m x).natAbs ≤ m := by
  unfold clampAbs
  repeat' split
  all_goals omega

theorem clampAbs_of_le {m : Nat} {x : Int} (h : x.natAbs ≤ m) : clampAbs m x = x := by
  unfold clampAbs
  rw [if_neg (by omega), if_neg (by omega)]

/-- Noting a phase error changes the error's mark, the Almanac and the host interface only. -/
theorem notePhase_frame (s : State) (e : Int) : ∃ b a h,
    notePhase s e = { s with cal := { s.cal with errNoted := b }, alm := a, host := h } := by
  unfold notePhase
  split
  · obtain ⟨a, h, heq⟩ := alm_frame s 0x0000 .calPhase 1 [1, twos 64 e]
    exact ⟨true, a, h, by rw [heq]⟩
  split
  · obtain ⟨a, h, heq⟩ := alm_frame s 0x0000 .calPhase 1 [0, 0]
    exact ⟨false, a, h, by rw [heq]⟩
  · exact ⟨_, _, _, rfl⟩

theorem phaseError_frame (t p f : Nat) (s : State) : ∃ n, (phaseError t p f s).2 = { s with fresh := n } := by
  unfold phaseError
  dsimp only
  split
  · exact ⟨s.fresh + 1, rfl⟩
  · exact ⟨s.fresh, rfl⟩

/-- The schedule fixes the next Calend and Eve from the phase error `e`, and leaves the rest of the calendar, memory, plans, units and islands. -/
theorem schedule_frame (s : State) (t : Nat) : ∃ e b n a h,
    schedule s t = { s with
      fresh := n, alm := a, host := h
      cal := { s.cal with
        errNoted := b, phaseErrNs := e, slewing := e ≠ 0
        next := ((t : Int) + s.cal.periodReg * 100000 - clampAbs (s.cal.periodReg * 100000 / 400) e).toNat
        eve := ((t : Int) + s.cal.periodReg * 100000 - clampAbs (s.cal.periodReg * 100000 / 400) e).toNat - s.cal.eveGuardUs * 1000 } } := by
  obtain ⟨n, hn⟩ := phaseError_frame t (s.cal.periodReg * 100000) (s.cal.phaseUs * 1000) s
  obtain ⟨b, a, h, hnote⟩ := notePhase_frame (phaseError t (s.cal.periodReg * 100000) (s.cal.phaseUs * 1000) s).2
    (phaseError t (s.cal.periodReg * 100000) (s.cal.phaseUs * 1000) s).1
  refine ⟨(phaseError t (s.cal.periodReg * 100000) (s.cal.phaseUs * 1000) s).1, b, n, a, h, ?_⟩
  unfold schedule
  dsimp only
  rw [hnote, hn]
  rw [Int.natCast_mul]
  rfl

/-- Settles O14: the correction is the phase error clamped to P/400, which is less than P. -/
theorem calendSlewIsBounded : Obligations.CalendSlewIsBounded := by
  intro s t hp
  obtain ⟨e, b, n, a, h, hs⟩ := schedule_frame s t
  dsimp only
  rw [hs]
  have hle := clampAbs_natAbs_le (s.cal.periodReg * 100000 / 400) e
  dsimp only
  refine ⟨by omega, by omega, fun he => ?_⟩
  rw [clampAbs_of_le he]
  omega

/-! ## The start of a frame -/

theorem startFrame_frame (s : State) (n t : Nat) :
    let u := startFrame s n t
    u.cal.frame = n ∧ u.cal.calend = t ∧ u.cal.prevCalend = s.cal.calend ∧ u.cal.prevEve = s.cal.eve ∧
      u.cal.eve = u.cal.next - s.cal.eveGuardUs * 1000 ∧ u.cal.evalDone = false ∧
      u.islA.judged = false ∧ u.islB.judged = false ∧ u.mem = s.mem ∧ u.plans = s.plans ∧ u.units = s.units := by
  intro u
  obtain ⟨e, b, k, a, h, hu⟩ : ∃ e b k a h, u = _ := schedule_frame _ t
  rw [hu]
  exact ⟨rfl, rfl, rfl, rfl, rfl, rfl, rfl, rfl, rfl, rfl, rfl⟩

/-! ## The instants -/

section
variable {s : State}

theorem calend_before (h : s.host.ready = false ∨ s.inReset = true ∨ s.railsLow = true) : exec .calend s = .next s := by
  rw [exec_calend, execCalend]
  exact if_pos (by rcases h with h | h | h <;> simp [h])

theorem calend_due (h1 : s.host.ready = true) (h2 : s.inReset = false) (h3 : s.railsLow = false) :
    exec .calend s = done s (calend s (s.cal.frame + 1) s.cal.next) := by
  rw [exec_calend, execCalend]
  exact if_neg (by simp [h1, h2, h3])

theorem seasonEpoch_none (h : s.season.pending = none) : exec .seasonEpoch s = .next s := by
  rw [exec_seasonEpoch, execSeasonEpoch, h]
  rfl

variable {k f : Nat} (hp : s.season.pending = some (k, f))
include hp

theorem seasonEpoch_before (h : s.host.ready = false ∨ s.cal.frame < f) : exec .seasonEpoch s = .next s := by
  rw [exec_seasonEpoch, execSeasonEpoch, hp]
  exact if_pos (by rcases h with h | h <;> simp [h])

/-- The state in which a Season's epoch is past, before the Season is applied. -/
theorem seasonEpoch_unknown (hr : s.host.ready = true) (hf : f ≤ s.cal.frame) (hc : seasonOf s k = none) :
    exec .seasonEpoch s = .next { s with
      season := { s.season with pending := none }
      plans := s.plans.map (fun p => if p.admitted && !p.retired then { p with pendingSeason := false } else p) } := by
  rw [exec_seasonEpoch, execSeasonEpoch, hp]
  dsimp only
  rw [if_neg (by simp [hr, hf]), hc]
  rfl

theorem seasonEpoch_applied {c : SeasonCfg} (hr : s.host.ready = true) (hf : f ≤ s.cal.frame) (hc : seasonOf s k = some c) :
    exec .seasonEpoch s = done s
      (let s0 := { s with season := { s.season with pending := none }
                          plans := s.plans.map (fun p => if p.admitted && !p.retired then { p with pendingSeason := false } else p) }
       let s2 := epochSteps (powerSeason (newSchedule (applySeason s0 c)) false) (pmActives s)
       let s3 := (s2.streams.filter (fun p => p.2.defd && tget s.streams p.1 {} ≠ p.2)).foldl (fun s p => placeholder s p.1) s2
       startPlans (moveSnapTable s3 s.streams (rd s (s.season.cfg.tableBase + s.cal.frame % 4 * 2048) 2048))) := by
  rw [exec_seasonEpoch, execSeasonEpoch, hp]
  dsimp only
  rw [if_neg (by simp [hr, hf]), hc]

end

/-- Settles O13: each instant's row at, and before, its place; the first values of a frame are those `schedule` keeps. -/
theorem frameInstantsTakeEffect : Obligations.FrameInstantsTakeEffect := by
  refine ⟨fun s => ⟨calend_due, calend_before, fun h0 => ?eveBefore, fun h => ?noReport, fun h => ?noSeason,
    fun k f hp hf => seasonEpoch_before hp (.inr hf), fun k f hp hr hf hc => seasonEpoch_unknown hp hr hf hc, fun h0 => ?eve, fun h => ?report,
    fun k f c hp hr hf hc => seasonEpoch_applied hp hr hf hc⟩, startFrame_frame⟩
  case eveBefore => exact (exec_eveDeadline s).trans (if_pos h0)
  case eve => exact (exec_eveDeadline s).trans (if_neg h0)
  case noReport => rw [exec_frameReportPublish, execFrameReportPublish, publishReport, if_pos (by simp [h])]; rfl
  case report => rw [exec_frameReportPublish, execFrameReportPublish, publishReport, if_neg (by simp [h])]
  case noSeason =>
    rcases hp : s.season.pending with _ | ⟨k, f⟩
    · exact seasonEpoch_none hp
    · exact seasonEpoch_before hp (.inl (h.resolve_left (by simp [hp])))

end Sys2Proof.Machine
end

section
/-! PROOFS. The submission and completion rings, the registers and windows of the host, its check-value units and its resets. -/

namespace Sys2Proof.Machine

/-! ## Submission -/

/-- The channel table may only grow from `d` to `d'`, by channels 2 to 7 that carried nothing. -/
def ChannelsGrow (d d' : Tbl Nat) : Prop :=
  (∀ c tag, tfind d c = some tag → tfind d' c = some tag) ∧
  (∀ c, tfind d' c ≠ tfind d c → 2 ≤ c ∧ c ≤ 7 ∧ tfind d c = none)

theorem ChannelsGrow.refl (d : Tbl Nat) : ChannelsGrow d d := ⟨fun _ _ h => h, fun _ h => absurd rfl h⟩

theorem ChannelsGrow.trans {d d' d'' : Tbl Nat} (h : ChannelsGrow d d') (h' : ChannelsGrow d' d'') : ChannelsGrow d d'' := by
  refine ⟨fun c tag hc => h'.1 c tag (h.1 c tag hc), fun c hc => ?_⟩
  by_cases heq : tfind d' c = tfind d c
  · obtain ⟨h2, h7, hn⟩ := h'.2 c (heq ▸ hc)
    exact ⟨h2, h7, heq ▸ hn⟩
  · exact h.2 c heq

theorem ChannelsGrow.tput {d : Tbl Nat} {c : Nat} (tag : Nat) (h2 : 2 ≤ c) (h7 : c ≤ 7) (hn : tfind d c = none) :
    ChannelsGrow d (tput d c tag) := by
  constructor
  · intro k t hk
    have hne : k ≠ c := by
      rintro rfl
      rw [hn] at hk
      cases hk
    rw [tfind_tput_ne _ _ _ _ hne, hk]
  · intro k hk
    have heq : k = c := by
      refine Classical.byContradiction fun hne => ?_
      exact hk (tfind_tput_ne _ _ _ _ hne)
    subst heq
    exact ⟨h2, h7, hn⟩

theorem freeChannel_some {s : State} {c : Nat} (h : freeChannel s = some c) : 2 ≤ c ∧ c ≤ 7 ∧ tfind s.host.dmaChan c = none := by
  have hfree := List.find?_some h
  have hmem := List.mem_of_find?_eq_some h
  simp only [Option.isNone_iff_eq_none] at hfree
  simp only [List.mem_cons, List.not_mem_nil, or_false] at hmem
  exact ⟨by omega, by omega, hfree⟩

/-- Each grant takes a free channel. -/
theorem grantChannels_grow (s : State) :
    ∃ dc, grantChannels s = { s with host := { s.host with dmaChan := dc } } ∧ ChannelsGrow s.host.dmaChan dc := by
  unfold grantChannels
  generalize s.host.taken = l
  induction l generalizing s with
  | nil => exact ⟨_, rfl, .refl _⟩
  | cons e l ih =>
    rw [List.foldl_cons]
    split
    · exact ih s
    split
    next c hc =>
      obtain ⟨h2, h7, hn⟩ := freeChannel_some hc
      obtain ⟨dc, heq, hg⟩ := ih { s with host := { s.host with dmaChan := tput s.host.dmaChan c e.tag } }
      exact ⟨dc, heq, (ChannelsGrow.tput e.tag h2 h7 hn).trans hg⟩
    · exact ih s

/-- Settles O17: the fetch is its row's body; a grant only fills free channels. -/
theorem submissionFetchTakesTheHead : Obligations.SubmissionFetchTakesTheHead := by
  refine ⟨fun s => ?grant, fun s h => ?idle, fun s x hr hne hx => ?fetch⟩
  case grant =>
    obtain ⟨dc, heq, hkeep, hnew⟩ := grantChannels_grow s
    exact ⟨dc, heq, hkeep, hnew⟩
  case idle => exact (exec_submissionFetch s).trans (if_pos (by rcases h with h | h <;> simp [h]))
  case fetch =>
    subst hx
    exact (exec_submissionFetch s).trans (if_neg (by simp [hr, hne]))

/-! ## Completion -/

@[simp] theorem length_natLe (n v : Nat) : (natLe n v).length = n := by
  induction n generalizing v with
  | zero => rfl
  | succ n ih => simp [natLe, ih]

/-- What `natLe` writes, `leNat` reads, in the bytes there are. -/
theorem leNat_natLe (n v : Nat) : leNat (natLe n v) = v % 256 ^ n := by
  induction n generalizing v with
  | zero => simp [natLe, leNat, Nat.mod_one]
  | succ n ih => rw [natLe, leNat, ih, Nat.pow_succ', Nat.mod_mul, BitVec.toNat_ofNat]

/-- A field of bytes read where it stands. -/
theorem fld_append {p q r : List Byte} {o n : Nat} (hp : p.length = o) (hq : q.length = n) : fld (p ++ (q ++ r)) o n = leNat q := by
  subst hp hq
  simp [fld]

@[simp] theorem length_padTo (n : Nat) (bs : List Byte) : (padTo n bs).length = n := by
  simp [padTo, slice, Nat.add_sub_cancel' (Nat.min_le_left n bs.length)]

/-- Table 17.5: TAG at offset 0, OPCODE at 4, SQ_HEAD at 8, 32 bytes in all. -/
theorem completionBytes_layout (h : HostS) (d : MbxDone) : (completionBytes h d).length = 32 ∧ fld (completionBytes h d) 0 4 = d.tag % 2 ^ 32 ∧
    fld (completionBytes h d) 4 2 = d.opcode % 2 ^ 16 ∧ fld (completionBytes h d) 8 2 = h.sqHead % 2 ^ 16 := by
  unfold completionBytes
  refine ⟨by simp, ?_, ?_, ?_⟩
  · have := fld_append (p := []) (q := natLe 4 d.tag)
      (r := natLe 2 d.opcode ++ natLe 1 d.status ++ [0] ++ natLe 2 h.sqHead ++ [0, 0] ++ padTo 20 d.result) (o := 0) (n := 4) rfl (by simp)
    simpa [leNat_natLe] using this
  · have := fld_append (p := natLe 4 d.tag) (q := natLe 2 d.opcode)
      (r := natLe 1 d.status ++ [0] ++ natLe 2 h.sqHead ++ [0, 0] ++ padTo 20 d.result) (o := 4) (n := 2) (by simp) (by simp)
    simpa [leNat_natLe] using this
  · have := fld_append (p := natLe 4 d.tag ++ natLe 2 d.opcode ++ natLe 1 d.status ++ [0]) (q := natLe 2 h.sqHead)
      (r := [0, 0] ++ padTo 20 d.result) (o := 8) (n := 2) (by simp) (by simp)
    simpa [leNat_natLe] using this

/-- A message-signalled interrupt changes the vector's count or its pending bit. -/
theorem msix_host (s : State) (v : Nat) : ∃ p m, msix s v = { s with host := { s.host with msixPend := p, msix := m } } := by
  unfold msix
  split
  · exact ⟨_, _, rfl⟩
  · exact ⟨_, _, rfl⟩

/-- Settles O18: the row's body on the oldest completion; the interrupt touches the vectors only. -/
theorem completionPostWritesTheOldest : Obligations.CompletionPostWritesTheOldest := by
  refine ⟨fun s d rest hw hroom => ?_, completionBytes_layout⟩
  have hfull : ¬ cqFull s.host = true := by simpa [cqFull] using hroom
  rw [exec_completionPost, execCompletionPost, hw]
  dsimp only
  rw [if_neg hfull]
  by_cases hi : d.noIrq = true
  · rw [if_pos hi]
    exact ⟨_, rfl, rfl, rfl, rfl, fun _ => rfl, rfl, rfl, rfl, fun _ => rfl⟩
  · rw [if_neg hi]
    obtain ⟨p, m, hm⟩ := msix_host { s with host := { s.host with
      cq := ringWrite s.host.cq (32 * s.host.cqTail) (completionBytes s.host d), cqTail := (s.host.cqTail + 1) % 64, waiting := rest } } 0
    rw [hm]
    exact ⟨_, rfl, rfl, rfl, rfl, fun h => absurd h hi, rfl, rfl, rfl, fun h => absurd h hi⟩

/-! ## Registers and windows -/

theorem aligned48_four {a : Nat} (h : a % 4 = 0) : aligned48 a 4 = true := by simp [aligned48, h]

theorem aligned48_eight {a : Nat} (h : a % 8 = 0) : aligned48 a 8 = true := by simp [aligned48, h]

theorem aligned48_other {a size : Nat} (h4 : size ≠ 4) (h8 : size ≠ 8) : aligned48 a size = false := by simp [aligned48, h4, h8]

section
variable {s : State} {addr value : Nat}

theorem registerWrite_bar0 {size : Nat} (h : addr < 2 ^ 24) : exec (.registerWrite addr size value) s = done s (bar0Write s addr size value) := by
  rw [exec_registerWrite, execRegisterWrite, if_pos (by omega), if_pos h]

theorem registerWrite_bar2 {size : Nat} : exec (.registerWrite (2 ^ 28 + addr) size value) s = done s (bar2Write s addr size value) := by
  rw [exec_registerWrite, execRegisterWrite, if_neg (by omega), Nat.add_sub_cancel_left]

/-- An aligned write outside the ring acts word by word; only HUB_CAL words 0x10 and 0x14 ask for expert access. -/
theorem bar0Write_words {size : Nat} (hr : addr < 0x10000 ∨ 0x11000 ≤ addr) (hx : s.host.expertOn = true ∨ (addr ≠ 0x10 ∧ addr ≠ 0x14))
    (ha : aligned48 addr size = true) : bar0Write s addr size value = (wordsOf addr size value).foldl bar0Word s := by
  unfold bar0Write
  dsimp only
  rw [if_neg (by simp; omega), if_neg (by simp [ha]), if_neg]
  rcases hx with hx | ⟨h1, h2⟩
  · simp [hx]
  · simp [h1, h2]

theorem bar0Write_ring {size : Nat} (hlo : 0x10000 ≤ addr) (hhi : addr < 0x11000) (hs : size ≤ 512) : bar0Write s addr size value =
    { s with host := { s.host with sq := ringWrite s.host.sq (addr - 0x10000) ((natLe size value).take (0x11000 - addr)) } } := by
  unfold bar0Write
  rw [if_pos (by simp [hlo, hhi]), if_pos hs]

theorem bar0Write_unaligned {size : Nat} (hr : addr < 0x10000 ∨ 0x11000 ≤ addr) (ha : aligned48 addr size = false) :
    bar0Write s addr size value = s := by
  unfold bar0Write
  rw [if_neg (by simp; omega), if_pos (by simp [ha])]

section
variable (hlo : 0x1000000 ≤ addr) (hhi : addr < 0x8000000)
include hlo hhi

theorem bar2Write_words {size : Nat} (hx : s.host.expertOn = true) (ha : aligned48 addr size = true) :
    bar2Write s addr size value = (wordsOf addr size value).foldl expertWord s := by
  unfold bar2Write
  rw [if_neg (by omega), if_pos hhi, if_neg (by simp [ha]), if_neg (by simp [hx])]

theorem bar2Write_unaligned {size : Nat} (ha : aligned48 addr size = false) : bar2Write s addr size value = s := by
  unfold bar2Write
  rw [if_neg (by omega), if_pos hhi, if_pos (by simp [ha])]

end

end

theorem apertureRead_closed {s : State} {ofs len : Nat} (h : s.host.expertOn = false ∨ 512 < len) :
    exec (.apertureRead ofs len) s = .next { s with host := { s.host with readData := List.replicate len 0xFF } } := by
  have hok : (s.host.expertOn && decide (len ≤ 512)) = false := by
    rcases h with h | h
    · simp [h]
    · simp [Nat.not_le.mpr h]
  rw [exec_apertureRead, execApertureRead]
  simp only [hok, Bool.not_false, if_true, Bool.false_eq_true, if_false]
  rfl

theorem apertureRead_open {s : State} {ofs len : Nat} (hx : s.host.expertOn = true) (hl : len ≤ 512) :
    exec (.apertureRead ofs len) s =
      (let t : State := { s with host := { s.host with readData := aperBytes s ofs len } }
       done s (if mapped (aperAddr s ofs) len then countBytes t 5 3 (aperAddr s ofs) len false
         else alm t srcHost .aperture 2 [aperAddr s ofs, 0])) := by
  have hok : (s.host.expertOn && decide (len ≤ 512)) = true := by simp [hx, hl]
  rw [exec_apertureRead]
  unfold execApertureRead
  simp only [hok]
  cases hm : mapped (aperAddr s ofs) len <;> simp

section
variable {s : State} {ofs : Nat} {bs : List Byte}

theorem aperWrite_long (h : 512 < bs.length) : aperWrite s ofs bs = s :=
  if_pos h

variable (hx : s.host.expertOn = true) (hl : bs.length ≤ 512)
include hx hl

theorem aperWrite_unmapped (hm : mapped (aperAddr s ofs) bs.length = false) : aperWrite s ofs bs = alm s srcHost .aperture 2 [aperAddr s ofs, 1] := by
  simp [aperWrite, Nat.not_lt.mpr hl, hx, hm]

theorem aperWrite_own (hm : mapped (aperAddr s ofs) bs.length = true) (hb : firstBarred s (expertOwner s) (aperAddr s ofs) bs.length = none) :
    aperWrite s ofs bs = countBytes (hubWrite s (expertOwner s) (aperAddr s ofs) bs) 5 3 (aperAddr s ofs) bs.length true := by
  simp [aperWrite, Nat.not_lt.mpr hl, hx, hm, hb]

theorem aperWrite_barred {x : Nat} (hm : mapped (aperAddr s ofs) bs.length = true)
    (hb : firstBarred s (expertOwner s) (aperAddr s ofs) bs.length = some x) :
    aperWrite s ofs bs = alm (hubWrite s (expertOwner s) (aperAddr s ofs) bs) srcHost .unmapped 3 [x, expertOwner s, tagOf s x] := by
  simp [aperWrite, Nat.not_lt.mpr hl, hx, hm, hb]

end

/-- Settles O19: each access is its row's body, and a write goes word by word where it is aligned. -/
theorem hostAccessesTakeEffect : Obligations.HostAccessesTakeEffect := by
  intro s
  refine ⟨exec_frameLoRead s, exec_timeLoRead s, exec_almHeadLoRead s, ?read, ?write, fun addr value ha hr hx => ⟨fun h4 => ?four, fun h8 => ?eight⟩,
    fun addr value hlo hhi hx => ⟨fun h4 => ?xfour, fun h8 => ?xeight⟩, fun addr size value h4 h8 hr => ?odd,
    fun addr size value hlo hhi hs => ?ring⟩
  case read =>
    rintro ofs len a rfl
    exact ⟨apertureRead_closed, apertureRead_open⟩
  case write =>
    rintro ofs bs a rfl
    rw [exec_apertureWrite, execApertureWrite]
    exact ⟨fun h => by rw [aperWrite_long h]; rfl, fun hx hl => ⟨fun hm => by rw [aperWrite_unmapped hx hl hm],
      fun hm hb => by rw [aperWrite_own hx hl hm hb], fun x hm hb => by rw [aperWrite_barred hx hl hm hb]⟩⟩
  case four =>
    rw [registerWrite_bar0 ha, bar0Write_words hr hx (aligned48_four h4)]
    rfl
  case eight =>
    rw [registerWrite_bar0 ha, bar0Write_words hr hx (aligned48_eight h8)]
    rfl
  case xfour =>
    rw [registerWrite_bar2, bar2Write_words hlo hhi hx (aligned48_four h4)]
    rfl
  case xeight =>
    rw [registerWrite_bar2, bar2Write_words hlo hhi hx (aligned48_eight h8)]
    rfl
  case odd =>
    rcases hr with hr | ⟨hlo, hhi⟩ | ⟨hlo, hhi⟩
    · rw [registerWrite_bar0 (by omega), bar0Write_unaligned (.inl hr) (aligned48_other h4 h8)]
      rfl
    · rw [registerWrite_bar0 hhi, bar0Write_unaligned (.inr hlo) (aligned48_other h4 h8)]
      rfl
    · obtain ⟨b, rfl⟩ := Nat.exists_eq_add_of_le (show 2 ^ 28 ≤ addr by omega)
      rw [registerWrite_bar2, bar2Write_unaligned (by omega) (by omega) (aligned48_other h4 h8)]
      rfl
  case ring =>
    rw [registerWrite_bar0 (by omega), bar0Write_ring hlo hhi hs]
    rfl

/-! ## Check-value units -/

theorem done_of_pending {s t : State} (h : t.pending = s.pending) : done s t = .next t := by
  rw [done_next, ← h]

theorem feed_running {v : Cvu} {bs : List Byte} (hb : v.busy = true) (hp : v.port = true) :
    v.feed bs = { v with run := cvuHash v.poly v.run (bs.take v.left), left := v.left - bs.length } := by
  have hlen : v.left - (bs.take v.left).length = v.left - bs.length := by rw [List.length_take]; omega
  simp only [Cvu.feed, hb, hp, Bool.and_self, if_true, hlen]

theorem feed_idle {v : Cvu} {bs : List Byte} (h : v.busy = false ∨ v.port = false) : v.feed bs = v :=
  if_neg (by rcases h with h | h <;> simp [h])

theorem writeCtrl_busy {v : Cvu} {x : Nat} (h : v.busy = true) : v.writeCtrl x =
    { v with done := v.done && !bit x 30, mismatch := v.mismatch && !bit x 29, fault := v.fault && !bit x 28 } :=
  if_pos h

/-- START on an idle unit begins a run. -/
theorem writeCtrl_start {v : Cvu} {x : Nat} (h : v.busy = false) (hx : bit x 10 = true) :
    (v.writeCtrl x).busy = true ∧ (v.writeCtrl x).done = false ∧ (v.writeCtrl x).mismatch = false ∧ (v.writeCtrl x).fault = false := by
  simp [Cvu.writeCtrl, h, hx, Cvu.begin]

/-- However it went, a run that ends clears BUSY and sets DONE. -/
theorem run'_ends (s : State) (ok : Nat → Bool) (v : Cvu) : (v.run' s ok).busy = false ∧ (v.run' s ok).done = true := by
  unfold Cvu.run'
  split <;> exact ⟨rfl, rfl⟩

/-- Settles O21: the bodies of the three rows, for a unit the writer may use. -/
theorem checkValueRuns : Obligations.CheckValueRuns := by
  intro s k hk
  have hopen : ¬ (decide (8 ≤ k) && !s.host.expertOn) = true := by
    rcases hk with hk | hk
    · simp [Nat.not_le.mpr hk]
    · simp [hk]
  have hdata (len value : Nat) : exec (.cvuDataWrite k len value) s = .next (putCvu s k ((cvuOf s k).feed (natLe (min len 4) value))) :=
    (exec_cvuDataWrite k len value s).trans (if_neg hopen)
  refine ⟨fun ctrl => (exec_cvuStart k ctrl s).trans (if_neg hopen), fun x => ⟨writeCtrl_busy, writeCtrl_start⟩, fun len value hb hp => ?_,
    fun len value h => by rw [hdata, feed_idle h], fun hb hp hh => ?_, fun h => ?_⟩
  · rw [hdata, feed_running hb hp, length_natLe]
  · obtain ⟨hbusy, hdone⟩ := run'_ends s (cvuMayRead s k) (cvuOf s k)
    have hrun : ¬ (!(cvuOf s k).busy || (cvuOf s k).port && decide ((cvuOf s k).left ≠ 0) || cvuHeld s k (cvuOf s k)) = true := by
      simpa [hb, hh] using hp
    refine ⟨_, ?_, hbusy, hdone⟩
    rw [exec_cvuRunDone, execCvuRunDone, if_neg hrun]
    obtain ⟨_, _, _, hc⟩ := countRun_frame s (cvuMayRead s k) (cvuOf s k)
    exact done_of_pending (by rw [hc]; rfl)
  · exact (exec_cvuRunDone k s).trans (if_pos (by rcases h with h | h <;> simp [h]))

/-! ## Resets, power states and DMA -/

/-- An event of the Almanac changes of the host interface the interrupt vectors only. -/
theorem alm_host (s : State) (src : Nat) (c : AlmCode) (sev : Nat) (l : List Nat) : ∃ a p m,
    alm s src c sev l = { s with alm := a, host := { s.host with msixPend := p, msix := m } } := by
  unfold alm almAt
  split
  · exact ⟨_, _, _, rfl⟩
  split
  · unfold almBuffer
    split <;> exact ⟨_, _, _, rfl⟩
  split
  · exact ⟨_, _, _, rfl⟩
  unfold almCreate
  split
  · exact ⟨_, _, _, rfl⟩
  dsimp only
  split
  · obtain ⟨p, m, h⟩ := msix_host _ 2
    exact ⟨_, p, m, h⟩
  · exact ⟨_, _, _, rfl⟩

/-- Dropping a check entry changes memory or its side bits only. -/
theorem dropCheck_frame (s : State) (a k : Nat) : ∃ m sd, dropCheck s a k = { s with mem := m, side := sd } := by
  unfold dropCheck
  split
  · exact ⟨_, _, rfl⟩
  · exact ⟨_, _, rfl⟩

@[simp] theorem dropCheck_plans (s : State) (a k : Nat) : (dropCheck s a k).plans = s.plans := by
  obtain ⟨_, _, h⟩ := dropCheck_frame s a k
  rw [h]

@[simp] theorem dropCheck_cal (s : State) (a k : Nat) : (dropCheck s a k).cal = s.cal := by
  obtain ⟨_, _, h⟩ := dropCheck_frame s a k
  rw [h]

/-- A spoilt REWRITE loses tiles' check entries and nothing of plans, calendar or host interface. -/
theorem spoilRewrite_keeps (s : State) (e : SubEntry) :
    (spoilRewrite s e).plans = s.plans ∧ (spoilRewrite s e).cal = s.cal := by
  unfold spoilRewrite
  dsimp only
  split
  · exact ⟨rfl, rfl⟩
  refine foldl_keeps (fun t : State => t.plans = s.plans ∧ t.cal = s.cal) _ (fun t i ht => ?_) _ _ ⟨rfl, rfl⟩
  split <;> simpa using ht

theorem expertClose_keeps (s : State) (cause : Nat) : (expertClose s cause).plans = s.plans ∧ (expertClose s cause).cal = s.cal ∧
    (expertClose s cause).host.expertOn = false := by
  unfold expertClose
  split
  · obtain ⟨a, p, m, h⟩ := alm_host { s with host := { s.host with expertOn := false, expertScope := false } } srcHost .expert 2 [2, cause]
    rw [h]
    exact ⟨rfl, rfl, rfl⟩
  next hx => exact ⟨rfl, rfl, Bool.eq_false_iff.mpr hx⟩

theorem resetInterface_empties (s : State) (kind : Nat) :
    ∃ t, resetInterface s kind = t ∧ t.host.sqTail = 0 ∧ t.host.sqHead = 0 ∧ t.host.cqTail = 0 ∧ t.host.cqHead = 0 ∧
      t.host.taken = [] ∧ t.host.waiting = [] ∧ t.host.rings = [] ∧ t.host.expertOn = false ∧ t.host.d3hot = false ∧
      t.plans = s.plans ∧ t.cal = s.cal := by
  obtain ⟨hp, hc⟩ := foldl_keeps (fun t : State => t.plans = s.plans ∧ t.cal = s.cal) spoilRewrite
    (fun t e ⟨h1, h2⟩ => ⟨(spoilRewrite_keeps t e).1.trans h1, (spoilRewrite_keeps t e).2.trans h2⟩)
    (s.host.taken.filter (fun e => begunRewrite s e)) s ⟨rfl, rfl⟩
  obtain ⟨hp', hc', hx⟩ := expertClose_keeps ((s.host.taken.filter (fun e => begunRewrite s e)).foldl spoilRewrite s) 1
  unfold resetInterface
  dsimp only
  obtain ⟨a, p, m, h⟩ := alm_host _ srcHost .hostDma 2 [0x10 + kind]
  rw [h]
  exact ⟨_, rfl, rfl, rfl, rfl, rfl, rfl, rfl, rfl, hx, rfl, hp'.trans hp, hc'.trans hc⟩

/-- The interrupts pending in D3hot are signalled in D0: only the vectors change. -/
theorem foldl_msix_host {f : State → Nat → State} (hf : ∀ s v, ∃ p m, f s v = { s with host := { s.host with msixPend := p, msix := m } })
    (l : List Nat) (s : State) : ∃ p m, l.foldl f s = { s with host := { s.host with msixPend := p, msix := m } } := by
  refine foldl_keeps (fun t => ∃ p m, t = { s with host := { s.host with msixPend := p, msix := m } }) f ?_ l s ⟨_, _, rfl⟩
  rintro _ v ⟨p, m, rfl⟩
  obtain ⟨p', m', h⟩ := hf { s with host := { s.host with msixPend := p, msix := m } } v
  exact ⟨p', m', h⟩

theorem signalPended_host (s : State) (v : Nat) : ∃ p m,
    (if tget s.host.msixPend v false && !tget s.host.msixMask v true then
      msix { s with host := { s.host with msixPend := tput s.host.msixPend v false } } v
    else s) = { s with host := { s.host with msixPend := p, msix := m } } := by
  split
  · obtain ⟨p, m, h⟩ := msix_host { s with host := { s.host with msixPend := tput s.host.msixPend v false } } v
    exact ⟨p, m, h⟩
  · exact ⟨_, _, rfl⟩

theorem powerState_d0 (s : State) :
    ∃ h, exec (.pciePowerState false) s = .next { s with host := h } ∧ h.d3hot = false ∧ h.dmaOn = true := by
  rw [exec_pciePowerState, execPciePowerState]
  dsimp only
  rw [if_neg (by decide)]
  obtain ⟨p, m, h⟩ := foldl_msix_host signalPended_host (List.range 64) { s with host := { s.host with d3hot := false, dmaOn := !false } }
  rw [h]
  exact ⟨_, rfl, rfl, rfl⟩

/-- A DMA failure of a command that has written nothing yet ends it with HOST_DMA and counts one error. -/
theorem dmaFail_ends {s : State} {e : SubEntry} (h : begunRewrite s e = false) :
    ∃ tk dd dc w, dmaFail s e = { s with host := { s.host with
      aer := sat 0xFFFFFFFF (s.host.aer + 1), taken := tk, dmaDone := dd, dmaChan := dc,
      waiting := s.host.waiting ++ completionOf e stHostDma [] :: w } } := by
  unfold dmaFail
  dsimp only
  rw [if_neg (by simp [h])]
  obtain ⟨dc, hc⟩ := complete_books { s with host := { s.host with aer := sat 0xFFFFFFFF (s.host.aer + 1) } } e stHostDma []
  rw [hc]
  obtain ⟨tk, dd, dc', w, heq, -, -⟩ := settleStray_books { s with host := { s.host with
    aer := sat 0xFFFFFFFF (s.host.aer + 1), taken := s.host.taken.erase e, dmaDone := s.host.dmaDone.erase e.tag, dmaChan := dc,
    waiting := s.host.waiting ++ [completionOf e stHostDma []] } } 64
  refine ⟨tk, dd, dc', w, ?_⟩
  simpa using heq

/-- Settles O22: the bodies of the rows; the resets share `resetInterface`, the failures `dmaFail`. -/
theorem interfaceResetsAndDma : Obligations.InterfaceResetsAndDma := by
  refine ⟨fun s => ⟨fun kind hk => ?kind, exec_hostInterfaceReset 2 s, powerState_d0 s, exec_perstRelease s, exec_pciePowerState true s,
    resetInterface_empties s⟩, fun s tag hn => ⟨fun good => ?none, ?noTimeout⟩, fun s tag e he => ⟨?good, ?bad, ?timeout, dmaFail_ends⟩⟩
  case kind => rw [exec_hostInterfaceReset, execHostInterfaceReset, if_neg hk]
  case none => rw [exec_dmaCompletion, execDmaCompletion, hn]; rfl
  case noTimeout => rw [exec_dmaTimeout, execDmaTimeout, hn]; rfl
  case good => rw [exec_dmaCompletion, execDmaCompletion, he]; rfl
  case bad => rw [exec_dmaCompletion, execDmaCompletion, he]; rfl
  case timeout => rw [exec_dmaTimeout, execDmaTimeout, he]

end Sys2Proof.Machine
end

section
/-! PROOFS. The sequencer: which command issues, what it takes, how messages arrive, how commands end. -/

namespace Sys2Proof.Machine

/-! ## Units and contexts -/

@[simp] theorem unitOf_putUnit_self (s : State) (r : Nat) (u : SeqUnit) : unitOf (putUnit s r u) r = u := by simp [unitOf]

@[simp] theorem unitOf_modUnit_self (s : State) (r : Nat) (f : SeqUnit → SeqUnit) : unitOf (modUnit s r f) r = f (unitOf s r) := by
  simp [unitOf]

theorem unitOf_congr {s t : State} (h : t.units = s.units) (r : Nat) : unitOf t r = unitOf s r := by rw [unitOf, unitOf, h]

theorem ctxOf_congr {s t : State} (h : t.units = s.units) (r k : Nat) : ctxOf t r k = ctxOf s r k := by rw [ctxOf, ctxOf, unitOf_congr h]

@[simp] theorem ctxOf_putCtx_self (s : State) (r k : Nat) (c : Ctx) : ctxOf (putCtx s r k c) r k = some c := by
  simp [ctxOf, putCtx, tfind_tput_self]

theorem modCtx_of_ctxOf {s : State} {r k : Nat} {c : Ctx} (h : ctxOf s r k = some c) (f : Ctx → Ctx) : modCtx s r k f = putCtx s r k (f c) := by
  simp only [modCtx, h]

/-- An event of the completions' queue changes what Vigil holds and a cluster's activity only. -/
theorem cmdEvent_frame (s : State) (kind : VgKind) (u ctx : Nat) (a : Armed) (status : Nat) (info : VgInfo) :
    ∃ x0 x1, cmdEvent s kind u ctx a status info = { s with vg := x0, health := x1 } :=
  vgPush_frame s _

/-! ## Issue -/

/-- The row of an opcode issues the command at the head of the chosen context. -/
theorem issueWith_issues {op u ctx : Nat} {s : State} {c : Ctx} {a : Armed} (h : Issues op u ctx s c a) (body : Cmdr → State → Eff)
    (ph : Phys) : issueWith op body u ctx ph s = issueNow op body u ctx ph s c a := by
  obtain ⟨hn, hc, hq, hop⟩ := h
  obtain ⟨q, hq⟩ := List.head?_eq_some_iff.mp hq
  simp [issueWith, hn, hc, hq, hop]

theorem done_issues {op u ctx : Nat} {s : State} {c : Ctx} {a : Armed} {o : Out} {body : Cmdr → State → Eff} {ph : Phys}
    (ho : o = done s (issueWith op body u ctx ph s)) (h : Issues op u ctx s c a) : o = done s (issueNow op body u ctx ph s c a) := by
  rw [ho, issueWith_issues h]

/-- Settles O23: every sequencer row is `issueWith` of its opcode and body. -/
theorem sequencerCommandsIssue : Obligations.SequencerCommandsIssue :=
  ⟨fun s u ctx ph _ _ =>
    ⟨done_issues (exec_load u ctx ph s), done_issues (exec_store u ctx ph s), done_issues (exec_sync u ctx ph s),
      done_issues (exec_matmul u ctx ph s), done_issues (exec_matmulDx u ctx ph s), done_issues (exec_matmulDw u ctx ph s),
      done_issues (exec_vec u ctx ph s), done_issues (exec_sfu u ctx ph s), done_issues (exec_optStep u ctx ph s)⟩,
   fun s u ctx ph _ _ =>
    ⟨done_issues (exec_conv u ctx ph s), done_issues (exec_convFused u ctx ph s), done_issues (exec_dwconv u ctx ph s),
      done_issues (exec_pool u ctx ph s), done_issues (exec_layout u ctx ph s), done_issues (exec_nleConvIn u ctx ph s),
      done_issues (exec_nleConvOut u ctx ph s), done_issues (exec_nleCrop u ctx ph s), done_issues (exec_nlePool u ctx ph s),
      done_issues (exec_nleResample u ctx ph s), done_issues (exec_attnStep u ctx ph s), done_issues (exec_attnPrefill u ctx ph s),
      done_issues (exec_attnCommit u ctx ph s)⟩,
   fun s u ctx ph _ _ =>
    ⟨done_issues (exec_fusEgo u ctx ph s), done_issues (exec_fusUpdate u ctx ph s), done_issues (exec_fusPublish u ctx ph s),
      done_issues (exec_plnGrid u ctx ph s), done_issues (exec_plnCheck u ctx ph s), done_issues (exec_plnCommit u ctx ph s)⟩⟩

/-- Lowering each counter of a list lowers no other. -/
theorem tget_foldl_tput_ne {β : Type} (f : Tbl β → Nat → β) (d : β) (l : List Nat) (t : Tbl β) {k : Nat} (hk : k ∉ l) :
    tget (l.foldl (fun t k => tput t k (f t k)) t) k d = tget t k d := by
  induction l generalizing t with
  | nil => rfl
  | cons j l ih =>
    rw [List.mem_cons, not_or] at hk
    rw [List.foldl_cons, ih _ hk.2, tget_tput_ne _ _ _ _ _ hk.1]

/-- Where each counter is listed once, it is lowered once. -/
theorem tget_foldl_tput_of_nodup {β : Type} (g : β → β) (d : β) (l : List Nat) (t : Tbl β) (hl : l.Nodup) {k : Nat} (hk : k ∈ l) :
    tget (l.foldl (fun t k => tput t k (g (tget t k d))) t) k d = g (tget t k d) := by
  induction l generalizing t with
  | nil => cases hk
  | cons j l ih =>
    obtain ⟨hj, hl⟩ := List.nodup_cons.mp hl
    rw [List.foldl_cons]
    rcases List.mem_cons.mp hk with rfl | hk
    · rw [tget_foldl_tput_ne (fun t k => g (tget t k d)) d l _ hj, tget_tput_self]
    · have hne : k ≠ j := fun h => hj (h ▸ hk)
      rw [ih _ hl hk, tget_tput_ne _ _ _ _ _ hne]

/-- Filtering every listed slot leaves in each only what passes. -/
theorem foldl_filter_slots (p : Token → Bool) (l : List Nat) (t : Tbl (List Token)) {k : Nat} (hk : k ∈ l ∨ ∀ x ∈ tget t k [], p x = true) :
    ∀ x ∈ tget (l.foldl (fun t k => tput t k ((tget t k []).filter p)) t) k [], p x = true := by
  induction l generalizing t with
  | nil => exact hk.resolve_left (by simp)
  | cons j l ih =>
    refine ih _ ?_
    by_cases hkj : k = j
    · subst hkj
      refine .inr fun x hx => ?_
      rw [tget_tput_self] at hx
      exact (List.mem_filter.mp hx).2
    · rw [tget_tput_ne _ _ _ _ _ hkj]
      exact hk.imp_left fun h => (List.mem_cons.mp h).resolve_left hkj

/-- Starting a command changes the unit's sequencer state, the cluster's counters and what Vigil watches. -/
theorem startCmd_frame (s : State) (u ctx : Nat) (c : Ctx) (a : Armed) (op : Nat) (ph : Phys) : ∃ x0 x1 x2 x3,
    startCmd s u ctx c a op ph = { s with units := x0, vg := x1, health := x2, clu := x3 } ∧
    ctxOf (startCmd s u ctx c a op ph) u ctx = some (startedCtx s u c a op) := by
  unfold startCmd
  dsimp only
  generalize hs1 : putCtx (modUnit s u fun x => { x with issueSeq := x.issueSeq + 1, rr := tput x.rr c.part ctx }) u ctx (startedCtx s u c a op) = s1
  have hctx : ctxOf s1 u ctx = some (startedCtx s u c a op) := by rw [← hs1]; exact ctxOf_putCtx_self _ _ _ _
  obtain ⟨y0, y1, y2, hs2, hu2⟩ : ∃ y0 y1 y2, (if c.started ≠ some a.frame then cmdEvent s1 .taskStart u ctx a 0 else s1) =
      { s with units := y0, vg := y1, health := y2 } ∧ y0 = s1.units := by
    split
    · obtain ⟨v, h, he⟩ := cmdEvent_frame s1 .taskStart u ctx a 0 .plain
      rw [he, ← hs1]
      exact ⟨_, v, h, rfl, rfl⟩
    · rw [← hs1]
      exact ⟨_, _, _, rfl, rfl⟩
  rw [hs2]
  split
  · exact ⟨_, _, _, _, rfl, (ctxOf_congr (by exact hu2) u ctx).trans hctx⟩
  · exact ⟨_, _, _, _, rfl, (ctxOf_congr (by exact hu2) u ctx).trans hctx⟩

/-- Settles O24: the context a command starts in is `startedCtx`, whose slots and counters are the folds over the command's lists. -/
theorem issueTakesTokensAndCredits : Obligations.IssueTakesTokensAndCredits := by
  intro s u ctx ph c a op
  obtain ⟨x0, x1, x2, x3, heq, hctx⟩ := startCmd_frame s u ctx c a op ph
  refine ⟨_, hctx, fun k hk t ht => ?_, fun k hk => ?_, fun k hk => ?_, fun hnd k hk => ?_, rfl, rfl, by rw [heq], by rw [heq]⟩
  · exact of_decide_eq_true (foldl_filter_slots (fun x => x.frame ≠ a.frame) (dIns a.desc) c.slots (.inl hk) t ht)
  · exact tget_foldl_tput_ne _ _ _ _ hk
  · exact tget_foldl_tput_ne _ _ _ _ hk
  · exact tget_foldl_tput_of_nodup (fun n => n - 1) 0 _ _ hnd hk

/-! ## The choice of a context -/

theorem better_mem (u : SeqUnit) (x y : Nat × Ctx) : better u x y = x ∨ better u x y = y := by
  unfold better
  repeat' split
  all_goals simp

theorem better_part (u : SeqUnit) (x y : Nat × Ctx) : (better u x y).2.part ≤ x.2.part ∧ (better u x y).2.part ≤ y.2.part := by
  unfold better
  repeat' split
  all_goals omega

/-- The best of a list is in it, and none has a lower partition. -/
theorem foldl_better (u : SeqUnit) (x : Nat × Ctx) (xs : List (Nat × Ctx)) :
    xs.foldl (better u) x ∈ x :: xs ∧ ∀ y ∈ x :: xs, (xs.foldl (better u) x).2.part ≤ y.2.part := by
  induction xs generalizing x with
  | nil => simp
  | cons z xs ih =>
    obtain ⟨hmem, hle⟩ := ih (better u x z)
    obtain ⟨hx, hz⟩ := better_part u x z
    have hb := hle _ List.mem_cons_self
    refine ⟨?_, fun y hy => ?_⟩
    · rw [List.foldl_cons]
      rcases List.mem_cons.mp hmem with h | h
      · rw [h]
        rcases better_mem u x z with h | h <;> simp [h]
      · exact List.mem_cons_of_mem _ (List.mem_cons_of_mem _ h)
    · rw [List.foldl_cons]
      rcases List.mem_cons.mp hy with rfl | hy
      · exact Nat.le_trans hb hx
      rcases List.mem_cons.mp hy with rfl | hy
      · exact Nat.le_trans hb hz
      · exact hle y (List.mem_cons_of_mem _ hy)

theorem choose_some {u : SeqUnit} {l : List (Nat × Ctx)} {k : Nat} (h : choose u l = some k) :
    ∃ c, (k, c) ∈ l ∧ ∀ y ∈ l, c.part ≤ y.2.part := by
  cases l with
  | nil => cases h
  | cons x xs =>
    obtain ⟨hmem, hle⟩ := foldl_better u x xs
    have hk : (xs.foldl (better u) x).1 = k := Option.some.inj h
    exact ⟨(xs.foldl (better u) x).2, hk ▸ hmem, hle⟩

/-- A ready context runs nothing, and its head command has all it needs. -/
theorem ctxReady_head {u : SeqUnit} {c : Ctx} (h : ctxReady u c = true) : c.run = none ∧ ∃ a, c.queue.head? = some a ∧ readyIn c a = true ∧
    voidIn c a = false ∧ creditsOk c a = true ∧ unitsFree u (dOp a.desc) = true := by
  unfold ctxReady at h
  rw [Bool.and_eq_true, Option.isNone_iff_eq_none] at h
  obtain ⟨hrun, hq⟩ := h
  refine ⟨hrun, ?_⟩
  rcases hqueue : c.queue with _ | ⟨a, q⟩ <;> rw [hqueue] at hq
  · cases hq
  · simp only [Bool.and_eq_true, Bool.not_eq_true'] at hq
    obtain ⟨⟨⟨hvoid, hready⟩, hcred⟩, hfree⟩ := hq
    exact ⟨a, rfl, hready, hvoid, hcred, hfree⟩

/-- Settles O25: the choice is the best of the resident ready contexts that may issue. -/
theorem issueRule : Obligations.IssueRule := by
  intro s u ctx h
  obtain ⟨c, hmem, hle⟩ := choose_some h
  obtain ⟨hin, hc⟩ := List.mem_filter.mp hmem
  simp only [Bool.and_eq_true] at hc
  obtain ⟨⟨⟨hres, hready⟩, -⟩, -⟩ := hc
  obtain ⟨hrun, hhead⟩ := ctxReady_head hready
  refine ⟨c, hin, hres, hrun, hhead, fun k d hd hdres hdready hmay hgrid => ?_⟩
  exact hle (k, d) (List.mem_filter.mpr ⟨hd, by simp [hdres, hdready, hmay, hgrid]⟩)

/-- Settles O26: the body of SYNC leaves the state in which it starts, and that differs from the step's in the sequencer and Vigil only. -/
theorem syncMovesNoData : Obligations.SyncMovesNoData := by
  intro s u ctx ph c a h
  obtain ⟨x0, x1, x2, x3, heq, hctx⟩ := startCmd_frame s u ctx c a 0x03 ph
  have hexec := done_issues (exec_sync u ctx ph s) h
  rw [issueNow] at hexec
  dsimp only [syncBody] at hexec
  rw [modCtx_of_ctxOf hctx] at hexec
  refine ⟨_, _, hexec, ?_, ?_, ?_, ?_, ?_, ctxOf_putCtx_self _ _ _ _, _, rfl, rfl, rfl, rfl, rfl⟩
  all_goals
    rw [heq]
    rfl

/-! ## The control channel -/

/-- Settles O28: the message taken is the first of its source and destination. -/
theorem channelKeepsOrder : Obligations.ChannelKeepsOrder := by
  intro fs rest p f h
  unfold takeFlight at h
  split at h
  · cases h
  next g hg =>
    split at h
    next e he =>
      split at h
      next heg =>
        obtain ⟨rfl, rfl⟩ : g = f ∧ fs.erase g = rest := by simpa using h
        subst heg
        obtain ⟨-, pre, post, hsplit, hpre⟩ := List.find?_eq_some_iff_append.mp he
        exact ⟨List.find?_some hg, rfl, pre, post, hsplit, fun x hx => by simpa [Decidable.imp_iff_not_or] using hpre x hx⟩
      · cases h
    · cases h

section
variable {s : State} {dst : Nat}

theorem recvToken_undefined {t : Token} (h : ctxOf s dst t.ctx = none) : recvToken s dst t = discardStale s dst t.ctx t.frame := by
  simp only [recvToken, h]

/-- A token for a defined context: below the floor, for a full slot, or in. -/
theorem recvToken_defined {t : Token} {c : Ctx} (h : ctxOf s dst t.ctx = some c) : recvToken s dst t =
    if t.frame < slotFloor c t.slot then discardStale s dst t.ctx t.frame
    else if (tget c.slots t.slot []).length ≥ 2 then discardFull s dst t.ctx t.slot t.frame
    else putCtx s dst t.ctx { c with slots := tput c.slots t.slot (slotInsert (tget c.slots t.slot []) t) } := by
  simp only [recvToken, h]

theorem recvCredit_undefined {cr : Credit} (h : ctxOf s dst cr.ctx = none) : recvCredit s dst cr = discardStale s dst cr.ctx cr.frame := by
  simp only [recvCredit, h]

theorem recvCredit_defined {cr : Credit} {c : Ctx} (h : ctxOf s dst cr.ctx = some c) : recvCredit s dst cr =
    if tget c.credits cr.counter 0 ≥ tget c.creditInit cr.counter 0 then discardCredit s dst cr.ctx cr.counter cr.frame
    else putCtx s dst cr.ctx { c with credits := tput c.credits cr.counter (tget c.credits cr.counter 0 + 1) } := by
  simp only [recvCredit, h]

/-- A message that was not on the channel, as the host or a test sends it. -/
theorem tokenArrival_direct {t : Token} (h : inFlight s.flights (fun f => f.dst = dst && f.tok = some t) = false) :
    exec (.tokenArrival dst t) s = done s (recvToken s dst t) := by
  rw [exec_tokenArrival, execTokenArrival]
  exact if_neg (by simp [h])

theorem creditArrival_direct {cr : Credit} (h : inFlight s.flights (fun f => f.dst = dst && f.cred = some cr) = false) :
    exec (.creditArrival dst cr) s = done s (recvCredit s dst cr) := by
  rw [exec_creditArrival, execCreditArrival]
  exact if_neg (by simp [h])

end

/-- Settles O27: an arrival takes the message off the channel, where it is its turn, and delivers it. -/
theorem messagesArrive : Obligations.MessagesArrive := by
  refine ⟨fun s dst t hno => ⟨fun hc => ?undef, fun c hc => ⟨fun hlt => ?stale, fun hle hfull => ?full, fun hle hroom => ?taken⟩⟩,
    fun s dst t hin => ⟨fun f fs hf => ?tok, fun hf => ?tokWaits⟩, fun s dst cr hin => ⟨fun f fs hf => ?cred, fun hf => ?credWaits⟩,
    fun s dst cr hno hc => ?credUndef, fun s dst cr c hno hc => ⟨fun hlt => ?raised, fun hle => ?initial⟩⟩
  case undef => rw [tokenArrival_direct hno, recvToken_undefined hc]
  case stale => rw [tokenArrival_direct hno, recvToken_defined hc, if_pos hlt]
  case full => rw [tokenArrival_direct hno, recvToken_defined hc, if_neg (Nat.not_lt.mpr hle), if_pos hfull]
  case taken =>
    rw [tokenArrival_direct hno, recvToken_defined hc, if_neg (Nat.not_lt.mpr hle), if_neg (Nat.not_le.mpr hroom)]
    rfl
  case tok => rw [exec_tokenArrival, execTokenArrival, if_pos hin, hf]
  case tokWaits => rw [exec_tokenArrival, execTokenArrival, if_pos hin, hf]; rfl
  case cred => rw [exec_creditArrival, execCreditArrival, if_pos hin, hf]
  case credWaits => rw [exec_creditArrival, execCreditArrival, if_pos hin, hf]; rfl
  case credUndef => rw [creditArrival_direct hno, recvCredit_undefined hc]
  case raised =>
    rw [creditArrival_direct hno, recvCredit_defined hc, if_neg (Nat.not_le.mpr hlt)]
    rfl
  case initial => rw [creditArrival_direct hno, recvCredit_defined hc, if_pos hle]

end Sys2Proof.Machine
end

section
/-! PROOFS. How commands end, how contexts swap and how twin notes meet. -/

namespace Sys2Proof.Machine

/-! ## Ends of commands -/

section
variable {s : State} {u ctx : Nat}

theorem inputVoidComplete_undefined (h : ctxOf s u ctx = none) : exec (.inputVoidComplete u ctx) s = .next s := by
  rw [exec_inputVoidComplete, execInputVoidComplete, h]
  rfl

theorem commandComplete_undefined (h : ctxOf s u ctx = none) : exec (.commandComplete u ctx) s = .next s := by
  rw [exec_commandComplete, execCommandComplete, h]
  rfl

theorem commandLapse_undefined (h : ctxOf s u ctx = none) : exec (.commandLapse u ctx) s = .next s := by
  rw [exec_commandLapse, execCommandLapse, h]
  rfl

theorem twinNote_undefined (h : ctxOf s u ctx = none) : exec (.twinNote u ctx) s = .next s := by
  rw [exec_twinNote, execTwinNote, h]
  rfl

variable {c : Ctx} (hc : ctxOf s u ctx = some c)
include hc

theorem inputVoidComplete_void {a : Armed} (hq : c.queue.head? = some a) (hres : c.resident = true) (hrun : c.run = none)
    (hv : voidIn c a = true) : exec (.inputVoidComplete u ctx) s = done s (inputVoid s u ctx c a) := by
  obtain ⟨q, hq⟩ := List.head?_eq_some_iff.mp hq
  rw [exec_inputVoidComplete, execInputVoidComplete, hc]
  dsimp only
  rw [hq]
  exact if_pos (by simp [hres, hrun, hv])

theorem commandComplete_idle (hrun : c.run = none) : exec (.commandComplete u ctx) s = .next s := by
  rw [exec_commandComplete, execCommandComplete, hc]
  dsimp only
  rw [hrun]
  rfl

/-- What `commandComplete` asks of the comparator of a command. -/
theorem commandComplete_running {r : Run} (hrun : c.run = some r) : exec (.commandComplete u ctx) s =
    if r.released && !((comparatorOf u (dOp r.cmd.desc)).any (comparatorHeld s)) then done s (modUnit (finish s u ctx c r) u residePending)
    else done s s := by
  rw [exec_commandComplete, execCommandComplete, hc]
  dsimp only
  rw [hrun]
  dsimp only
  cases comparatorOf u (dOp r.cmd.desc) <;> rfl

theorem commandLapse_some {a : Armed} (ha : (unissued c).find? (fun a => a.frame + 2 ≤ s.cal.frame) = some a) :
    exec (.commandLapse u ctx) s = done s (lapseOne s u ctx a 0) := by
  rw [exec_commandLapse, execCommandLapse, hc]
  dsimp only
  rw [ha]

theorem commandLapse_none (ha : (unissued c).find? (fun a => a.frame + 2 ≤ s.cal.frame) = none) :
    exec (.commandLapse u ctx) s = .next s := by
  rw [exec_commandLapse, execCommandLapse, hc]
  dsimp only
  rw [ha]
  rfl

end

/-- A completion record goes behind the unit's others, of which the last 64 stay; contexts and memory stay as they were. -/
theorem record_frame (s : State) (u ctx : Nat) (a : Armed) (st : Option VoidReason) (arith us : Nat) : ∃ x0 x1,
    record s u ctx a st arith us = { s with
      units := tput s.units u { unitOf s u with records := (((unitOf s u).records ++
        [({ frame := a.frame, idx := a.idx, ctx := ctx, status := statusCode st, arith := arith, unitStatus := us } : Completion)]).drop
          ((unitOf s u).records.length + 1 - 64)) },
      vg := x0, health := x1 } := by
  unfold record
  dsimp only
  generalize { frame := a.frame, idx := a.idx, ctx := ctx, status := statusCode st, arith := arith, unitStatus := us : Completion } = e
  split <;> split
  · obtain ⟨v, h, he⟩ := cmdEvent_frame (modHealth (modUnit s u fun x => { x with records := (x.records ++ [e]).drop (x.records.length + 1 - 64) })
      (gOf u) (fun h => { h with ran := h.ran ++ [{ frame := a.frame, planId := a.planId, ctx := ctx, idx := a.idx, failed := st.isSome }] }))
      .completion u ctx a (statusCode st) (.completion arith us)
    rw [he]
    exact ⟨_, _, rfl⟩
  · obtain ⟨v, h, he⟩ := cmdEvent_frame (modUnit s u fun x => { x with records := (x.records ++ [e]).drop (x.records.length + 1 - 64) })
      .completion u ctx a (statusCode st) (.completion arith us)
    rw [he]
    exact ⟨_, _, rfl⟩
  · exact ⟨_, _, rfl⟩
  · exact ⟨_, _, rfl⟩

/-- Settles O29: the rows that end commands, and the record that each leaves. -/
theorem commandsEnd : Obligations.CommandsEnd := by
  refine ⟨fun s u ctx c hc => ⟨fun a hq hres hrun hv => inputVoidComplete_void hc hq hres hrun hv, fun r hrun hrel hheld => ?complete,
      fun r hrun hwait => ?waits, fun a ha => commandLapse_some hc ha, fun ha => commandLapse_none hc ha, fun hrun => commandComplete_idle hc hrun⟩,
    fun s u ctx h => ⟨inputVoidComplete_undefined h, commandComplete_undefined h, commandLapse_undefined h, twinNote_undefined h⟩,
    fun s u ctx a st arith us => ?record⟩
  case complete =>
    refine (commandComplete_running hc hrun).trans (if_pos ?_)
    cases hk : comparatorOf u (dOp r.cmd.desc) with
    | none => simp [hrel]
    | some k => simp [hrel, hheld k hk]
  case waits =>
    refine (commandComplete_running hc hrun).trans (if_neg ?_)
    rcases hwait with h | ⟨k, hk, hheld⟩
    · simp [h]
    · simp [hk, hheld]
  case record =>
    obtain ⟨x0, x1, heq⟩ := record_frame s u ctx a st arith us
    have hunit : unitOf (record s u ctx a st arith us) u = { unitOf s u with records := (((unitOf s u).records ++
        [({ frame := a.frame, idx := a.idx, ctx := ctx, status := statusCode st, arith := arith, unitStatus := us } : Completion)]).drop
          ((unitOf s u).records.length + 1 - 64)) } := by
      rw [heq, unitOf, tget_tput_self]
    dsimp only
    rw [hunit]
    refine ⟨rfl, fun hle => ?_, rfl, by rw [heq]⟩
    rw [List.length_drop, List.length_append, List.length_singleton]
    omega

/-! ## Swaps -/

/-- Where no swap runs, there is nothing to count. -/
theorem countSwap_none {s : State} {u : Nat} (h : (unitOf s u).swap = none) : countSwap s u = s := by
  unfold countSwap
  rw [h]

section
variable {s : State} {u ctx : Nat} (hu : isClu u = true)
include hu

theorem contextSwapStart_clu : exec (.contextSwapStart u ctx) s = done s (beginSwap s u ctx) := by
  rw [exec_contextSwapStart, execContextSwapStart, if_pos hu]

/-- A swap that the start does not begin leaves the state as it is. -/
theorem contextSwapStart_not (h : (unitOf s u).swap ≠ none ∨ swapIn (unitOf s u) ≠ some ctx) : exec (.contextSwapStart u ctx) s = .next s := by
  rw [contextSwapStart_clu hu, beginSwap]
  split
  · rfl
  next hs =>
    have hnone : (unitOf s u).swap = none := by simpa using hs
    have hin := h.resolve_left (by simp [hnone])
    rw [startSwap, if_pos (by simp [hin]), countSwap_none hnone]
    rfl

variable (hs : (unitOf s u).swap = none) (hin : swapIn (unitOf s u) = some ctx)
include hs hin

/-- What a start that is due does. -/
theorem contextSwapStart_due : exec (.contextSwapStart u ctx) s = done s (countSwap
    (if residents (unitOf s u) < 8 then putUnit s u { unitOf s u with swap := some (ctx, none), inCtx := ctx }
     else if !allBlocked (unitOf s u) then s
     else (swapOut (unitOf s u)).elim (starve s u ctx) (fun o => putUnit s u { unitOf s u with
       swap := some (ctx, some o), inCtx := ctx, outCtx := o
       ctxs := tmod (unitOf s u).ctxs o {} (fun c => { c with resident := false }) })) u) := by
  rw [contextSwapStart_clu hu, beginSwap, if_neg (by simp [hs]), startSwap]
  dsimp only
  rw [if_neg (by simp [hs, hin])]
  cases swapOut (unitOf s u) <;> rfl

end

/-- A starvation episode starts no swap. -/
theorem starve_swap (s : State) (u ctx : Nat) : (unitOf (starve s u ctx) u).swap = (unitOf s u).swap := by
  unfold starve
  split
  · rfl
  · dsimp only
    rw [unitOf_congr (alm_units _ _ _ _ _), unitOf_congr (modStats_units _ _), unitOf_modUnit_self]

/-- The end of a swap makes the incoming context resident and the unit free for the next. -/
theorem endSwap_ends {s : State} {u ctx : Nat} {c : Ctx} {o : Option Nat} (hs : (unitOf s u).swap = some (ctx, o)) (hc : ctxOf s u ctx = some c) :
    ctxOf (endSwap s u) u ctx = some { c with resident := true, issuedSinceIn := false } ∧ (unitOf (endSwap s u) u).swap = none := by
  have hc' : tfind (unitOf s u).ctxs ctx = some c := hc
  unfold endSwap
  dsimp only
  rw [hs]
  dsimp only
  rw [hc', ctxOf, unitOf_putUnit_self]
  exact ⟨tfind_tput_self _ _ _, rfl⟩

theorem contextSwapComplete_running {s : State} {u : Nat} (h : (unitOf s u).swap ≠ none) : exec (.contextSwapComplete u) s =
    done s ((swapIn (unitOf (endSwap s u) u)).elim (endSwap s u) (beginSwap (endSwap s u) u)) := by
  rw [exec_contextSwapComplete, execContextSwapComplete, if_neg (by simpa using h)]
  dsimp only
  cases swapIn (unitOf (endSwap s u) u) <;> rfl

/-- Settles O30: the start by the residents, the blocked and the victim; the end by the context that came in. -/
theorem contextSwaps : Obligations.ContextSwaps := by
  refine ⟨fun s u ctx hu => ?notClu, fun s u ctx hu => ⟨fun hs hin => ⟨fun hroom => ?room, fun hfull hb => ?unblocked, fun hfull hb =>
      ⟨fun ho => ?starved, fun o ho => ?evicted⟩⟩, contextSwapStart_not hu, fun hs => ?noSwap,
    fun hs => ⟨fun hi => ?last, fun k hi => ?next⟩, fun c o hs hc => endSwap_ends hs hc, fun t => ?counted⟩⟩
  case notClu => exact (exec_contextSwapStart u ctx s).trans (if_neg (by simp [hu]))
  case room => rw [contextSwapStart_due hu hs hin, if_pos hroom]
  case unblocked =>
    rw [contextSwapStart_due hu hs hin, if_neg (Nat.not_lt.mpr hfull), if_pos (by simp [hb]), countSwap_none hs]
    rfl
  case starved =>
    rw [contextSwapStart_due hu hs hin, if_neg (Nat.not_lt.mpr hfull), if_neg (by simp [hb]), ho, Option.elim_none,
      countSwap_none ((starve_swap s u ctx).trans hs)]
  case evicted => rw [contextSwapStart_due hu hs hin, if_neg (Nat.not_lt.mpr hfull), if_neg (by simp [hb]), ho, Option.elim_some]
  case noSwap => exact (exec_contextSwapComplete u s).trans (if_pos (by simp [hs]))
  case last => rw [contextSwapComplete_running hs, hi, Option.elim_none]
  case next => rw [contextSwapComplete_running hs, hi, Option.elim_some]
  case counted =>
    obtain ⟨_, _, _, he⟩ := countSwap_frame t u
    rw [he]
    exact ⟨rfl, rfl⟩

/-! ## Twin notes -/

/-- Settles O31: the row on the first note of a pair, on a partner that ended without one, and on two notes. -/
theorem twinNotesMeet : Obligations.TwinNotesMeet := by
  intro s u ctx c r hc hr htw hd hn hrel hst
  refine ⟨fun hheld => ?held, fun hfree => ?free⟩
  case held =>
    rw [exec_twinNote, execTwinNote, hc]
    dsimp only
    rw [hr]
    exact if_pos (by simp [hheld])
  case free =>
    have hgo : ¬ (decide (c.twin = 0) || !dTwin r.cmd.desc || r.noted || r.released || r.status.isSome || comparatorHeld s 0) = true := by
      simp [htw, hd, hn, hrel, hst, hfree]
    intro s1 other
    rw [exec_twinNote, execTwinNote, hc]
    dsimp only
    rw [hr]
    dsimp only
    rw [if_neg hgo]
    refine ⟨fun ho => ?_, fun n ho => ⟨fun st hs => ?_, fun hs => ?_⟩⟩
    all_goals
      rw [show List.find? _ _ = other from rfl, ho]
      dsimp only
    · rfl
    · rw [hs]
    · rw [hs]
      exact (apply_ite (done s) _ _ _).symm

end Sys2Proof.Machine
end

section
/-! PROOFS. Results and their rings, and the switches at a Calend. -/

namespace Sys2Proof.Machine

/-! ## Publication -/

section
variable {s : State} {planId : Nat} {t : Token} {stamp : Nat}

theorem publishOutput_nothing (h : planOf s planId = none ∨ outputDir s.host planId (t.ctx * 64 + t.slot) = none ∨
    (∃ p, planOf s planId = some p ∧ (p.admitted = false ∨ p.retired = true))) : publishOutput s planId t stamp = s := by
  unfold publishOutput
  rcases hp : planOf s planId with _ | p <;> rcases ho : outputDir s.host planId (t.ctx * 64 + t.slot) with _ | i
  · rfl
  · rfl
  · rfl
  · refine if_pos ?_
    obtain ⟨q, hq, hbad⟩ := (h.resolve_left (by simp [hp])).resolve_left (by simp [ho])
    obtain rfl : p = q := Option.some.inj (hp.symm.trans hq)
    rcases hbad with h | h <;> simp [h]

variable {p : Plan} {i : Nat} (hp : planOf s planId = some p) (ho : outputDir s.host planId (t.ctx * 64 + t.slot) = some i)
  (ha : p.admitted = true) (hr : p.retired = false)
include hp ho ha hr

theorem publishOutput_void {v : VoidReason} (hv : t.void = some v) : publishOutput s planId t stamp =
    publish s i { frame := t.frame, gen := t.gen, completeTime := stamp, reason := statusCode (some v) } := by
  simp only [publishOutput, hp, ho, ha, hr, hv]
  rfl

/-- A READY token's output, by the state `readOutput` leaves, what it read, and whether it came late. -/
theorem publishOutput_ready (hv : t.void = none) : publishOutput s planId t stamp =
    (let o := outAt p.image (t.ctx * 64 + t.slot)
     let r := readOutput s (resultReader planId p.image t []) o t.gen
     let s' := if eveOf s t.frame ≤ stamp ∧ o.safety = false then modStats r.1.s (fun f => { f with lateP1P3 := sat 0xFFFFFFFF (f.lateP1P3 + 1) })
       else r.1.s
     if r.1.ok = false then publish s' i { frame := t.frame, gen := t.gen, completeTime := stamp, reason := statusCode (some .checkFail) }
     else if o.safety = true ∧ eveOf s t.frame ≤ stamp then publish s' i { frame := t.frame, gen := t.gen, completeTime := stamp, late := true }
     else publish s' i { frame := t.frame, gen := t.gen, completeTime := stamp, valid := true, length := o.length, payload := r.2 }) := by
  simp only [publishOutput, hp, ho, ha, hr, hv]
  simp

end

/-- Settles O32: the token's plan and output, then whether it is VOID, late or failing. -/
theorem resultTokensPublish : Obligations.ResultTokensPublish := by
  refine ⟨fun s planId t => ⟨fun f rest hf => ?onChannel, fun hf => ?direct⟩, fun s planId t stamp => ⟨publishOutput_nothing,
    fun p i hp ho ha hr => ⟨fun v hv => publishOutput_void hp ho ha hr hv, fun hv => ?ready⟩⟩⟩
  case onChannel => rw [exec_resultToken, execResultToken, hf]
  case direct => rw [exec_resultToken, execResultToken, hf]
  case ready =>
    have h := publishOutput_ready (stamp := stamp) hp ho ha hr hv
    dsimp only at h ⊢
    rw [h]
    refine ⟨fun hok hl => ?_, fun hok hl hsafe => ?_, fun hok hl hsafe => ?_, fun hok hl => ?_⟩
    · rw [if_neg (by simp [hok]), if_neg (by simp [hl]), if_neg (by simp [hl])]
    · rw [if_neg (by simp [hok]), if_pos ⟨hsafe, hl⟩, if_neg (by simp [hsafe])]
    · rw [if_neg (by simp [hok]), if_neg (by simp [hsafe]), if_pos ⟨hl, hsafe⟩]
    · rw [if_pos hok, if_neg (by simp [hl])]

/-! ## Buffers and rings -/

/-- One more buffer of the search keeps a buffer once found, and finds one that is free. -/
theorem nextBuf_free {d : Dir} (hc : d.cur < 3) (hl : d.lastValid < 3) : nextBuf d ≠ d.cur ∧ nextBuf d ≠ d.lastValid ∧ nextBuf d < 3 := by
  unfold nextBuf
  generalize (fun b => (tget d.bufs b {}).seqStart) = w
  simp only [List.foldl_cons, List.foldl_nil]
  have hcur : d.cur = 0 ∨ d.cur = 1 ∨ d.cur = 2 := by omega
  have hlast : d.lastValid = 0 ∨ d.lastValid = 1 ∨ d.lastValid = 2 := by omega
  rcases hcur with hcur | hcur | hcur <;> rcases hlast with hlast | hlast | hlast <;> rw [hcur, hlast] <;> simp
  all_goals
    repeat' split
    all_goals decide

/-- Settles O33: `nextBuf` names a third buffer, and only that one is written. -/
theorem publicationSparesTheReader : Obligations.PublicationSparesTheReader := by
  intro d b hc hl
  obtain ⟨hcur, hlast, hlt⟩ := nextBuf_free hc hl
  have hbuf (k : Nat) (hk : nextBuf d ≠ k) : tget (publishDir d b).bufs k {} = tget d.bufs k {} := tget_tput_ne _ _ _ _ _ hk.symm
  have hnew : tget (publishDir d b).bufs (publishDir d b).cur {} =
      { b with seqStart := (d.pub + 1) % 2 ^ 32, lastValidFrame := if b.valid then b.frame else d.lastValidFrame,
               lastValidBuf := if b.valid then nextBuf d else d.lastValid } := tget_tput_self _ _ _ _
  exact ⟨hcur, hlast, hlt, hbuf _ hcur, hbuf _ hlast, rfl, rfl, by rw [hnew]; rfl, by rw [hnew]⟩

/-- Settles O34: the three ends of `pushRing`; the interrupt of a written entry leaves the rings. -/
theorem resultRingsFill : Obligations.ResultRingsFill := by
  rintro s r bs g rfl
  unfold pushRing
  dsimp only
  refine ⟨fun hbig => if_pos hbig, fun hfit hfull => ?dropped, fun hfit hd3 hroom => ?written⟩
  case dropped => rw [if_neg (Nat.not_lt.mpr hfit), if_pos (by simpa using hfull)]
  case written =>
    rw [if_neg (Nat.not_lt.mpr hfit), if_neg (by simp [hd3, hroom])]
    obtain ⟨p, m, h⟩ := msix_host _ (8 + r)
    rw [h]
    exact ⟨_, rfl, tget_tput_self _ _ _ _⟩

/-! ## Switches at a Calend -/

/-- A later selection for the same Calend replaces the earlier ones, and no other. -/
theorem setSelect_spec (l : List (Nat × Nat)) (v f : Nat) :
    (∀ x ∈ setSelect l v f, x.2 = f → x.1 = v) ∧ (v, f) ∈ setSelect l v f ∧ ∀ x ∈ l, x.2 ≠ f → x ∈ setSelect l v f := by
  unfold setSelect
  refine ⟨fun x hx hxf => ?_, by simp, fun x hx hne => by simp [hx, hne]⟩
  rcases List.mem_append.mp hx with hx | hx
  · exact absurd hxf (of_decide_eq_true (List.mem_filter.mp hx).2)
  · rw [List.mem_singleton.mp hx]

theorem dueSelect_some {l : List (Nat × Nat)} {n w : Nat} (h : dueSelect l n = some w) : ∃ g, (w, g) ∈ l ∧ g ≤ n := by
  obtain ⟨⟨w', g⟩, hlast, rfl⟩ := Option.map_eq_some_iff.mp h
  obtain ⟨hmem, hle⟩ := List.mem_filter.mp (List.mem_of_getLast? hlast)
  exact ⟨g, hmem, of_decide_eq_true hle⟩

theorem dueSelect_none {l : List (Nat × Nat)} {n : Nat} (h : dueSelect l n = none) : ∀ x ∈ l, n < x.2 := by
  intro x hx
  have hnil := List.getLast?_eq_none_iff.mp (Option.map_eq_none_iff.mp h)
  refine Classical.byContradiction fun hle => ?_
  exact List.not_mem_nil (hnil ▸ List.mem_filter.mpr ⟨hx, decide_eq_true (Nat.not_lt.mp hle)⟩)

/-- A plan of this PLAN_ID after `modPlan` is one that was changed. -/
theorem mem_modPlan {s : State} {id : Nat} {f : Plan → Plan} {q : Plan} (hq : q ∈ (modPlan s id f).plans)
    (hid : q.planId = id) : ∃ p, q = f p := by
  obtain ⟨p, -, rfl⟩ := List.mem_map.mp hq
  split
  · exact ⟨p, rfl⟩
  next hne =>
    rw [if_neg hne] at hid
    exact absurd hid hne

theorem selectSwitch_selects {s : State} {p : Plan} {n v : Nat} (h : selectDue p n = some v) :
    ∀ q ∈ (selectSwitch s p n).plans, q.planId = p.planId → q.variant = v ∧ ∀ x ∈ q.select, n < x.2 := by
  intro q hq hid
  simp only [selectSwitch, h] at hq
  obtain ⟨p', rfl⟩ := mem_modPlan (f := fun q => { q with variant := v, select := laterSelects q.select n }) hq hid
  exact ⟨rfl, fun x hx => of_decide_eq_true (List.mem_filter.mp hx).2⟩

theorem exclusionSwitch_selects {s : State} {p : Plan} {n w : Nat}
    (h : (List.range (variantCount p.image)).find? (fun v => (variantExcluded s p.image v).isEmpty) = some w) :
    ∀ q ∈ (exclusionSwitch s p n).plans, q.planId = p.planId → q.variant = w := by
  intro q hq hid
  have h' : (List.range (variantCount p.image)).find?
      (fun v => (variantExcluded { s with exclDone := s.exclDone ++ [p.planId] } p.image v).isEmpty) = some w := h
  simp only [exclusionSwitch, h'] at hq
  obtain ⟨p', rfl⟩ := mem_modPlan (f := fun q => { q with variant := w }) hq hid
  rfl

section
variable {s : State} {id : Nat}

theorem variantSwitch_unknown (h : livePlan s id = none) : exec (.variantSwitch id) s = .next s := by
  rw [exec_variantSwitch, execVariantSwitch, h]
  rfl

theorem exclusionSwitch_unknown (h : livePlan s id = none) : exec (.exclusionSwitch id) s = .next s := by
  rw [exec_exclusionSwitch, execExclusionSwitch, h]
  rfl

variable {p : Plan} (hp : livePlan s id = some p)
include hp

theorem variantSwitch_known : exec (.variantSwitch id) s =
    if (selectDue p (s.cal.frame + 1)).isSome && !exclusionDue s p (s.cal.frame + 1)
    then done s (extendSteps (selectSwitch (atCalend s) p (s.cal.frame + 1))) else done s s := by
  rw [exec_variantSwitch, execVariantSwitch, hp]

theorem exclusionSwitch_known : exec (.exclusionSwitch id) s =
    if exclusionDue s p (s.cal.frame + 1) then done s (extendSteps (exclusionSwitch (atCalend s) p (s.cal.frame + 1))) else done s s := by
  rw [exec_exclusionSwitch, execExclusionSwitch, hp]

end

/-- Settles O35: each row with what is due and with nothing due, and what the switches leave of a plan. -/
theorem switchesTakeEffect : Obligations.SwitchesTakeEffect := by
  refine ⟨fun s => ⟨fun id p hp hd hx => ?variant, fun id p hp hx => ?exclusion, fun k hk => ?map, fun hk => ?noMap, fun g hg => ?quarantine,
      fun q g hg => ?deferred, fun id hp => ⟨variantSwitch_unknown hp, exclusionSwitch_unknown hp⟩, fun id p hp h => ?noVariant,
      fun id p hp hx => ?noExclusion, fun g hg => ?noQuarantine, fun q hq => ?noDeferred⟩,
    fun l v f n => ?selects, fun s p n _ => ⟨fun v hv => selectSwitch_selects hv, fun w hw => exclusionSwitch_selects hw⟩⟩
  case variant => exact (variantSwitch_known hp).trans (if_pos (by simp [hd, hx]))
  case exclusion => exact (exclusionSwitch_known hp).trans (if_pos hx)
  case map =>
    rw [exec_mapSwitch, execMapSwitch, if_pos (by simp [hk]), switchMap]
    have hk' : dueSelect (atCalend s).pln.select (s.cal.frame + 1) = some k := hk
    rw [hk']
    rfl
  case noMap => exact (exec_mapSwitch s).trans (if_neg (by simp [hk]))
  case quarantine => exact (exec_quarantine g s).trans (if_pos hg)
  case deferred => rw [exec_deferredExpulsion, execDeferredExpulsion, hg]
  case noVariant => exact (variantSwitch_known hp).trans (if_neg (by rcases h with h | h <;> simp [h]))
  case noExclusion => exact (exclusionSwitch_known hp).trans (if_neg (by simp [hx]))
  case noQuarantine => exact (exec_quarantine g s).trans (if_neg (by simp [hg]))
  case noDeferred => rw [exec_deferredExpulsion, execDeferredExpulsion, hq]; rfl
  case selects =>
    obtain ⟨h1, h2, h3⟩ := setSelect_spec l v f
    exact ⟨h1, h2, h3, fun w hw => dueSelect_some hw, dueSelect_none⟩

end Sys2Proof.Machine
end

section
/-! PROOFS. Vigil's judgement, the SAFE edges, heartbeats and the board link. -/

namespace Sys2Proof.Machine

/-! ## The two islands -/

@[simp] theorem peer_peer (i : Isl) : peer (peer i) = i := by cases i <;> rfl

@[simp] theorem islOf_modIsl_self (s : State) (i : Isl) (f : Island → Island) : islOf (modIsl s i f) i = f (islOf s i) := by cases i <;> rfl

@[simp] theorem islOf_modIsl_peer (s : State) (i : Isl) (f : Island → Island) : islOf (modIsl s i f) (peer i) = islOf s (peer i) := by
  cases i <;> rfl

@[simp] theorem islOf_modIsl_of_peer (s : State) (i : Isl) (f : Island → Island) : islOf (modIsl s (peer i) f) i = islOf s i := by
  cases i <;> rfl

theorem islOf_congr {s t : State} (ha : t.islA = s.islA) (hb : t.islB = s.islB) (i : Isl) : islOf t i = islOf s i := by
  cases i
  · exact ha
  · exact hb

@[simp] theorem islOf_alm (s : State) (src : Nat) (c : AlmCode) (sev : Nat) (l : List Nat) (i : Isl) :
    islOf (alm s src c sev l) i = islOf s i :=
  islOf_congr (alm_islA _ _ _ _ _) (alm_islB _ _ _ _ _) i

theorem done_modIsl (s t : State) (i : Isl) (f : Island → Island) (h : t.pending = s.pending) : done s (modIsl t i f) = .next (modIsl t i f) :=
  done_of_pending ((modIsl_pending t i f).trans h)

/-! ## Judgement -/

/-- A judgement is good only where the frame was and R294 lets the island edge; then RESET ends. -/
theorem judgeIsl_self (s : State) (i : Isl) (ok : Bool) : islOf (judgeIsl s i ok) i =
    { islOf s i with judged := true, good := ok && mayEdge s i, hReset := (islOf s i).hReset && !(ok && mayEdge s i),
                     lostSinceEve := (islOf s i).hPeerLost } := by
  unfold judgeIsl
  simp

theorem mayEdge_iff (s : State) (i : Isl) : mayEdge s i = true ↔ (islOf s i).heldHard = false ∧ (islOf s (peer i)).hCmpFail = false ∧
    (islOf s (peer i)).hRestartFail = false ∧ (islOf s i).lostSinceEve = false := by
  simp [mayEdge, and_assoc]

/-- Settles O38: `judgeIsl` sets what it judges from `mayEdge`, which is R294's condition. -/
theorem judgementRespectsHolds : Obligations.JudgementRespectsHolds := by
  intro s i ok
  dsimp only
  rw [judgeIsl_self]
  refine ⟨rfl, fun hg => ?_, fun hg => ?_, islOf_modIsl_peer _ _ _⟩
  · obtain ⟨hok, hmay⟩ := Bool.and_eq_true_iff.mp hg
    obtain ⟨h1, h2, h3, h4⟩ := (mayEdge_iff s i).mp hmay
    exact ⟨hok, h1, h2, h3, h4, by simp [hok, hmay]⟩
  · have hq : (ok && mayEdge s i) = false := hg
    simp [hq]

/-- Vigil A's judgement fixes the outcome from the output states, and its own island. -/
theorem judgeA_fixes (s : State) : (judgeA s).islA.judged = true ∧ (judgeA s).cal.outcome = frameOutcome s (outputStates s) ∧
    (judgeA s).cal.lastOutcome = (judgeA s).cal.outcome ∧ ((judgeA s).cal.outcome ≠ 0 → (judgeA s).islA.good = false) := by
  refine ⟨rfl, rfl, rfl, fun h => ?_⟩
  have h0 : frameOutcome s (outputStates s) ≠ 0 := h
  exact (congrArg (· && _) (decide_eq_false h0)).trans (Bool.false_and _)

/-- A frame that Vigil B finds not good lets its island make no edge, and touches neither the calendar nor Vigil A. -/
theorem fixB_bad (s : State) : (fixB s false).islB.judged = true ∧ (fixB s false).islB.good = false ∧ (fixB s false).islA = s.islA ∧
    (fixB s false).cal = s.cal := ⟨rfl, rfl, rfl, rfl⟩

/-- What Eve + 150 µs does to a judgement of Vigil A that is not fixed. -/
def deadlineA (s : State) : State :=
  let t := modIsl s .a (fun x => { x with judged := true, good := false, lostSinceEve := x.hPeerLost })
  { t with cal := { t.cal with outcome := 2, lastOutcome := 2 }, vg := { t.vg with outStates := outputStates t } }

/-- What Eve + 150 µs does to a judgement of a Vigil B that does not run. -/
def deadlineB (s : State) : State :=
  let t := modIsl s .b (fun x => { x with judged := true, good := false, lostSinceEve := x.hPeerLost })
  { t with vg := { t.vg with breached := t.vg.breachedNext, breachedNext := false } }

/-- The state once Eve + 150 µs has fixed what was not. -/
def deadlineJudged (s : State) : State :=
  let t := if s.islA.judged then s else deadlineA s
  if t.islB.judged then t else if t.islB.works then fixB t (t.now ≤ t.cal.eve + 150000 && goodForB t) else deadlineB t

theorem eveDeadline_eq (s : State) : eveDeadline s =
    if (deadlineJudged s).cal.evalDone then deadlineJudged s
    else evaluateHealth { deadlineJudged s with cal := { (deadlineJudged s).cal with evalDone := true } }
      ((deadlineJudged s).cal.eve + 150000) := rfl

theorem deadlineJudged_evalDone (s : State) : (deadlineJudged s).cal.evalDone = s.cal.evalDone := by
  have hA : (if s.islA.judged then s else deadlineA s).cal.evalDone = s.cal.evalDone := by split <;> rfl
  unfold deadlineJudged
  dsimp only
  generalize (if s.islA.judged then s else deadlineA s) = t at hA ⊢
  split
  · exact hA
  split <;> exact hA

/-- Once the frame's health is evaluated, the deadline only fixes judgements. -/
theorem eveDeadline_evaluated {s : State} (he : s.cal.evalDone = true) : eveDeadline s = deadlineJudged s := by
  rw [eveDeadline_eq, if_pos (by rw [deadlineJudged_evalDone, he])]

section
variable {s : State}

theorem eveCheck_outside (h : s.cal.frame = 0 ∨ s.cal.eve + 150000 < s.now) : exec .eveCheck s = .next s := by
  rw [exec_eveCheck, execEveCheck]
  refine if_pos ?_
  rcases h with h | h
  · simp [h]
  · have : s.cal.eve + 150000 < max s.now (s.cal.eve + 5000) := by omega
    simp [this]

variable (h0 : s.cal.frame ≠ 0) (hw : s.now ≤ s.cal.eve + 150000)
include h0 hw

/-- Inside the window, Vigil A judges unless it has, then Vigil B unless it has. -/
theorem eveCheck_inside : exec .eveCheck s =
    (let s0 : State := { s with now := max s.now (s.cal.eve + 5000) }
     let s1 := if s.islA.works && !s.islA.judged then judgeA s0 else s0
     done s (if s1.islB.works && !s1.islB.judged && s1.islA.judged then judgeB s1 else s1)) := by
  have hin : ¬ s.cal.eve + 150000 < max s.now (s.cal.eve + 5000) := by omega
  rw [exec_eveCheck, execEveCheck]
  exact if_neg (by simp [h0, hin])

end

/-- Settles O36: the window of the check, the two judgements in their order, and the deadline's answers. -/
theorem eveCheckJudges : Obligations.EveCheckJudges := by
  intro s
  refine ⟨fun h0 hw hwork hj => ?judges, fun h0 hw hj => ?stands, eveCheck_outside, fun ha hb he => ?failed, fun ha hb he hlate => ?notGood⟩
  case judges =>
    intro s0 s1
    obtain ⟨hjudged, hout, hlast, hgood⟩ := judgeA_fixes s0
    refine ⟨?_, hjudged, hout, hlast, hgood⟩
    rw [eveCheck_inside h0 hw]
    dsimp only
    rw [if_pos (show (s.islA.works && !s.islA.judged) = true by simp [hwork, hj])]
    change done s (if s1.islB.works && !s1.islB.judged && true then judgeB s1 else s1) = _
    rw [Bool.and_true]
  case stands =>
    rw [eveCheck_inside h0 hw]
    dsimp only
    rw [if_neg (show ¬ (s.islA.works && !s.islA.judged) = true by simp [hj])]
    simp [hj]
  case failed =>
    rw [eveDeadline_evaluated he, deadlineJudged]
    rw [show (if s.islA.judged = true then s else deadlineA s) = deadlineA s from if_neg (by simp [ha]), if_pos (show (deadlineA s).islB.judged = true from hb)]
    exact ⟨rfl, rfl, rfl, rfl, rfl⟩
  case notGood =>
    rw [eveDeadline_evaluated he, deadlineJudged]
    rw [show (if s.islA.judged = true then s else deadlineA s) = s from if_pos ha, if_neg (by simp [hb])]
    by_cases hwork : s.islB.works = true
    · have hbad : (decide (s.now ≤ s.cal.eve + 150000) && goodForB s) = false := by
        simp [Nat.not_le.mpr (hlate.resolve_left (by simp [hwork]))]
      rw [if_pos hwork, hbad]
      exact fixB_bad s
    · rw [if_neg hwork]
      exact ⟨rfl, rfl, rfl, rfl⟩

/-! ## Edges -/

/-- Settles O37: the row's guard is R294's and R296's, negated. -/
theorem safeEdges : Obligations.SafeEdges := by
  intro s i
  have hguard : (decide (s.cal.frame = 0) || !(islOf s i).judged || !(islOf s i).good || !mayEdge s i || (islOf s i).edged || (islOf s i).held ||
      !(islOf s i).works || decide (max s.now (s.cal.eve + 10000) > s.cal.eve + 200000)) = true ↔
      ¬ (s.cal.frame ≠ 0 ∧ (islOf s i).judged = true ∧ (islOf s i).good = true ∧ mayEdge s i = true ∧ (islOf s i).edged = false ∧
        (islOf s i).held = false ∧ (islOf s i).works = true ∧ s.now ≤ s.cal.eve + 200000) := by
    have hmax : max s.now (s.cal.eve + 10000) > s.cal.eve + 200000 ↔ ¬ s.now ≤ s.cal.eve + 200000 := by omega
    simp only [hmax, Bool.or_eq_true, decide_eq_true_eq, Bool.not_eq_true', Classical.not_and_iff_not_or_not, ne_eq, Classical.not_not, Bool.not_eq_true, Bool.not_eq_false, or_assoc]
  refine ⟨fun hok => ?edge, fun hno => ?none, mayEdge_iff s i⟩
  case edge =>
    rw [exec_safeEdge, execSafeEdge]
    exact (if_neg (fun hg => hguard.mp hg hok)).trans (done_modIsl _ _ _ _ rfl)
  case none => exact (exec_safeEdge i s).trans (if_pos (hguard.mpr hno))

/-! ## Heartbeats and loss -/

@[simp] theorem islOf_breach (s : State) (i : Isl) : islOf (breach s) i = islOf s i := by
  obtain ⟨_, h⟩ := breach_frame s
  rw [h]
  cases i <;> rfl

theorem takeLoss_self (s : State) (i : Isl) (cause : Nat) : islOf (takeLoss s i cause) i =
    { islOf s i with hPeerLost := true, lostSinceEve := true, hbSince := none, peerCmpOk := false, safe := false } := by
  unfold takeLoss holdIsl
  cases i
  · rfl
  · rw [islOf_alm, islOf_breach]
    rfl

theorem takeLoss_peer (s : State) (i : Isl) (cause : Nat) : islOf (takeLoss s i cause) (peer i) = islOf s (peer i) := by
  unfold takeLoss holdIsl
  cases i
  · rfl
  · rw [islOf_alm, islOf_breach]
    rfl

theorem islOf_railBit (s : State) (k : Nat) (i : Isl) : islOf (railBit s k) i = islOf s i := by cases i <;> rfl

theorem declareLost_self (s : State) (i : Isl) (cause : Nat) : islOf (declareLost s i cause) i =
    { islOf s i with hPeerLost := true, lostSinceEve := true, hbSince := none, peerCmpOk := false, safe := false } := by
  unfold declareLost
  dsimp only
  rw [islOf_modIsl_of_peer, takeLoss_self]
  split
  · rw [islOf_railBit]
  · rfl

theorem declareLost_notice (s : State) (i : Isl) (cause : Nat) :
    (islOf (declareLost s i cause) (peer i)).noticeIn = (islOf s (peer i)).running := by
  unfold declareLost
  dsimp only
  rw [islOf_modIsl_self, takeLoss_peer]
  split
  · rw [islOf_railBit]
  · rfl

/-- A heartbeat taken: the island hears it, its partner's is gone, and Vigil B drops the queue entries it covers. -/
theorem vigilHeartbeat_heard {s : State} {i : Isl} {snap : IslSnap} (hw : (islOf s i).works = true)
    (h : (islOf s (peer i)).hbOut = some snap ∨ ((islOf s (peer i)).hbOut = none ∧ (islOf s (peer i)).works = true ∧ snap = snapshotOf s (peer i))) :
    exec (.vigilHeartbeat i) s = done s
      (let t := modIsl (modIsl s (peer i) (fun y => { y with hbOut := none })) i (fun x => hearBeat x s.now snap)
       match i with
       | .a => t
       | .b => { t with vg := t.vg.cover snap.covers }) := by
  have hsnap : (islOf s (peer i)).hbOut.getD (snapshotOf s (peer i)) = snap := by
    rcases h with h | ⟨h, -, rfl⟩ <;> rw [h] <;> rfl
  have hany : ((islOf s (peer i)).works || (islOf s (peer i)).hbOut.isSome) = true := by
    rcases h with h | ⟨-, h, -⟩ <;> simp [h]
  rw [exec_vigilHeartbeat, execVigilHeartbeat]
  refine (if_neg (by simp [hw, hany])).trans ?_
  rw [hsnap]
  cases i <;> rfl

/-- Settles O40: the rows of the heartbeat and of the loss, whose ends `takeLoss` and `declareLost` share. -/
theorem heartbeatsAndLoss : Obligations.HeartbeatsAndLoss := by
  intro s i hw
  refine ⟨?send, fun snap h => ?heard, fun hn hp => ?silent, fun cause hl hc => ?lost, fun h => ?kept, fun hn => ?notice, fun hn => ?noNotice,
    fun cause => ?held⟩
  case send => exact ((exec_vigilHeartbeatSend i s).trans (if_pos hw)).trans (done_modIsl _ _ _ _ rfl)
  case heard =>
    rw [vigilHeartbeat_heard hw h]
    refine ⟨_, rfl, ?_⟩
    cases i
    · exact ⟨rfl, rfl, by simp, fun _ => rfl, rfl⟩
    · exact ⟨rfl, rfl, fun _ => rfl, by simp, rfl⟩
  case silent =>
    rw [exec_vigilHeartbeat, execVigilHeartbeat]
    exact if_pos (by simp [hn, hp])
  case lost =>
    rw [exec_peerLossTimeout, execPeerLossTimeout]
    refine if_neg ?_
    by_cases h0 : cause = 0
    · obtain ⟨hd, hb⟩ := hc h0
      simp [hw, hl, hd, Nat.not_lt.mpr hb]
    · simp [hw, hl, h0]
  case kept =>
    rw [exec_peerLossTimeout, execPeerLossTimeout]
    exact if_pos (by rcases h with h | h | h <;> simp [h])
  case notice =>
    rw [exec_lossNotice, execLossNotice]
    exact if_neg (by simp [hw, hn])
  case noNotice =>
    rw [exec_lossNotice, execLossNotice]
    exact if_pos (by simp [hn])
  case held =>
    rw [takeLoss_self, declareLost_self, declareLost_notice]
    simp

/-! ## The board link -/

/-- Settles O42: the four rows with Vigil B running and without, and the shape of a sealed frame. -/
theorem boardLink : Obligations.BoardLink := by
  refine ⟨fun s hr => ⟨?read, ?hold, ?release, fun cmd arg crc hbad => ?bad⟩, fun s hr => ⟨?noRead, ?noHold, ?noRelease, fun cmd arg crc => ?noBad⟩,
    fun bs => ?sealed⟩
  case read => exact (exec_readStatus s).trans (if_pos hr)
  case hold =>
    rw [exec_hold, execHold, if_pos hr]
    dsimp only
    obtain ⟨a, h, he⟩ := alm_frame (holdIsl (holdIsl s .a (fun x => { x with hBoard := true })) .b (fun x => { x with hBoard := true }))
      0x9000 .boardHold 4 []
    rw [he]
    exact ⟨_, rfl, rfl, rfl, rfl, rfl, rfl⟩
  case release => exact (exec_release s).trans (if_pos hr)
  case bad => exact (exec_spiBadCommand cmd arg crc s).trans (if_pos (by simp [hr, hbad]))
  case noRead => exact (exec_readStatus s).trans (if_neg (by simp [hr]))
  case noHold => exact (exec_hold s).trans (if_neg (by simp [hr]))
  case noRelease => exact (exec_release s).trans (if_neg (by simp [hr]))
  case noBad => exact (exec_spiBadCommand cmd arg crc s).trans (if_neg (by simp [hr]))
  case sealed =>
    unfold sealFrame
    have h30 := length_padTo 30 bs
    exact ⟨by simp, List.take_left' h30, List.drop_left' h30⟩

end Sys2Proof.Machine
end

section
/-! PROOFS. Restarts of a Vigil pair, what the islands watch, and their debug. -/

namespace Sys2Proof.Machine

/-! ## Restarts -/

@[simp] theorem islOf_countRestart (s : State) (j i : Isl) : islOf (countRestart s j) i = islOf s i := islOf_congr rfl rfl i

@[simp] theorem islOf_freshCores_self (s : State) (i : Isl) : islOf (freshCores s i) i =
    { islOf s i with regSeed := s.fresh, regsMain := [], regsChk := [] } := by
  unfold freshCores
  cases i <;> rfl

@[simp] theorem islOf_freshCores_peer (s : State) (i : Isl) : islOf (freshCores s i) (peer i) = islOf s (peer i) := by
  unfold freshCores
  cases i <;> rfl

theorem beginRestart_deferred {s : State} {i : Isl} {cause : Nat} {retry : Bool}
    (h : (islOf s (peer i)).restarting = true ∨ (islOf s (peer i)).waiting = true) :
    beginRestart s i cause retry = modIsl s i (fun x => { x with deferred := true, cause := cause, waiting := false }) :=
  if_pos (by simpa using h)

/-- What a restart that begins makes of its island's record. -/
def restarted (x : Island) (seed cause : Nat) (retry : Bool) : Island :=
  let x := { x with
    regSeed := seed, regsMain := [], regsChk := [], restarting := true, deferred := false, waiting := false, cause := cause, halted := false
    replay := [], detach := if x.detach = 1 then 2 else x.detach }
  if cause = 1 then { x with rAsync := sat 255 (x.rAsync + 1) }
  else if cause = 2 && !retry then { x with rWdog := sat 255 (x.rWdog + 1) }
  else { x with rOther := sat 255 (x.rOther + 1) }

/-- A restart that begins at once: its island, the count of restarts and the Almanac change. -/
theorem beginRestart_now {s : State} {i : Isl} {cause : Nat} {retry : Bool}
    (hr : (islOf s (peer i)).restarting = false) (hw : (islOf s (peer i)).waiting = false) : ∃ n st a h,
      beginRestart s i cause retry =
        { modIsl s i (fun x => restarted x s.fresh cause retry) with fresh := n, stats := st, alm := a, host := h } := by
  have hb : beginRestart s i cause retry = alm (countRestart (modIsl (freshCores s i) i (fun x =>
      let x := { x with restarting := true, deferred := false, waiting := false, cause := cause, halted := false, replay := [],
                        detach := if x.detach = 1 then 2 else x.detach }
      if cause = 1 then { x with rAsync := sat 255 (x.rAsync + 1) }
      else if cause = 2 && !retry then { x with rWdog := sat 255 (x.rWdog + 1) }
      else { x with rOther := sat 255 (x.rOther + 1) })) i) (srcIsl i) .islandRestart (if cause = 1 then 1 else 3) [cause] :=
    if_neg (by simp [hr, hw])
  rw [hb]
  cases i
  all_goals
    obtain ⟨a, h, he⟩ := alm_frame (countRestart _ _) _ .islandRestart (if cause = 1 then 1 else 3) [cause]
    exact ⟨_, _, a, h, he⟩

@[simp] theorem restarted_keeps (x : Island) (seed cause : Nat) (retry : Bool) :
    (restarted x seed cause retry).restarting = true ∧ (restarted x seed cause retry).regsMain = [] ∧
    (restarted x seed cause retry).regsChk = [] ∧ (restarted x seed cause retry).replay = [] ∧
    (restarted x seed cause retry).safe = x.safe ∧ (restarted x seed cause retry).running = x.running ∧
    (restarted x seed cause retry).hReset = x.hReset ∧ (restarted x seed cause retry).hCmpFail = x.hCmpFail ∧
    (restarted x seed cause retry).flagged = x.flagged := by
  unfold restarted
  dsimp only
  repeat' split
  all_goals simp

/-- What a restart, now or deferred, leaves of the state. -/
structure RestartKeeps (s t : State) (i : Isl) : Prop where
  pending : t.pending = s.pending
  mem : t.mem = s.mem
  units : t.units = s.units
  vg : t.vg = s.vg
  other : islOf t (peer i) = islOf s (peer i)
  running : (islOf t i).running = (islOf s i).running
  hReset : (islOf t i).hReset = (islOf s i).hReset
  safe : (islOf t i).safe = (islOf s i).safe
  hCmpFail : (islOf t i).hCmpFail = (islOf s i).hCmpFail
  flagged : (islOf t i).flagged = (islOf s i).flagged

theorem RestartKeeps.refl (s : State) (i : Isl) : RestartKeeps s s i := ⟨rfl, rfl, rfl, rfl, rfl, rfl, rfl, rfl, rfl, rfl⟩

theorem beginRestart_keeps (s : State) (i : Isl) (cause : Nat) (retry : Bool) : RestartKeeps s (beginRestart s i cause retry) i := by
  by_cases hd : (islOf s (peer i)).restarting = true ∨ (islOf s (peer i)).waiting = true
  · rw [beginRestart_deferred hd]
    cases i <;> exact ⟨rfl, rfl, rfl, rfl, rfl, rfl, rfl, rfl, rfl, rfl⟩
  · rw [not_or, Bool.not_eq_true, Bool.not_eq_true] at hd
    obtain ⟨n, st, a, h, he⟩ := beginRestart_now (cause := cause) (retry := retry) hd.1 hd.2
    rw [he]
    obtain ⟨-, -, -, -, hs, hr, hh, hc, hf⟩ := restarted_keeps (islOf s i) s.fresh cause retry
    cases i <;> exact ⟨rfl, rfl, rfl, rfl, rfl, hr, hh, hs, hc, hf⟩

theorem restartIsl_keeps (s : State) (i : Isl) (cause : Nat) : RestartKeeps s (restartIsl s i cause) i := by
  unfold restartIsl
  dsimp only
  split
  · exact .refl s i
  · exact beginRestart_keeps s i cause false

/-- A deferred restart of the partner leaves the island alone. -/
theorem startDeferred_peer (s : State) (i : Isl) : islOf (startDeferred s (peer i)) i = islOf s i ∧
    (startDeferred s (peer i)).pending = s.pending ∧ (startDeferred s (peer i)).mem = s.mem ∧ (startDeferred s (peer i)).units = s.units := by
  unfold startDeferred
  dsimp only
  split
  · have hk := beginRestart_keeps s (peer i) (islOf s (peer i)).cause false
    exact ⟨by simpa using hk.other, hk.pending, hk.mem, hk.units⟩
  · exact ⟨rfl, rfl, rfl, rfl⟩

theorem startDeferred_none {s : State} {i : Isl} (h : (islOf s i).deferred = false) : startDeferred s i = s :=
  if_neg (by simp [h])

theorem restartIsl_begins {s : State} {i : Isl} {cause : Nat} (h1 : (islOf s i).running = true) (h2 : (islOf s i).restarting = false)
    (h3 : (islOf s i).waiting = false) (h4 : (islOf s i).deferred = false) : restartIsl s i cause = beginRestart s i cause false :=
  if_neg (by simp [h1, h2, h3, h4])

theorem restartIsl_none {s : State} {i : Isl} {cause : Nat} (h : (islOf s i).running = false ∨ (islOf s i).restarting = true ∨
    (islOf s i).waiting = true ∨ (islOf s i).deferred = true) : restartIsl s i cause = s :=
  if_pos (by simpa [or_assoc] using h)

theorem restartOk_iff (s : State) (i : Isl) (flagged : Nat) (clean : Bool) : restartOk s i flagged clean = true ↔
    cmpPass flagged clean = true ∧ (islOf s (peer i)).running = true ∧ (islOf s (peer i)).restarting = false ∧
      (islOf s (peer i)).waiting = false ∧ (islOf s i).hPeerLost = false := by
  simp [restartOk, and_assoc]

/-- A restore changes what the island's own firmware keeps in Vigil's state. -/
theorem restoreFrom_frame (s : State) (i : Isl) (p : IslSnap) : ∃ v, restoreFrom s i p = { s with vg := v } ∧
    (i = .a → v.events = p.events.filter (fun e => decide (s.cal.frame ≤ e.frame + 1)) ++ s.vg.queue ∧ v.processed = s.vg.queue.length ∧
      v.queue = s.vg.queue) ∧
    (i = .b → v = { s.vg with breached := p.breached, breachedNext := p.breachedNext }) := by
  cases i
  · exact ⟨_, rfl, fun _ => ⟨rfl, rfl, rfl⟩, by simp⟩
  · exact ⟨_, rfl, by simp, fun _ => rfl⟩

/-- The end of a restart that went well, where the partner has none deferred and no detach is pending. -/
theorem resumeIsl_ends {s : State} {i : Isl} (hd : (islOf s (peer i)).deferred = false) (hdet : (islOf s i).detach ≠ 1) :
    ∃ v, (islOf (resumeIsl s i) i).restarting = false ∧ (islOf (resumeIsl s i) i).fails = 0 ∧ (islOf (resumeIsl s i) (peer i)).peerCmpOk = true ∧
      (resumeIsl s i).vg = v ∧ restoreFrom s i ((islOf s (peer i)).snapshot.getD {}) = { s with vg := v } := by
  obtain ⟨v, hv, -, -⟩ := restoreFrom_frame s i ((islOf s (peer i)).snapshot.getD {})
  refine ⟨v, ?_⟩
  unfold resumeIsl
  dsimp only
  rw [if_neg (by simp [hdet]), hv]
  rw [startDeferred_none (by cases i <;> exact hd)]
  cases i <;> exact ⟨rfl, rfl, rfl, rfl, rfl⟩

theorem failRestart_third {s : State} {i : Isl} (h : 2 ≤ (islOf s i).fails) : (islOf (failRestart s i) i).hRestartFail = true ∧
    (islOf (failRestart s i) i).running = false ∧ (islOf (failRestart s i) i).safe = false := by
  unfold failRestart
  dsimp only
  rw [if_pos h, (startDeferred_peer _ i).1, islOf_alm, holdIsl, islOf_modIsl_self]
  exact ⟨rfl, rfl, rfl⟩

theorem failRestart_again {s : State} {i : Isl} (h : (islOf s i).fails < 2) : (islOf (failRestart s i) i).waiting = true ∧
    (islOf (failRestart s i) i).fails = (islOf s i).fails + 1 ∧ (islOf (failRestart s i) i).failedAt = s.now := by
  unfold failRestart
  dsimp only
  rw [if_neg (Nat.not_le.mpr h), islOf_modIsl_self]
  exact ⟨rfl, rfl, rfl⟩

/-! ## Release and reset of an island -/

/-- The island's record as its release leaves it. -/
structure Released (s t : State) (i : Isl) (flagged : Nat) (clean : Bool) : Prop where
  running : (islOf t i).running = true
  hReset : (islOf t i).hReset = true
  safe : (islOf t i).safe = false
  hCmpFail : (islOf t i).hCmpFail = !cmpPass flagged clean
  flagged : (islOf t i).flagged = flagged % 2 ^ 64
  mem : t.mem = s.mem
  units : t.units = s.units

theorem Released.restartIsl {s t : State} {i : Isl} {flagged : Nat} {clean : Bool} (h : Released s t i flagged clean) (cause : Nat) :
    Released s (restartIsl t i cause) i flagged clean := by
  have hk := restartIsl_keeps t i cause
  exact ⟨hk.running.trans h.running, hk.hReset.trans h.hReset, hk.safe.trans h.safe, hk.hCmpFail.trans h.hCmpFail,
    hk.flagged.trans h.flagged, hk.mem.trans h.mem, hk.units.trans h.units⟩

theorem Released.next {s t : State} {i : Isl} {flagged : Nat} {clean : Bool} (h : Released s t i flagged clean) (q : List Instr) :
    Released s { t with pending := q } i flagged clean := by
  obtain ⟨h1, h2, h3, h4, h5, h6, h7⟩ := h
  cases i <;> exact ⟨h1, h2, h3, h4, h5, h6, h7⟩

theorem islandResetRelease_starts {s : State} {i : Isl} {flagged : Nat} {clean : Bool} (hr : (islOf s i).running = false) :
    ∃ t, exec (.islandResetRelease i flagged clean) s = .next t ∧ Released s t i flagged clean := by
  rw [exec_islandResetRelease, execIslandResetRelease, if_neg (by simp [hr])]
  refine ⟨_, rfl, Released.next ?_ _⟩
  suffices h : Released s _ i flagged clean by
    split
    · exact h
    · exact h.restartIsl 3
  cases hc : cmpPass flagged clean
  · obtain ⟨a, h, he⟩ := alm_frame (holdIsl s i (fun x => { x with
      running := true, hReset := true, flagged := flagged % 2 ^ 64, hCmpFail := !false
      cmpTestDone := true, lastWdog := s.now, lastHb := s.now, judged := false, good := false, edged := false }))
      (srcIsl i) .cmpFail 4 [flagged % 2 ^ 32, flagged / 2 ^ 32]
    rw [if_neg Bool.false_ne_true, he]
    cases i <;> exact ⟨rfl, rfl, rfl, by rw [hc]; rfl, rfl, rfl, rfl⟩
  · rw [if_pos rfl]
    cases i <;> exact ⟨rfl, rfl, rfl, by rw [hc]; rfl, rfl, rfl, rfl⟩

/-- The state in which an island's asserted reset leaves it, before a restart that its partner deferred. -/
def resetIsl (s : State) (i : Isl) : State :=
  let t := holdIsl s i (fun x => { x with
    running := false, hReset := true, restarting := false, waiting := false, deferred := false, fails := 0, halted := false, replay := []
    hbOut := none, noticeIn := false, good := false, snapshot := none, detach := if x.detach = 0 then 0 else 1 })
  match i with
  | .a => { t with vg := { t.vg with events := [], processed := 0 } }
  | .b => { t with vg := { t.vg with breached := false, breachedNext := false } }

theorem islandResetAssert_resets (s : State) (i : Isl) :
    exec (.islandResetAssert i) s = done s (startDeferred (resetIsl s i) (peer i)) := by
  cases i <;> rfl

@[simp] theorem islOf_resetIsl_peer (s : State) (i : Isl) : islOf (resetIsl s i) (peer i) = islOf s (peer i) := by cases i <;> rfl

theorem resetIsl_self (s : State) (i : Isl) : (islOf (resetIsl s i) i).running = false ∧ (islOf (resetIsl s i) i).hReset = true ∧
    (islOf (resetIsl s i) i).safe = false ∧ (islOf (resetIsl s i) i).snapshot = none := by
  cases i <;> exact ⟨rfl, rfl, rfl, rfl⟩

theorem islOf_pending (s : State) (q : List Instr) (i : Isl) : islOf { s with pending := q } i = islOf s i := islOf_congr rfl rfl i

theorem islandResetAssert_stops (s : State) (i : Isl) : ∃ t, exec (.islandResetAssert i) s = .next t ∧ (islOf t i).running = false ∧
    (islOf t i).hReset = true ∧ (islOf t i).safe = false ∧ (islOf t i).snapshot = none ∧ t.mem = s.mem ∧ t.units = s.units ∧
    ((islOf s (peer i)).deferred = false → islOf t (peer i) = islOf s (peer i) ∧
      t = { s with islA := t.islA, islB := t.islB, vg := { s.vg with events := t.vg.events, processed := t.vg.processed
                                                                     breached := t.vg.breached, breachedNext := t.vg.breachedNext } }) := by
  obtain ⟨hi, -, hm, hu⟩ := startDeferred_peer (resetIsl s i) i
  obtain ⟨h1, h2, h3, h4⟩ := resetIsl_self s i
  refine ⟨_, islandResetAssert_resets s i, ?_⟩
  rw [islOf_pending, islOf_pending, hi]
  refine ⟨h1, h2, h3, h4, hm.trans ?_, hu.trans ?_, fun hd => ?_⟩
  · cases i <;> rfl
  · cases i <;> rfl
  · rw [startDeferred_none (by rw [islOf_resetIsl_peer]; exact hd)]
    cases i <;> exact ⟨rfl, rfl⟩

/-- Settles O39: what begins, defers, ends and fails a restart, and an island's release and reset. -/
theorem pairRestarts : Obligations.PairRestarts := by
  refine ⟨fun s i => ⟨fun g a h => ?mismatch, fun g a h => ?idle, rfl, fun hw h1 h2 => ?serviced, fun hw h => ?missed, rfl,
    fun _ => restartIsl_begins, fun _ => restartIsl_none, fun h => ?retry, fun _ _ => beginRestart_deferred, fun cause retry hr hw => ?now⟩,
    fun s i flagged clean => ⟨fun h => ?notRestarting, fun h ho => ?ends, fun h ho => ?fails, restartOk_iff s i flagged clean,
      fun hd hdet => ?resumed, failRestart_third, failRestart_again, fun h => ?runs, fun h => ?released, islandResetAssert_stops s i⟩⟩
  case mismatch => exact (exec_comparatorMismatch ..).trans (if_neg (by simp [h]))
  case idle => exact (exec_comparatorMismatch ..).trans (if_pos (by simp [h]))
  case serviced =>
    rw [exec_vigilWatchdogExpiry, execVigilWatchdogExpiry, if_neg (by simp), if_neg (by simp [hw]), if_pos (by simp [h1, h2])]
    exact done_modIsl _ _ _ _ rfl
  case missed =>
    rw [exec_vigilWatchdogExpiry, execVigilWatchdogExpiry, if_neg (by simp), if_neg (by simp [hw]), if_neg (by simp; omega)]
  case retry => exact (exec_restartRetry ..).trans (if_neg (by simp [h]))
  case now =>
    obtain ⟨n, st, a, h, he⟩ := beginRestart_now (cause := cause) (retry := retry) hr hw
    obtain ⟨h1, h2, h3, h4, h5, -⟩ := restarted_keeps (islOf s i) s.fresh cause retry
    rw [he]
    cases i <;> exact ⟨h1, h2, h3, h4, h5, rfl, rfl⟩
  case notRestarting => exact (exec_pairRestartDone ..).trans (if_pos (by simp [h]))
  case ends => exact (exec_pairRestartDone ..).trans ((if_neg (by simp [h])).trans (congrArg (done s) (if_pos ho)))
  case fails => exact (exec_pairRestartDone ..).trans ((if_neg (by simp [h])).trans (congrArg (done s) (if_neg (by simp [ho]))))
  case resumed =>
    obtain ⟨v, h1, h2, h3, hv, hr⟩ := resumeIsl_ends hd hdet
    refine ⟨h1, h2, h3, fun p hi hp => ?_, fun p hi hp => ?_⟩
    all_goals
      rw [hp, Option.getD_some] at hr
      obtain ⟨w, hw, ha, hb⟩ := restoreFrom_frame s i p
      obtain rfl : v = w := congrArg State.vg (hr.symm.trans hw)
      rw [hv]
    · exact ha hi
    · exact hb hi
  case runs => exact (exec_islandResetRelease ..).trans (if_pos h)
  case released =>
    obtain ⟨t, ht, hrel⟩ := islandResetRelease_starts (flagged := flagged) (clean := clean) h
    exact ⟨t, ht, hrel.running, hrel.hReset, hrel.safe, hrel.hCmpFail, hrel.flagged, hrel.mem, hrel.units⟩

/-! ## What Vigil watches -/

theorem vigilBBreach_breached {s : State} {item : Nat} {reading : Int} (hr : s.host.ready = true)
    (hq : ∀ q, itemQuarter item = some q → quarterOn s q = true) (hw : (islOf s (itemWatcher item)).works = true)
    (hb : itemBreached s item reading = true) : exec (.vigilBBreach item reading) s = done s
      (alm (if item = 9 then railBit s 9 else breach (if item < 13 then railBit s item else s)) (srcIsl (itemWatcher item)) .vigilBreach 3
        [item, twos 16 reading]) := by
  rw [exec_vigilBBreach, execVigilBBreach]
  dsimp only
  rw [if_neg (by
    cases hi : itemQuarter item with
    | none => simp [hr, hw, hb]
    | some q => simp [hr, hw, hb, hq q hi])]
  by_cases h9 : item = 9
  · subst h9
    rfl
  · rw [if_neg h9, if_neg h9]

theorem vigilBBreach_not {s : State} {item : Nat} {reading : Int} (h : itemBreached s item reading = false ∨ s.host.ready = false) :
    exec (.vigilBBreach item reading) s = .next s := by
  rw [exec_vigilBBreach, execVigilBBreach]
  dsimp only
  rw [if_pos (by obtain h | h := h <;> simp [h]), done_of_pending rfl]

theorem itemBreached_rail {s : State} {item : Nat} {reading : Int} (h4 : 4 ≤ item) (h13 : item < 13) :
    itemBreached s item reading = true ↔ railNominal item < 20 * (reading - railNominal item).natAbs := by
  have hn : itemQuarter item = none := by rw [itemQuarter, if_neg (by omega), if_neg (by simp; omega)]
  simp only [itemBreached, hn, if_pos h13, railOff, gt_iff_lt, decide_eq_true_eq]

theorem itemBreached_adc {s : State} (reading : Int) : itemBreached s 19 reading = true ↔ 250 ≤ reading := decide_eq_true_iff

theorem itemBreached_temperature {s : State} (reading : Int) : itemBreached s 20 reading = true ↔ 230 < reading := decide_eq_true_iff

theorem startsStopped_congr {s t : State} (h : t.units = s.units) (e : VgEvent) : startsStopped t e = startsStopped s e := by
  rw [startsStopped, startsStopped, unitOf_congr h]

theorem vgPush_full {s : State} {e : VgEvent} (h : 8192 ≤ s.vg.queue.length) : vgPush s e = { s with vg := { s.vg with queueOvf := true } } := if_pos h

/-- An event that enters the queue changes it and what health knows of the unit's activity. -/
theorem vgPush_room {s : State} {e : VgEvent} (h : s.vg.queue.length < 8192) : ∃ v hl, vgPush s e = { s with vg := v, health := hl } ∧
    v.queue = s.vg.queue ++ [e] ∧ v.queueOvf = s.vg.queueOvf ∧ (s.islA.works = true → v.processed = s.vg.queue.length + 1) := by
  have hl : (s.vg.queue ++ [e]).length = s.vg.queue.length + 1 := by simp
  unfold vgPush
  rw [if_neg (Nat.not_le.mpr h)]
  dsimp only
  cases s.islA.works
  · split
    all_goals exact ⟨_, _, rfl, rfl, rfl, by simp⟩
  · split
    all_goals exact ⟨_, _, rfl, rfl, rfl, fun _ => hl⟩

theorem vigilEvent_passes {s : State} {e : VgEvent} (h : vgPasses e = true) : exec (.vigilEvent e) s =
    done s (if startsStopped (vgPush s e) e then hardFaultUnit (vgPush s e) e.unit 3 else vgPush s e) := by
  obtain ⟨v, hl, he⟩ := vgPush_frame s e
  have hs : startsStopped (vgPush s e) e = startsStopped s e := startsStopped_congr (by rw [he]) e
  rw [exec_vigilEvent, execVigilEvent, if_neg (by simp [h]), hs]

/-- A budget that a running command passes: the event and its record, and what follows for a task above partition 0. -/
theorem budgetExceeded_over {s : State} {u ctx n t : Nat} {c : Ctx} {r : Run} (hc : ctxOf s u ctx = some c) (hr : c.run = some r)
    (hb : budgetAt s u c r n = some t) (ho : c.overrun ≠ some r.cmd.frame) : exec (.budgetExceeded u ctx n) s =
      (let s1 := alm (cmdEvent (putCtx { s with now := max s.now t } u ctx
        { c with overrun := some r.cmd.frame, throttled := decide (c.part ≠ 0), stopPending := decide (c.part ≠ 0) }) .budget u ctx r.cmd 0)
        (srcOf u) .budget 2 [c.planId, c.task, b2n (c.part ≠ 0), n]
       if c.part = 0 then done s { s1 with vg := { s1.vg with p0Overrun := sat 255 (s1.vg.p0Overrun + 1) } }
       else
         let s2 : State := { s1 with vg := { s1.vg with throttles := sat 0xFFF (s1.vg.throttles + 1) } }
         done s (if c.twin = 0 then s2 else stopAtBoundary s2 c.partner ctx)) := by
  rw [exec_budgetExceeded, execBudgetExceeded, hc]
  dsimp only
  rw [hr]
  dsimp only
  rw [hb]
  exact if_neg ho

theorem budgetExceeded_none {s : State} {u ctx n : Nat} {c : Ctx} {r : Run} (hc : ctxOf s u ctx = some c) (hr : c.run = some r)
    (h : budgetAt s u c r n = none ∨ c.overrun = some r.cmd.frame) : exec (.budgetExceeded u ctx n) s = .next s := by
  rw [exec_budgetExceeded, execBudgetExceeded, hc]
  dsimp only
  rw [hr]
  dsimp only
  split
  · exact done_of_pending rfl
  · rename_i t ht
    obtain h | h := h
    · rw [ht] at h
      cases h
    · rw [if_pos h, done_of_pending rfl]

theorem budgetAt_none_iff (s : State) (u : Nat) (c : Ctx) (r : Run) :
    (∀ n, budgetAt s u c r n = none) ↔ tget c.count r.cmd.frame 0 + r.cycles ≤ c.budget := by
  have hn : ∀ n, budgetAt s u c r n = none ↔ ¬ (c.budget < n ∧ n ≤ tget c.count r.cmd.frame 0 + r.cycles) := by
    intro n
    simp [budgetAt]
  refine ⟨fun h => ?_, fun h n => (hn n).mpr (by omega)⟩
  have h1 := (hn (c.budget + 1)).mp (h _)
  omega

/-- Settles O41: the readings, inputs, events and budgets that Vigil watches. -/
theorem vigilWatches : Obligations.VigilWatches := by
  refine ⟨fun s => ⟨fun item reading hr hq hw hb => ?breached, fun item reading h => vigilBBreach_not h,
    fun item reading => itemBreached_rail, fun reading => ⟨?adc, ?temperature⟩, fun i level hw hl => ?input, fun i level h => ?sameInput,
    fun e h => ?filtered, fun e h hs => ?queued, fun e h hs => ?stopped, fun u ctx n c r t hc hr hb ho hp => ?recorded,
    fun u ctx n c r t hc hr hb ho hp => ?throttled, fun u ctx n c r => budgetExceeded_none, budgetAt_none_iff s⟩,
    fun s e => ⟨fun h => ?room, vgPush_full, ?frame⟩⟩
  case breached =>
    rw [vigilBBreach_breached hr hq hw hb]
    by_cases h9 : item = 9
    · subst h9
      rfl
    · rw [if_neg h9, if_neg h9, itemWatcher, if_neg h9]
      split <;> rfl
  case adc => exact itemBreached_adc reading
  case temperature => exact itemBreached_temperature reading
  case input => exact (exec_vigilInputChange ..).trans (if_neg (by simp [hw, hl]))
  case sameInput => exact (exec_vigilInputChange ..).trans ((if_pos (by obtain h | h := h <;> simp [h])).trans (done_of_pending rfl))
  case filtered => exact (exec_vigilEvent ..).trans ((if_pos (by simp [h])).trans (done_of_pending rfl))
  case queued => exact (vigilEvent_passes h).trans (congrArg (done s) (if_neg (by simp [hs])))
  case stopped => exact (vigilEvent_passes h).trans (congrArg (done s) (if_pos hs))
  case recorded =>
    have hd : decide (c.part ≠ 0) = false := by simp [hp]
    rw [budgetExceeded_over hc hr hb ho, hd]
    exact if_pos hp
  case throttled =>
    have hd : decide (c.part ≠ 0) = true := by simp [hp]
    rw [budgetExceeded_over hc hr hb ho, hd]
    exact if_neg hp
  case room =>
    obtain ⟨v, hl, he, hq, ho, hp⟩ := vgPush_room (e := e) h
    rw [he]
    exact ⟨hq, ho, hp⟩
  case frame =>
    obtain ⟨v, hl, he⟩ := vgPush_frame s e
    rw [he]
    exact ⟨rfl, rfl, rfl, rfl⟩

/-! ## Debug of an island -/

theorem secded_clean {wrong : Nat} (h : ones 72 wrong = 0) : secded wrong = .clean := by
  unfold secded
  rw [h]
  rfl

theorem secded_corrected {wrong : Nat} (h : ones 72 wrong = 1) : secded wrong = .corrected := by
  unfold secded
  rw [h]
  rfl

theorem secdedOk_of_ones {wrong : Nat} (h : ones 72 wrong ≤ 1) : secdedOk wrong = true := by
  obtain h0 | h1 : ones 72 wrong = 0 ∨ ones 72 wrong = 1 := by omega
  · rw [secdedOk, secded_clean h0]
    rfl
  · rw [secdedOk, secded_corrected h1]
    rfl

theorem debug_idle {s : State} {i : Isl} (h : (islOf s i).dbg = false) : exec (.debugHalt i) s = .next s ∧ exec (.debugResume i) s = .next s ∧
    exec (.debugSingleStep i) s = .next s ∧ (∀ reg value, exec (.debugRegisterWrite i reg value) s = .next s) ∧
    ∀ addr bs, exec (.debugMemoryWrite i addr bs) s = .next s :=
  ⟨(exec_debugHalt ..).trans ((if_pos (by simp [h])).trans (done_of_pending rfl)),
    (exec_debugResume ..).trans ((if_pos (by simp [h])).trans (done_of_pending rfl)),
    (exec_debugSingleStep ..).trans ((if_pos (by simp [h])).trans (done_of_pending rfl)),
    fun _ _ => (exec_debugRegisterWrite ..).trans ((if_pos (by simp [h])).trans (done_of_pending rfl)),
    fun _ _ => (exec_debugMemoryWrite ..).trans ((if_pos (by simp [h])).trans (done_of_pending rfl))⟩

theorem debugRegisterWrite_writes {s : State} {i : Isl} (h : (islOf s i).dbg = true) (reg value : Nat) :
    exec (.debugRegisterWrite i reg value) s = .next (modIsl s i (fun x =>
      if x.replay.length ≥ 256 then { x with abstractBusy := true }
      else { x with abstractBusy := false, replay := x.replay ++ [(reg, value % 2 ^ 32)], regsMain := tput x.regsMain reg (value % 2 ^ 32) })) :=
  (exec_debugRegisterWrite ..).trans ((if_neg (by simp [h])).trans (done_modIsl _ _ _ _ rfl))

theorem modIsl_fun_congr {s : State} {i : Isl} {f g : Island → Island} (h : f (islOf s i) = g (islOf s i)) : modIsl s i f = modIsl s i g := by
  cases i
  · exact congrArg (fun x => { s with islA := x }) h
  · exact congrArg (fun x => { s with islB := x }) h

theorem debugResume_runs {s : State} {i : Isl} (h : (islOf s i).dbg = true) (hh : (islOf s i).halted = true) : ∃ t,
    exec (.debugResume i) s = .next t ∧ islOf t i = { (islOf s i).replayed with halted := false } ∧ islOf t (peer i) = islOf s (peer i) ∧
      t = { s with islA := t.islA, islB := t.islB, vg := t.vg } ∧ t.vg.queue = s.vg.queue ∧ (i = .b → t.vg = s.vg) := by
  rw [exec_debugResume, execDebugResume, if_neg (by simp [h, hh])]
  cases i
  · refine ⟨_, rfl, ?_⟩
    cases hw : (modIsl s .a (fun x => { x.replayed with halted := false })).islA.works
    · rw [if_neg Bool.false_ne_true]
      exact ⟨rfl, rfl, rfl, rfl, by simp⟩
    · rw [if_pos rfl]
      exact ⟨rfl, rfl, rfl, rfl, by simp⟩
  · exact ⟨_, rfl, rfl, rfl, rfl, rfl, fun _ => rfl⟩

theorem debugSingleStep_steps {s : State} {i : Isl} (h : (islOf s i).dbg = true) (hh : (islOf s i).halted = true) : ∃ t,
    exec (.debugSingleStep i) s = .next t ∧ (islOf t i).steps = (islOf s i).steps + 1 ∧ (islOf t i).replay = [] ∧
      ((islOf s i).replayed.regsMain = (islOf s i).replayed.regsChk → (islOf t i).regsMain = (islOf t i).regsChk) ∧
      (islOf t i).sram = (islOf s i).sram ∧ islOf t (peer i) = islOf s (peer i) ∧
      t = { s with islA := t.islA, islB := t.islB, fresh := t.fresh } := by
  rw [exec_debugSingleStep, execDebugSingleStep, if_neg (by simp [h, hh])]
  have hm (n : Nat) {x y : Tbl Nat} (he : x = y) : x.map (fun p => (p.1, Config.coreStep n p.1 p.2)) =
      y.map (fun p => (p.1, Config.coreStep n p.1 p.2)) := by rw [he]
  cases i
  all_goals exact ⟨_, rfl, rfl, rfl, hm _, rfl, rfl, rfl⟩

/-- Settles O43: what a debugger of an island may do, and what each access leaves. -/
theorem debugOfAnIsland : Obligations.DebugOfAnIsland := by
  intro s i
  refine ⟨fun he hr ha => ?attach, fun h => ?disabled, debug_idle, fun h => ⟨fun hh => ?halt, fun reg value hl => ?write, fun reg value hl => ?full,
    fun addr bs hb => ?memory, fun addr bs hb => ?beyond, fun hh => ⟨debugResume_runs h hh, debugSingleStep_steps h hh⟩⟩,
    fun h => ?detach, fun h => ?detached, fun a h => ?read⟩
  case attach =>
    rw [exec_debugAttach, execDebugAttach, if_neg (by simp [he, hr, ha])]
    cases i <;> exact ⟨_, rfl, rfl, rfl, rfl, rfl, rfl⟩
  case disabled => exact (exec_debugAttach ..).trans ((if_pos (by simp [h])).trans (done_of_pending rfl))
  case halt => exact (exec_debugHalt ..).trans ((if_neg (by simp [h, hh])).trans (done_modIsl _ _ _ _ (by cases i <;> rfl)))
  case write => exact (debugRegisterWrite_writes h reg value).trans (congrArg _ (modIsl_fun_congr (if_neg (Nat.not_le.mpr hl))))
  case full => exact (debugRegisterWrite_writes h reg value).trans (congrArg _ (modIsl_fun_congr (if_pos hl)))
  case memory =>
    exact (exec_debugMemoryWrite ..).trans ((if_neg (by simp [h]; omega)).trans (done_modIsl _ _ _ _ rfl))
  case beyond => exact (exec_debugMemoryWrite ..).trans ((if_pos (by simp; omega)).trans (done_of_pending rfl))
  case detach => exact (exec_debugDetach ..).trans (if_neg (by simp [h]))
  case read => rw [Island.byteAt, secdedByte, if_pos (secdedOk_of_ones h)]
  case detached => exact (exec_debugDetach ..).trans ((if_pos (by simp [h])).trans (done_of_pending rfl))

end Sys2Proof.Machine
end

section
/-! PROOFS. Health events, attribution, self-tests, holiday segments. -/

namespace Sys2Proof.Machine

/-! ## What a cluster's verdict is, and what leaves it -/

/-- The state, score and hard-fault mark of every cluster, and the count of hard faults. -/
def cluVerdict (s : State) : Nat × (Nat → CluState × Nat × Bool) :=
  (s.hards, fun g => ((healthOf s g).state, (healthOf s g).score, (healthOf s g).hardQ))

theorem verdict_congr {s t : State} (h1 : t.hards = s.hards) (h2 : t.health = s.health) : cluVerdict t = cluVerdict s := by
  simp only [cluVerdict, healthOf, h1, h2]

theorem healthOf_modHealth_self (s : State) (g : Nat) (f : Health → Health) : healthOf (modHealth s g f) g = f (healthOf s g) :=
  tget_tmod_self ..

theorem healthOf_modHealth_ne (s : State) {g h : Nat} (f : Health → Health) (hne : h ≠ g) : healthOf (modHealth s g f) h = healthOf s h :=
  tget_tmod_ne _ _ _ _ _ _ hne

theorem verdict_modHealth (s : State) (g : Nat) (f : Health → Health)
    (hf : ∀ h, (f h).state = h.state ∧ (f h).score = h.score ∧ (f h).hardQ = h.hardQ) : cluVerdict (modHealth s g f) = cluVerdict s := by
  refine Prod.ext rfl (funext fun k => ?_)
  obtain rfl | hk := Decidable.em (k = g)
  · obtain ⟨h1, h2, h3⟩ := hf (healthOf s k)
    simp only [cluVerdict, healthOf_modHealth_self, h1, h2, h3]
  · simp only [cluVerdict, healthOf_modHealth_ne s f hk]

theorem verdict_foldl {α : Type} (f : State → α → State) (hf : ∀ s x, cluVerdict (f s x) = cluVerdict s) (l : List α) (s : State) :
    cluVerdict (l.foldl f s) = cluVerdict s :=
  foldl_keeps (fun t => cluVerdict t = cluVerdict s) f (fun t x h => (hf t x).trans h) l s rfl

@[simp] theorem verdict_vgPush (s : State) (e : VgEvent) : cluVerdict (vgPush s e) = cluVerdict s := by
  unfold vgPush
  split
  · rfl
  · dsimp only
    split
    · exact verdict_modHealth { s with vg := _ } (gOf e.unit) (fun h => { h with active := s.cal.frame }) fun _ => ⟨rfl, rfl, rfl⟩
    · rfl

@[simp] theorem verdict_alm (s : State) (src : Nat) (c : AlmCode) (sev : Nat) (p : List Nat) : cluVerdict (alm s src c sev p) = cluVerdict s := by
  obtain ⟨_, _, h⟩ := alm_frame s src c sev p
  rw [h]
  rfl

theorem verdict_modCtx (s : State) (u k : Nat) (f : Ctx → Ctx) : cluVerdict (modCtx s u k f) = cluVerdict s := by
  unfold modCtx
  split <;> rfl

theorem verdict_record (s : State) (u ctx : Nat) (a : Armed) (st : Option VoidReason) (arith us : Nat) :
    cluVerdict (record s u ctx a st arith us) = cluVerdict s := by
  unfold record
  dsimp only
  split <;> split
  · exact (verdict_vgPush _ _).trans (verdict_modHealth _ _ _ fun _ => ⟨rfl, rfl, rfl⟩)
  · exact verdict_vgPush _ _
  · exact verdict_modHealth _ _ _ fun _ => ⟨rfl, rfl, rfl⟩
  · rfl

theorem verdict_sendOutputs (s : State) (u : Nat) (a : Armed) (void : Option VoidReason) (outs : List OutTile) :
    cluVerdict (sendOutputs s u a void outs) = cluVerdict s := by
  unfold sendOutputs
  split
  · rfl
  · dsimp only
    split
    · rfl
    · refine verdict_foldl _ (fun t gi => ?_) _ s
      refine verdict_foldl _ (fun t f => ?_) _ t
      rfl

theorem verdict_twinEnded (s : State) (u ctx : Nat) (c : Ctx) (a : Armed) (st : VoidReason) : cluVerdict (twinEnded s u ctx c a st) = cluVerdict s := by
  unfold twinEnded
  split
  · rfl
  · split
    · exact verdict_modCtx _ _ _ _
    · rfl

theorem verdict_xiuthClose (s : State) (id : Nat) : cluVerdict (xiuthClose s id) = cluVerdict s := by
  unfold xiuthClose settleSeq
  dsimp only
  split
  · split
    · split
      · rfl
      · exact (verdict_alm ..).trans rfl
    · rfl
  · rfl

theorem verdict_taskEnd (s : State) (u ctx : Nat) (a : Armed) : cluVerdict (taskEnd s u ctx a) = cluVerdict s := by
  unfold taskEnd
  split
  · rfl
  · split
    · rfl
    · exact verdict_vgPush _ _

theorem verdict_endUnrun (s : State) (u ctx : Nat) (a : Armed) (st : VoidReason) : cluVerdict (endUnrun s u ctx a st) = cluVerdict s := by
  unfold endUnrun
  split
  · rfl
  · dsimp only
    rw [verdict_taskEnd, verdict_twinEnded]
    split
    · rw [verdict_foldl _ verdict_xiuthClose, verdict_sendOutputs, verdict_record]
      rfl
    · rw [verdict_sendOutputs, verdict_record]
      rfl

theorem verdict_fenceWork (s : State) (u : Nat) : cluVerdict (fenceWork s u) = cluVerdict s := by
  refine verdict_foldl _ (fun t p => ?_) _ s
  have he : cluVerdict ((unissued p.2).foldl (fun s a => endUnrun s u p.1 a .fenced) t) = cluVerdict t :=
    verdict_foldl _ (fun t a => verdict_endUnrun t u p.1 a .fenced) _ t
  dsimp only
  split
  · split
    · exact he
    · rw [verdict_modCtx, verdict_twinEnded, verdict_sendOutputs, he]
  · rw [verdict_modCtx, he]

/-! ## Hard faults -/

theorem verdict_hards {s t : State} (h : cluVerdict t = cluVerdict s) : t.hards = s.hards := congrArg Prod.fst h

theorem verdict_healthOf {s t : State} (h : cluVerdict t = cluVerdict s) (g : Nat) : (healthOf t g).state = (healthOf s g).state ∧
    (healthOf t g).score = (healthOf s g).score ∧ (healthOf t g).hardQ = (healthOf s g).hardQ := by
  have hg := congrFun (congrArg Prod.snd h) g
  exact ⟨congrArg (·.1) hg, congrArg (·.2.1) hg, congrArg (·.2.2) hg⟩

/-- A cluster under quarantine: its state and mark, its score as it was. -/
theorem quarantineNow_verdict (s : State) (g : Nat) (hard : Bool) : (quarantineNow s g hard).hards = s.hards ∧
    (healthOf (quarantineNow s g hard) g).state = .quarantined ∧ (healthOf (quarantineNow s g hard) g).hardQ = hard ∧
    (healthOf (quarantineNow s g hard) g).score = (healthOf s g).score := by
  let t := modHealth s g (fun h => { h with
    state := .quarantined, deferred := false, decided := none, passes := 0, fails := 0, disputed := [], cleanRun := 0, testing := false
    lastTest := none, fenceFail := false, hardQ := hard })
  have hv : cluVerdict (quarantineNow s g hard) = cluVerdict t := by
    unfold quarantineNow
    dsimp only
    rw [verdict_alm]
    exact (verdict_congr rfl rfl).trans (verdict_fenceWork t (rClu g))
  obtain ⟨h1, h2, h3⟩ := verdict_healthOf hv g
  rw [healthOf_modHealth_self] at h1 h2 h3
  exact ⟨(verdict_hards hv).trans rfl, h1, h3, h2⟩

/-- What a hard fault writes before it takes the cluster out of work. -/
def chargedHard (s : State) (g cause : Nat) : State :=
  let t := alm { modHealth s g (fun h => { h with score := 0, clean := 0, cleanRun := 0, charged := true }) with hards := sat 255 (s.hards + 1) }
    (srcClu g) .hardFault 4 [cause, s.cal.frame]
  vgPush t { stamp := t.now, kind := .hardFault, unit := rClu g, frame := t.cal.frame, status := cause }

theorem chargedHard_verdict (s : State) (g cause : Nat) : (chargedHard s g cause).hards = sat 255 (s.hards + 1) ∧
    (healthOf (chargedHard s g cause) g).score = 0 := by
  have hv : cluVerdict (chargedHard s g cause) = cluVerdict { modHealth s g (fun h => { h with score := 0, clean := 0, cleanRun := 0, charged := true }) with
      hards := sat 255 (s.hards + 1) } := (verdict_vgPush _ _).trans (verdict_alm ..)
  obtain ⟨-, hs, -⟩ := verdict_healthOf hv g
  refine ⟨verdict_hards hv, hs.trans ?_⟩
  unfold healthOf modHealth
  dsimp only
  rw [tget_tmod_self]

theorem hardFault_eq (s : State) (g cause : Nat) : hardFault s g cause = match (healthOf s g).state with
    | .inService | .inTest | .probation | .restricted => countQuarantine (quarantineNow (chargedHard s g cause) g true)
    | .fenced => modHealth (chargedHard s g cause) g (fun h => { h with fenceFail := true, hardQ := true })
    | _ => chargedHard s g cause := rfl

/-- A hard fault of a cluster in work quarantines it. -/
theorem hardFault_working {s : State} {g : Nat} (cause : Nat) (h : (healthOf s g).state = .inService ∨ (healthOf s g).state = .inTest ∨
    (healthOf s g).state = .probation ∨ (healthOf s g).state = .restricted) :
    hardFault s g cause = countQuarantine (quarantineNow (chargedHard s g cause) g true) := by
  rw [hardFault_eq]
  obtain h | h | h | h := h <;> rw [h]

/-- A hard fault of any other cluster leaves it where it is. -/
theorem hardFault_idle {s : State} {g : Nat} (cause : Nat) (h : ¬((healthOf s g).state = .inService ∨ (healthOf s g).state = .inTest ∨
    (healthOf s g).state = .probation ∨ (healthOf s g).state = .restricted)) :
    (healthOf (hardFault s g cause) g).score = (healthOf (chargedHard s g cause) g).score ∧
      (hardFault s g cause).hards = (chargedHard s g cause).hards := by
  rw [hardFault_eq]
  generalize chargedHard s g cause = t
  cases hst : (healthOf s g).state
  case fenced =>
    dsimp only
    rw [healthOf_modHealth_self]
    exact ⟨rfl, rfl⟩
  case quarantined => exact ⟨rfl, rfl⟩
  case retired => exact ⟨rfl, rfl⟩
  all_goals exact absurd (by simp [hst]) h

theorem hardFault_verdict (s : State) (g cause : Nat) : (healthOf (hardFault s g cause) g).score = 0 ∧
    (hardFault s g cause).hards = sat 255 (s.hards + 1) ∧
    ((healthOf s g).state = .inService ∨ (healthOf s g).state = .inTest ∨ (healthOf s g).state = .probation ∨
      (healthOf s g).state = .restricted →
      (healthOf (hardFault s g cause) g).state = .quarantined ∧ (healthOf (hardFault s g cause) g).hardQ = true) := by
  obtain ⟨hc, hs⟩ := chargedHard_verdict s g cause
  by_cases hw : (healthOf s g).state = .inService ∨ (healthOf s g).state = .inTest ∨ (healthOf s g).state = .probation ∨
      (healthOf s g).state = .restricted
  · obtain ⟨h1, h2, h3, h4⟩ := quarantineNow_verdict (chargedHard s g cause) g true
    rw [hardFault_working cause hw]
    generalize quarantineNow (chargedHard s g cause) g true = t at *
    exact ⟨h4.trans hs, h1.trans hc, fun _ => ⟨h2, h3⟩⟩
  · obtain ⟨h1, h2⟩ := hardFault_idle cause hw
    exact ⟨h1.trans hs, h2.trans hc, fun h => absurd h hw⟩

/-! ## Heartbeats, clean frames and probation -/

/-- The clusters that a unit's heartbeat names are marked active; units stay. -/
theorem heard_frame (heard : List Nat) (s : State) : ∃ h, ((heard.foldl (fun s g => modHealth s g (fun h =>
    { h with active := max h.active (s.cal.frame - 1) })) s) : State) = { s with health := h } := by
  refine foldl_keeps (fun t => ∃ h, t = { s with health := h }) _ (fun t g ht => ?_) heard s ⟨s.health, rfl⟩
  obtain ⟨h, rfl⟩ := ht
  exact ⟨_, rfl⟩

theorem unitOf_unheard (s : State) (u : Nat) (h : Tbl Health) :
    (unitOf { modUnit s u (fun x => { x with hbOut := none }) with health := h } u).hbOut = none := by
  have hu := unitOf_modUnit_self s u (fun x => { x with hbOut := none })
  exact congrArg SeqUnit.hbOut hu

/-- What a heartbeat that has come does: the clusters it names, then, of a cluster's own, the marks it clears. -/
theorem seqHeartbeat_hears {s : State} {u : Nat} {heard : List Nat} (hh : (unitOf s u).hbOut = some heard) : ∃ h,
    exec (.seqHeartbeat u) s = .next { modUnit s u (fun x => { x with hbOut := none }) with
      health := if isClu u then tmod h (gOf u) {} (fun h => { h with hbSeen := true, suspect := false, dead := false }) else h } := by
  rw [exec_seqHeartbeat, execSeqHeartbeat, hh]
  obtain ⟨h, he⟩ := heard_frame heard (modUnit s u (fun x => { x with hbOut := none }))
  refine ⟨h, ?_⟩
  dsimp only
  rw [he]
  cases isClu u <;> rfl

/-- Settles O44: hard faults, heartbeats, clean frames and probation. -/
theorem healthEventsTakeEffect : Obligations.HealthEventsTakeEffect := by
  intro s g
  refine ⟨fun _ => rfl, rfl, hardFault_verdict s g, fun u heard hu hh => ?cluster, fun u hh => ?silent, fun u heard hu hh => ?engine,
    fun h => ?judged, fun h => ?few, fun h => ?early, fun h1 h2 => ?deadline, fun h => ?credit, fun h1 h2 => ?ends⟩
  case cluster =>
    obtain ⟨h, he⟩ := seqHeartbeat_hears hh
    rw [if_pos hu] at he
    refine ⟨_, he, rfl, unitOf_unheard s u _, ?_⟩
    simp only [healthOf, tget_tmod_self, and_self]
  case engine =>
    obtain ⟨h, he⟩ := seqHeartbeat_hears hh
    exact ⟨_, he, rfl, unitOf_unheard s u _⟩
  case silent =>
    rw [exec_seqHeartbeat, execSeqHeartbeat, hh]
    rfl
  case judged => exact (exec_heartbeatDeadline s).trans ((if_pos (by simpa using h)).trans (done_of_pending rfl))
  case few =>
    have hc : cleanCredit s g = s := if_neg (Nat.not_le.mpr h)
    rw [exec_cleanRunCredit, execCleanRunCredit, hc]
    rfl
  case early =>
    have hp : probationEnd s g = s := if_neg (by simpa [Decidable.imp_iff_not_or] using h)
    rw [exec_probationEnd, execProbationEnd, hp]
    rfl
  case deadline => exact (exec_heartbeatDeadline s).trans (if_neg (by simp [h1, h2]))
  case credit =>
    have hc : cleanCredit s g = _ := if_pos h
    rw [exec_cleanRunCredit, execCleanRunCredit, hc]
    rfl
  case ends =>
    have hp : probationEnd s g = _ := if_pos (by simp [h1, h2])
    rw [exec_probationEnd, execProbationEnd, hp]

/-! ## Attribution and repair -/

@[simp] theorem Cvu.run'_busy (s : State) (ok : Nat → Bool) (v : Cvu) : (v.run' s ok).busy = false := by
  unfold Cvu.run'
  split <;> rfl

/-- The re-check's run leaves its unit idle and moves the counts of bytes. -/
theorem recheckRun_frame (s : State) (rest : List TileFail) (ok : Nat → Bool) (v : Cvu) (k : Nat) : ∃ c si so st,
    putCvu (countRun { s with tileFails := rest } ok v) k (v.run' s ok) =
      { s with tileFails := rest, cvu := tput s.cvu k c, swIn := si, swOut := so, stc := st } ∧ c.busy = false := by
  obtain ⟨_, _, _, h⟩ := countRun_frame { s with tileFails := rest } ok v
  rw [h]
  exact ⟨_, _, _, _, rfl, Cvu.run'_busy ..⟩

/-- A failed check charged to cluster `g`. -/
def chargeCheck (s : State) (f : TileFail) (now g : Nat) : State :=
  { s with hEvents := s.hEvents ++ [{ atT := now, row := 2, unit := rClu g, frame := f.frame, kind := 5, opcode := f.opcode }] }

/-- Where the re-check of a failure sends its charge (R312). -/
def attributed (s : State) (f : TileFail) (t : State) : State :=
  if recheck s f then if isClu f.unit then chargeCheck t f s.now (gOf f.unit) else t
  else if memLevel f.loc = some 0 then chargeCheck t f s.now ((f.loc - 0x120000000000) / 0x200000)
  else modStats t (fun x => { x with unattributed := x.unattributed + 1 })

theorem checkAttribution_rechecks {s : State} {k : Nat} {f : TileFail} {rest : List TileFail} (hf : s.tileFails = f :: rest) (h4 : 4 ≤ k)
    (h7 : k ≤ 7) (hb : (cvuOf s k).busy = false) : ∃ c si so st, exec (.checkAttribution k) s = .next (attributed s f
      { s with tileFails := rest, cvu := tput s.cvu k c, swIn := si, swOut := so, stc := st }) ∧ c.busy = false := by
  rw [exec_checkAttribution, execCheckAttribution, hf]
  dsimp only
  rw [if_neg (by simp [hb, h4, h7])]
  obtain ⟨c, si, so, st, he, hc⟩ := recheckRun_frame s rest (cvuMayRead s k)
    (({ cvuOf s k with addr := f.loc, seq := f.gen, len := 2 ^ f.log2, expect := (tileEntry s f.loc).crc } : Cvu).begin 0x318) k
  refine ⟨c, si, so, st, ?_, hc⟩
  rw [he]
  unfold attributed
  split
  · split <;> rfl
  · split <;> rfl

/-- What every charge leaves of the state in which it is made. -/
theorem attributed_keeps (s : State) (f : TileFail) (t : State) : (attributed s f t).tileFails = t.tileFails ∧
    (attributed s f t).health = t.health ∧ (attributed s f t).mem = t.mem ∧ (attributed s f t).cvu = t.cvu := by
  unfold attributed
  split
  · split <;> exact ⟨rfl, rfl, rfl, rfl⟩
  · split <;> exact ⟨rfl, rfl, rfl, rfl⟩

theorem repairTile_unmapped {s : State} {bad good k gen part : Nat} (h : mapped bad (2 ^ k) = false) :
    repairTile s bad good k gen part = alm s 0x0000 .unmapped 3 [bad, part, 0] := if_pos (by simp [h])

theorem repairTile_foreign {s : State} {bad good k gen part : Nat} (h : mapped bad (2 ^ k) = true) (hw : mayWrite s part bad (2 ^ k) = false) :
    repairTile s bad good k gen part = alm s 0x0000 .unmapped 3 [bad, part, tagOf s bad] :=
  (if_neg (by simp [h])).trans (if_pos (by simp [hw]))

theorem repairTile_noCopy {s : State} {bad good k gen part : Nat} (h : mapped bad (2 ^ k) = true) (hw : mayWrite s part bad (2 ^ k) = true)
    (hp : tilePass s good k gen = false) : repairTile s bad good k gen part = s :=
  (if_neg (by simp [h])).trans ((if_neg (by simp [hw])).trans (if_pos (by simp [hp])))

theorem repairTile_copies {s : State} {bad good k gen part : Nat} (h : mapped bad (2 ^ k) = true) (hw : mayWrite s part bad (2 ^ k) = true)
    (hp : tilePass s good k gen = true) : repairTile s bad good k gen part =
      alm (putTile (countBytes (countBytes s 9 3 good (2 ^ k) false) 9 3 bad (2 ^ k) true) bad k gen (tileCrc bad gen (rd s good (2 ^ k)))
        (rd s good (2 ^ k))) 0x0000 .weightRepair 1 [bad, good] :=
  (if_neg (by simp [h])).trans ((if_neg (by simp [hw])).trans (if_neg (by simp [hp])))

/-- Settles O45: the re-check of a failure and the repair of a tile. -/
theorem attributionAndRepair : Obligations.AttributionAndRepair := by
  intro s
  refine ⟨fun k f rest hf h4 h7 hb => ?recheck, fun k h => ?nothing, fun addr h => ?noRepair, fun bad good k gen part => repairTile_unmapped,
    fun bad good k gen part => repairTile_foreign, fun bad good k gen part => repairTile_noCopy, fun addr bad good k gen part h => ?repair,
    fun bad good k gen part => repairTile_copies⟩
  case recheck =>
    obtain ⟨c, si, so, st, he, hc⟩ := checkAttribution_rechecks hf h4 h7 hb
    obtain ⟨h1, h2, h3, h5⟩ := attributed_keeps s f { s with tileFails := rest, cvu := tput s.cvu k c, swIn := si, swOut := so, stc := st }
    refine ⟨_, he, h1, h2, h3, ?_, fun hr hu => ?_, fun hr hu => ?_, fun hr hm => ?_, fun hr hm => ?_⟩
    · rw [cvuOf, h5, tget_tput_self]
      exact hc
    · rw [attributed, if_pos hr, if_pos hu]
      exact ⟨rfl, rfl⟩
    · rw [attributed, if_pos hr, if_neg (by simp [hu])]
      exact ⟨rfl, rfl⟩
    · rw [attributed, if_neg (by simp [hr]), if_pos hm]
      exact ⟨rfl, rfl⟩
    · rw [attributed, if_neg (by simp [hr]), if_neg hm]
      exact ⟨rfl, rfl⟩
  case nothing =>
    rw [exec_checkAttribution, execCheckAttribution]
    split
    · exact done_of_pending rfl
    · rename_i f rest hf
      rw [if_pos (by simpa [hf, or_assoc] using h), done_of_pending rfl]
  case noRepair =>
    rw [exec_weightRepair, execWeightRepair, h]
    exact done_of_pending rfl
  case repair => rw [exec_weightRepair, execWeightRepair, h]

/-! ## Deep self-tests -/

theorem deepSelfTestDone_idle {s : State} {g : Nat} {pass lbist : Bool} (h : (healthOf s g).testing = false) :
    exec (.deepSelfTestDone g pass lbist) s = .next s :=
  (exec_deepSelfTestDone ..).trans ((if_pos (by simp [h])).trans (done_of_pending rfl))

/-- A pass of a quarantined cluster's run counts and clears the failures. -/
theorem deepSelfTestDone_passes {s : State} {g : Nat} {lbist : Bool} (ht : (healthOf s g).testing = true)
    (hq : (healthOf s g).state = .quarantined) (hr : relayGood s g = true) :
    exec (.deepSelfTestDone g true lbist) s = done s (alm
      (modHealth s g (fun h => { h with testing := false, passes := min 3 (h.passes + 1), fails := 0 })) (srcClu g) .health 1
      [7, 1, min 3 ((healthOf s g).passes + 1), 0]) := by
  have hn : (healthOf s g).state ≠ .fenced := by simp [hq]
  rw [exec_deepSelfTestDone, execDeepSelfTestDone]
  simp only [ht, hn, hr, Bool.and_self, Bool.not_true, Bool.false_and, Bool.false_eq_true, if_false, if_true]
  rfl

/-- The eighth failure in a row retires a quarantined cluster. -/
theorem deepSelfTestDone_retires {s : State} {g : Nat} (ht : (healthOf s g).testing = true)
    (hq : (healthOf s g).state = .quarantined) (hf : 7 ≤ (healthOf s g).fails) :
    exec (.deepSelfTestDone g false false) s = done s (alm
      (modHealth s g (fun h => { h with testing := false, passes := 0, fails := 8, state := .retired })) (srcClu g) .health 2 [7, 0, 0, 8]) := by
  have hn : (healthOf s g).state ≠ .fenced := by simp [hq]
  have h8 : min 8 ((healthOf s g).fails + 1) = 8 := by omega
  rw [exec_deepSelfTestDone, execDeepSelfTestDone]
  simp only [ht, hn, h8, Bool.and_false, Bool.false_and, Bool.not_true, Bool.false_eq_true, if_false, if_true]
  rfl

/-! ## The rotation -/

@[simp] theorem rotOf_modRot_self (s : State) (q : Nat) (f : Rot → Rot) : rotOf (modRot s q f) q = f (rotOf s q) := tget_tmod_self ..

/-- A step that has begun: its cluster in test, its Quarter's rotation as the step sets it. -/
theorem stepBegun (t : State) (q g : Nat) (f : Rot → Rot) :
    let u := clearCluSide (modRot (modHealth t g (fun h => { h with prior := h.state, state := .inTest })) q f) g
    (healthOf u g).state = .inTest ∧ rotOf u q = f (rotOf t q) ∧ u.mem = t.mem := by
  refine ⟨?_, ?_, rfl⟩
  · exact congrArg Health.state (healthOf_modHealth_self t g (fun h => { h with prior := h.state, state := .inTest }))
  · exact rotOf_modRot_self t q f

theorem beginStep_own {s : State} {q : Nat} (h : (usedClusters s).contains (72 * q + (rotOf s q).pointer) = false) (n : Nat) :
    beginStep s q n = clearCluSide (modRot (modHealth s (72 * q + (rotOf s q).pointer) (fun h => { h with prior := h.state, state := .inTest })) q
      (fun r => { r with active := true, substituted := false, substitute := 0, startFrame := n, passed := none })) (72 * q + (rotOf s q).pointer) :=
  if_pos (by rw [h]; rfl)

theorem beginStep_skips {s : State} {q : Nat} (h : (usedClusters s).contains (72 * q + (rotOf s q).pointer) = true)
    (hs : substituteFor s (72 * q + (rotOf s q).pointer) = none) (n : Nat) : beginStep s q n = modRot s q skipStep := by
  unfold beginStep
  dsimp only
  rw [if_neg (by rw [h]; decide), hs]

theorem beginStep_substitutes {s : State} {q c : Nat} (h : (usedClusters s).contains (72 * q + (rotOf s q).pointer) = true)
    (hs : substituteFor s (72 * q + (rotOf s q).pointer) = some c) (n : Nat) :
    beginStep s q n = clearCluSide (modRot (modHealth (exchangeUnits s (rClu (72 * q + (rotOf s q).pointer)) (rClu (72 * q + c)))
      (72 * q + (rotOf s q).pointer) (fun h => { h with prior := h.state, state := .inTest })) q
      (fun r => { r with active := true, substituted := true, substitute := c, startFrame := n, passed := none })) (72 * q + (rotOf s q).pointer) := by
  unfold beginStep
  dsimp only
  rw [if_neg (by rw [h]; decide), hs]

theorem rotationTestDone_runs {s : State} {q : Nat} (ha : (rotOf s q).active = true)
    (ht : (healthOf s (72 * q + (rotOf s q).pointer)).state = .inTest) (hp : (rotOf s q).passed = none) (pass : Bool) :
    exec (.rotationTestDone q pass) s =
      if pass then done s (settleDebt (modRot s q (fun r => { r with passed := some s.now, lastPass := tput r.lastPass r.pointer s.now })) 0)
      else done s (hardFault s (72 * q + (rotOf s q).pointer) 5) :=
  (exec_rotationTestDone ..).trans (if_neg (by simp [ha, ht, hp]))

/-- Settles O46: deep self-tests and the steps of the rotation. -/
theorem selfTestsTakeEffect : Obligations.SelfTestsTakeEffect := by
  intro s g q
  refine ⟨fun h => ?starts, fun h => ?waits, fun _ _ => deepSelfTestDone_idle, fun _ => deepSelfTestDone_passes, deepSelfTestDone_retires,
    fun h => ?noStep, fun hq ha ht => ?step, fun ha ht hp => ⟨?passed, ?failed⟩, fun h => ?ended, fun h n => ?own, fun h hs n => beginStep_skips h hs n,
    fun c h hs n => ?substituted⟩
  case starts => exact (exec_deepSelfTestStart ..).trans ((if_pos h).trans (done_of_pending rfl))
  case waits => exact (exec_deepSelfTestStart ..).trans ((if_neg (by simp [h])).trans (done_of_pending rfl))
  case noStep => exact (exec_rotationStepStart ..).trans ((if_pos (by simpa using h)).trans (done_of_pending rfl))
  case step => exact (exec_rotationStepStart ..).trans ((if_neg (by simp [hq, ha])).trans (if_pos ht))
  case passed => exact (rotationTestDone_runs ha ht hp true).trans (done_of_pending rfl)
  case failed => exact rotationTestDone_runs ha ht hp false
  case ended => exact (exec_rotationStepEnd ..).trans (if_pos h)
  case own =>
    obtain ⟨h1, h2, h3⟩ := stepBegun s q (72 * q + (rotOf s q).pointer)
      (fun r => { r with active := true, substituted := false, substitute := 0, startFrame := n, passed := none })
    rw [beginStep_own h, h1, h2, h3]
    exact ⟨rfl, rfl, rfl, rfl, rfl⟩
  case substituted =>
    obtain ⟨h1, h2, h3⟩ := stepBegun (exchangeUnits s (rClu (72 * q + (rotOf s q).pointer)) (rClu (72 * q + c))) q (72 * q + (rotOf s q).pointer)
      (fun r => { r with active := true, substituted := true, substitute := c, startFrame := n, passed := none })
    rw [beginStep_substitutes h hs, h1, h2, h3]
    exact ⟨rfl, rfl, rfl, rfl, rfl, rfl⟩

/-! ## Holiday segments and test debt -/

theorem markDelayed_frame (s : State) : ∃ n us, markDelayed s = { s with fresh := n, units := us } := by
  unfold markDelayed draw
  dsimp only
  refine foldl_keeps (fun t => ∃ n us, t = { s with fresh := n, units := us }) _ (fun t p ht => ?_) _ _ ⟨s.fresh + 1, s.units, rfl⟩
  obtain ⟨n, us, rfl⟩ := ht
  unfold modCtx
  split
  · exact ⟨_, _, rfl⟩
  · exact ⟨_, _, rfl⟩

theorem endSegment_frame (s : State) (g : Seg) (t : Nat) : ∃ n us, endSegment s g t =
    { s with now := t, st := { s.st with seg := none, busyNs := s.st.busyNs + (t - g.start) }, fresh := n, units := us } := by
  obtain ⟨n, us, h⟩ := markDelayed_frame { s with now := t, st := { s.st with seg := none, busyNs := s.st.busyNs + (t - g.start) } }
  exact ⟨n, us, h⟩

theorem holidaySegmentStart_starts {s : State} {kind item len : Nat} (hm : segmentMayStart s kind item len = true) (hs : scheduled s kind item = true) :
    exec (.holidaySegmentStart kind item len) s = .next { s with
      st := { s.st with seg := some { kind := kind, item := item, start := s.now, len := len
                                      die := if kind = 5 then segmentDie s kind item else none }, run := sat 255 (s.st.run + 1) } } :=
  (exec_holidaySegmentStart ..).trans ((if_pos (by simp [hm, hs])).trans (done_of_pending rfl))

theorem holidaySegmentEnd_ends {s : State} {g : Seg} (pass : Bool) (f : List Nat) (hg : s.st.seg = some g)
    (ht : max s.now (g.start + g.len) ≤ g.start + 60000) : exec (.holidaySegmentEnd pass f) s =
      (let s1 := marchTraffic (itemTested (endSegment s g (max s.now (g.start + g.len))) g) g
       done s (if pass then itemPassed s1 g f else holidayFailure s1 g.kind g.item)) := by
  rw [exec_holidaySegmentEnd, execHolidaySegmentEnd, hg]
  exact if_neg (Nat.not_lt.mpr ht)

theorem holidaySegmentEnd_late {s : State} {g : Seg} (pass : Bool) (f : List Nat) (hg : s.st.seg = some g)
    (ht : g.start + 60000 < max s.now (g.start + g.len)) : exec (.holidaySegmentEnd pass f) s = done s (abortSegment s g) := by
  rw [exec_holidaySegmentEnd, execHolidaySegmentEnd, hg]
  exact if_pos ht

theorem segment_none {s : State} (h : s.st.seg = none) : (∀ pass f, exec (.holidaySegmentEnd pass f) s = .next s) ∧
    exec .segmentWatchdog s = .next s := by
  refine ⟨fun pass f => ?_, ?_⟩
  · rw [exec_holidaySegmentEnd, execHolidaySegmentEnd, h]
    exact done_of_pending rfl
  · rw [exec_segmentWatchdog, execSegmentWatchdog, h]
    exact done_of_pending rfl

theorem segmentWatchdog_aborts {s : State} {g : Seg} (h : s.st.seg = some g) : exec .segmentWatchdog s = done s (abortSegment s g) := by
  rw [exec_segmentWatchdog, execSegmentWatchdog, h]

/-- What holds where a segment may start (R338). -/
theorem segmentMayStart_implies {s : State} {kind item len : Nat} (h : segmentMayStart s kind item len = true) :
    s.st.seg = none ∧ s.cal.calend + 20000 ≤ s.now ∧ s.now + len ≤ s.cal.eve ∧
      s.now + largestRemaining s + len + 20000 ≤ s.cal.eve ∧ tfind s.st.abortFrame (itemKey kind item) ≠ some s.cal.frame := by
  simp only [segmentMayStart, Bool.and_eq_true, decide_eq_true_eq, Option.isNone_iff_eq_none] at h
  obtain ⟨⟨⟨⟨⟨⟨⟨⟨⟨⟨hseg, -⟩, -⟩, -⟩, -⟩, hab⟩, hcal⟩, heve⟩, hrem⟩, -⟩, -⟩ := h
  exact ⟨hseg, hcal, heve, hrem, hab⟩

theorem vgPush_holidayFailed (s : State) (e : VgEvent) : (vgPush s e).vg.holidayFailed = s.vg.holidayFailed := by
  unfold vgPush
  split
  · rfl
  · dsimp only
    cases s.islA.works <;> (split <;> rfl)

theorem holidayFailure_fails {kind : Nat} (s : State) (item : Nat) (h : kind ≠ 1) : (holidayFailure s kind item).vg.holidayFailed = true := by
  unfold holidayFailure
  rw [if_neg h, vgPush_holidayFailed]

/-- An abort in the terms of the state that it finds. -/
theorem abortSegment_eq (s : State) (g : Seg) : abortSegment s g =
    (let k := itemKey g.kind g.item
     let t := max s.now (g.start + 60000)
     let n := tget s.st.abortRun k 0 + 1
     let s0 := endSegment s g t
     let s1 := alm { s0 with st := { s0.st with
         aborts := sat 255 (s.st.aborts + 1), abortFrame := tput s.st.abortFrame k s.cal.frame
         abortRun := if n ≥ 3 then tdel s.st.abortRun k else tput s.st.abortRun k n } } 0x0000 .segmentAbort 3 [g.kind, g.item]
     if n ≥ 3 then holidayFailure s1 g.kind g.item else s1) := by
  obtain ⟨n, us, h⟩ := endSegment_frame s g (max s.now (g.start + 60000))
  unfold abortSegment
  dsimp only
  rw [h]

/-- Settles O47: holiday segments, their aborts, and the debt of tests. -/
theorem segmentsAndDebt : Obligations.SegmentsAndDebt := by
  intro s
  refine ⟨fun _ _ _ => holidaySegmentStart_starts, fun kind item len h => ?notStarted, fun _ _ _ => segmentMayStart_implies, segment_none,
    fun g f hg ht => ⟨holidaySegmentEnd_ends true f hg ht, holidaySegmentEnd_ends false f hg ht⟩, fun g pass f => holidaySegmentEnd_late pass f,
    fun g => segmentWatchdog_aborts, fun g t => ?ended, fun g f h => ?passed, abortSegment_eq s, fun kind h h0 => ?warns, fun kind h => ?noWarning,
    fun kind h h2 => ?overdue, fun kind h => ?notOverdue, fun kind item => holidayFailure_fails s item⟩
  case notStarted => exact (exec_holidaySegmentStart ..).trans ((if_neg (by simpa [Decidable.imp_iff_not_or] using h)).trans (done_of_pending rfl))
  case ended =>
    obtain ⟨n, us, h⟩ := endSegment_frame s g t
    rw [h]
    exact ⟨rfl, rfl, rfl⟩
  case passed => rw [itemPassed, if_neg h]
  case warns => exact (exec_testDebtWarning ..).trans (if_neg (by simp [h, h0]))
  case noWarning => exact (exec_testDebtWarning ..).trans ((if_pos (by simpa using h)).trans (done_of_pending rfl))
  case overdue => exact (exec_testOverdue ..).trans (if_neg (by simp [h, h2]))
  case notOverdue => exact (exec_testOverdue ..).trans ((if_pos (by simpa using h)).trans (done_of_pending rfl))

end Sys2Proof.Machine
end

section
/-! PROOFS. The store controllers, the order of service, and the regulation of traffic. -/

namespace Sys2Proof.Machine

/-! ## Refreshes -/

theorem stcOf_congr {s t : State} (h : t.stc = s.stc) (q : Nat) : stcOf t q = stcOf s q := by rw [stcOf, stcOf, h]

/-- A refreshed bank has nothing postponed and its row closed. -/
theorem issueRefresh_self (now : Nat) (c : Stc) (ch bank n : Nat) :
    (tget (tget (issueRefresh now c ch bank n).chans ch {}).banks bank {}).postponed = 0 ∧
      (tget (tget (issueRefresh now c ch bank n).chans ch {}).banks bank {}).openRow = none := by
  unfold issueRefresh
  dsimp only
  rw [tget_tput_self]
  dsimp only
  rw [tget_tput_self]
  exact ⟨rfl, rfl⟩

theorem refreshDue_acts {s : State} {die : Nat} (ch bank : Nat) (h : (stcOf s die).retaining = false) :
    exec (.refreshDue die ch bank) s =
      (let c := stcOf s die
       let k := tget c.chans ch {}
       let b := tget k.banks bank {}
       let d : Stc := if k.queue.any (fun q => decBank c q.addr = bank) && decide (b.postponed < 4) then
           { c with
             chans := tput c.chans ch { k with banks := tput k.banks bank { b with postponed := b.postponed + 1 } }
             postMax := max c.postMax (b.postponed + 1) }
         else issueRefresh s.now c ch bank (b.postponed + 1)
       .next { s with stc := tput s.stc die d }) := by
  rw [exec_refreshDue, execRefreshDue]
  dsimp only
  rw [if_neg (by simp [h])]
  split <;> exact done_of_pending rfl

theorem refreshDue_retaining {s : State} {die : Nat} (ch bank : Nat) (h : (stcOf s die).retaining = true) :
    exec (.refreshDue die ch bank) s = .next s :=
  (exec_refreshDue ..).trans ((if_pos h).trans (done_of_pending rfl))

theorem refreshWindowReturn_lengthens {s : State} {die t : Nat} (hb : (stcOf s die).belowSince = some t) (ht : t + 1000000000 ≤ s.now)
    (hw : (stcOf s die).window ≠ 0) : exec (.refreshWindowReturn die) s = .next (modStc s die (fun c =>
      { c with
        window := c.window - 1
        belowSince := if c.window - 1 ≠ 0 && decide (c.tempHalf < returnBelow (c.window - 1)) then some s.now else none })) := by
  rw [exec_refreshWindowReturn, execRefreshWindowReturn]
  dsimp only
  rw [hb]
  dsimp only
  rw [if_neg (by simp [hw, ht])]
  exact done_of_pending rfl

theorem refreshWindowReturn_waits {s : State} {die : Nat} (h : (stcOf s die).belowSince = none ∨ (stcOf s die).window = 0 ∨
    (∃ t, (stcOf s die).belowSince = some t ∧ s.now < t + 1000000000)) : exec (.refreshWindowReturn die) s = .next s := by
  rw [exec_refreshWindowReturn, execRefreshWindowReturn]
  dsimp only
  split
  · rename_i t ht
    rw [if_pos, done_of_pending rfl]
    obtain h | h | ⟨t', h, hlt⟩ := h
    · rw [h] at ht
      cases ht
    · simp [h]
    · rw [h] at ht
      cases ht
      simp [hlt]
  · exact done_of_pending rfl

/-! ## Ingest and delays -/

theorem ingestIn_holds {s : State} {die n : Nat} (h : (stcOf s die).retaining = true ∨ 131072 < (stcOf s die).level + n) : ingestIn s die n = s :=
  if_pos (by simpa using h)

theorem ingestIn_fills {s : State} {die n : Nat} (hr : (stcOf s die).retaining = false) (hl : (stcOf s die).level + n ≤ 131072) :
    (stcOf (ingestIn s die n) die).level = (stcOf s die).level + n ∧
      ((stcOf s die).panicOn * 8192 ≤ (stcOf s die).level + n → (stcOf (ingestIn s die n) die).panic = true) ∧
      ((stcOf s die).level + n < (stcOf s die).panicOn * 8192 → (stcOf (ingestIn s die n) die).panic = (stcOf s die).panic) ∧
      ingestIn s die n = { s with stc := (ingestIn s die n).stc, alm := (ingestIn s die n).alm, host := (ingestIn s die n).host } := by
  unfold ingestIn
  dsimp only
  rw [if_neg (by simp [hr, hl])]
  split
  next h =>
    simp only [Bool.and_eq_true, Bool.not_eq_true', decide_eq_true_eq] at h
    obtain ⟨hp, hon⟩ := h
    obtain ⟨a, x, he⟩ := alm_frame (modStc s die (fun c => { c with
      level := (stcOf s die).level + n, panic := true, panicSince := s.now, entries := sat 255 (c.entries + 1) })) (srcStc die 0) .ingestPanic 2 [die]
    rw [stcOf_congr (alm_stc _ _ _ _ _), stcOf_modStc_self, he]
    exact ⟨rfl, fun _ => rfl, fun hlt => absurd hon (Nat.not_le.mpr hlt), rfl⟩
  next h =>
    simp only [Bool.and_eq_true, Bool.not_eq_true', decide_eq_true_eq, not_and] at h
    rw [stcOf_modStc_self]
    refine ⟨rfl, fun hon => ?_, fun _ => rfl, rfl⟩
    refine Classical.byContradiction fun hp => ?_
    exact h (by simpa using hp) hon

/-- Settles O48: refreshes, ingest and delays at a store controller. -/
theorem storeControllersAct : Obligations.StoreControllersAct := by
  intro s die ch bank
  refine ⟨fun c k b hc hr hk hb => ?refresh, refreshDue_retaining ch bank, fun t => refreshWindowReturn_lengthens, refreshWindowReturn_waits,
    fun bytes hs hr hl => ?ingest, fun bytes h => ?held, fun h => ?delays, fun h => ?same, fun c n => issueRefresh_self s.now c ch bank n⟩
  case refresh =>
    subst hc hk hb
    exact refreshDue_acts ch bank hr
  case ingest =>
    refine ⟨ingestIn s die bytes, ?_, ingestIn_fills hr hl⟩
    rw [exec_ingestWrite, execIngestWrite, if_neg (by simp [hs])]
    obtain ⟨-, -, -, he⟩ := ingestIn_fills hr hl
    refine done_of_pending ?_
    rw [he]
  case held =>
    rw [exec_ingestWrite, execIngestWrite]
    split
    · exact done_of_pending rfl
    · rw [ingestIn_holds (h.resolve_left (by assumption)), done_of_pending rfl]
  case delays => exact (exec_delayUpdate ..).trans (if_neg h)
  case same => exact (exec_delayUpdate ..).trans ((if_pos h).trans (done_of_pending rfl))

/-! ## Choosing the first request by an order (R199, R269) -/

/-- `f` takes from two requests one that comes no later in the order `R`. -/
structure PicksBy (f : Req → Req → Req) (R : Req → Req → Prop) : Prop where
  refl : ∀ x, R x x
  trans : ∀ x y z, R x y → R y z → R x z
  one : ∀ x y, f x y = x ∨ f x y = y
  both : ∀ x y, R (f x y) x ∧ R (f x y) y

theorem PicksBy.foldl {f : Req → Req → Req} {R : Req → Req → Prop} (h : PicksBy f R) (x : Req) (l : List Req) :
    l.foldl f x ∈ x :: l ∧ ∀ y ∈ x :: l, R (l.foldl f x) y := by
  induction l generalizing x with
  | nil => simp [h.refl]
  | cons y l ih =>
    obtain ⟨hm, hR⟩ := ih (f x y)
    obtain ⟨hx, hy⟩ := h.both x y
    have hf : R (List.foldl f (f x y) l) (f x y) := hR _ List.mem_cons_self
    rw [List.foldl_cons]
    refine ⟨?_, fun z hz => ?_⟩
    · obtain hm | hm := List.mem_cons.mp hm
      · rw [hm]
        obtain he | he := h.one x y <;> rw [he] <;> simp
      · exact List.mem_cons_of_mem _ (List.mem_cons_of_mem _ hm)
    · obtain rfl | hz := List.mem_cons.mp hz
      · exact h.trans _ _ _ hf hx
      · obtain rfl | hz := List.mem_cons.mp hz
        · exact h.trans _ _ _ hf hy
        · exact hR z (List.mem_cons_of_mem _ hz)

theorem PicksBy.pick {f : Req → Req → Req} {R : Req → Req → Prop} (h : PicksBy f R) {l : List Req} {q : Req} (hq : pick f l = some q) :
    q ∈ l ∧ ∀ x ∈ l, R q x := by
  cases l with
  | nil => cases hq
  | cons x l =>
    cases hq
    exact h.foldl x l

theorem pick_eq_none {f : Req → Req → Req} {l : List Req} : pick f l = none ↔ l = [] := by
  cases l <;> simp [Machine.pick]

theorem pick_isSome {f : Req → Req → Req} {l : List Req} {x : Req} (h : x ∈ l) : ∃ q, Machine.pick f l = some q := by
  cases l with
  | nil => cases h
  | cons y l => exact ⟨_, rfl⟩

/-- A choice by a condition gives one of the two. -/
theorem ite_picks {p : Prop} [Decidable p] (x y : Req) : (if p then x else y) = x ∨ (if p then x else y) = y := by
  split
  · exact .inl rfl
  · exact .inr rfl

theorem olderReq_picksBy : PicksBy olderReq (fun q x => q.atT ≤ x.atT) where
  refl _ := Nat.le_refl _
  trans _ _ _ := Nat.le_trans
  one x y := ite_picks x y
  both x y := by
    unfold olderReq
    split <;> omega

/-- Does a request find its row open? -/
def rowHit (c : Stc) (ch : Chan) (q : Req) : Bool := decide ((tget ch.banks (decBank c q.addr) {}).openRow = some (rowOf q.addr))

/-- Row hits before misses, the oldest first. -/
def rowFirst (c : Stc) (ch : Chan) (q x : Req) : Prop :=
  (rowHit c ch x = true → rowHit c ch q = true) ∧ (rowHit c ch x = rowHit c ch q → q.atT ≤ x.atT)

theorem betterReq_eq (c : Stc) (ch : Chan) (x y : Req) : betterReq c ch x y =
    if rowHit c ch x = rowHit c ch y then (if x.atT ≤ y.atT then x else y) else if rowHit c ch x then x else y := rfl

theorem betterReq_picksBy (c : Stc) (ch : Chan) : PicksBy (betterReq c ch) (rowFirst c ch) where
  refl _ := ⟨id, fun _ => Nat.le_refl _⟩
  trans x y z hxy hyz := by
    obtain ⟨h1, h2⟩ := hxy
    obtain ⟨h3, h4⟩ := hyz
    refine ⟨h1 ∘ h3, fun he => ?_⟩
    cases hx : rowHit c ch x <;> cases hy : rowHit c ch y <;> cases hz : rowHit c ch z <;> simp_all
    all_goals omega
  one x y := by
    rw [betterReq_eq]
    split
    · exact ite_picks x y
    · exact ite_picks x y
  both x y := by
    rw [betterReq_eq]
    unfold rowFirst
    by_cases hle : x.atT ≤ y.atT
    all_goals
      cases hx : rowHit c ch x <;> cases hy : rowHit c ch y
      all_goals simp [hx, hy, hle]
    all_goals omega

/-- An ingest write waits while its controller is in panic. -/
def ingestPanics (c : Stc) (ch : Chan) : Prop := c.panic = true ∧ ∃ x ∈ ch.queue, x.ingest = true

theorem chooseReq_ingest {c : Stc} {ch : Chan} {now : Nat} (h : ingestPanics c ch) :
    chooseReq c ch now = pick (betterReq c ch) (ch.queue.filter (·.ingest)) := by
  obtain ⟨hp, x, hx, hi⟩ := h
  obtain ⟨q, hq⟩ := pick_isSome (f := betterReq c ch) (List.mem_filter.mpr ⟨hx, hi⟩)
  rw [chooseReq, if_pos hp, hq]

theorem chooseReq_calm {c : Stc} {ch : Chan} {now : Nat} (h : ¬ ingestPanics c ch) : chooseReq c ch now =
    (pick olderReq (ch.queue.filter (fun q => q.atT + 8000 ≤ now))).orElse
      fun _ => [0, 1, 2, 3].findSome? (fun k => pick (betterReq c ch) (ch.queue.filter (fun q => q.cls = k))) := by
  have hn : pick (betterReq c ch) (if c.panic then ch.queue.filter (·.ingest) else []) = none := by
    rw [pick_eq_none]
    split
    · rename_i hp
      exact List.filter_eq_nil_iff.mpr fun x hx hi => h ⟨hp, x, hx, hi⟩
    · rfl
  rw [chooseReq, hn]
  cases pick olderReq (ch.queue.filter (fun q => q.atT + 8000 ≤ now)) <;> rfl

theorem chooseReq_aged {c : Stc} {ch : Chan} {now : Nat} (h : ¬ ingestPanics c ch) (ho : ∃ x ∈ ch.queue, x.atT + 8000 ≤ now) :
    chooseReq c ch now = pick olderReq (ch.queue.filter (fun q => q.atT + 8000 ≤ now)) := by
  obtain ⟨x, hx, hold⟩ := ho
  obtain ⟨q, hq⟩ := pick_isSome (f := olderReq) ((List.mem_filter (p := fun q => q.atT + 8000 ≤ now)).mpr ⟨hx, decide_eq_true hold⟩)
  rw [chooseReq_calm h, hq]
  rfl

theorem chooseReq_young {c : Stc} {ch : Chan} {now : Nat} (h : ¬ ingestPanics c ch) (ho : ¬ ∃ x ∈ ch.queue, x.atT + 8000 ≤ now) :
    chooseReq c ch now = [0, 1, 2, 3].findSome? (fun k => pick (betterReq c ch) (ch.queue.filter (fun q => q.cls = k))) := by
  have hn : ch.queue.filter (fun q => q.atT + 8000 ≤ now) = [] :=
    List.filter_eq_nil_iff.mpr fun x hx hold => ho ⟨x, hx, of_decide_eq_true hold⟩
  rw [chooseReq_calm h, hn]
  rfl

/-- The first of the four classes with a request: no request of a lower class waits. -/
theorem findSome_class {f : Req → Req → Req} {R : Req → Req → Prop} (hf : PicksBy f R) {w : List Req} {q : Req}
    (h : [0, 1, 2, 3].findSome? (fun k => pick f (w.filter (fun q => q.cls = k))) = some q) :
    q ∈ w ∧ ∀ x ∈ w, q.cls ≤ x.cls ∧ (x.cls = q.cls → R q x) := by
  obtain ⟨l1, k, l2, hl, hk, hnone⟩ := List.findSome?_eq_some_iff.mp h
  obtain ⟨hm, hR⟩ := hf.pick hk
  obtain ⟨hqw, hqk⟩ := List.mem_filter.mp hm
  have hqk : q.cls = k := of_decide_eq_true hqk
  refine ⟨hqw, fun x hx => ⟨?_, fun he => hR x (List.mem_filter.mpr ⟨hx, decide_eq_true (he.trans hqk)⟩)⟩⟩
  refine Classical.byContradiction fun hlt => ?_
  have hx1 : x.cls ∈ l1 := by
    have hsort : List.Pairwise (· < ·) [0, 1, 2, 3] := by decide
    have hk4 : k ∈ [0, 1, 2, 3] := by simp [hl]
    have hx4 : x.cls ∈ [0, 1, 2, 3] := by
      simp only [List.mem_cons, List.not_mem_nil, or_false] at hk4 ⊢
      omega
    rw [hl] at hsort hx4
    have hk2 := (List.pairwise_cons.mp (List.pairwise_append.mp hsort).2.1).1 x.cls
    obtain h1 | h2 := List.mem_append.mp hx4
    · exact h1
    · obtain h2 | h2 := List.mem_cons.mp h2
      · omega
      · exact absurd (hk2 h2) (by omega)
  have he := hnone _ hx1
  rw [pick_eq_none, List.filter_eq_nil_iff] at he
  exact he x hx (decide_eq_true rfl)

/-- A class with a request among the four is served. -/
theorem findSome_class_isSome {f : Req → Req → Req} {w : List Req} (h : ∃ x ∈ w, x.cls ≤ 3) :
    ([0, 1, 2, 3].findSome? (fun k => pick f (w.filter (fun q => q.cls = k)))).isSome = true := by
  obtain ⟨x, hx, h3⟩ := h
  obtain ⟨q, hq⟩ := pick_isSome (f := f) ((List.mem_filter (p := fun q => q.cls = x.cls)).mpr ⟨hx, decide_eq_true rfl⟩)
  rw [List.findSome?_isSome_iff]
  refine ⟨x.cls, ?_, by rw [hq]; rfl⟩
  simp only [List.mem_cons, List.not_mem_nil, or_false]
  omega

theorem chooseReq_isSome {c : Stc} {ch : Chan} {now : Nat} (h : ∃ x ∈ ch.queue, x.cls ≤ 3) : (chooseReq c ch now).isSome = true := by
  by_cases hp : ingestPanics c ch
  · obtain ⟨-, x, hx, hi⟩ := id hp
    obtain ⟨q, hq⟩ := pick_isSome (f := betterReq c ch) ((List.mem_filter (p := (·.ingest))).mpr ⟨hx, hi⟩)
    rw [chooseReq_ingest hp, hq]
    rfl
  · by_cases ho : ∃ x ∈ ch.queue, x.atT + 8000 ≤ now
    · obtain ⟨x, hx, hold⟩ := id ho
      obtain ⟨q, hq⟩ := pick_isSome (f := olderReq) ((List.mem_filter (p := fun q => q.atT + 8000 ≤ now)).mpr ⟨hx, decide_eq_true hold⟩)
      rw [chooseReq_aged hp ho, hq]
      rfl
    · rw [chooseReq_young hp ho]
      exact findSome_class_isSome h

/-! ## The switch port -/

theorem switchNext_aged {now turn : Nat} {w : List Req} (h : ∃ x ∈ w, x.atT + 8000 ≤ now) :
    switchNext now turn w = pick olderReq (w.filter (fun q => q.atT + 8000 ≤ now)) := by
  obtain ⟨x, hx, hold⟩ := h
  obtain ⟨q, hq⟩ := pick_isSome (f := olderReq) ((List.mem_filter (p := fun q => q.atT + 8000 ≤ now)).mpr ⟨hx, decide_eq_true hold⟩)
  rw [switchNext, hq]

/-- Of young requests: RT, then SAF, then STD and BKG by the turn. -/
theorem switchNext_young {now turn : Nat} {w : List Req} (h : ¬ ∃ x ∈ w, x.atT + 8000 ≤ now) : switchNext now turn w =
    (pick olderReq (w.filter (fun q => q.cls = 0))).orElse fun _ => (pick olderReq (w.filter (fun q => q.cls = 1))).orElse fun _ =>
      match pick olderReq (w.filter (fun q => q.cls = 2)), pick olderReq (w.filter (fun q => q.cls = 3)) with
      | some x, some y => some (if turn < 3 then x else y)
      | some x, none => some x
      | none, y => y := by
  have hn : w.filter (fun q => q.atT + 8000 ≤ now) = [] :=
    List.filter_eq_nil_iff.mpr fun x hx hold => h ⟨x, hx, of_decide_eq_true hold⟩
  rw [switchNext, hn]
  dsimp only
  cases pick olderReq (w.filter (fun q => q.cls = 0)) <;> cases pick olderReq (w.filter (fun q => q.cls = 1)) <;> rfl

theorem pick_class_none {f : Req → Req → Req} {w : List Req} {k : Nat} :
    pick f (w.filter (fun q => q.cls = k)) = none ↔ ∀ x ∈ w, x.cls ≠ k := by
  simp [pick_eq_none, List.filter_eq_nil_iff]

theorem pick_class_some {w : List Req} {k : Nat} {q : Req} (h : pick olderReq (w.filter (fun q => q.cls = k)) = some q) :
    q ∈ w ∧ q.cls = k ∧ ∀ x ∈ w, x.cls = q.cls → q.atT ≤ x.atT := by
  obtain ⟨hm, hR⟩ := olderReq_picksBy.pick h
  obtain ⟨hq, hk⟩ := List.mem_filter.mp hm
  have hk : q.cls = k := of_decide_eq_true hk
  exact ⟨hq, hk, fun x hx he => hR x (List.mem_filter.mpr ⟨hx, decide_eq_true (he.trans hk)⟩)⟩

/-- The class that a switch port serves, where no request has aged. -/
structure SwitchServes (turn : Nat) (w : List Req) (q : Req) : Prop where
  mem : q ∈ w
  oldest : ∀ x ∈ w, x.cls = q.cls → q.atT ≤ x.atT
  rt : (∃ x ∈ w, x.cls = 0) → q.cls = 0
  saf : (∀ x ∈ w, x.cls ≠ 0) → (∃ x ∈ w, x.cls = 1) → q.cls = 1
  turns : (∀ x ∈ w, 2 ≤ x.cls) → (∃ x ∈ w, x.cls = 2) → (∃ x ∈ w, x.cls = 3) → q.cls = if turn < 3 then 2 else 3

theorem switchNext_serves {now turn : Nat} {w : List Req} {q : Req} (h : ¬ ∃ x ∈ w, x.atT + 8000 ≤ now)
    (hq : switchNext now turn w = some q) : SwitchServes turn w q := by
  have hat (k : Nat) (x : Req) (hx : x ∈ w) (hk : x.cls = k) (h2 : ∀ x ∈ w, 2 ≤ x.cls) : 2 ≤ k := hk ▸ h2 x hx
  rw [switchNext_young h] at hq
  cases h0 : pick olderReq (w.filter (fun q => q.cls = 0)) with
  | some q0 =>
    rw [h0] at hq
    cases hq
    obtain ⟨hm, hk, hold⟩ := pick_class_some h0
    exact ⟨hm, hold, fun _ => hk, fun hn => absurd hk (hn _ hm), fun h2 => absurd (h2 _ hm) (by omega)⟩
  | none =>
    rw [h0] at hq
    have hn0 : ¬ ∃ x ∈ w, x.cls = 0 := by simpa using pick_class_none.mp h0
    cases h1 : pick olderReq (w.filter (fun q => q.cls = 1)) with
    | some q1 =>
      rw [h1] at hq
      cases hq
      obtain ⟨hm, hk, hold⟩ := pick_class_some h1
      exact ⟨hm, hold, fun he => absurd he hn0, fun _ _ => hk, fun h2 => absurd (h2 _ hm) (by omega)⟩
    | none =>
      rw [h1] at hq
      have hn1 : ¬ ∃ x ∈ w, x.cls = 1 := by simpa using pick_class_none.mp h1
      cases h2 : pick olderReq (w.filter (fun q => q.cls = 2)) with
      | none =>
        rw [h2] at hq
        obtain ⟨hm, -, hold⟩ := pick_class_some hq
        have hn2 : ¬ ∃ x ∈ w, x.cls = 2 := by simpa using pick_class_none.mp h2
        exact ⟨hm, hold, fun he => absurd he hn0, fun _ he => absurd he hn1, fun _ he => absurd he hn2⟩
      | some q2 =>
        rw [h2] at hq
        obtain ⟨hm2, hk2, hold2⟩ := pick_class_some h2
        cases h3 : pick olderReq (w.filter (fun q => q.cls = 3)) with
        | none =>
          rw [h3] at hq
          cases hq
          have hn3 : ¬ ∃ x ∈ w, x.cls = 3 := by simpa using pick_class_none.mp h3
          exact ⟨hm2, hold2, fun he => absurd he hn0, fun _ he => absurd he hn1, fun _ _ he => absurd he hn3⟩
        | some q3 =>
          rw [h3] at hq
          obtain ⟨hm3, hk3, hold3⟩ := pick_class_some h3
          cases hq
          split
          · exact ⟨hm2, hold2, fun he => absurd he hn0, fun _ he => absurd he hn1, fun _ _ _ => hk2.trans (if_pos ‹_›).symm⟩
          · exact ⟨hm3, hold3, fun he => absurd he hn0, fun _ he => absurd he hn1, fun _ _ _ => hk3.trans (if_neg ‹_›).symm⟩

theorem switchNext_isSome {now turn : Nat} {w : List Req} (h : ∃ x ∈ w, x.cls ≤ 3) : (switchNext now turn w).isSome = true := by
  by_cases ho : ∃ x ∈ w, x.atT + 8000 ≤ now
  · obtain ⟨x, hx, hold⟩ := id ho
    obtain ⟨q, hq⟩ := pick_isSome (f := olderReq) ((List.mem_filter (p := fun q => q.atT + 8000 ≤ now)).mpr ⟨hx, decide_eq_true hold⟩)
    rw [switchNext_aged ho, hq]
    rfl
  · have hs := findSome_class_isSome (f := olderReq) h
    rw [switchNext_young ho]
    simp only [List.findSome?] at hs
    cases h0 : pick olderReq (w.filter (fun q => q.cls = 0)) <;> cases h1 : pick olderReq (w.filter (fun q => q.cls = 1)) <;>
      cases h2 : pick olderReq (w.filter (fun q => q.cls = 2)) <;> cases h3 : pick olderReq (w.filter (fun q => q.cls = 3)) <;> simp_all

/-! ## Refreshes at their limit, and rows that close -/

@[simp] theorem Chan.occupy_postponed (now b k : Nat) (c : Chan) (j : Nat) :
    (tget (c.occupy now b k).banks j {}).postponed = (tget c.banks j {}).postponed := by
  unfold Chan.occupy Chan.settle
  dsimp only
  obtain rfl | hj := Decidable.em (j = b)
  · rw [tget_tmod_self]
  · rw [tget_tmod_ne _ _ _ _ _ _ hj]

theorem issueLeaps_postponed (now : Nat) (c : Stc) (k b j : Nat) :
    (tget (tget (issueLeaps now c k b).chans k {}).banks j {}).postponed = (tget (tget c.chans k {}).banks j {}).postponed := by
  have hch : ∀ ch : Chan, ch = (if (tget (tget c.chans k {}).banks b {}).pending.isEmpty then tget c.chans k {}
      else (tget c.chans k {}).occupy now b (13 * (tget (tget c.chans k {}).banks b {}).pending.length)) →
      (tget ch.banks j {}).postponed = (tget (tget c.chans k {}).banks j {}).postponed := by
    rintro ch rfl
    split
    · rfl
    · exact Chan.occupy_postponed ..
  unfold issueLeaps
  dsimp only
  rw [tget_tput_self]
  obtain rfl | hj := Decidable.em (j = b)
  · dsimp only
    rw [tget_tput_self]
    exact hch _ rfl
  · dsimp only
    rw [tget_tput_ne _ _ _ _ _ hj]
    exact hch _ rfl

/-- The refreshes of one bank leave what another has postponed. -/
theorem issueRefresh_ne (now : Nat) (c : Stc) {k b n j : Nat} (hj : j ≠ b) :
    (tget (tget (issueRefresh now c k b n).chans k {}).banks j {}).postponed = (tget (tget c.chans k {}).banks j {}).postponed := by
  unfold issueRefresh
  dsimp only
  rw [tget_tput_self]
  dsimp only
  rw [tget_tput_ne _ _ _ _ _ hj, Chan.occupy_postponed, issueLeaps_postponed]

/-- One step of the refreshes at their limit. -/
def refreshOne (now ch : Nat) (c : Stc) (b : Nat × Bank) : Stc := if b.2.postponed ≥ 4 then issueRefresh now c ch b.1 b.2.postponed else c

theorem refreshOne_le (now ch : Nat) (c : Stc) (b : Nat × Bank) (j : Nat) :
    (tget (tget (refreshOne now ch c b).chans ch {}).banks j {}).postponed ≤ (tget (tget c.chans ch {}).banks j {}).postponed := by
  unfold refreshOne
  split
  · obtain rfl | hj := Decidable.em (j = b.1)
    · rw [(issueRefresh_self ..).1]
      exact Nat.zero_le _
    · exact Nat.le_of_eq (issueRefresh_ne _ _ hj)
  · exact Nat.le_refl _

theorem foldl_refreshOne_le (now ch : Nat) (l : List (Nat × Bank)) (c : Stc) (j : Nat) :
    (tget (tget (l.foldl (refreshOne now ch) c).chans ch {}).banks j {}).postponed ≤ (tget (tget c.chans ch {}).banks j {}).postponed := by
  induction l generalizing c with
  | nil => exact Nat.le_refl _
  | cons b l ih => exact Nat.le_trans (ih _) (refreshOne_le ..)

theorem foldl_refreshOne_of_mem (now ch : Nat) {l : List (Nat × Bank)} {b : Nat × Bank} (c : Stc) (hb : b ∈ l) (h4 : 4 ≤ b.2.postponed) :
    (tget (tget (l.foldl (refreshOne now ch) c).chans ch {}).banks b.1 {}).postponed = 0 := by
  obtain ⟨l1, l2, rfl⟩ := List.append_of_mem hb
  rw [List.foldl_append, List.foldl_cons]
  refine Nat.le_zero.mp (Nat.le_trans (foldl_refreshOne_le ..) (Nat.le_of_eq ?_))
  rw [refreshOne, if_pos h4, (issueRefresh_self ..).1]

theorem mem_of_tfind {β : Type} {t : Tbl β} {k : Nat} {v : β} (h : tfind t k = some v) : (k, v) ∈ t := by
  induction t with
  | nil => cases h
  | cons p t ih =>
    obtain ⟨j, w⟩ := p
    rw [tfind] at h
    split at h
    · rename_i hj
      cases h
      rw [hj]
      exact List.mem_cons_self
    · exact List.mem_cons_of_mem _ (ih h)

/-- No bank stays at its limit once the refreshes at their limit have gone first. -/
theorem refreshFirst_lt (now : Nat) (c : Stc) (ch j : Nat) : (tget (tget (refreshFirst now c ch).chans ch {}).banks j {}).postponed < 4 := by
  refine Classical.byContradiction fun hge => ?_
  have hle := foldl_refreshOne_le now ch (tget c.chans ch {}).banks c j
  have h4 : 4 ≤ (tget (tget c.chans ch {}).banks j {}).postponed := Nat.le_trans (Nat.not_lt.mp hge) hle
  cases hf : tfind (tget c.chans ch {}).banks j with
  | none =>
    rw [tget, hf] at h4
    exact absurd h4 (by decide)
  | some b =>
    rw [tget, hf] at h4
    have h0 := foldl_refreshOne_of_mem now ch c (mem_of_tfind hf) h4
    exact hge (Nat.lt_of_le_of_lt (Nat.le_of_eq h0) (by decide))

theorem storeRequest_serves {s : State} {die ch : Nat} {q : Req} (hr : (stcOf s die).retaining = false) (hh : segmentHoldsCh s die ch = false)
    (hq : chooseReq (refreshFirst s.now (stcOf s die) ch) (tget (refreshFirst s.now (stcOf s die) ch).chans ch {}) s.now = some q) :
    exec (.storeRequest die ch) s = done s
      (let s1 := serveReq s die ch (refreshFirst s.now (stcOf s die) ch) q
       drainSwitch (tget s1.swWait die []).length die s1) := by
  rw [exec_storeRequest, execStoreRequest, if_neg (by simp [hr])]
  dsimp only
  rw [hh, if_neg Bool.false_ne_true, hq]

theorem storeRequest_idle {s : State} {die ch : Nat} (hr : (stcOf s die).retaining = false) (h : segmentHoldsCh s die ch = true ∨
    chooseReq (refreshFirst s.now (stcOf s die) ch) (tget (refreshFirst s.now (stcOf s die) ch).chans ch {}) s.now = none) :
    exec (.storeRequest die ch) s = .next { s with stc := tput s.stc die (refreshFirst s.now (stcOf s die) ch) } := by
  have hn : (if segmentHoldsCh s die ch then none
      else chooseReq (refreshFirst s.now (stcOf s die) ch) (tget (refreshFirst s.now (stcOf s die) ch).chans ch {}) s.now) = none := by
    obtain h | h := h
    · rw [if_pos h]
    · rw [h, ite_self]
  rw [exec_storeRequest, execStoreRequest, if_neg (by simp [hr])]
  dsimp only
  rw [hn]
  exact done_of_pending rfl

theorem rowClose_closes {s : State} {die ch bank r : Nat} (ho : (tget (tget (stcOf s die).chans ch {}).banks bank {}).openRow = some r)
    (hu : (tget (tget (stcOf s die).chans ch {}).banks bank {}).lastUse + 72 ≤ s.now) :
    ∃ t, exec (.rowClose die ch bank) s = .next t ∧ t = { s with stc := t.stc } ∧
      (tget (tget (stcOf t die).chans ch {}).banks bank {}).openRow = none := by
  rw [exec_rowClose, execRowClose]
  dsimp only
  rw [if_neg (by simp [ho, hu])]
  refine ⟨_, done_of_pending rfl, rfl, ?_⟩
  simp only [stcOf, tget_tput_self, tget_tmod_self]

/-- Settles O49: the order of service at a channel and at the switch before it. -/
theorem schedulerChoice : Obligations.SchedulerChoice := by
  refine ⟨fun c ch now => ⟨fun q hq => ?chosen, chooseReq_isSome⟩, fun now turn w => ⟨fun q hq => ?switched, switchNext_isSome⟩,
    fun s die ch bank => ⟨fun q => storeRequest_serves, storeRequest_idle, fun hr => ?retaining, fun r => rowClose_closes, fun h => ?open_,
      refreshFirst_lt s.now (stcOf s die) ch bank⟩⟩
  case chosen =>
    by_cases hp : ingestPanics c ch
    · rw [chooseReq_ingest hp] at hq
      obtain ⟨hm, hR⟩ := (betterReq_picksBy c ch).pick hq
      obtain ⟨hmem, hi⟩ := List.mem_filter.mp hm
      exact ⟨hmem, fun _ => ⟨hi, fun x hx hxi => hR x (List.mem_filter.mpr ⟨hx, hxi⟩)⟩, fun hn => absurd hp hn, fun hn => absurd hp hn⟩
    · by_cases ho : ∃ x ∈ ch.queue, x.atT + 8000 ≤ now
      · rw [chooseReq_aged hp ho] at hq
        obtain ⟨hm, hR⟩ := olderReq_picksBy.pick hq
        obtain ⟨hmem, hi⟩ := List.mem_filter.mp hm
        exact ⟨hmem, fun hy => absurd hy hp,
          fun _ _ => ⟨of_decide_eq_true hi, fun x hx hxo => hR x (List.mem_filter.mpr ⟨hx, decide_eq_true hxo⟩)⟩, fun _ hn => absurd ho hn⟩
      · rw [chooseReq_young hp ho] at hq
        obtain ⟨hmem, hR⟩ := findSome_class (betterReq_picksBy c ch) hq
        exact ⟨hmem, fun hy => absurd hy hp, fun _ hy => absurd hy ho, fun _ _ => hR⟩
  case switched =>
    by_cases ho : ∃ x ∈ w, x.atT + 8000 ≤ now
    · rw [switchNext_aged ho] at hq
      obtain ⟨hm, hR⟩ := olderReq_picksBy.pick hq
      obtain ⟨hmem, hi⟩ := List.mem_filter.mp hm
      have hi : q.atT + 8000 ≤ now := of_decide_eq_true hi
      refine ⟨hmem, fun _ => ⟨hi, fun x hx => ?_⟩, fun hn => absurd ho hn⟩
      by_cases hxo : x.atT + 8000 ≤ now
      · exact hR x (List.mem_filter.mpr ⟨hx, decide_eq_true hxo⟩)
      · omega
    · have hs := switchNext_serves ho hq
      exact ⟨hs.mem, fun hy => absurd hy ho, fun _ => ⟨hs.oldest, hs.rt, hs.saf, hs.turns⟩⟩
  case retaining => exact (exec_storeRequest ..).trans ((if_pos hr).trans (done_of_pending rfl))
  case open_ => exact (exec_rowClose ..).trans ((if_pos (by simpa [Option.isNone_iff_eq_none] using h)).trans (done_of_pending rfl))

/-! ## Regulation of traffic -/

/-- What a transaction that issues takes: its bucket's bytes and one of its port's count. -/
def issuedTx (s : State) (port : Nat) (r : StoreTx) : State :=
  let s1 : State := if bucketed s port r.part then
      { s with rgl := tmod s.rgl (rglOfPort port) {} (fun g => { g with tbLevel := tmod g.tbLevel r.part 0 (· - 128) }) }
    else s
  { s1 with ports := tmod s1.ports (portKey port r.die (clsOfTx port r.part)) 0 (· + 1) }

theorem transactionIssue_issues {s : State} {port : Nat} {r : StoreTx} (hm : mayIssueTx s port r.die r.part = true)
    (hr : (stcOf s r.die).retaining = false) (hc : swOfPort port = r.die → channelRoom (stcOf s r.die) (reqOf s port r) = true) :
    exec (.transactionIssue port r) s = done s (sendReq (issuedTx s port r) r.die (reqOf s port r)) := by
  rw [exec_transactionIssue, execTransactionIssue]
  exact if_neg (by simpa [hm, hr] using hc)

theorem transactionIssue_waits {s : State} {port : Nat} {r : StoreTx} (h : mayIssueTx s port r.die r.part = false ∨
    (stcOf s r.die).retaining = true ∨ (swOfPort port = r.die ∧ channelRoom (stcOf s r.die) (reqOf s port r) = false)) :
    exec (.transactionIssue port r) s = .next s := by
  rw [exec_transactionIssue, execTransactionIssue]
  refine (if_pos ?_).trans (done_of_pending rfl)
  obtain h | h | ⟨h, hc⟩ := h
  · simp [h]
  · simp [h]
  · simp [h, hc]

theorem issuedTx_takes (s : State) (port : Nat) (r : StoreTx) :
    issuedTx s port r = { s with rgl := (issuedTx s port r).rgl, ports := (issuedTx s port r).ports } ∧
      tget (issuedTx s port r).ports (portKey port r.die (clsOfTx port r.part)) 0 = tget s.ports (portKey port r.die (clsOfTx port r.part)) 0 + 1 ∧
      (bucketed s port r.part = false → (issuedTx s port r).rgl = s.rgl) ∧
      (bucketed s port r.part = true →
        tget (rglOf (issuedTx s port r) (rglOfPort port)).tbLevel r.part 0 = tget (rglOf s (rglOfPort port)).tbLevel r.part 0 - 128) := by
  unfold issuedTx
  cases bucketed s port r.part
  · exact ⟨rfl, tget_tmod_self .., fun _ => rfl, by simp⟩
  · refine ⟨rfl, tget_tmod_self .., by simp, fun _ => ?_⟩
    rw [if_pos rfl]
    dsimp only [rglOf]
    rw [tget_tmod_self]
    exact tget_tmod_self _ r.part 0 (· - 128)

theorem enqueue_queue (now : Nat) (c : Stc) (q : Req) :
    (tget (enqueue now c q).chans (decCh c q.addr) {}).queue = (tget c.chans (decCh c q.addr) {}).queue ++ [q] := by
  unfold enqueue
  dsimp only
  rw [tget_tput_self]
  rfl

/-- The refill of one partition's bucket. -/
def refillBucket (g : Rgl) (p : Nat) : Rgl :=
  if tget g.tbEn p false then
    { g with tbLevel := tmod g.tbLevel p 0 (fun x => min (x + tget g.tbRate p 0 * 64) (tget g.tbBurst p 0 * 1024)) }
  else g

theorem refillBucket_keeps (g : Rgl) (p : Nat) : (refillBucket g p).tbEn = g.tbEn ∧ (refillBucket g p).tbRate = g.tbRate ∧
    (refillBucket g p).tbBurst = g.tbBurst ∧ ∀ k, k ≠ p → tget (refillBucket g p).tbLevel k 0 = tget g.tbLevel k 0 := by
  unfold refillBucket
  split
  · refine ⟨rfl, rfl, rfl, fun k hk => ?_⟩
    dsimp only
    rw [tget_tmod_ne _ _ _ _ _ _ hk]
  · exact ⟨rfl, rfl, rfl, fun _ _ => rfl⟩

theorem refillBucket_self {g : Rgl} {p : Nat} (h : tget g.tbEn p false = true) :
    tget (refillBucket g p).tbLevel p 0 = min (tget g.tbLevel p 0 + tget g.tbRate p 0 * 64) (tget g.tbBurst p 0 * 1024) := by
  rw [refillBucket, if_pos h]
  dsimp only
  rw [tget_tmod_self]

/-- Each bucket listed once is refilled once. -/
theorem foldl_refillBucket (l : List Nat) (hl : l.Nodup) {p : Nat} (hp : p ∈ l) (g : Rgl) (he : tget g.tbEn p false = true) :
    tget (l.foldl refillBucket g).tbLevel p 0 = min (tget g.tbLevel p 0 + tget g.tbRate p 0 * 64) (tget g.tbBurst p 0 * 1024) := by
  have hne : ∀ (l : List Nat) (g : Rgl), p ∉ l → tget (l.foldl refillBucket g).tbLevel p 0 = tget g.tbLevel p 0 := by
    intro l
    induction l with
    | nil => exact fun _ _ => rfl
    | cons k l ih =>
      intro g h
      rw [List.mem_cons, not_or] at h
      rw [List.foldl_cons, ih _ h.2]
      exact (refillBucket_keeps g k).2.2.2 p h.1
  induction l generalizing g with
  | nil => cases hp
  | cons k l ih =>
    obtain ⟨hk, hl⟩ := List.nodup_cons.mp hl
    obtain ⟨h1, h2, h3, h4⟩ := refillBucket_keeps g k
    rw [List.foldl_cons]
    obtain rfl | hp := List.mem_cons.mp hp
    · rw [hne l _ hk, refillBucket_self he]
    · have hpk : p ≠ k := fun h => hk (h ▸ hp)
      rw [ih hl hp _ (by rw [h1]; exact he), h4 p hpk, h2, h3]

theorem rglOf_foldl_tmod (f : Rgl → Rgl) (s : State) (l : List Nat) (hl : l.Nodup) {i : Nat} (hi : i ∈ l) :
    tget (l.foldl (fun t i => tmod t i {} f) s.rgl) i {} = f (rglOf s i) :=
  tget_foldl_tput_of_nodup f {} l s.rgl hl hi

/-- What an RGL instance makes of a level it hears. -/
def heardLevel (g : Rgl) (die level now : Nat) : Rgl :=
  { g with level := tput g.level die level, lastLevel := tput g.lastLevel die now, stale := g.stale.filter (fun x => x.1 % 4 ≠ die) }

theorem heardLevel_heard (g : Rgl) (die level now : Nat) : tget (heardLevel g die level now).level die 0 = level ∧
    tget (heardLevel g die level now).lastLevel die 0 = now ∧ anyStale (heardLevel g die level now) die = false := by
  refine ⟨tget_tput_self .., tget_tput_self .., ?_⟩
  simp [anyStale, heardLevel]

theorem mem_five {i : Nat} (h : i < 5) : i ∈ [0, 1, 2, 3, 4] := by
  simp only [List.mem_cons, List.not_mem_nil, or_false]
  omega

/-- Settles O50: transactions, buckets and levels. -/
theorem trafficRegulation : Obligations.TrafficRegulation := by
  intro s port die cls
  refine ⟨fun r hm hr hc => ⟨issuedTx s port r, transactionIssue_issues hm hr hc, issuedTx_takes s port r⟩,
    fun q => ⟨fun h => if_pos h, fun h => if_neg h⟩, fun c q => enqueue_queue s.now c q, fun r => transactionIssue_waits, rfl, ?refill, ?broadcast,
    fun h => ?stale, fun h => ?fresh_, fun g n => ?red⟩
  case refill =>
    refine ⟨_, rfl, rfl, fun i p hi h1 h3 he => ?_⟩
    have hp : p ∈ [1, 2, 3] := by
      simp only [List.mem_cons, List.not_mem_nil, or_false]
      omega
    have hg := rglOf_foldl_tmod (fun g => [1, 2, 3].foldl refillBucket g) s [0, 1, 2, 3, 4] (by decide) (mem_five hi)
    exact (congrArg (fun g => tget (Rgl.tbLevel g) p 0) hg).trans (foldl_refillBucket [1, 2, 3] (by decide) hp _ he)
  case broadcast =>
    refine ⟨_, rfl, rfl, fun i hi => ?_⟩
    have hg := rglOf_foldl_tmod (fun g => heardLevel g die (levelFor (stcOf s die)) s.now) s [0, 1, 2, 3, 4] (by decide) (mem_five hi)
    have hh := heardLevel_heard (rglOf s i) die (levelFor (stcOf s die)) s.now
    rw [← hg] at hh
    exact hh
  case stale => exact (exec_levelStale ..).trans (if_neg (Nat.not_lt.mpr h))
  case fresh_ => exact (exec_levelStale ..).trans ((if_pos h).trans (done_of_pending rfl))
  case red =>
    have hs : isStale { g with stale := tput g.stale (staleKey port die) n } port die = true := by
      simp [isStale, thas, tfind_tput_self]
    rw [levelOf, if_pos hs]

end Sys2Proof.Machine
end

section
/-! PROOFS. Samples, device time and links. -/

namespace Sys2Proof.Machine

/-! ## Samples -/

@[simp] theorem streamOf_modStream_self (s : State) (k : Nat) (f : Stream → Stream) : streamOf (modStream s k f) k = f (streamOf s k) :=
  tget_tmod_self ..

theorem streamOf_congr {s t : State} (h : t.streams = s.streams) (k : Nat) : streamOf t k = streamOf s k := by rw [streamOf, streamOf, h]

theorem modStream_congr {s : State} {k : Nat} {f g : Stream → Stream} (h : f (streamOf s k) = g (streamOf s k)) :
    modStream s k f = modStream s k g := by
  simp only [modStream, tmod]
  exact congrArg (fun x => { s with streams := tput s.streams k x }) h

theorem damage_none {s : State} {k cause : Nat} (h : (streamOf s k).cur = none) : damage s k cause = s := by
  rw [damage, h]

/-- Damage of a whole open sample. -/
theorem damage_open {s : State} {k cause : Nat} {x : Sample} (h : (streamOf s k).cur = some x) (hf : x.fail = 0) :
    streamOf (damage s k cause) k = { streamOf s k with
      cur := some { x with fail := cause, data := [], moved := 0, placed := false }
      damaged := sat 255 ((streamOf s k).damaged + 1), damagedSince := true, seq := max (streamOf s k).seq x.seq
      overflow := if cause = 6 then sat 255 ((streamOf s k).overflow + 1) else (streamOf s k).overflow } := by
  rw [damage, h]
  dsimp only
  rw [if_neg (by simp [hf]), streamOf_congr (alm_streams _ _ _ _ _), streamOf_modStream_self]

theorem openSample_opens {s : State} {k : Nat} (h : (stcOf s (streamOf s k).die).retaining = false) :
    ∃ x, (streamOf (openSample s k) k).cur = some x ∧ x.seq = (streamOf s k).opened + 1 ∧ x.gen = sampleGen ((streamOf s k).opened + 1) ∧
      x.start = s.now ∧ x.fail = 0 ∧ x.data = [] := by
  unfold openSample
  dsimp only
  rw [if_neg (by simp [h]), streamOf_modStream_self]
  exact ⟨_, rfl, rfl, rfl, rfl, rfl, rfl⟩

theorem startSample_opens {s : State} {k : Nat} (hc : (streamOf s k).cur = none) (hr : (stcOf s (streamOf s k).die).retaining = false) :
    ∃ x, (streamOf (startSample s k) k).cur = some x ∧ x.seq = (streamOf s k).opened + 1 ∧ x.gen = sampleGen ((streamOf s k).opened + 1) ∧
      x.start = s.now ∧ x.fail = 0 ∧ x.data = [] := by
  have hs : streamOf (modStream s k (fun t => { t with cur := none })) k = { streamOf s k with cur := none } := streamOf_modStream_self ..
  have ho := openSample_opens (s := modStream s k (fun t => { t with cur := none })) (k := k) (by rw [hs]; exact hr)
  rw [startSample, damage_none hc]
  rw [hs] at ho
  exact ho

theorem closeSample_whole {s : State} {k last : Nat} {x : Sample} (h : (streamOf s k).cur = some x) (hf : x.fail = 0) :
    closeSample s k last = modStream s k (fun t => { t with
      cur := none, closing := t.closing ++ [{ x with last := last, sensorTs := sensorTs t x, instant := sampleInstant t x }] }) := by
  refine modStream_congr ?_
  rw [h]
  exact if_neg (by simp [hf])

theorem closeSample_damaged {s : State} {k last : Nat} {x : Sample} (h : (streamOf s k).cur = some x) (hf : x.fail ≠ 0) :
    closeSample s k last = modStream s k (fun t => { t with cur := none }) := by
  refine modStream_congr ?_
  rw [h]
  exact if_pos hf

theorem endSample_whole {s : State} {k : Nat} {x : Sample} (h : (streamOf s k).cur = some x) (hf : x.fail = 0)
    (hr : x.rows = (streamOf s k).height) (he : x.emb = (streamOf s k).embLines) : endSample s k = modStream s k (fun t => { t with
      cur := none, closing := t.closing ++ [{ x with last := s.now, sensorTs := sensorTs t x, instant := sampleInstant t x }] }) := by
  unfold endSample
  dsimp only
  rw [h]
  dsimp only
  rw [if_neg (by simp [hr, he]), closeSample_whole h hf]

theorem endSample_damaged {s : State} {k : Nat} {x : Sample} (h : (streamOf s k).cur = some x) (hf : x.fail = 0)
    (hr : x.rows ≠ (streamOf s k).height ∨ x.emb ≠ (streamOf s k).embLines) :
    (streamOf (endSample s k) k).cur = none ∧ (streamOf (endSample s k) k).closing = (streamOf s k).closing ∧
      (streamOf (endSample s k) k).damaged = sat 255 ((streamOf s k).damaged + 1) := by
  have hd := damage_open (cause := 3) h hf
  unfold endSample
  dsimp only
  rw [h]
  dsimp only
  rw [if_pos (by simpa using hr), closeSample_damaged (congrArg Stream.cur hd) (by simp), streamOf_modStream_self, hd]
  exact ⟨rfl, rfl, rfl⟩

/-! ## Ring slots -/

theorem freeSampleSlot_free {t : Stream} {i : Nat} (h : freeSampleSlot t = some i) : i < t.slots ∧ (∀ x, t.snap = some x → i ≠ x.slot) ∧
    (∀ x, t.latest = some x → i ≠ x.slot) ∧ ∀ x ∈ t.closing, x.placed = true → i ≠ x.slot := by
  have hp := List.find?_some h
  have hm := List.mem_of_find?_eq_some h
  simp only [Bool.and_eq_true, decide_eq_true_eq, Bool.not_eq_true', Bool.eq_false_iff, ne_eq, List.contains_iff_mem, slotsInWork, List.mem_map,
    List.mem_filter,
    not_exists, not_and] at hp
  obtain ⟨⟨ha, hb⟩, hw⟩ := hp
  refine ⟨List.mem_range.mp hm, fun x hx => ?_, fun x hx => ?_, fun x hx hpl he => hw x ⟨hx, hpl⟩ he.symm⟩
  · rw [hx] at ha
    exact ha
  · rw [hx] at hb
    exact hb

/-- Of three slots, two that are taken leave one. -/
theorem freeSampleSlot_isSome {t : Stream} (h3 : 3 ≤ t.slots) (hc : ∀ x ∈ t.closing, x.placed = false) : (freeSampleSlot t).isSome = true := by
  have hw : slotsInWork t = [] := by
    have hf : t.closing.filter (fun x => x.placed) = [] := List.filter_eq_nil_iff.mpr fun x hx => by simp [hc x hx]
    rw [slotsInWork, hf, List.map_nil]
  have hfree (a b : Nat) : ∃ i, i < 3 ∧ i ≠ a ∧ i ≠ b := by
    refine Classical.byContradiction fun hn => ?_
    simp only [not_exists, not_and, Classical.not_not] at hn
    have h0 := hn 0
    have h1 := hn 1
    have h2 := hn 2
    omega
  unfold freeSampleSlot
  dsimp only
  rw [List.find?_isSome]
  obtain ⟨i, hi, ha, hb⟩ := hfree (match t.snap with | some x => x.slot | none => 0) (match t.latest with | some x => x.slot | none => 0)
  refine ⟨i, List.mem_range.mpr (by omega), ?_⟩
  rw [hw]
  simp only [List.contains_nil, Bool.not_false, Bool.and_true, Bool.and_eq_true, decide_eq_true_eq]
  exact ⟨ha, hb⟩

/-! ## Rows of samples -/

theorem gapExpiry_closes {s : State} {k : Nat} {x : Sample} (hc : (streamOf s k).cur = some x) (hk : (streamOf s k).kind = 1)
    (hg : (streamOf s k).gapMode = true) (hl : x.lastAt + (streamOf s k).gapUs * 1000 ≤ s.now) :
    exec (.gapExpiry k) s = done s (closeSample s k (x.lastAt + (streamOf s k).gapUs * 1000)) := by
  rw [exec_gapExpiry, execGapExpiry]
  dsimp only
  rw [hc]
  exact if_pos (by simp [hk, hg, hl])

theorem gapExpiry_waits {s : State} {k : Nat} (h : (streamOf s k).cur = none ∨ (streamOf s k).kind ≠ 1 ∨ (streamOf s k).gapMode = false ∨
    (∃ x, (streamOf s k).cur = some x ∧ s.now < x.lastAt + (streamOf s k).gapUs * 1000)) : exec (.gapExpiry k) s = .next s := by
  rw [exec_gapExpiry, execGapExpiry]
  dsimp only
  split
  · exact done_of_pending rfl
  · rename_i x hx
    rw [if_neg, done_of_pending rfl]
    obtain h | h | h | ⟨y, h, hlt⟩ := h
    · rw [hx] at h
      cases h
    · simp [h]
    · simp [h]
    · rw [hx] at h
      cases h
      simp [hlt]

theorem ingest_held {s : State} {k : Nat} (h : (stcOf s (streamOf s k).die).retaining = true ∨ segmentHolds s 580 (streamOf s k).die = true) :
    exec (.ingestTileMove k) s = .next s ∧ exec (.sampleComplete k) s = .next s := by
  constructor
  · exact (exec_ingestTileMove ..).trans ((if_pos (by simpa using h)).trans (done_of_pending rfl))
  · rw [exec_sampleComplete, execSampleComplete]
    dsimp only
    split
    · exact done_of_pending rfl
    · rw [if_pos (by obtain h | h := h <;> simp [h]), done_of_pending rfl]

theorem ingestTileMove_open {s s1 : State} {k : Nat} {x y : Sample} (hr : (stcOf s (streamOf s k).die).retaining = false)
    (hh : segmentHolds s 580 (streamOf s k).die = false) (hc : (streamOf s k).closing = []) (hx : (streamOf s k).cur = some x)
    (hm : moveTile s k x false = some (s1, y)) :
    exec (.ingestTileMove k) s = done s (modStream s1 k (fun t => { t with cur := some y })) := by
  rw [exec_ingestTileMove, execIngestTileMove]
  rw [if_neg (by simp [hr, hh]), hc, hx]
  dsimp only [List.find?_nil]
  rw [if_neg (by simp), hm]

theorem ingestTileMove_closing {s s1 : State} {k : Nat} {x y : Sample} (hr : (stcOf s (streamOf s k).die).retaining = false)
    (hh : segmentHolds s 580 (streamOf s k).die = false) (hx : (streamOf s k).closing.find? (fun x => x.moved < x.data.length) = some x)
    (hm : moveTile s k x true = some (s1, y)) : exec (.ingestTileMove k) s = done s (modStream s1 k (fun t =>
      { t with closing := t.closing.map (fun z => if z.seq = x.seq then y else z) })) := by
  rw [exec_ingestTileMove, execIngestTileMove]
  rw [if_neg (by simp [hr, hh]), hx]
  dsimp only
  rw [hm]

theorem sampleComplete_completes {s : State} {k : Nat} {x z : Sample} {rest : List Sample} (hc : (streamOf s k).closing = x :: rest)
    (hm : x.data.length ≤ x.moved) (hr : (stcOf s (streamOf s k).die).retaining = false) (hh : segmentHolds s 580 (streamOf s k).die = false)
    (hl : (stcOf s (streamOf s k).die).level + 256 ≤ 131072) (hz : placeSample (streamOf s k) x = some z) :
    exec (.sampleComplete k) s =
      (let t := streamOf s k
       let y : Sample := { z with complete := s.now }
       done s (modStream (putIngest (ingestIn s t.die 256) k (slotAddr t y.slot) 8 y.gen (sampleHeader t k y false)) k
         (fun t => { t with closing := rest, prev := t.latest, latest := some y, seq := max t.seq y.seq }))) := by
  rw [exec_sampleComplete, execSampleComplete]
  dsimp only
  rw [hc]
  dsimp only
  rw [if_neg (by simp [hr, hh, hm, hl]), hz]

/-- Settles O51: samples from their start to their place in the store. -/
theorem sensorSamples : Obligations.SensorSamples := by
  rintro s port vc n k t rfl
  refine ⟨fun h => ?start, fun _ => rfl, rfl, fun h => ?notReady, fun f => ⟨fun h => ?noDatagram, fun d h hd => ?datagram⟩, startSample_opens,
    fun x hx hf hr he => endSample_whole hx hf hr he, fun x hx hf hr => endSample_damaged hx hf hr, fun x => gapExpiry_closes, gapExpiry_waits,
    ingest_held, fun h => ?nothingClosing, fun x s1 y => ingestTileMove_open, fun x s1 y => ingestTileMove_closing,
    fun x z rest => sampleComplete_completes, fun x => ?instant_, fun i => freeSampleSlot_free, freeSampleSlot_isSome⟩
  case start => exact (exec_csi2FrameStart ..).trans (if_neg (by simp [h]))
  case notReady => exact (exec_csi2FrameStart ..).trans (if_pos (by simp [h]))
  case noDatagram =>
    rw [exec_ethernetFrame, execEthernetFrame]
    split
    · simp only [Bool.or_assoc]
    · rename_i hr
      rw [h.resolve_left (by simpa using hr)]
  case datagram =>
    rw [exec_ethernetFrame, execEthernetFrame]
    rw [if_neg (by simp [h]), hd]
  case nothingClosing =>
    rw [exec_sampleComplete, execSampleComplete, h]
    exact done_of_pending rfl
  case instant_ => simp [sampleInstant]

/-! ## Device time and links -/

/-- What a Sync notes of the grandmaster before it acts on its offset. -/
def heardSync (s : State) (off : Int) (gm steps : Nat) : State :=
  { s with time := { s.time with
      gmPresent := true, holdover := false, slewBack := false, offset := off, lastSync := s.now, gmId := gm, stepsRemoved := steps } }

/-- A Sync outside reset, by the package's readiness and the offset. -/
theorem gptpSync_eq {s : State} (off : Int) (gm steps : Nat) (hr : s.inReset = false) : exec (.gptpSync off gm steps) s =
    if !s.host.ready && !s.time.locked then
      done s (inSync (if off = 0 then heardSync s off gm steps else stepTime (heardSync s off gm steps) (-off)))
    else if off > 1000000 then
      done s { heardSync s off gm steps with time := { (heardSync s off gm steps).time with ppm := -500, slewBack := true } }
    else if off < -1000000 then done s (inSync (stepTime (heardSync s off gm steps) (-off)))
    else
      let (p, s2) := freePpm (heardSync s off gm steps)
      done s { s2 with time := { s2.time with ppm := p } } :=
  (exec_gptpSync ..).trans (if_neg (by simp [hr]))

/-- The steering that the spec leaves open stays within 500 ppm. -/
theorem freePpm_bounds (s : State) : -500 ≤ (freePpm s).1 ∧ (freePpm s).1 ≤ 500 := by
  have h := Nat.mod_lt (Config.freeValue s.fresh) (show 0 < 1001 by decide)
  have he : (freePpm s).1 = ((Config.freeValue s.fresh % 1001 : Nat) : Int) - 500 := rfl
  omega

theorem linkTraining_measures {s : State} {link : Nat} (m : LinkMeasure) (h1 : s.inReset = false) (h2 : s.railsLow = false)
    (hl : link < 12 ∨ (16 ≤ link ∧ link < 20)) : exec (.linkTraining link m) s = .next (modLink s link (fun l =>
      { l with
        up := l.up || decide (12 ≤ link), lanes := m.lanes, rate := m.rate, skewPs := m.skewPs, lossX10 := m.lossX10
        lengthMm := lengthMm link m, pSpeed := m.pSpeed, pWidth := m.pWidth, lp11 := m.lp11 })) := by
  have h32 : link ≠ 32 := by omega
  rw [exec_linkTraining, execLinkTraining, if_neg (by simp [h1, h2]; omega)]
  dsimp only
  rw [if_pos h32]
  exact done_of_pending rfl

theorem linkTraining_host {s : State} (m : LinkMeasure) (h1 : s.inReset = false) (h2 : s.railsLow = false) : ∃ t,
    exec (.linkTraining 32 m) s = .next t ∧ t.host.linkUp = true ∧
      t = { s with links := t.links, host := { s.host with linkUp := true, crs := t.host.crs } } := by
  rw [exec_linkTraining, execLinkTraining, if_neg (by simp [h1, h2])]
  exact ⟨_, done_of_pending rfl, rfl, rfl⟩

/-- Settles O52: device time by its grandmaster, and the links. -/
theorem timeAndLinks : Obligations.TimeAndLinks := by
  intro s off gm steps hr
  refine ⟨⟨fun h hl h0 => ?unlocked, fun h ho => ?leads, fun h ho => ?lags, fun h h1 h2 => ?steers⟩, fun h => ?holdover,
    fun link m h2 => linkTraining_measures m hr h2, fun m => linkTraining_host m hr, fun mac h => ?down⟩
  case unlocked =>
    rw [gptpSync_eq off gm steps hr, if_pos (by simp [h, hl]), if_neg h0]
    rfl
  case leads =>
    rw [gptpSync_eq off gm steps hr, if_neg (by simp [h]), if_pos ho]
    exact done_of_pending rfl
  case lags =>
    rw [gptpSync_eq off gm steps hr, if_neg (by simp [h]), if_neg (by omega), if_pos ho]
    rfl
  case steers =>
    rw [gptpSync_eq off gm steps hr, if_neg (by simp [h]), if_neg (by omega), if_neg (by omega)]
    obtain ⟨hlo, hhi⟩ := freePpm_bounds (heardSync s off gm steps)
    exact ⟨_, hlo, hhi, done_of_pending rfl⟩
  case holdover => exact (exec_gptpHoldover ..).trans ((if_pos (by simp [h])).trans (done_of_pending rfl))
  case down => exact (exec_ethLinkDown ..).trans ((if_neg (by omega)).trans (done_of_pending rfl))

end Sys2Proof.Machine
end

section
/-! PROOFS. The Almanac's ring and its journal. -/

namespace Sys2Proof.Machine

/-! ## What an event changes of the Almanac -/

/-- A new record, or its drop, changes the ring, its order and what is due; the head rises by at most 1. -/
theorem almCreate_changes (s : State) (src : Nat) (c : AlmCode) (sev flags : Nat) (payload : List Nat) (time : Nat) :
    ∃ ring commits last head newest due drops h, almCreate s src c sev flags payload time =
      { s with
        alm := { s.alm with ring := ring, commits := commits, lastSlot := last, head := head, newest := newest, due := due, drops := drops }
        host := h } ∧ head ≤ s.alm.head + 1 := by
  unfold almCreate
  split
  · exact ⟨_, _, _, _, _, _, _, _, rfl, Nat.le_succ _⟩
  · dsimp only
    split
    · obtain ⟨h, he⟩ := msix_frame { s with alm := { s.alm with
        ring := _, commits := _, lastSlot := _, head := _, newest := _, due := _ } } 2
      exact ⟨_, _, _, _, _, _, _, h, he, Nat.le_refl _⟩
    · exact ⟨_, _, _, _, _, _, _, _, rfl, Nat.le_refl _⟩

/-- The parts of the Almanac that no event changes. -/
structure SameJournal (a b : Alm) : Prop where
  halves : b.halves = a.halves
  half : b.half = a.half
  compacting : b.compacting = a.compacting
  compactAt : b.compactAt = a.compactAt
  journalFault : b.journalFault = a.journalFault

theorem alm_sameJournal (s : State) (src : Nat) (c : AlmCode) (sev : Nat) (p : List Nat) : SameJournal s.alm (alm s src c sev p).alm := by
  unfold alm almAt
  split
  · exact ⟨rfl, rfl, rfl, rfl, rfl⟩
  split
  · unfold almBuffer
    split <;> exact ⟨rfl, rfl, rfl, rfl, rfl⟩
  split
  · exact ⟨rfl, rfl, rfl, rfl, rfl⟩
  · obtain ⟨_, _, _, _, _, _, _, _, he, -⟩ := almCreate_changes s src c sev 0 p s.now
    rw [he]
    exact ⟨rfl, rfl, rfl, rfl, rfl⟩

/-! ## Events -/

theorem freeSlot_free {ring : Tbl AlmRec} {fuel k j : Nat} (h : freeSlot ring fuel k = some j) : tfind ring j = none := by
  induction fuel generalizing k with
  | zero => cases h
  | succ fuel ih =>
    rw [freeSlot] at h
    split at h
    · exact ih h
    · rename_i hn
      cases h
      simpa [thas] using hn

/-- The step of the search for the slot that gives way. -/
def olderSlot (sev : Nat) (best : Option (Nat × Nat)) (p : Nat × AlmRec) : Option (Nat × Nat) :=
  if p.2.severity ≤ sev && !p.2.isClear then
    match best with
    | none => some (p.1, p.2.seq)
    | some b => if p.2.seq < b.2 then some (p.1, p.2.seq) else best
  else best

theorem oldestSlot_eq (ring : Tbl AlmRec) (sev : Nat) : oldestSlot ring sev = ring.foldl (olderSlot sev) none := rfl

theorem olderSlot_cases {sev : Nat} {best : Option (Nat × Nat)} {p : Nat × AlmRec} {b : Nat × Nat} (h : olderSlot sev best p = some b) :
    best = some b ∨ (b.1 = p.1 ∧ p.2.severity ≤ sev ∧ p.2.isClear = false) := by
  unfold olderSlot at h
  split at h
  · rename_i hp
    simp only [Bool.and_eq_true, decide_eq_true_eq, Bool.not_eq_true'] at hp
    split at h
    · cases h
      exact .inr ⟨rfl, hp⟩
    · split at h
      · cases h
        exact .inr ⟨rfl, hp⟩
      · exact .inl h
  · exact .inl h

/-- The slot that gives way holds a record of no higher severity that is no CLEAR record. -/
theorem foldl_olderSlot {sev : Nat} (l : Tbl AlmRec) {best : Option (Nat × Nat)} {b : Nat × Nat} (h : l.foldl (olderSlot sev) best = some b) :
    best = some b ∨ ∃ r, (b.1, r) ∈ l ∧ r.severity ≤ sev ∧ r.isClear = false := by
  induction l generalizing best with
  | nil => exact .inl h
  | cons p l ih =>
    obtain h | ⟨r, hr, hs⟩ := ih h
    · obtain h | ⟨h1, hs⟩ := olderSlot_cases h
      · exact .inl h
      · exact .inr ⟨p.2, by rw [h1]; exact List.mem_cons_self, hs⟩
    · exact .inr ⟨r, List.mem_cons_of_mem _ hr, hs⟩

theorem placeSlot_free_or_gives {a : Alm} {sev k : Nat} (h : placeSlot a sev = some k) :
    tfind a.ring k = none ∨ ∃ r, (k, r) ∈ a.ring ∧ r.severity ≤ sev ∧ r.isClear = false := by
  unfold placeSlot at h
  split at h
  · rename_i j hj
    cases h
    exact .inl (freeSlot_free hj)
  · obtain ⟨b, hb, rfl⟩ := Option.map_eq_some_iff.mp h
    exact .inr ((foldl_olderSlot a.ring hb).resolve_left (by simp))

theorem almAt_creates {s : State} {src : Nat} {c : AlmCode} {sev : Nat} {p : List Nat} {time : Nat} (hr : s.alm.ready = true)
    (hc : s.alm.clearing = false) (hn : repeatSlot s.alm src c sev p time = none) : almAt s src c sev p time = almCreate s src c sev 0 p time := by
  rw [almAt, if_neg (by simp [hr]), if_neg (by simp [hc]), hn]

theorem almAt_repeats {s : State} {src : Nat} {c : AlmCode} {sev : Nat} {p : List Nat} {time k : Nat} {r : AlmRec} (hr : s.alm.ready = true)
    (hc : s.alm.clearing = false) (hn : repeatSlot s.alm src c sev p time = some (k, r)) : ∃ com due r',
    r' = { r with repeats := r.repeats + 1, lastTime := time, commit := com } ∧ almAt s src c sev p time =
      { s with alm := { s.alm with ring := tput s.alm.ring k r', commits := tput s.alm.commits k com, due := due } } := by
  rw [almAt, if_neg (by simp [hr]), if_neg (by simp [hc]), hn]
  exact ⟨_, _, _, rfl, rfl⟩

theorem almAt_notReady {s : State} (src : Nat) (c : AlmCode) (sev : Nat) (p : List Nat) (time : Nat) (hr : s.alm.ready = false) :
    almAt s src c sev p time = s := if_pos (by simp [hr])

theorem almAt_clearing {s : State} (e : AlmMsg) (hr : s.alm.ready = true) (hc : s.alm.clearing = true) :
    almAt s e.source e.code e.severity e.payload e.time = almBuffer s e :=
  (if_neg (by simp [hr])).trans (if_pos hc)

/-- A record that finds a slot. -/
theorem almCreate_places {s : State} {src : Nat} {c : AlmCode} {sev flags : Nat} {p : List Nat} {time k : Nat} (h : placeSlot s.alm sev = some k) :
    ∃ r, tfind (almCreate s src c sev flags p time).alm.ring k = some r ∧ r.seq = s.alm.head + 1 ∧ r.source = src ∧ r.code = c ∧
      r.severity = sev ∧ r.payload = p ∧ r.time = time ∧ r.repeats = 1 ∧ (almCreate s src c sev flags p time).alm.head = s.alm.head + 1 := by
  unfold almCreate
  rw [h]
  dsimp only
  split
  · rw [msix_alm]
    exact ⟨_, tfind_tput_self .., rfl, rfl, rfl, rfl, rfl, rfl, rfl, rfl⟩
  · exact ⟨_, tfind_tput_self .., rfl, rfl, rfl, rfl, rfl, rfl, rfl, rfl⟩

theorem almCreate_drops {s : State} {src : Nat} {c : AlmCode} {sev flags : Nat} {p : List Nat} {time : Nat} (h : placeSlot s.alm sev = none) :
    almCreate s src c sev flags p time =
      { s with alm := { s.alm with drops := tmod s.alm.drops sev 0 (fun n => sat 0xFFFFFFFF (n + 1)) } } := by
  rw [almCreate, h]

theorem almanacEvent_next {s t : State} {e : AlmMsg} (h : almAt s e.source e.code e.severity e.payload e.time = t) (hp : t.pending = s.pending) :
    exec (.almanacEvent e) s = .next t := by
  rw [exec_almanacEvent, execAlmanacEvent, h]
  exact done_of_pending hp

/-! ## The journal -/

theorem programDue_none {s : State} (h : Nat) (fail : Bool) (hd : s.alm.due.filter (fun e => decide (e.due ≤ s.now)) = []) :
    programDue s h fail = s := if_pos (by rw [hd]; rfl)

theorem programDue_some {s : State} (h : Nat) (fail : Bool) (hd : s.alm.due.filter (fun e => decide (e.due ≤ s.now)) ≠ []) :
    programDue s h fail = if fail then
        journalError { s with alm := { s.alm with
          due := s.alm.due.map (fun e => if e.due ≤ s.now then { e with due := nextSecond s.now, retry := true } else e) } }
      else { s with alm := { s.alm with
        due := s.alm.due.filter (fun e => s.now < e.due)
        halves := tput s.alm.halves h (tget s.alm.halves h [] ++ s.alm.due.filter (fun e => decide (e.due ≤ s.now))) } } :=
  if_neg (by simpa using hd)

theorem beginCompaction_begins {s : State} (hc : s.alm.compacting = false) (hf : 49152 ≤ (tget s.alm.halves s.alm.half []).length) :
    beginCompaction s = { s with alm := { s.alm with
      compacting := true, compactFailed := false, compactAt := s.now, halves := tput s.alm.halves (1 - s.alm.half) [] } } :=
  if_neg (by rw [hc, Bool.false_or]; exact fun h => Nat.not_lt.mpr hf (of_decide_eq_true h))

theorem beginCompaction_none {s : State} (hf : (tget s.alm.halves s.alm.half []).length < 49152) : beginCompaction s = s :=
  if_pos (by simp [journalFill, hf])

theorem endCompaction_ends {s : State} (hc : s.alm.compacting = true) (ht : s.alm.compactAt ≤ s.now) (fail : Bool) :
    endCompaction s fail = if fail then
        journalError { s with alm := { s.alm with compactFailed := true, compactAt := nextSecond s.now } }
      else
        let o := 1 - s.alm.half
        let imgs := s.alm.ring.map (fun p => ({ img := p.2, due := s.now } : JEntry))
        { s with alm := { s.alm with
            halves := tput (tput s.alm.halves o (tget s.alm.halves o [] ++ imgs)) s.alm.half [], half := o
            compacting := false, compactFailed := false, compactions := sat 0xFFFF (s.alm.compactions + 1) } } :=
  if_neg (by simp [hc, ht])

/-- A summary is one record, or is kept back during a clear. -/
theorem almanacSummary_sums {s : State} (hr : s.alm.ready = true) : ∃ t, exec .almanacSummary s = .next t ∧
    t.now = max s.now (s.alm.lastSummary + 60000000000) ∧ t.alm.lastSummary = t.now ∧ t.alm.head ≤ s.alm.head + 1 ∧
      t = { s with now := t.now, alm := t.alm, host := t.host } := by
  rw [exec_almanacSummary, execAlmanacSummary, if_neg (by simp [hr])]
  dsimp only
  split
  · unfold almBuffer
    split <;> exact ⟨_, done_of_pending rfl, rfl, rfl, Nat.le_succ _, rfl⟩
  · generalize summarySeverity _ = sev
    generalize List.map _ _ ++ _ = p
    unfold recordSummary
    dsimp only
    obtain ⟨_, _, _, hd, _, _, _, _, he, hle⟩ := almCreate_changes { s with
      now := max s.now (s.alm.lastSummary + 60000000000)
      alm := { s.alm with lastSummary := max s.now (s.alm.lastSummary + 60000000000) } } srcAlm .summary sev 2 p
      (max s.now (s.alm.lastSummary + 60000000000))
    rw [he]
    split <;> exact ⟨_, done_of_pending rfl, rfl, rfl, hle, rfl⟩

/-- Settles O53: the Almanac's events, and its journal. -/
theorem almanacEventsAndJournal : Obligations.AlmanacEventsAndJournal := by
  intro s
  refine ⟨fun e k hr hc hn hk => ?placed, fun e hr hc hn hk => ?dropped, fun e k r hr hc hn => ?repeated, fun a sev k => placeSlot_free_or_gives,
    fun e hr => ?notReady, fun e hr hc => ⟨fun hl => ?buffered, fun hl => ?counted⟩, fun fail hc => ?clearEnds, fun fail hc => ?flushes,
    fun h fail => programDue_none h fail, fun h hd => ⟨programDue_some h false hd, programDue_some h true hd⟩, fun hc hf => ?begins,
    beginCompaction_none, fun hc ht h2 => ?ends, fun hc ht => ?endFails, almanacSummary_sums, fun h1 h2 => ⟨fun h4 => ?settings, fun ha => ?rth⟩⟩
  case placed =>
    obtain ⟨r, h⟩ := almCreate_places (src := e.source) (c := e.code) (flags := 0) (p := e.payload) (time := e.time) hk
    obtain ⟨_, _, _, _, _, _, _, _, he, -⟩ := almCreate_changes s e.source e.code e.severity 0 e.payload e.time
    rw [← almAt_creates hr hc hn] at he h
    obtain ⟨h1, h2, h3, h4, h5, h6, h7, h8, h9⟩ := h
    exact ⟨_, r, almanacEvent_next rfl (by rw [he]), h1, h2, h3, h4, h5, h6, h7, h8, h9, by rw [he]⟩
  case dropped => exact almanacEvent_next ((almAt_creates hr hc hn).trans (almCreate_drops hk)) rfl
  case repeated =>
    obtain ⟨com, due, r', rfl, he⟩ := almAt_repeats hr hc hn
    exact ⟨_, _, almanacEvent_next he rfl, tfind_tput_self .., rfl, rfl, rfl, rfl, rfl, rfl⟩
  case notReady => exact ⟨s, almanacEvent_next (almAt_notReady _ _ _ _ _ hr) rfl, rfl, rfl⟩
  case buffered => exact almanacEvent_next ((almAt_clearing e hr hc).trans (if_pos hl)) rfl
  case counted => exact almanacEvent_next ((almAt_clearing e hr hc).trans (if_neg (Nat.not_lt.mpr hl))) rfl
  case clearEnds => exact (exec_journalFlush ..).trans (if_pos hc)
  case flushes => exact ⟨_, _, rfl, rfl, (exec_journalFlush ..).trans (if_neg (by simp [hc]))⟩
  case begins =>
    rw [beginCompaction_begins hc hf]
    exact ⟨rfl, tget_tput_self .., rfl⟩
  case ends =>
    have ho : 1 - s.alm.half ≠ s.alm.half := by omega
    dsimp only
    rw [endCompaction_ends hc ht, if_neg Bool.false_ne_true]
    dsimp only
    rw [tget_tput_self, tget_tput_ne _ _ _ _ _ ho, tget_tput_self, List.map_append, List.map_map]
    exact ⟨rfl, rfl, rfl, rfl, rfl, rfl⟩
  case endFails =>
    rw [endCompaction_ends hc ht, if_pos rfl]
    obtain ⟨h1, h2, h3, h4, h5⟩ := alm_sameJournal { s with alm := { s.alm with
      compactFailed := true, compactAt := nextSecond s.now, journalFault := true, faults := sat 0xFFFF (s.alm.faults + 1) } } srcAlm .journalFail 3
      [s.alm.half]
    exact ⟨h3.trans hc, h5, h2, h1, h4⟩
  case settings => exact (exec_settingsJournalWrite ..).trans (if_neg (by simp [h1, h2, h4]))
  case rth => exact (exec_rthJournal ..).trans (if_neg (by simp [h1, h2, ha]))

end Sys2Proof.Machine
end

section
/-! PROOFS. Resets, the boot stages and updates. -/

namespace Sys2Proof.Machine

/-! ## The first Calend after boot -/

theorem nextInstant_ge (t p f : Nat) : t ≤ nextInstant t p f := Nat.le_add_right ..

/-- The next instant is on the grid of its period and phase. -/
theorem nextInstant_emod (t f : Nat) {p : Nat} (hp : 0 < p) : ((nextInstant t p f : Int) - f) % p = 0 := by
  have ht := Nat.mod_lt t hp
  have h : nextInstant t p f % p = f % p := by
    rw [nextInstant, Nat.add_mod_mod, ← Nat.mod_add_mod, show t % p + (f % p + p - t % p) = f % p + p by omega, Nat.add_mod_right, Nat.mod_mod]
  exact Int.emod_eq_emod_iff_emod_sub_eq_zero.mp (by rw [← Int.natCast_emod, ← Int.natCast_emod, h])

/-- What a tile that enters the store leaves alone. -/
structure IngestKeeps (s t : State) : Prop where
  cal : t.cal = s.cal
  ready : t.host.ready = s.host.ready

theorem IngestKeeps.trans {s t u : State} (h : IngestKeeps s t) (h2 : IngestKeeps t u) : IngestKeeps s u :=
  ⟨h2.cal.trans h.cal, h2.ready.trans h.ready⟩

theorem putIngest_keeps (s : State) (k a lg gen : Nat) (bs : List Byte) : IngestKeeps s (putIngest s k a lg gen bs) := by
  unfold putIngest
  split
  · obtain ⟨_, _, _, he⟩ := alm_host s (0x6000 + k) .unmapped 3 [a, 4, tagOf s a]
    rw [he]
    exact ⟨rfl, rfl⟩
  · exact ⟨putTile_cal .., by rw [putTile_host]⟩

theorem placeholder_keeps (s : State) (k : Nat) : IngestKeeps s (placeholder s k) :=
  foldl_keeps (IngestKeeps s) _ (fun _ _ h => h.trans (putIngest_keeps ..)) _ _ (putIngest_keeps ..)

theorem becomeReady_ready (s : State) : (becomeReady s).host.ready = true ∧ (becomeReady s).cal.frame = 0 ∧
    (becomeReady s).cal.next = nextInstant (s.now + 1) (s.cal.periodReg * 100000) (s.cal.phaseUs * 1000) := by
  let s1 : State := { s with
    cal := { s.cal with frame := 0, next := nextInstant (s.now + 1) (s.cal.periodReg * 100000) (s.cal.phaseUs * 1000), evalDone := true }
    host := { s.host with ready := true, readyMs := sat 0xFFF (((s.now : Int) - s.boot0).toNat / 1000000), dir := tput s.host.dir 0 reportDir }
    fus := fusCold s.fus, st := { s.st with readyAt := s.now, scrubStart := s.now } }
  obtain ⟨hc, hr⟩ : IngestKeeps s1 (becomeReady s) :=
    foldl_keeps (IngestKeeps s1) _ (fun t p h => h.trans (placeholder_keeps t p.1)) _ _ ⟨rfl, rfl⟩
  rw [hc, hr]
  exact ⟨rfl, rfl, rfl⟩

theorem ready_becomes {s : State} (hs : atStage s 7 = true) (hr : s.host.ready = false) :
    ∃ t, exec .ready s = .next t ∧ t = { becomeReady s with pending := s.pending } ∧ t.host.ready = true ∧ t.cal.frame = 0 ∧
      s.now < t.cal.next ∧ (0 < s.cal.periodReg → ((t.cal.next : Int) - s.cal.phaseUs * 1000) % (s.cal.periodReg * 100000) = 0) := by
  obtain ⟨h1, h2, h3⟩ := becomeReady_ready s
  refine ⟨_, (exec_ready s).trans (if_neg (by simp [hs, hr])), rfl, h1, h2, ?_, fun hp => ?_⟩
  · exact Nat.lt_of_lt_of_le (Nat.lt_succ_self _) (h3 ▸ nextInstant_ge ..)
  · have h := nextInstant_emod (s.now + 1) (s.cal.phaseUs * 1000) (Nat.mul_pos hp (show 0 < 100000 by decide))
    rw [← h3, Int.natCast_mul, Int.natCast_mul] at h
    exact h

/-! ## Resets and boot stages -/

theorem deviceReset_leaves (s : State) (cause : Nat) : (deviceReset s cause).flash = s.flash ∧ (deviceReset s cause).hostMem = s.hostMem ∧
    (deviceReset s cause).mem = [] ∧ (deviceReset s cause).plans = [] ∧ (deviceReset s cause).host.ready = false ∧ (deviceReset s cause).now = 0 ∧
    (deviceReset s cause).upd.banks = s.upd.banks ∧ (deviceReset s cause).host.bootCause = cause :=
  ⟨rfl, rfl, rfl, rfl, rfl, rfl, rfl, rfl⟩

/-- The image load, past the checks of the fuses, the type and the flash. -/
theorem imageLoad_loads {s : State} {ph : BootPhys} {s2 : State} {mask : Nat} {b : Option Nat} (h2 : atStage s 2 = true) (hf : s.ident.hubFuseOk = true)
    (ht : knownType s.ident.hwType = true) (hp : ph.flashOk = true) (hm : 256 ≤ s.flash.mib)
    (hr : tryBanks (bootOrder (rejectTried (foundFlash ph s)).1) (rejectTried (foundFlash ph s)).1 (rejectTried (foundFlash ph s)).2 = (s2, mask, b)) :
    exec (.imageLoad ph) s = b.elim (done s (bootStop s2 2)) (fun b => done s (bootBank s2 mask b)) := by
  rw [exec_imageLoad, execImageLoad, if_neg (by simp [h2]), if_neg (by simp [hf]), if_neg (by simp [ht]), if_neg (by simp [hp, hm])]
  generalize rejectTried (foundFlash ph s) = x at hr ⊢
  obtain ⟨s1, m1⟩ := x
  dsimp only at hr ⊢
  rw [hr]
  cases b <;> rfl

/-- Settles O54: resets, and each boot stage at its place. -/
theorem resetsAndBootStages : Obligations.ResetsAndBootStages := by
  intro s ph
  refine ⟨rfl, fun h => ?release, rfl, fun h => ?recover, deviceReset_leaves s, fun ok h => ?clock,
    fun s2 mask b h2 hf ht hp hm hr => imageLoad_loads h2 hf ht hp hm hr, fun s2 mask h2 hf ht hp hm hr => imageLoad_loads h2 hf ht hp hm hr,
    fun h2 hf => ?fuse, fun h2 hf ht => ?type_, fun h2 hf ht hp => ?flash, fun h => ?released, fun h => ?railUp, fun ok h => ?clockElse,
    fun h => ?loadElse, fun h => ?discoveryElse, fun h => ?delayElse, fun h => ?injectElse, fun h => ?seasonElse, fun h => ?readyElse,
    fun h => ?discovery, fun h => ?delay, fun h => ?inject, fun h => ?season, ready_becomes⟩
  case release => exact (exec_porstRelease s).trans ((if_neg (by simp [h])).trans (done_of_pending rfl))
  case recover => exact (exec_hubRailRecover s).trans ((if_neg (by simp [h])).trans (done_of_pending rfl))
  case clock => exact (exec_hubClockLock ..).trans ((if_neg (by simp [h])).trans (done_of_pending rfl))
  case fuse => exact (exec_imageLoad ..).trans ((if_neg (by simp [h2])).trans (if_pos (by simp [hf])))
  case type_ => exact (exec_imageLoad ..).trans ((if_neg (by simp [h2])).trans ((if_neg (by simp [hf])).trans (if_pos (by simp [ht]))))
  case flash =>
    exact (exec_imageLoad ..).trans ((if_neg (by simp [h2])).trans ((if_neg (by simp [hf])).trans ((if_neg (by simp [ht])).trans
      (if_pos (by simpa using hp)))))
  case released => exact (exec_porstRelease s).trans ((if_pos (by simp [h])).trans (done_of_pending rfl))
  case railUp => exact (exec_hubRailRecover s).trans ((if_pos (by simp [h])).trans (done_of_pending rfl))
  case clockElse => exact (exec_hubClockLock ..).trans ((if_pos (by simp [h])).trans (done_of_pending rfl))
  case loadElse => exact (exec_imageLoad ..).trans ((if_pos (by simp [h])).trans (done_of_pending rfl))
  case discoveryElse => exact (exec_discovery ..).trans ((if_pos (by simp [h])).trans (done_of_pending rfl))
  case delayElse => exact (exec_delaySetup ..).trans ((if_pos (by simp [h])).trans (done_of_pending rfl))
  case injectElse => exact (exec_errorInjection ..).trans ((if_pos (by simp [h])).trans (done_of_pending rfl))
  case seasonElse => exact (exec_seasonSelection ..).trans ((if_pos (by simp [h])).trans (done_of_pending rfl))
  case readyElse => exact (exec_ready s).trans ((if_pos (by simpa using h)).trans (done_of_pending rfl))
  case discovery => exact (exec_discovery ..).trans (if_neg (by simp [h]))
  case delay => exact (exec_delaySetup ..).trans (if_neg (by simp [h]))
  case inject => exact (exec_errorInjection ..).trans (if_neg (by simp [h]))
  case season => exact (exec_seasonSelection ..).trans (if_neg (by simp [h]))

/-! ## Updates -/

/-- A step of the settings' take-over leaves the update's state alone. -/
theorem setCeilings_upd (s : State) : (setCeilings s).upd = s.upd := by
  refine foldl_keeps (fun t : State => t.upd = s.upd) _ (fun t q h => ?_) _ s rfl
  dsimp only
  split
  · exact (alm_upd _ _ _ _ _).trans h
  · exact h

theorem defaultKey_upd (s : State) (j : JKey) : (defaultKey s j).upd = s.upd := by
  unfold defaultKey
  dsimp only
  split
  · exact alm_upd ..
  · exact alm_upd ..
  · exact (setCeilings_upd _).trans (alm_upd ..)
  · exact alm_upd ..

theorem writeSetting_upd (s : State) (cls idx : Nat) (v : List Nat) : (writeSetting s cls idx v).upd = s.upd := by
  unfold writeSetting compactSettings
  dsimp only
  split <;> rfl

theorem rewriteKey_upd (s : State) (key : Nat) : (rewriteKey s key).upd = s.upd := by
  unfold rewriteKey
  dsimp only
  split
  · exact writeSetting_upd ..
  · split
    · exact writeSetting_upd ..
    · rfl
  · exact writeSetting_upd ..
  · exact writeSetting_upd ..

theorem takeSettings_upd (s : State) : (takeSettings s).upd = s.upd := by
  refine (alm_upd ..).trans (foldl_keeps (fun t : State => t.upd = s.upd) _ (fun t j h => (rewriteKey_upd t j.key).trans h) _ _ ?_)
  exact foldl_keeps (fun t : State => t.upd = s.upd) _ (fun t j h => (defaultKey_upd t j).trans h) _ s rfl

theorem handOver_bank (s : State) (b : Nat) : (handOver s b).upd.bank = b := by
  unfold handOver
  dsimp only
  rw [takeSettings_upd]
  rfl

theorem seamless_upd (s : State) (n : Nat) : (seamless s n).upd.state = 4 ∧ (seamless s n).upd.bank = otherBank s ∧
    (seamless s n).upd.windowEnd = some (n + (seamless s n).upd.confirmFrames) := by
  unfold seamless
  dsimp only
  generalize writeDir s _ = s0
  have hb := handOver_bank s0 (otherBank s)
  generalize handOver s0 (otherBank s) = s1 at hb ⊢
  rw [notify_upd]
  exact ⟨rfl, hb, rfl⟩

theorem scheduleFallback_upd (s : State) (k : Nat) : (scheduleFallback s k).upd.state = 5 ∧ (scheduleFallback s k).upd.fallback = some k ∧
    (bankOf (scheduleFallback s k) s.upd.bank).state = 4 := by
  have hu : (scheduleFallback s k).upd =
      { (setBank s s.upd.bank 4 (bankOf s s.upd.bank).attempts).upd with state := 5, windowEnd := none, fallback := some k } := by
    unfold scheduleFallback
    dsimp only
    rw [notify_upd, alm_upd]
    rfl
  rw [bankOf, hu]
  refine ⟨rfl, rfl, ?_⟩
  simp only [setBank, writeDir, modUpd, tget_tmod_self]

theorem updateEpoch_comes {s : State} {n : Nat} (hr : s.host.ready = true) (h3 : s.upd.state = 3) (he : s.upd.epoch = some n)
    (hn : n ≤ s.cal.frame) : exec .updateEpoch s =
      if s.upd.handover = 1 then done s (restartDevice (setBank s (otherBank s) 2 0) 4) else done s (seamless s n) := by
  rw [exec_updateEpoch, execUpdateEpoch, he]
  exact if_neg (by simp [hr, h3, hn])

theorem fallbackEpoch_comes {s : State} {n : Nat} (hf : s.upd.fallback = some n) (hr : s.host.ready = true) (h5 : s.upd.state = 5)
    (hn : n ≤ s.cal.frame) : exec .fallbackEpoch s = if s.upd.restartKind then done s (restartDevice s 4)
      else done s (modUpd (handOver s (otherBank s)) (fun u => { u with state := 6, fallback := none, staged := [] })) := by
  rw [exec_fallbackEpoch, execFallbackEpoch, hf]
  exact if_neg (by simp [hr, h5, hn])

/-- Settles O56: the epochs of an update, its fallback, and the keys. -/
theorem updateEpochsTakeEffect : Obligations.UpdateEpochsTakeEffect := by
  intro s n
  refine ⟨fun hr h3 he hn => ⟨fun h1 => ?restarts, fun h1 => ?seamless_, seamless_upd s n⟩, fun h => ?noEpoch, fun h => ?noWindow,
    fun h => ?noFallback, fun h => ?noKeys, fun w hw h4 hf => ?expires, fun hf hr h5 hn => ⟨fun hk => ?back, fun hk => ?hands⟩,
    scheduleFallback_upd s, fun hr hk => ?keys⟩
  case restarts => exact (updateEpoch_comes hr h3 he hn).trans (if_pos h1)
  case seamless_ => exact (updateEpoch_comes hr h3 he hn).trans (if_neg h1)
  case noEpoch =>
    rw [exec_updateEpoch, execUpdateEpoch]
    split
    · exact done_of_pending rfl
    · rename_i m hm
      rw [hm] at h
      rw [if_pos, done_of_pending rfl]
      obtain h | h | h | ⟨h, hlt⟩ := h
      · cases h
      · simp [h]
      · simp [h]
      · cases h
        simp [hlt]
  case noWindow =>
    rw [exec_confirmWindowExpiry, execConfirmWindowExpiry]
    split
    · exact done_of_pending rfl
    · rename_i m hm
      rw [hm] at h
      rw [if_pos, done_of_pending rfl]
      obtain h | h | ⟨h, hlt⟩ := h
      · cases h
      · simp [h]
      · cases h
        simp [hlt]
  case noFallback =>
    rw [exec_fallbackEpoch, execFallbackEpoch]
    split
    · exact done_of_pending rfl
    · rename_i m hm
      rw [hm] at h
      rw [if_pos, done_of_pending rfl]
      obtain h | h | h | ⟨h, hlt⟩ := h
      · cases h
      · simp [h]
      · simp [h]
      · cases h
        simp [hlt]
  case noKeys => exact (exec_keyDerivationDone s).trans ((if_pos (by simpa using h)).trans (done_of_pending rfl))
  case expires =>
    rw [exec_confirmWindowExpiry, execConfirmWindowExpiry, hw]
    exact if_neg (by simp [h4, hf])
  case back => exact (fallbackEpoch_comes hf hr h5 hn).trans (if_pos hk)
  case hands => exact (fallbackEpoch_comes hf hr h5 hn).trans (if_neg (by simp [hk]))
  case keys => exact (exec_keyDerivationDone s).trans ((if_neg (by simp [hr, hk])).trans (done_of_pending rfl))

end Sys2Proof.Machine
end

section
/-! PROOFS. Checksums of moved tiles: a CRC register is linear in its start and its bytes. -/

namespace Sys2Proof.Machine

theorem xor_swap_last (a b c : Nat) : (a ^^^ b) ^^^ c = (a ^^^ c) ^^^ b := by ac_rfl

theorem crcBits_xor (poly n c d : Nat) : crcBits poly n (c ^^^ d) = crcBits poly n c ^^^ crcBits poly n d := by
  induction n generalizing c d with
  | zero => rfl
  | succ n ih =>
    have hstep : (if (c ^^^ d) % 2 = 1 then (c ^^^ d) >>> 1 ^^^ poly else (c ^^^ d) >>> 1) =
        (if c % 2 = 1 then c >>> 1 ^^^ poly else c >>> 1) ^^^ (if d % 2 = 1 then d >>> 1 ^^^ poly else d >>> 1) := by
      have hodd : (c ^^^ d) % 2 = 1 ↔ (c + d) % 2 = 1 := by
        rw [Nat.xor_mod_two_eq_one]
        omega
      rw [Nat.shiftRight_xor_distrib]
      rcases Nat.mod_two_eq_zero_or_one c with hc | hc <;> rcases Nat.mod_two_eq_zero_or_one d with hd | hd
      · rw [if_neg (mt hodd.mp (by omega)), if_neg (by omega), if_neg (by omega)]
      · rw [if_pos (hodd.mpr (by omega)), if_neg (by omega), if_pos hd]
        ac_rfl
      · rw [if_pos (hodd.mpr (by omega)), if_pos hc, if_neg (by omega)]
        ac_rfl
      · rw [if_neg (mt hodd.mp (by omega)), if_pos hc, if_pos hd, Nat.xor_assoc, ← Nat.xor_assoc poly, Nat.xor_comm poly, Nat.xor_assoc, Nat.xor_self,
          Nat.xor_zero]
    rw [crcBits, crcBits, crcBits, hstep, ih]

theorem crcRun_append (poly c : Nat) (xs ys : List Byte) : crcRun poly c (xs ++ ys) = crcRun poly (crcRun poly c xs) ys := List.foldl_append

/-- Two registers side by side are one that runs over the bytes' sum. -/
theorem crcRun_xor (poly : Nat) {xs ys : List Byte} (h : xs.length = ys.length) (c d : Nat) :
    crcRun poly c xs ^^^ crcRun poly d ys = crcRun poly (c ^^^ d) (xorBytes xs ys) := by
  induction xs generalizing ys c d with
  | nil =>
    obtain rfl : ys = [] := List.length_eq_zero_iff.mp h.symm
    rfl
  | cons x xs ih =>
    cases ys with
    | nil => cases h
    | cons y ys =>
      have hb : crcBits poly 8 (c ^^^ x.toNat) ^^^ crcBits poly 8 (d ^^^ y.toNat) = crcBits poly 8 ((c ^^^ d) ^^^ (x ^^^ y).toNat) := by
        rw [← crcBits_xor, BitVec.toNat_xor]
        congr 1
        ac_rfl
      calc crcRun poly c (x :: xs) ^^^ crcRun poly d (y :: ys)
          = crcRun poly (crcBits poly 8 (c ^^^ x.toNat) ^^^ crcBits poly 8 (d ^^^ y.toNat)) (xorBytes xs ys) := ih (Nat.succ.inj h) _ _
        _ = crcRun poly (c ^^^ d) (xorBytes (x :: xs) (y :: ys)) := by rw [hb]; rfl

theorem xorBytes_self_left (xs ys : List Byte) (h : xs.length = ys.length) : xorBytes xs (xorBytes xs ys) = ys := by
  induction xs generalizing ys with
  | nil => exact (List.length_eq_zero_iff.mp h.symm).symm
  | cons x xs ih =>
    cases ys with
    | nil => cases h
    | cons y ys =>
      have hx : x ^^^ (x ^^^ y) = y := by rw [← BitVec.xor_assoc, BitVec.xor_self, BitVec.zero_xor]
      exact List.cons_eq_cons.mpr ⟨hx, ih ys (Nat.succ.inj h)⟩

theorem xorBytes_zeros (bs : List Byte) : xorBytes bs (List.replicate bs.length 0) = bs := by
  induction bs with
  | nil => rfl
  | cons b bs ih => exact List.cons_eq_cons.mpr ⟨BitVec.xor_zero, ih⟩

theorem xorBytes_append {a b : List Byte} (c d : List Byte) (h : a.length = b.length) : xorBytes (a ++ c) (b ++ d) = xorBytes a b ++ xorBytes c d :=
  List.zipWith_append h

/-- Settles O58: the derived checksum is the register run over both copies' sum. -/
theorem movedCopiesKeepTheirCheck : Obligations.MovedCopiesKeepTheirCheck := by
  intro bs src gs dst gd
  have hp : (foldPrefix src gs).length = (foldPrefix dst gd).length := rfl
  have hx : (xorBytes (foldPrefix src gs) (foldPrefix dst gd)).length = (foldPrefix src gs).length := rfl
  have hsum := crcRun_xor 0x82F63B78 (xs := foldPrefix src gs ++ bs)
    (ys := xorBytes (foldPrefix src gs) (foldPrefix dst gd) ++ List.replicate bs.length 0) (by simp [hx]) 0xFFFFFFFF 0
  rw [xorBytes_append _ _ hx.symm, xorBytes_self_left _ _ hp, xorBytes_zeros, Nat.xor_zero, crcRun_append _ 0] at hsum
  calc movedCrc (tileCrc src gs bs) src gs dst gd bs.length
      = (crcRun 0x82F63B78 0xFFFFFFFF (foldPrefix src gs ++ bs) ^^^
          crcRun 0x82F63B78 (crcRun 0x82F63B78 0 (xorBytes (foldPrefix src gs) (foldPrefix dst gd))) (List.replicate bs.length 0)) ^^^ 0xFFFFFFFF :=
        xor_swap_last ..
    _ = tileCrc dst gd bs := by rw [hsum]; rfl

end Sys2Proof.Machine
end

section
/-!
PROOFS. Both memories in canonical form (O57): the predicate, and what keeps it through the shapes that the model's functions are made of. The files behind
this one hold one lemma `f_canon` for each function `f` of the model that changes a state, in the model's order: its term follows the body of `f`
and names the lemma of each function called there, so that no proof looks into a function twice. `canon_mk` closes an update of fields other than
the memories at once.
-/

namespace Sys2Proof.Machine

/-- Device memory and host memory are in canonical form. -/
def Canon (s : State) : Prop := Memory.wf s.mem = true ∧ Memory.wf s.hostMem = true

/-- A state written out is judged by its two memories alone. -/
theorem canon_mk {f0 f1 f2 f3 f4 f5 f6 f7 f8 f9 f10 f11 f12 f13 f14 f15 mem f17 f18 f19 f20 f21 f22 f23 f24 f25 f26 f27 f28 f29 f30 f31 f32 f33
    f34 f35 f36 f37 f38 f39 f40 f41 f42 f43 f44 f45 f46 f47 f48 f49 f50 f51 f52 f53 f54 f55 f56 hostMem f58 f59 f60 f61 f62 f63}
    (h : Memory.wf mem = true ∧ Memory.wf hostMem = true) :
    Canon (State.mk f0 f1 f2 f3 f4 f5 f6 f7 f8 f9 f10 f11 f12 f13 f14 f15 mem f17 f18 f19 f20 f21 f22 f23 f24 f25 f26 f27 f28 f29 f30 f31 f32 f33
      f34 f35 f36 f37 f38 f39 f40 f41 f42 f43 f44 f45 f46 f47 f48 f49 f50 f51 f52 f53 f54 f55 f56 hostMem f58 f59 f60 f61 f62 f63) := h

theorem canon_fst {β : Type} {a : State} {b : β} (h : Canon a) : Canon (a, b).1 := h

theorem canon_snd {α : Type} {a : α} {b : State} (h : Canon b) : Canon (a, b).2 := h

theorem canon_of_fst_eq {β : Type} {x : State × β} {t : State} {b : β} (e : x = (t, b)) (h : Canon x.1) : Canon t := by
  subst e
  exact h

theorem canon_of_snd_eq {α : Type} {x : α × State} {a : α} {t : State} (e : x = (a, t)) (h : Canon x.2) : Canon t := by
  subst e
  exact h

theorem canon_of_rd_eq {β : Type} {x : Rd × β} {r : Rd} {b : β} (e : x = (r, b)) (h : Canon x.1.s) : Canon r.s := by
  subst e
  exact h

/-- The results that carry a state, written out, are judged by it alone. -/
theorem canon_answer {st status result} (h : Canon st) : Canon (Answer.mk st status result).st := h

theorem canon_eff {s status arith unitStatus outs cycles notes defer seqWr seqIds} (h : Canon s) :
    Canon (Eff.mk s status arith unitStatus outs cycles notes defer seqWr seqIds).s := h

theorem canon_rd {s ok refetch again dead} (h : Canon s) : Canon (Rd.mk s ok refetch again dead).s := h

/-- A state with the memories of one whose memories are canonical. -/
theorem canon_of_same {s t : State} (hm : t.mem = s.mem) (hh : t.hostMem = s.hostMem) (h : Canon s) : Canon t :=
  ⟨hm ▸ h.1, hh ▸ h.2⟩

/-- If there is a state at all, its memories are canonical: the claim about an operation that may find no room. -/
def CanonSome (o : Option State) : Prop := ∀ t ∈ o, Canon t

theorem canonSome_none : CanonSome none := fun _ h => nomatch h

theorem canonSome_some {s : State} (h : Canon s) : CanonSome (some s) := fun _ e => Option.some.inj e ▸ h

theorem canonSome_getD {o : Option State} {s : State} (ho : CanonSome o) (h : Canon s) : Canon (o.getD s) := by
  cases o with
  | none => exact h
  | some t => exact ho t rfl

/-- Whatever next state a step answers, its memories are canonical. -/
def CanonNext (o : Out) : Prop := ∀ t, o = .next t → Canon t

theorem done_canon {s t : State} (h : Canon t) : CanonNext (done s t) := by
  intro _ e
  cases e
  exact canon_mk h

theorem canonNext_ite {p : Prop} [Decidable p] {a b : Out} (ha : CanonNext a) (hb : CanonNext b) : CanonNext (if p then a else b) := by
  split <;> assumption

/-- The state that `g` reads out of a result has both memories in canonical form in either branch. -/
theorem canon_ite_of {σ : Type} (g : σ → State) {p : Prop} [Decidable p] {a b : σ} (ha : Canon (g a)) (hb : Canon (g b)) :
    Canon (g (if p then a else b)) := by split <;> assumption

theorem canon_ite {p : Prop} [Decidable p] {a b : State} (ha : Canon a) (hb : Canon b) : Canon (if p then a else b) :=
  canon_ite_of id ha hb

/-- Two branches that both go on from the state `s`. -/
theorem canon_both_of {σ : Type} (g : σ → State) {p : Prop} [Decidable p] {s : State} {a b : σ} (ha : Canon s → Canon (g a))
    (hb : Canon s → Canon (g b)) (h : Canon s) : Canon (g (if p then a else b)) :=
  canon_ite_of g (ha h) (hb h)

theorem canon_both {p : Prop} [Decidable p] {s a b : State} (ha : Canon s → Canon a) (hb : Canon s → Canon b) (h : Canon s) :
    Canon (if p then a else b) :=
  canon_both_of id ha hb h

/-- A change made under a condition. -/
theorem canon_when {p : Prop} [Decidable p] {s a : State} (ha : Canon s → Canon a) (h : Canon s) : Canon (if p then a else s) :=
  canon_ite (ha h) h

/-- A change made unless a condition holds. -/
theorem canon_unless {p : Prop} [Decidable p] {s a : State} (ha : Canon s → Canon a) (h : Canon s) : Canon (if p then s else a) :=
  canon_ite h (ha h)

/-- If each step of a fold keeps the memories canonical in the state that `g` reads out of the accumulator, so does the fold. -/
theorem canon_foldl_of {α σ : Type} (g : σ → State) {f : σ → α → σ} {l : List α} {x : σ} (hf : ∀ {y a}, Canon (g y) → Canon (g (f y a)))
    (h : Canon (g x)) : Canon (g (l.foldl f x)) :=
  foldl_keeps (fun y => Canon (g y)) f (fun _ _ => hf) l x h

theorem canon_foldl {α : Type} {f : State → α → State} {l : List α} {s : State} (hf : ∀ {t a}, Canon t → Canon (f t a)) (h : Canon s) :
    Canon (l.foldl f s) :=
  canon_foldl_of id hf h

end Sys2Proof.Machine
end

section
/-! PROOFS. What keeps both memories canonical (O57): sequencers, tiles, engines, store and check-value units. -/

namespace Sys2Proof.Machine
variable {s : State}

/-! ## Ops -/

theorem msix_canon {v : Nat} (h : Canon s) : Canon (msix s v) := canon_of_same (msix_mem s v) (msix_hostMem s v) h

theorem notify_canon {kind detail almSeq : Nat} (h : Canon s) : Canon (notify s kind detail almSeq) :=
  canon_of_same (notify_mem s kind detail almSeq) (notify_hostMem s kind detail almSeq) h

theorem almCreate_canon {src : Nat} {c : AlmCode} {sev flags : Nat} {payload : List Nat} {time : Nat} (h : Canon s) : Canon (almCreate s src c sev
    flags payload time) :=
  canon_of_same (almCreate_mem s src c sev flags payload time) (almCreate_hostMem s src c sev flags payload time) h

theorem almBuffer_canon {e : AlmMsg} (h : Canon s) : Canon (almBuffer s e) := canon_ite (canon_mk h) (canon_mk h)

theorem almAt_canon {src : Nat} {c : AlmCode} {sev : Nat} {payload : List Nat} {time : Nat} (h : Canon s) : Canon (almAt s src c sev payload time)
    :=
  canon_of_same (almAt_mem s src c sev payload time) (almAt_hostMem s src c sev payload time) h

theorem alm_canon {src : Nat} {c : AlmCode} {sev : Nat} {payload : List Nat} (h : Canon s) : Canon (alm s src c sev payload) :=
  canon_of_same (alm_mem s src c sev payload) (alm_hostMem s src c sev payload) h

theorem vgPush_canon {e : VgEvent} (h : Canon s) : Canon (vgPush s e) := canon_of_same (vgPush_mem s e) (vgPush_hostMem s e) h

theorem breach_canon (h : Canon s) : Canon (breach s) := canon_of_same (breach_mem s) (breach_hostMem s) h

theorem putUnit_canon {r : Nat} {u : SeqUnit} (h : Canon s) : Canon (putUnit s r u) := canon_of_same (putUnit_mem s r u) (putUnit_hostMem s r u) h

theorem modUnit_canon {r : Nat} {f : SeqUnit → SeqUnit} (h : Canon s) : Canon (modUnit s r f) :=
  canon_of_same (modUnit_mem s r f) (modUnit_hostMem s r f) h

theorem putCtx_canon {r k : Nat} {c : Ctx} (h : Canon s) : Canon (putCtx s r k c) := canon_of_same (putCtx_mem s r k c) (putCtx_hostMem s r k c) h

theorem modCtx_canon {r k : Nat} {f : Ctx → Ctx} (h : Canon s) : Canon (modCtx s r k f) := by
  unfold modCtx
  split
  · exact h
  · exact putCtx_canon h

theorem modClu_canon {g : Nat} {f : Clu → Clu} (h : Canon s) : Canon (modClu s g f) := canon_of_same (modClu_mem s g f) (modClu_hostMem s g f) h

theorem modNle_canon {q : Nat} {f : Nle → Nle} (h : Canon s) : Canon (modNle s q f) := canon_of_same (modNle_mem s q f) (modNle_hostMem s q f) h

theorem modStats_canon {f : FrameStats → FrameStats} (h : Canon s) : Canon (modStats s f) :=
  canon_of_same (modStats_mem s f) (modStats_hostMem s f) h

theorem modHealth_canon {g : Nat} {f : Health → Health} (h : Canon s) : Canon (modHealth s g f) :=
  canon_of_same (modHealth_mem s g f) (modHealth_hostMem s g f) h

theorem modPlan_canon {id : Nat} {f : Plan → Plan} (h : Canon s) : Canon (modPlan s id f) :=
  canon_of_same (modPlan_mem s id f) (modPlan_hostMem s id f) h

theorem draw_canon (h : Canon s) : Canon (draw s).2 := canon_snd (canon_mk h)

theorem wr_canon {a : Nat} {bs : List Byte} (h : Canon s) : Canon (wr s a bs) := canon_mk ⟨wf_mwrite _ _ _ h.1, h.2⟩

theorem wrBit_canon {a b : Nat} {v : Bool} (h : Canon s) : Canon (wrBit s a b v) := wr_canon h

theorem putSide_canon {a k head rest : Nat} (h : Canon s) : Canon (putSide s a k head rest) := canon_mk h

theorem putCheck_canon {a k gen crc : Nat} (h : Canon s) : Canon (putCheck s a k gen crc) := by
  unfold putCheck
  split
  · exact wrBit_canon (wr_canon h)
  · exact putSide_canon h

theorem dropCheck_canon {a k : Nat} (h : Canon s) : Canon (dropCheck s a k) := by
  unfold dropCheck
  split
  · exact wrBit_canon h
  · exact canon_mk h

theorem putTile_canon {a k gen crc : Nat} {bs : List Byte} (h : Canon s) : Canon (putTile s a k gen crc bs) := putCheck_canon (wr_canon h)

/-! ## Sequence -/

theorem putSeq_canon {id : Nat} {d : SeqDesc} (h : Canon s) : Canon (putSeq s id d) := canon_of_same (putSeq_mem s id d) (putSeq_hostMem s id d) h

theorem writeTileEntries_canon {d : SeqDesc} {written layer t : Nat} {a : Area} {es : List (Nat × List Byte)} (h : Canon s) : Canon
    (writeTileEntries d written layer t a es s) :=
  canon_ite (wr_canon (wr_canon h)) (putTile_canon h)

theorem writeEntries_canon {d : SeqDesc} {written layer : Nat} {ps : List (Nat × List (List Byte))} (h : Canon s) : Canon (writeEntries d written
    layer ps s) :=
  canon_foldl (fun h => canon_foldl writeTileEntries_canon h) h

theorem writeArena_canon {ws : List ArenaWr} (h : Canon s) : Canon (writeArena s ws) := canon_foldl writeEntries_canon h

theorem settleSeq_canon {id : Nat} (h : Canon s) : Canon (settleSeq s id) := by
  unfold settleSeq
  dsimp only
  split
  · exact canon_ite h (alm_canon (putSeq_canon h))
  · exact h

theorem writeSeqs_canon {ws : List (Nat × SeqDesc)} (h : Canon s) : Canon (writeSeqs s ws) :=
  canon_foldl (fun h => settleSeq_canon (putSeq_canon h)) h

theorem xiuthClose_canon {id : Nat} (h : Canon s) : Canon (xiuthClose s id) := canon_ite (settleSeq_canon (putSeq_canon h)) h

theorem breakSeq_canon {id : Nat} (h : Canon s) : Canon (breakSeq s id) := canon_ite (putSeq_canon h) h

/-! ## Sequencer -/

theorem send_canon {f : Flight} (h : Canon s) : Canon (send s f) := canon_of_same (send_mem s f) (send_hostMem s f) h

theorem sendOutputs_canon {u : Nat} {a : Armed} {void : Option VoidReason} {outs : List OutTile} (h : Canon s) :
    Canon (sendOutputs s u a void outs) := by
  unfold sendOutputs
  split
  · exact h
  · dsimp only
    split
    · exact h
    · exact canon_foldl (fun h => canon_foldl send_canon h) h

theorem discardStale_canon {dst ctx frame : Nat} (h : Canon s) : Canon (discardStale s dst ctx frame) := alm_canon (modUnit_canon h)

theorem discardFull_canon {dst ctx slot frame : Nat} (h : Canon s) : Canon (discardFull s dst ctx slot frame) := alm_canon (modUnit_canon h)

theorem discardCredit_canon {dst ctx counter frame : Nat} (h : Canon s) : Canon (discardCredit s dst ctx counter frame) :=
  alm_canon (modUnit_canon h)

theorem recvToken_canon {dst : Nat} {t : Token} (h : Canon s) : Canon (recvToken s dst t) := by
  unfold recvToken
  split
  · exact discardStale_canon h
  · exact canon_ite (discardStale_canon h) (canon_ite (discardFull_canon h) (putCtx_canon h))

theorem recvCredit_canon {dst : Nat} {cr : Credit} (h : Canon s) : Canon (recvCredit s dst cr) := by
  unfold recvCredit
  split
  · exact discardStale_canon h
  · exact canon_ite (discardCredit_canon h) (putCtx_canon h)

theorem cmdEvent_canon {kind : VgKind} {u ctx : Nat} {a : Armed} {status : Nat} {info : VgInfo} (h : Canon s) : Canon (cmdEvent s kind u ctx a
    status info) :=
  vgPush_canon h

theorem record_canon {u ctx : Nat} {a : Armed} {st : Option VoidReason} {arith us : Nat} (h : Canon s) : Canon (record s u ctx a st arith us) :=
  canon_when cmdEvent_canon (canon_when modHealth_canon (modUnit_canon h))

theorem taskEnd_canon {u ctx : Nat} {a : Armed} (h : Canon s) : Canon (taskEnd s u ctx a) := by
  unfold taskEnd
  split
  · exact h
  · exact canon_ite h (cmdEvent_canon h)

theorem twinEnded_canon {u ctx : Nat} {c : Ctx} {a : Armed} {st : VoidReason} (h : Canon s) : Canon (twinEnded s u ctx c a st) := by
  unfold twinEnded
  refine canon_ite h ?_
  split
  · exact modCtx_canon (canon_mk h)
  · exact canon_mk h

theorem endUnrun_canon {u ctx : Nat} {a : Armed} {st : VoidReason} (h : Canon s) : Canon (endUnrun s u ctx a st) := by
  unfold endUnrun
  split
  · exact h
  · exact taskEnd_canon (twinEnded_canon (canon_when (fun h => canon_foldl xiuthClose_canon h) (sendOutputs_canon (record_canon (modUnit_canon
      (putCtx_canon h))))))

theorem lapseOne_canon {u ctx : Nat} {a : Armed} {cause : Nat} (h : Canon s) : Canon (lapseOne s u ctx a cause) :=
  modStats_canon (alm_canon (endUnrun_canon h))

theorem stopTask_canon {u ctx : Nat} (h : Canon s) : Canon (stopTask s u ctx) := by
  unfold stopTask
  split
  · exact h
  · refine canon_foldl lapseOne_canon (alm_canon ?_)
    split
    · exact cmdEvent_canon (canon_mk (putCtx_canon h))
    · exact vgPush_canon (canon_mk (putCtx_canon h))

theorem countArith_canon {u frame arith : Nat} (h : Canon s) : Canon (countArith s u frame arith) := canon_ite h (modClu_canon h)

theorem clearBusy_canon {u op : Nat} (h : Canon s) : Canon (clearBusy s u op) := by
  unfold clearBusy
  refine canon_ite (modClu_canon h) ?_
  split
  · exact modNle_canon h
  · exact canon_mk h
  · exact canon_ite (canon_mk h) (canon_mk h)
  · exact h

theorem publishGrid_canon {r : Run} (h : Canon s) : Canon (publishGrid s r) := canon_ite (canon_mk h) h

theorem finish_canon {u ctx : Nat} {c : Ctx} {r : Run} (h : Canon s) : Canon (finish s u ctx c r) := by
  unfold finish
  refine canon_when stopTask_canon (taskEnd_canon ?_)
  split
  · exact canon_unless twinEnded_canon (canon_unless (fun h => canon_foldl send_canon h) (canon_unless sendOutputs_canon (record_canon (canon_both
      (fun h => canon_foldl breakSeq_canon h) writeSeqs_canon (publishGrid_canon (clearBusy_canon (countArith_canon (putCtx_canon h))))))))
  · exact canon_unless (fun h => canon_foldl send_canon h) (canon_unless sendOutputs_canon (record_canon (canon_both (fun h => canon_foldl
      breakSeq_canon h) writeSeqs_canon (publishGrid_canon (clearBusy_canon (countArith_canon (putCtx_canon h)))))))

theorem inputVoid_canon {u ctx : Nat} {c : Ctx} {a : Armed} (h : Canon s) : Canon (inputVoid s u ctx c a) :=
  taskEnd_canon (twinEnded_canon (canon_when (fun h => canon_foldl breakSeq_canon h) (canon_foldl send_canon (sendOutputs_canon (record_canon
    (putCtx_canon (modUnit_canon h)))))))

theorem startCmd_canon {u ctx : Nat} {c : Ctx} {a : Armed} {op : Nat} {ph : Phys} (h : Canon s) : Canon (startCmd s u ctx c a op ph) :=
  canon_when modClu_canon (canon_when cmdEvent_canon (putCtx_canon (modUnit_canon h)))

theorem issueNow_canon {op u ctx : Nat} {body : Cmdr → State → Eff} {ph : Phys} {c : Ctx} {a : Armed}
    (hb : ∀ {c t}, Canon t → Canon (body c t).s) (h : Canon s) : Canon (issueNow op body u ctx ph s c a) :=
  modCtx_canon (hb (startCmd_canon h))

theorem issueWith_canon {op u ctx : Nat} {body : Cmdr → State → Eff} {ph : Phys} (hb : ∀ {c t}, Canon t → Canon (body c t).s) (h : Canon s) :
    Canon (issueWith op body u ctx ph s) := by
  unfold issueWith
  refine canon_unless (fun h => ?_) h
  split
  · exact h
  · split
    · exact h
    · exact canon_unless (issueNow_canon hb) h

theorem fenceWork_canon {u : Nat} (h : Canon s) : Canon (fenceWork s u) := by
  unfold fenceWork
  refine canon_foldl (fun h => ?_) h
  split
  · exact canon_unless (fun h => modCtx_canon (twinEnded_canon (sendOutputs_canon h))) (canon_foldl endUnrun_canon h)
  · exact modCtx_canon (canon_foldl endUnrun_canon h)

theorem releaseOrphans_canon {id : Nat} (h : Canon s) : Canon (releaseOrphans s id) := canon_mk h

theorem retirePlan_canon {id : Nat} (h : Canon s) : Canon (retirePlan s id) :=
  canon_foldl (fun h => canon_ite (xiuthClose_canon h) h) (releaseOrphans_canon (canon_mk (canon_foldl (fun h => canon_foldl (fun h => canon_ite h
    (modCtx_canon (canon_foldl (fun h => canon_foldl xiuthClose_canon h) h))) h) (modPlan_canon h))))

theorem placePlan_canon {p : Plan} (h : Canon s) : Canon (placePlan s p) :=
  canon_foldl (fun h => canon_foldl (fun h => canon_ite h (modUnit_canon (putCtx_canon h))) h) h

theorem armPlan_canon {p : Plan} {n : Nat} (h : Canon s) : Canon (armPlan s p n) :=
  canon_foldl (fun h => canon_foldl (fun h => canon_ite h (canon_when (fun h => canon_foldl endUnrun_canon h) (modCtx_canon h))) h) h

theorem freeContexts_canon (h : Canon s) : Canon (freeContexts s) := canon_mk h

theorem starve_canon {r ctx : Nat} (h : Canon s) : Canon (starve s r ctx) := canon_ite h (alm_canon (modStats_canon (modUnit_canon h)))

theorem startSwap_canon {r ctx : Nat} (h : Canon s) : Canon (startSwap s r ctx) := by
  unfold startSwap
  refine canon_ite h (canon_ite (putUnit_canon h) (canon_ite h ?_))
  split
  · exact starve_canon h
  · exact putUnit_canon h

theorem endSwap_canon {r : Nat} (h : Canon s) : Canon (endSwap s r) := by
  unfold endSwap
  dsimp only
  split
  · exact h
  · exact putUnit_canon h

/-! ## TileIO -/

theorem healthEvent_canon {row unit kind : Nat} {a : Armed} {ctx : Nat} (h : Canon s) : Canon (healthEvent s row unit kind a ctx) := canon_mk h

theorem crossSwitch_canon {src dst cls n : Nat} (h : Canon s) : Canon (crossSwitch s src dst cls n) := canon_mk h

theorem countBytes_canon {port cls a n : Nat} {w : Bool} (h : Canon s) : Canon (countBytes s port cls a n w) :=
  canon_of_same (countBytes_mem s port cls a n w) (countBytes_hostMem s port cls a n w) h

theorem countCmd_canon {c : Cmdr} {a n : Nat} {w : Bool} (h : Canon s) : Canon (countCmd s c a n w) := countBytes_canon h

theorem checkEvent_canon {c : Cmdr} {a k gen stage : Nat} (h : Canon s) : Canon (checkEvent s c a k gen stage) :=
  canon_when modClu_canon (canon_when canon_mk (modStats_canon (alm_canon (cmdEvent_canon h))))

theorem countRefetch_canon {c : Cmdr} (h : Canon s) : Canon (countRefetch s c) := canon_when modClu_canon (modStats_canon h)

theorem unmappedEvent_canon {c : Cmdr} {a : Nat} (h : Canon s) : Canon (unmappedEvent s c a) := alm_canon h

theorem dropEvent_canon {c : Cmdr} {a : Nat} (h : Canon s) : Canon (dropEvent s c a) := canon_ite (alm_canon h) (unmappedEvent_canon h)

theorem owesRepair_canon {bad good k gen part : Nat} (h : Canon s) : Canon (owesRepair s bad good k gen part) := canon_ite h (canon_mk h)

theorem weightFail_canon {a : Nat} (h : Canon s) : Canon (weightFail s a) := by
  unfold weightFail
  split
  · exact h
  · exact canon_ite h (notify_canon (alm_canon (canon_mk (dropCheck_canon h))))

theorem stage3_canon {c : Cmdr} {a k gen : Nat} (h : Canon s) : Canon (stage3 s c a k gen) :=
  weightFail_canon (canon_unless dropCheck_canon (checkEvent_canon h))

theorem Rd_fail_canon {r : Rd} {c : Cmdr} {a k gen : Nat} (h : Canon r.s) : Canon (Rd.fail r c a k gen).s := canon_rd (stage3_canon h)

theorem Rd_unmapped_canon {r : Rd} {c : Cmdr} {a k gen : Nat} (h : Canon r.s) : Canon (Rd.unmapped r c a k gen).s :=
  Rd_fail_canon (canon_rd (countRefetch_canon (unmappedEvent_canon h)))

theorem checkTile_canon {r : Rd} {c : Cmdr} {a k gen : Nat} (h : Canon r.s) : Canon (checkTile r c a k gen).s :=
  canon_ite_of Rd.s (canon_rd h) (canon_ite_of Rd.s (Rd_unmapped_canon h) (canon_ite_of Rd.s (Rd_fail_canon h) (canon_ite_of Rd.s (canon_ite_of Rd.s
    (canon_rd (checkEvent_canon (countRefetch_canon h))) h) (canon_ite_of Rd.s (Rd_fail_canon h) (Rd_fail_canon (canon_rd (countRefetch_canon
    h)))))))

theorem checkSram_canon {c : Cmdr} {n a e : Nat} {r : Rd} (h : Canon r.s) : Canon (checkSram c n r a e).s := by
  induction n generalizing r a with
  | zero => exact h
  | succ n ih =>
    unfold checkSram
    split
    · exact h
    · split
      · split
        · exact canon_rd h
        · exact Rd_fail_canon h
      · exact ih (checkTile_canon h)

theorem readLocal_canon {r : Rd} {c : Cmdr} {laddr n : Nat} (h : Canon r.s) : Canon (readLocal r c laddr n).1.s :=
  canon_ite_of (fun x : Rd × _ => x.1.s) h (checkSram_canon h)

theorem checkLogical_canon {c : Cmdr} {gens : List Nat} {n a e : Nat} {r : Rd} (h : Canon r.s) : Canon (checkLogical c gens n r a e).s := by
  induction n generalizing r a with
  | zero => exact h
  | succ n ih =>
    unfold checkLogical
    split
    · exact h
    · split
      · exact Rd_unmapped_canon h
      · exact ih (checkTile_canon h)

theorem readLogical_canon {r : Rd} {c : Cmdr} {gens : List Nat} {a n : Nat} (h : Canon r.s) : Canon (readLogical r c gens a n).1.s :=
  canon_ite_of (fun x : Rd × _ => x.1.s) h (canon_rd (countCmd_canon (checkLogical_canon h)))

theorem readInput_canon {r : Rd} {c : Cmdr} {gen a n : Nat} (h : Canon r.s) : Canon (readInput r c gen a n).1.s := readLogical_canon h

theorem putRegion_canon {a gen : Nat} {bs : List Byte} (h : Canon s) : Canon (putRegion s a gen bs).1 :=
  canon_fst (canon_foldl putCheck_canon (wr_canon h))

theorem putPart_canon {who a gen : Nat} {bs : List Byte} (h : Canon s) : Canon (putPart s who a gen bs) :=
  canon_foldl (fun h => canon_ite (putRegion_canon h) h) h

theorem putOutput_canon {c : Cmdr} {a gen : Nat} {bs : List Byte} (h : Canon s) : Canon (putOutput s c a gen bs).1 := by
  unfold putOutput
  split
  · exact canon_fst (dropEvent_canon (putPart_canon h))
  · exact canon_fst (countCmd_canon (putRegion_canon h))

theorem arrayFaultEvent_canon {c : Cmdr} {f : ArrayFault} (h : Canon s) : Canon (arrayFaultEvent s c f) :=
  healthEvent_canon (alm_canon (cmdEvent_canon (modClu_canon h)))

theorem effAbft_canon {c : Cmdr} {fs : List ArrayFault} {cycles : Nat} (h : Canon s) : Canon (effAbft s c fs cycles).s :=
  canon_eff (canon_foldl arrayFaultEvent_canon h)

/-! ## HubMem -/

theorem hubWrite_canon {who a : Nat} {bs : List Byte} (h : Canon s) : Canon (hubWrite s who a bs) :=
  canon_foldl (fun h => canon_ite (canon_mk (wr_canon h)) h) h

/-! ## Operands -/

theorem readTensor_canon {r : Rd} {c : Cmdr} {laddr f n : Nat} (h : Canon r.s) : Canon (readTensor r c laddr f n).1.s := readLocal_canon h

theorem readRows_canon {c : Cmdr} {laddr pitch f n rows : Nat} {r : Rd} (h : Canon r.s) : Canon (readRows c laddr pitch f n rows r).1.s := by
  induction rows generalizing laddr r with
  | zero => exact h
  | succ rows ih =>
    unfold readRows
    exact ih (readTensor_canon h)

theorem readScales_canon {r : Rd} {c : Cmdr} {present : Bool} {laddr n : Nat} (h : Canon r.s) : Canon (readScales r c present laddr n).1.s :=
  canon_ite_of (fun x : Rd × _ => x.1.s) h (readLocal_canon h)

theorem effLocalWith_canon {c : Cmdr} {extra : List (Nat × List Byte)} {laddr : Nat} {bs : List Byte} {arith cycles us : Nat} (h : Canon s) : Canon
    (effLocalWith s c extra laddr bs arith cycles us).s := by
  unfold effLocalWith
  split
  · exact canon_eff (dropEvent_canon (canon_foldl putPart_canon h))
  · exact canon_eff (putRegion_canon (canon_foldl_of Prod.fst (fun h => canon_fst (putRegion_canon h)) (canon_fst h)))

/-! ## Cluster -/

theorem putCopy_canon {src dst k gs gd : Nat} (h : Canon s) : Canon (putCopy s src dst k gs gd).1 := canon_fst (putTile_canon h)

theorem loadTile_canon {c : Cmdr} {k gen src rsv dst : Nat} {m : Move} (h : Canon m.r.s) : Canon (loadTile c k gen src rsv dst m).r.s :=
  canon_ite_of (fun x : Move => x.r.s) h (canon_ite_of (fun x : Move => x.r.s) (Rd_unmapped_canon h) (canon_ite_of (fun x : Move => x.r.s) h
    (canon_ite_of (fun x : Move => x.r.s) (canon_rd (dropEvent_canon h)) (canon_ite_of (fun x : Move => x.r.s) (canon_ite_of (fun x : Move => x.r.s)
    (canon_rd (countCmd_canon (putCopy_canon (canon_rd (checkEvent_canon (countCmd_canon (countRefetch_canon h))))))) (canon_rd (countCmd_canon
    (putCopy_canon h)))) (canon_both_of (fun x : Move => x.r.s) (fun h => canon_rd (countCmd_canon (putCopy_canon (canon_rd (owesRepair_canon
    (checkEvent_canon h)))))) (fun h => canon_rd (stage3_canon h)) (canon_ite_of Rd.s (canon_rd (countCmd_canon (countCmd_canon (countRefetch_canon
    h)))) h))))))

theorem loadBody_canon {c : Cmdr} (h : Canon s) : Canon (loadBody c s).s :=
  canon_both_of Eff.s canon_eff canon_eff (canon_foldl_of (fun x : Move => x.r.s) loadTile_canon (canon_rd h))

theorem storeTile_canon {c : Cmdr} {k tid i src dst gd : Nat} {m : Move} (h : Canon m.r.s) : Canon (storeTile c k tid i src dst gd m).r.s :=
  canon_ite_of (fun x : Move => x.r.s) h (canon_ite_of (fun x : Move => x.r.s) (canon_rd (dropEvent_canon h)) (canon_both_of (fun x : Move => x.r.s)
    (fun h => h) (fun h => canon_ite_of (fun x : Move => x.r.s) h (canon_rd (countCmd_canon (putCopy_canon h)))) (checkTile_canon h)))

theorem storeBody_canon {c : Cmdr} (h : Canon s) : Canon (storeBody c s).s :=
  canon_both_of Eff.s canon_eff canon_eff (canon_foldl_of (fun x : Move => x.r.s) storeTile_canon (canon_rd h))

theorem syncBody_canon {c : Cmdr} (h : Canon s) : Canon (syncBody c s).s := canon_eff h

theorem matBody_canon {op : Nat} {c : Cmdr} (h : Canon s) : Canon (matBody op c s).s := by
  unfold matBody
  extract_lets d
  split
  next =>
    extract_lets
    split
    next r _ e =>
      have hr : Canon r.s := canon_of_rd_eq e (readRows_canon (canon_rd h))
      extract_lets
      split
      next r1 _ e1 =>
        have h1 : Canon r1.s := canon_of_rd_eq e1 (readLocal_canon hr)
        split
        next r2 _ e2 =>
          have h2 : Canon r2.s := canon_of_rd_eq e2 (readScales_canon h1)
          split
          next r3 _ e3 =>
            have h3 : Canon r3.s := canon_of_rd_eq e3 (readScales_canon h2)
            split
            next r4 _ e4 =>
              have h4 : Canon r4.s := canon_of_rd_eq e4 (canon_ite_of (fun x : Rd × List Nat => x.1.s) h3 (readTensor_canon h3))
              extract_lets
              split
              next r5 _ e5 =>
                have h5 : Canon r5.s := canon_of_rd_eq e5 (canon_ite_of (fun x : Rd × List (List Nat) => x.1.s) h4
                  (canon_ite_of (fun x : Rd × List (List Nat) => x.1.s) (readTensor_canon h4) (readRows_canon h4)))
                refine canon_ite_of Eff.s (canon_eff h5) ?_
                extract_lets
                split
                · exact effAbft_canon h5
                · exact canon_ite_of Eff.s (effLocalWith_canon h5) (effLocalWith_canon h5)

theorem elemOut_canon {c : Cmdr} {xs : List Num} {fl : Flags} {cyc : Nat} (h : Canon s) : Canon (elemOut c s xs fl cyc).s := effLocalWith_canon h

theorem vecBody_canon {c : Cmdr} (h : Canon s) : Canon (vecBody c s).s :=
  canon_both_of Eff.s canon_eff elemOut_canon (canon_both_of (fun x : Rd × _ => x.1.s) readScales_canon (fun h => h) (canon_both_of (fun x : Rd × _
    => x.1.s) readTensor_canon (fun h => h) (readScales_canon (readTensor_canon (canon_rd h)))))

theorem sfuBody_canon {c : Cmdr} (h : Canon s) : Canon (sfuBody c s).s :=
  canon_both_of Eff.s canon_eff elemOut_canon (readScales_canon (readTensor_canon (canon_rd h)))

theorem optBody_canon {c : Cmdr} (h : Canon s) : Canon (optBody c s).s :=
  canon_both_of Eff.s canon_eff effLocalWith_canon (readTensor_canon (readTensor_canon (readScales_canon (readTensor_canon (canon_rd h)))))

theorem execLoad_canon {u ctx : Nat} {ph : Phys} (h : Canon s) : CanonNext (execLoad u ctx ph s) := done_canon (issueWith_canon loadBody_canon h)

theorem execStore_canon {u ctx : Nat} {ph : Phys} (h : Canon s) : CanonNext (execStore u ctx ph s) := done_canon (issueWith_canon storeBody_canon h)

theorem execSync_canon {u ctx : Nat} {ph : Phys} (h : Canon s) : CanonNext (execSync u ctx ph s) := done_canon (issueWith_canon syncBody_canon h)

theorem execMatmul_canon {u ctx : Nat} {ph : Phys} (h : Canon s) : CanonNext (execMatmul u ctx ph s) := done_canon (issueWith_canon matBody_canon h)

theorem execMatmulDx_canon {u ctx : Nat} {ph : Phys} (h : Canon s) : CanonNext (execMatmulDx u ctx ph s) :=
  done_canon (issueWith_canon matBody_canon h)

theorem execMatmulDw_canon {u ctx : Nat} {ph : Phys} (h : Canon s) : CanonNext (execMatmulDw u ctx ph s) :=
  done_canon (issueWith_canon matBody_canon h)

theorem execVec_canon {u ctx : Nat} {ph : Phys} (h : Canon s) : CanonNext (execVec u ctx ph s) := done_canon (issueWith_canon vecBody_canon h)

theorem execSfu_canon {u ctx : Nat} {ph : Phys} (h : Canon s) : CanonNext (execSfu u ctx ph s) := done_canon (issueWith_canon sfuBody_canon h)

theorem execOptStep_canon {u ctx : Nat} {ph : Phys} (h : Canon s) : CanonNext (execOptStep u ctx ph s) :=
  done_canon (issueWith_canon optBody_canon h)

/-! ## Conv -/

theorem readMap_canon {r : Rd} {c : Cmdr} {laddr lay f C H W : Nat} {scAddr : Option Nat} (h : Canon r.s) : Canon (readMap r c laddr lay f C H W
    scAddr).1.s := by
  unfold readMap
  dsimp only
  split
  · exact readLocal_canon (readLocal_canon h)
  · exact readLocal_canon h

theorem convFinish_canon {r : Rd} {c : Cmdr} {g : Geom} {epi : Nat} {ep : List Nat} {accs : List (List Num)} {fl : Flags} {scOut : Option Nat} {cyc
    us : Nat} (h : Canon r.s) : Canon (convFinish r c g epi ep accs fl scOut cyc us).s :=
  effLocalWith_canon h

theorem convBody_canon {depth : Bool} {c : Cmdr} (h : Canon s) : Canon (convBody depth c s).s := by
  unfold convBody
  refine canon_both_of Eff.s (fun h => canon_eff (canon_eff h)) (fun h => ?_) (canon_both_of (fun x : Rd × _ => x.1.s) (fun h => h) readTensor_canon
    (readScales_canon (readLocal_canon (readMap_canon (canon_rd h)))))
  dsimp only
  split
  · exact canon_eff (effAbft_canon h)
  · exact convFinish_canon h

theorem poolBody_canon {c : Cmdr} (h : Canon s) : Canon (poolBody c s).s :=
  canon_both_of Eff.s (fun h => canon_eff (canon_eff h)) convFinish_canon (readMap_canon (canon_rd h))

theorem layoutBody_canon {c : Cmdr} (h : Canon s) : Canon (layoutBody c s).s :=
  canon_both_of Eff.s canon_eff (fun h => canon_ite_of Eff.s (effLocalWith_canon h) (effLocalWith_canon h)) (readMap_canon (canon_rd h))

theorem fusedInput_canon {c : Cmdr} {lay fa : Nat} {x : Fused} (h : Canon x.r.s) : Canon (fusedInput c lay fa x).1.s := readLocal_canon h

theorem fusedLayer_canon {c : Cmdr} {L i : Nat} {x : Fused} (h : Canon x.r.s) : Canon (fusedLayer c L i x).r.s :=
  canon_both_of (fun x : Rd × _ => x.1.s) (fun h => h) readTensor_canon (readLocal_canon (fusedInput_canon h))

theorem fusedBody_canon {c : Cmdr} (h : Canon s) : Canon (fusedBody c s).s := by
  unfold fusedBody
  refine canon_both_of Eff.s (fun h => canon_eff (canon_eff h)) (fun h => ?_) (canon_foldl_of (fun x : Fused => x.r.s) fusedLayer_canon (canon_rd
    h))
  split
  · exact canon_eff (effAbft_canon h)
  · split
    · exact effLocalWith_canon h
    · exact canon_eff h

theorem execConv_canon {u ctx : Nat} {ph : Phys} (h : Canon s) : CanonNext (execConv u ctx ph s) := done_canon (issueWith_canon convBody_canon h)

theorem execConvFused_canon {u ctx : Nat} {ph : Phys} (h : Canon s) : CanonNext (execConvFused u ctx ph s) :=
  done_canon (issueWith_canon fusedBody_canon h)

theorem execDwconv_canon {u ctx : Nat} {ph : Phys} (h : Canon s) : CanonNext (execDwconv u ctx ph s) :=
  done_canon (issueWith_canon convBody_canon h)

theorem execPool_canon {u ctx : Nat} {ph : Phys} (h : Canon s) : CanonNext (execPool u ctx ph s) := done_canon (issueWith_canon poolBody_canon h)

theorem execLayout_canon {u ctx : Nat} {ph : Phys} (h : Canon s) : CanonNext (execLayout u ctx ph s) :=
  done_canon (issueWith_canon layoutBody_canon h)

/-! ## NleOps -/

theorem nleStart_canon {c : Cmdr} (h : Canon s) : Canon (nleStart c s) := modNle_canon h

theorem nleBusy_canon {c : Cmdr} {cyc : Nat} (h : Canon s) : Canon (nleBusy c cyc s) := modNle_canon h

theorem engineMismatch_canon {c : Cmdr} {kind : VgKind} {code : AlmCode} (h : Canon s) : Canon (engineMismatch s c kind code) :=
  healthEvent_canon (alm_canon (cmdEvent_canon h))

theorem nleEnd_canon {c : Cmdr} {r : Rd} {bs : List Byte} {fl : Flags} {cyc us : Nat} (h : Canon r.s) : Canon (nleEnd c r bs fl cyc us).s :=
  canon_both_of Eff.s canon_eff (fun h => canon_ite_of Eff.s (canon_eff (engineMismatch_canon (modNle_canon h))) (canon_both_of Eff.s canon_eff
    canon_eff (putOutput_canon h))) (nleBusy_canon h)

theorem nleInput_canon {c : Cmdr} (h : Canon s) : Canon (nleInput c s).1.s := readInput_canon (canon_rd h)

theorem nleConvBody_canon {c : Cmdr} (h : Canon s) : Canon (nleConvBody c s).s := nleEnd_canon (readInput_canon (nleInput_canon (nleStart_canon h)))

theorem nlePoolBody_canon {c : Cmdr} (h : Canon s) : Canon (nlePoolBody c s).s :=
  canon_both_of Eff.s nleEnd_canon nleEnd_canon (nleInput_canon (nleStart_canon h))

theorem nleResampleBody_canon {c : Cmdr} (h : Canon s) : Canon (nleResampleBody c s).s := nleEnd_canon (nleInput_canon (nleStart_canon h))

theorem nleCropBody_canon {c : Cmdr} (h : Canon s) : Canon (nleCropBody c s).s := by
  unfold nleCropBody
  extract_lets d s1
  split
  next r _ e =>
    have hr : Canon r.s := canon_of_rd_eq e (nleInput_canon (nleStart_canon h))
    split
    next r1 _ e1 =>
      have h1 : Canon r1.s := canon_of_rd_eq e1 (readInput_canon hr)
      extract_lets count n
      split
      next r2 _ e2 =>
        have h2 : Canon r2.s := canon_of_rd_eq e2 (readInput_canon h1)
        extract_lets boxes clipped nClip nEmpty outs fl bs cyc e
        have he : Canon e.s := nleEnd_canon h2
        exact canon_ite_of Eff.s he (canon_eff (canon_when alm_canon (modNle_canon he)))

theorem execNleConvIn_canon {u ctx : Nat} {ph : Phys} (h : Canon s) : CanonNext (execNleConvIn u ctx ph s) :=
  done_canon (issueWith_canon nleConvBody_canon h)

theorem execNleConvOut_canon {u ctx : Nat} {ph : Phys} (h : Canon s) : CanonNext (execNleConvOut u ctx ph s) :=
  done_canon (issueWith_canon nleConvBody_canon h)

theorem execNleCrop_canon {u ctx : Nat} {ph : Phys} (h : Canon s) : CanonNext (execNleCrop u ctx ph s) :=
  done_canon (issueWith_canon nleCropBody_canon h)

theorem execNlePool_canon {u ctx : Nat} {ph : Phys} (h : Canon s) : CanonNext (execNlePool u ctx ph s) :=
  done_canon (issueWith_canon nlePoolBody_canon h)

theorem execNleResample_canon {u ctx : Nat} {ph : Phys} (h : Canon s) : CanonNext (execNleResample u ctx ph s) :=
  done_canon (issueWith_canon nleResampleBody_canon h)

/-! ## Store -/

theorem modStc_canon {q : Nat} {f : Stc → Stc} (h : Canon s) : Canon (modStc s q f) := canon_of_same (modStc_mem s q f) (modStc_hostMem s q f) h

theorem drainSwitch_canon {n die : Nat} (h : Canon s) : Canon (drainSwitch n die s) := by
  obtain ⟨_, _, _, e⟩ := drainSwitch_frame n die s
  rw [e]
  exact canon_mk h

theorem sendReq_canon {die : Nat} {q : Req} (h : Canon s) : Canon (sendReq s die q) := canon_ite (modStc_canon h) (drainSwitch_canon (canon_mk h))

theorem execTransactionIssue_canon {port : Nat} {r : StoreTx} (h : Canon s) : CanonNext (execTransactionIssue port r s) :=
  canonNext_ite (done_canon h) (done_canon (sendReq_canon (canon_mk (canon_ite (canon_mk h) h))))

theorem execTransactionComplete_canon {port die cls : Nat} (h : Canon s) : CanonNext (execTransactionComplete port die cls s) :=
  done_canon (canon_mk h)

theorem execBucketRefill_canon (h : Canon s) : CanonNext (execBucketRefill s) := done_canon (canon_mk h)

theorem execLevelBroadcast_canon {die : Nat} (h : Canon s) : CanonNext (execLevelBroadcast die s) := done_canon (modStc_canon (canon_mk h))

theorem execLevelStale_canon {port die : Nat} (h : Canon s) : CanonNext (execLevelStale port die s) :=
  canonNext_ite (done_canon h) (done_canon (alm_canon (canon_mk h)))

theorem execRefreshDue_canon {die ch bank : Nat} (h : Canon s) : CanonNext (execRefreshDue die ch bank s) :=
  canonNext_ite (done_canon h) (canonNext_ite (done_canon (canon_mk h)) (done_canon (canon_mk h)))

theorem storeTemp_canon {die : Nat} {t : Int} (h : Canon s) : Canon (storeTemp s die t) :=
  canon_when alm_canon (canon_when breach_canon (canon_mk h))

theorem execRefreshWindowReturn_canon {die : Nat} (h : Canon s) : CanonNext (execRefreshWindowReturn die s) := by
  unfold execRefreshWindowReturn
  dsimp only
  split
  · exact canonNext_ite (done_canon h) (done_canon (modStc_canon h))
  · exact done_canon h

theorem serveReq_canon {die ch : Nat} {c : Stc} {q : Req} (h : Canon s) : Canon (serveReq s die ch c q) :=
  canon_unless (fun h => canon_ite (crossSwitch_canon h) (crossSwitch_canon h)) (canon_mk h)

theorem execStoreRequest_canon {die ch : Nat} (h : Canon s) : CanonNext (execStoreRequest die ch s) := by
  unfold execStoreRequest
  refine canonNext_ite (done_canon h) ?_
  extract_lets c
  generalize (if segmentHoldsCh s die ch then none else chooseReq c (tget c.chans ch {}) s.now : Option Req) = o
  cases o with
  | none => exact done_canon (canon_mk h)
  | some q => exact done_canon (drainSwitch_canon (serveReq_canon h))

theorem execRowClose_canon {die ch bank : Nat} (h : Canon s) : CanonNext (execRowClose die ch bank s) :=
  canonNext_ite (done_canon h) (done_canon (canon_mk h))

theorem ingestIn_canon {die n : Nat} (h : Canon s) : Canon (ingestIn s die n) :=
  canon_ite h (canon_ite (alm_canon (modStc_canon h)) (modStc_canon h))

theorem execIngestWrite_canon {die bytes : Nat} (h : Canon s) : CanonNext (execIngestWrite die bytes s) :=
  canonNext_ite (done_canon h) (done_canon (ingestIn_canon h))

theorem setDelays_canon {die band : Nat} (h : Canon s) : Canon (setDelays s die band) := modStc_canon h

theorem execDelayUpdate_canon {die : Nat} (h : Canon s) : CanonNext (execDelayUpdate die s) :=
  canonNext_ite (done_canon h) (done_canon (setDelays_canon h))

/-! ## Cvu -/

theorem expertRefuse_canon {ofs : Nat} (h : Canon s) : Canon (expertRefuse s ofs) :=
  canon_of_same (expertRefuse_mem s ofs) (expertRefuse_hostMem s ofs) h

theorem countRun_canon {ok : Nat → Bool} {v : Cvu} (h : Canon s) : Canon (countRun s ok v) := canon_ite h (countBytes_canon h)

theorem putCvu_canon {k : Nat} {v : Cvu} (h : Canon s) : Canon (putCvu s k v) := canon_of_same (putCvu_mem s k v) (putCvu_hostMem s k v) h

theorem execCvuStart_canon {k ctrl : Nat} (h : Canon s) : CanonNext (execCvuStart k ctrl s) :=
  canonNext_ite (done_canon (expertRefuse_canon h)) (done_canon (putCvu_canon h))

theorem execCvuDataWrite_canon {k len value : Nat} (h : Canon s) : CanonNext (execCvuDataWrite k len value s) :=
  canonNext_ite (done_canon (expertRefuse_canon h)) (done_canon (putCvu_canon h))

theorem execCvuRunDone_canon {k : Nat} (h : Canon s) : CanonNext (execCvuRunDone k s) :=
  canonNext_ite (done_canon h) (done_canon (putCvu_canon (countRun_canon h)))

theorem repairTile_canon {bad good k gen part : Nat} (h : Canon s) : Canon (repairTile s bad good k gen part) :=
  canon_ite (alm_canon h) (canon_ite (alm_canon h) (canon_ite h (alm_canon (putTile_canon (countBytes_canon (countBytes_canon h))))))

theorem execWeightRepair_canon {addr : Nat} (h : Canon s) : CanonNext (execWeightRepair addr s) := by
  unfold execWeightRepair
  split
  · exact done_canon h
  · exact done_canon (repairTile_canon (canon_mk h))

end Sys2Proof.Machine
end

section
/-! PROOFS. What keeps both memories canonical (O57): health, Vigil, tests, mailbox, Almanac, results, fusion and planning. -/

namespace Sys2Proof.Machine
variable {s : State}

/-! ## Health -/

theorem modHltQ_canon {q : Nat} {f : HltQ → HltQ} (h : Canon s) : Canon (modHltQ s q f) :=
  canon_of_same (modHltQ_mem s q f) (modHltQ_hostMem s q f) h

theorem cluFlag_canon {g b : Nat} (h : Canon s) : Canon (cluFlag s g b) := modStats_canon h

theorem quarantineNow_canon {g : Nat} {hard : Bool} (h : Canon s) : Canon (quarantineNow s g hard) :=
  alm_canon (cluFlag_canon (canon_mk (fenceWork_canon (modHealth_canon h))))

theorem countQuarantine_canon (h : Canon s) : Canon (countQuarantine s) := canon_mk h

theorem hardFault_canon {g cause : Nat} (h : Canon s) : Canon (hardFault s g cause) := by
  unfold hardFault
  dsimp only
  split
  · exact countQuarantine_canon (quarantineNow_canon (vgPush_canon (alm_canon (canon_mk (modHealth_canon h)))))
  · exact countQuarantine_canon (quarantineNow_canon (vgPush_canon (alm_canon (canon_mk (modHealth_canon h)))))
  · exact countQuarantine_canon (quarantineNow_canon (vgPush_canon (alm_canon (canon_mk (modHealth_canon h)))))
  · exact countQuarantine_canon (quarantineNow_canon (vgPush_canon (alm_canon (canon_mk (modHealth_canon h)))))
  · exact modHealth_canon (vgPush_canon (alm_canon (canon_mk (modHealth_canon h))))
  · exact vgPush_canon (alm_canon (canon_mk (modHealth_canon h)))

theorem execHardFault_canon {g cause : Nat} (h : Canon s) : CanonNext (execHardFault g cause s) := done_canon (hardFault_canon h)

theorem execBusTimeout_canon {g : Nat} (h : Canon s) : CanonNext (execBusTimeout g s) := done_canon (hardFault_canon h)

theorem decideQuarantine_canon {g : Nat} (h : Canon s) : Canon (decideQuarantine s g) :=
  canon_ite h (canon_when (fun h => alm_canon (cluFlag_canon h)) (modHealth_canon h))

theorem carryOut_canon {g : Nat} (h : Canon s) : Canon (carryOut s g) :=
  canon_unless (fun h => countQuarantine_canon (modHltQ_canon h)) (quarantineNow_canon h)

theorem atCalend_canon (h : Canon s) : Canon (atCalend s) := canon_of_same (atCalend_mem s) (atCalend_hostMem s) h

theorem execQuarantine_canon {g : Nat} (h : Canon s) : CanonNext (execQuarantine g s) :=
  canonNext_ite (done_canon (carryOut_canon (atCalend_canon h))) (done_canon h)

theorem execDeferredExpulsion_canon {q : Nat} (h : Canon s) : CanonNext (execDeferredExpulsion q s) := by
  unfold execDeferredExpulsion
  split
  · exact done_canon (carryOut_canon (atCalend_canon h))
  · exact done_canon h

theorem cleanCredit_canon {g : Nat} (h : Canon s) : Canon (cleanCredit s g) := canon_ite (modHealth_canon h) h

theorem execCleanRunCredit_canon {g : Nat} (h : Canon s) : CanonNext (execCleanRunCredit g s) := done_canon (cleanCredit_canon h)

theorem probationEnd_canon {g : Nat} (h : Canon s) : Canon (probationEnd s g) := canon_ite (alm_canon (modHealth_canon h)) h

theorem execProbationEnd_canon {g : Nat} (h : Canon s) : CanonNext (execProbationEnd g s) := done_canon (probationEnd_canon h)

theorem commonCause_canon {q : Nat} {e : HEvent} (h : Canon s) : Canon (commonCause s q e) :=
  notify_canon (alm_canon (canon_mk (modHltQ_canon (canon_mk h))))

theorem chargeCluster_canon {e : HEvent} (h : Canon s) : Canon (chargeCluster s e) :=
  canon_unless (fun h => canon_both alm_canon (fun h => canon_both commonCause_canon (fun h => canon_ite (decideQuarantine_canon h) h) (canon_unless
    canon_mk (canon_when cluFlag_canon (modHealth_canon h)))) (canon_when cluFlag_canon (modHealth_canon h))) (modHealth_canon h)

theorem chargeEngine_canon {e : HEvent} (h : Canon s) : Canon (chargeEngine s e) :=
  canon_ite h (canon_ite h (canon_when (fun h => notify_canon (alm_canon h)) (canon_mk h)))

theorem chargeEvent_canon {e : HEvent} (h : Canon s) : Canon (chargeEvent s e) := canon_ite (chargeCluster_canon h) (chargeEngine_canon h)

theorem classify_canon {g : Nat} {e : Nat × Nat × Nat × Nat × Nat} (h : Canon s) : Canon (classify s g e) := by
  unfold classify
  split
  · exact canon_mk h
  · exact h

theorem classifyAll_canon {n : Nat} (h : Canon s) : Canon (classifyAll s n) :=
  canon_foldl (fun h => canon_ite h (modHealth_canon (canon_foldl classify_canon h))) h

theorem evaluateHealth_canon {t : Nat} (h : Canon s) : Canon (evaluateHealth s t) :=
  canon_mk (canon_foldl probationEnd_canon (classifyAll_canon (canon_foldl chargeEvent_canon (canon_mk h))))

theorem execSeqHeartbeat_canon {u : Nat} (h : Canon s) : CanonNext (execSeqHeartbeat u s) := by
  unfold execSeqHeartbeat
  split
  · exact done_canon h
  · exact done_canon (canon_when modHealth_canon (canon_foldl modHealth_canon (modUnit_canon h)))

theorem verdict_canon {g : Nat} (h : Canon s) : Canon (verdict s g) :=
  canon_ite h (canon_ite (hardFault_canon (modHealth_canon h)) (canon_ite h (notify_canon (alm_canon (cluFlag_canon (canon_mk (modHealth_canon
    h)))))))

theorem judgeHeartbeat_canon {g : Nat} (h : Canon s) : Canon (judgeHeartbeat s g) :=
  canon_ite h (canon_ite (modHealth_canon h) (canon_when verdict_canon (modHealth_canon h)))

theorem judgeHeartbeats_canon (h : Canon s) : Canon (judgeHeartbeats s) := canon_foldl judgeHeartbeat_canon h

theorem execHeartbeatDeadline_canon (h : Canon s) : CanonNext (execHeartbeatDeadline s) :=
  canonNext_ite (done_canon h) (done_canon (judgeHeartbeats_canon (canon_mk h)))

theorem execCheckAttribution_canon {k : Nat} (h : Canon s) : CanonNext (execCheckAttribution k s) := by
  unfold execCheckAttribution
  split
  · exact done_canon h
  · exact canonNext_ite (done_canon h) (canonNext_ite (done_canon (canon_when canon_mk (putCvu_canon (countRun_canon (canon_mk h))))) (canonNext_ite
      (done_canon (canon_mk (putCvu_canon (countRun_canon (canon_mk h))))) (done_canon (modStats_canon (putCvu_canon (countRun_canon (canon_mk
      h)))))))

theorem execDeepSelfTestStart_canon {g : Nat} (h : Canon s) : CanonNext (execDeepSelfTestStart g s) :=
  canonNext_ite (done_canon (modHealth_canon h)) (done_canon h)

theorem execDeepSelfTestDone_canon {g : Nat} {pass lbist : Bool} (h : Canon s) : CanonNext (execDeepSelfTestDone g pass lbist s) :=
  canonNext_ite (done_canon h) (done_canon (canon_when hardFault_canon (alm_canon (modHealth_canon h))))

theorem promote_canon {g : Nat} (h : Canon s) : Canon (promote s g) := canon_ite (alm_canon (modHealth_canon h)) h

theorem fenceClu_canon {g : Nat} (h : Canon s) : Canon (fenceClu s g) := by
  unfold fenceClu
  dsimp only
  split
  · exact alm_canon (canon_mk (fenceWork_canon (modHealth_canon h)))
  · exact alm_canon (canon_mk (fenceWork_canon (modHealth_canon h)))
  · exact alm_canon (canon_mk (fenceWork_canon (modHealth_canon h)))
  · exact alm_canon (canon_mk (fenceWork_canon (modHealth_canon h)))
  · exact h

theorem releaseClu_canon {g : Nat} (h : Canon s) : Canon (releaseClu s g) := alm_canon (modHealth_canon h)

/-! ## Vigil -/

theorem modIsl_canon {i : Isl} {f : Island → Island} (h : Canon s) : Canon (modIsl s i f) :=
  canon_of_same (modIsl_mem s i f) (modIsl_hostMem s i f) h

theorem holdIsl_canon {i : Isl} {f : Island → Island} (h : Canon s) : Canon (holdIsl s i f) := modIsl_canon h

theorem judgeIsl_canon {i : Isl} {ok : Bool} (h : Canon s) : Canon (judgeIsl s i ok) := modIsl_canon h

theorem judgeA_canon (h : Canon s) : Canon (judgeA s) := judgeIsl_canon (canon_mk h)

theorem fixB_canon {good : Bool} (h : Canon s) : Canon (fixB s good) := canon_mk (canon_mk (judgeIsl_canon h))

theorem judgeB_canon (h : Canon s) : Canon (judgeB s) := fixB_canon h

theorem execEveCheck_canon (h : Canon s) : CanonNext (execEveCheck s) :=
  canonNext_ite (done_canon h) (done_canon (canon_when judgeB_canon (canon_when judgeA_canon (canon_mk h))))

theorem eveDeadline_canon (h : Canon s) : Canon (eveDeadline s) :=
  canon_unless (fun h => evaluateHealth_canon (canon_mk h)) (canon_unless (fun h => canon_ite (fixB_canon h) (canon_mk (modIsl_canon h))) (canon_ite
    h (canon_mk (modIsl_canon h))))

theorem execEveDeadline_canon (h : Canon s) : CanonNext (execEveDeadline s) :=
  canonNext_ite (done_canon h) (done_canon (eveDeadline_canon (canon_mk h)))

theorem execSafeEdge_canon {isl : Isl} (h : Canon s) : CanonNext (execSafeEdge isl s) :=
  canonNext_ite (done_canon h) (done_canon (modIsl_canon (canon_mk h)))

theorem countRestart_canon {i : Isl} (h : Canon s) : Canon (countRestart s i) := modStats_canon h

theorem freshCores_canon {i : Isl} (h : Canon s) : Canon (freshCores s i) := modIsl_canon (draw_canon h)

theorem beginRestart_canon {i : Isl} {cause : Nat} {retry : Bool} (h : Canon s) : Canon (beginRestart s i cause retry) :=
  canon_ite (modIsl_canon h) (alm_canon (countRestart_canon (modIsl_canon (freshCores_canon h))))

theorem restartIsl_canon {i : Isl} {cause : Nat} (h : Canon s) : Canon (restartIsl s i cause) := canon_ite h (beginRestart_canon h)

theorem execComparatorMismatch_canon {isl : Isl} {group : Nat} {async : Bool} (h : Canon s) : CanonNext (execComparatorMismatch isl group async s)
    :=
  canonNext_ite (done_canon h) (done_canon (restartIsl_canon (modIsl_canon h)))

theorem execVigilWatchdogExpiry_canon {w : WdogService} (h : Canon s) : CanonNext (execVigilWatchdogExpiry w s) :=
  canonNext_ite (done_canon (restartIsl_canon (canon_mk h))) (canonNext_ite (done_canon h) (canonNext_ite (done_canon (modIsl_canon h)) (done_canon
    (restartIsl_canon h))))

theorem execIslandBrownOut_canon {isl : Isl} (h : Canon s) : CanonNext (execIslandBrownOut isl s) := done_canon (restartIsl_canon h)

theorem execRestartRetry_canon {isl : Isl} (h : Canon s) : CanonNext (execRestartRetry isl s) :=
  canonNext_ite (done_canon h) (done_canon (beginRestart_canon (canon_mk h)))

theorem startDeferred_canon {i : Isl} (h : Canon s) : Canon (startDeferred s i) := canon_ite (beginRestart_canon h) h

theorem restoreFrom_canon {i : Isl} {p : IslSnap} (h : Canon s) : Canon (restoreFrom s i p) := by
  unfold restoreFrom
  split <;> exact canon_mk h

theorem resumeIsl_canon {i : Isl} (h : Canon s) : Canon (resumeIsl s i) :=
  canon_when restartIsl_canon (startDeferred_canon (modIsl_canon (modIsl_canon (restoreFrom_canon h))))

theorem failRestart_canon {i : Isl} (h : Canon s) : Canon (failRestart s i) :=
  canon_ite (startDeferred_canon (alm_canon (holdIsl_canon h))) (modIsl_canon h)

theorem execPairRestartDone_canon {isl : Isl} {flagged : Nat} {clean : Bool} (h : Canon s) : CanonNext (execPairRestartDone isl flagged clean s) :=
  canonNext_ite (done_canon h) (done_canon (canon_both resumeIsl_canon failRestart_canon (modIsl_canon h)))

theorem execIslandResetRelease_canon {isl : Isl} {flagged : Nat} {clean : Bool} (h : Canon s) : CanonNext (execIslandResetRelease isl flagged clean
    s) := by
  unfold execIslandResetRelease
  refine canonNext_ite (done_canon h) (done_canon (canon_unless restartIsl_canon ?_))
  split <;> exact canon_mk (freshCores_canon (canon_both modIsl_canon alm_canon (holdIsl_canon h)))

theorem execIslandResetAssert_canon {isl : Isl} (h : Canon s) : CanonNext (execIslandResetAssert isl s) := by
  unfold execIslandResetAssert
  refine done_canon (startDeferred_canon ?_)
  split <;> exact canon_mk (holdIsl_canon h)

theorem execVigilHeartbeatSend_canon {isl : Isl} (h : Canon s) : CanonNext (execVigilHeartbeatSend isl s) :=
  canonNext_ite (done_canon (modIsl_canon h)) (done_canon h)

theorem execVigilHeartbeat_canon {isl : Isl} (h : Canon s) : CanonNext (execVigilHeartbeat isl s) := by
  unfold execVigilHeartbeat
  refine canonNext_ite (done_canon h) (done_canon ?_)
  split
  · exact modIsl_canon (modIsl_canon h)
  · exact canon_mk (modIsl_canon (modIsl_canon h))

theorem railBit_canon {k : Nat} (h : Canon s) : Canon (railBit s k) := canon_mk h

theorem takeLoss_canon {i : Isl} {cause : Nat} (h : Canon s) : Canon (takeLoss s i cause) := by
  unfold takeLoss
  split
  · exact holdIsl_canon h
  · exact alm_canon (breach_canon (holdIsl_canon h))

theorem declareLost_canon {i : Isl} {cause : Nat} (h : Canon s) : Canon (declareLost s i cause) :=
  modIsl_canon (takeLoss_canon (canon_ite (railBit_canon h) h))

theorem execPeerLossTimeout_canon {isl : Isl} {cause : Nat} (h : Canon s) : CanonNext (execPeerLossTimeout isl cause s) :=
  canonNext_ite (done_canon h) (done_canon (declareLost_canon h))

theorem execLossNotice_canon {isl : Isl} (h : Canon s) : CanonNext (execLossNotice isl s) :=
  canonNext_ite (done_canon h) (done_canon (takeLoss_canon (modIsl_canon h)))

theorem execVigilBBreach_canon {item : Nat} {reading : Int} (h : Canon s) : CanonNext (execVigilBBreach item reading s) :=
  canonNext_ite (done_canon h) (done_canon (alm_canon (canon_unless breach_canon (canon_ite (railBit_canon h) h))))

theorem execVigilInputChange_canon {isl : Isl} {level : Nat} (h : Canon s) : CanonNext (execVigilInputChange isl level s) :=
  canonNext_ite (done_canon h) (done_canon (alm_canon (modIsl_canon h)))

theorem execReadStatus_canon (h : Canon s) : CanonNext (execReadStatus s) := canonNext_ite (done_canon (canon_mk h)) (done_canon h)

theorem execHold_canon (h : Canon s) : CanonNext (execHold s) :=
  canonNext_ite (done_canon (alm_canon (holdIsl_canon (holdIsl_canon h)))) (done_canon h)

theorem execRelease_canon (h : Canon s) : CanonNext (execRelease s) := canonNext_ite (done_canon (modIsl_canon (modIsl_canon h))) (done_canon h)

theorem execSpiBadCommand_canon {cmd arg crc : Nat} (h : Canon s) : CanonNext (execSpiBadCommand cmd arg crc s) :=
  canonNext_ite (done_canon (canon_mk h)) (done_canon h)

theorem execDebugAttach_canon {isl : Isl} (h : Canon s) : CanonNext (execDebugAttach isl s) :=
  canonNext_ite (done_canon h) (done_canon (modIsl_canon (holdIsl_canon h)))

theorem execDebugHalt_canon {isl : Isl} (h : Canon s) : CanonNext (execDebugHalt isl s) :=
  canonNext_ite (done_canon h) (done_canon (modIsl_canon (freshCores_canon h)))

theorem execDebugRegisterWrite_canon {isl : Isl} {reg value : Nat} (h : Canon s) : CanonNext (execDebugRegisterWrite isl reg value s) :=
  canonNext_ite (done_canon h) (done_canon (modIsl_canon h))

theorem execDebugResume_canon {isl : Isl} (h : Canon s) : CanonNext (execDebugResume isl s) := by
  unfold execDebugResume
  refine canonNext_ite (done_canon h) (done_canon ?_)
  split
  · exact canon_when canon_mk (modIsl_canon h)
  · exact modIsl_canon h

theorem execDebugSingleStep_canon {isl : Isl} (h : Canon s) : CanonNext (execDebugSingleStep isl s) :=
  canonNext_ite (done_canon h) (done_canon (modIsl_canon (draw_canon h)))

theorem execDebugMemoryWrite_canon {isl : Isl} {addr : Nat} {bytes : List Byte} (h : Canon s) : CanonNext (execDebugMemoryWrite isl addr bytes s) :=
  canonNext_ite (done_canon h) (done_canon (modIsl_canon h))

theorem execDebugDetach_canon {isl : Isl} (h : Canon s) : CanonNext (execDebugDetach isl s) :=
  canonNext_ite (done_canon h) (done_canon (restartIsl_canon (modIsl_canon (modIsl_canon h))))

theorem hardFaultUnit_canon {u cause : Nat} (h : Canon s) : Canon (hardFaultUnit s u cause) :=
  canon_ite (hardFault_canon h) (alm_canon (vgPush_canon h))

theorem execVigilEvent_canon {e : VgEvent} (h : Canon s) : CanonNext (execVigilEvent e s) :=
  canonNext_ite (done_canon h) (done_canon (canon_when hardFaultUnit_canon (vgPush_canon h)))

theorem stopAtBoundary_canon {u ctx : Nat} (h : Canon s) : Canon (stopAtBoundary s u ctx) := by
  unfold stopAtBoundary
  split
  · exact h
  · exact canon_ite (putCtx_canon h) (stopTask_canon h)

theorem execBudgetExceeded_canon {u ctx count : Nat} (h : Canon s) : CanonNext (execBudgetExceeded u ctx count s) := by
  unfold execBudgetExceeded
  split
  · exact done_canon h
  · split
    · exact done_canon h
    · split
      · exact done_canon h
      · exact canonNext_ite (done_canon h) (canonNext_ite (done_canon (canon_mk (alm_canon (cmdEvent_canon (putCtx_canon (canon_mk h))))))
          (done_canon (canon_unless stopAtBoundary_canon (canon_mk (alm_canon (cmdEvent_canon (putCtx_canon (canon_mk h))))))))

/-! ## SafetyTest -/

theorem modRot_canon {q : Nat} {f : Rot → Rot} (h : Canon s) : Canon (modRot s q f) := canon_of_same (modRot_mem s q f) (modRot_hostMem s q f) h

theorem exchangeUnits_canon {u v : Nat} (h : Canon s) : Canon (exchangeUnits s u v) := canon_mk (putUnit_canon (putUnit_canon h))

theorem clearCluSide_canon {g : Nat} (h : Canon s) : Canon (clearCluSide s g) := canon_mk h

theorem beginStep_canon {q n : Nat} (h : Canon s) : Canon (beginStep s q n) := by
  unfold beginStep
  refine canon_ite (clearCluSide_canon (modRot_canon (modHealth_canon h))) ?_
  split
  · exact modRot_canon h
  · exact clearCluSide_canon (modRot_canon (modHealth_canon (exchangeUnits_canon h)))

theorem passOver_canon {q n : Nat} (h : Canon s) : Canon (passOver s q n) := by
  induction n generalizing s with
  | zero => exact h
  | succ n ih => exact canon_unless (fun h => ih (modRot_canon h)) h

theorem execRotationStepStart_canon {q : Nat} (h : Canon s) : CanonNext (execRotationStepStart q s) :=
  canonNext_ite (done_canon h) (canonNext_ite (done_canon (beginStep_canon (passOver_canon (atCalend_canon h)))) (done_canon (passOver_canon
    (atCalend_canon h))))

theorem endStep_canon {q : Nat} {skip : Bool} (h : Canon s) : Canon (endStep s q skip) :=
  modRot_canon (modHealth_canon (canon_ite (clearCluSide_canon (exchangeUnits_canon h)) h))

theorem execRotationStepEnd_canon {q : Nat} (h : Canon s) : CanonNext (execRotationStepEnd q s) :=
  canonNext_ite (done_canon (endStep_canon h)) (canonNext_ite (done_canon (endStep_canon (atCalend_canon h))) (done_canon h))

theorem abandonTest_canon {g : Nat} (h : Canon s) : Canon (abandonTest s g) := by
  unfold abandonTest
  refine canon_ite h ?_
  dsimp only
  split
  · exact endStep_canon h
  · exact beginStep_canon (modRot_canon (endStep_canon h))

theorem settleDebt_canon {k : Nat} (h : Canon s) : Canon (settleDebt s k) := canon_mk h

theorem execRotationTestDone_canon {q : Nat} {pass : Bool} (h : Canon s) : CanonNext (execRotationTestDone q pass s) :=
  canonNext_ite (done_canon h) (canonNext_ite (done_canon (settleDebt_canon (modRot_canon h))) (done_canon (hardFault_canon h)))

theorem execTestDebtWarning_canon {kind : Nat} (h : Canon s) : CanonNext (execTestDebtWarning kind s) :=
  canonNext_ite (done_canon h) (done_canon (notify_canon (alm_canon (canon_mk h))))

theorem execTestOverdue_canon {kind : Nat} (h : Canon s) : CanonNext (execTestOverdue kind s) :=
  canonNext_ite (done_canon h) (done_canon (notify_canon (alm_canon (canon_mk h))))

theorem execHolidaySegmentStart_canon {kind item len : Nat} (h : Canon s) : CanonNext (execHolidaySegmentStart kind item len s) :=
  canonNext_ite (done_canon (canon_mk h)) (done_canon h)

theorem holidayFailure_canon {kind item : Nat} (h : Canon s) : Canon (holidayFailure s kind item) :=
  canon_ite (hardFault_canon h) (vgPush_canon (canon_mk (alm_canon h)))

theorem scrubRead_canon {k a log2 gen : Nat} {flaky : List Nat} (h : Canon s) : Canon (scrubRead s k a log2 gen flaky).1 :=
  canon_fst (countBytes_canon (putCvu_canon h))

theorem scrubTile_canon {id : Nat} {r : Region} {k a other : Nat} {flaky : List Nat} (h : Canon s) : Canon (scrubTile s id r k a other flaky) :=
  canon_unless (fun h => canon_unless (fun h => canon_both (fun h => owesRepair_canon (alm_canon h)) weightFail_canon (canon_mk (canon_ite_of
    Prod.fst (canon_fst h) (scrubRead_canon h)))) (scrubRead_canon h)) (scrubRead_canon h)

theorem scrubPassed_canon {d e t : Nat} (h : Canon s) : Canon (scrubPassed s d e t) := canon_mk h

theorem scrubRun_canon {n : Nat} {flaky : List Nat} (h : Canon s) : Canon (scrubRun s n flaky) := by
  unfold scrubRun
  split
  · exact h
  · exact canon_both canon_mk canon_mk (scrubPassed_canon (modStats_canon (canon_foldl scrubTile_canon h)))

theorem markDelayed_canon (h : Canon s) : Canon (markDelayed s) := canon_foldl modCtx_canon (draw_canon h)

theorem endSegment_canon {g : Seg} {t : Nat} (h : Canon s) : Canon (endSegment s g t) := markDelayed_canon (canon_mk h)

theorem abortSegment_canon {g : Seg} (h : Canon s) : Canon (abortSegment s g) :=
  canon_when holidayFailure_canon (alm_canon (canon_mk (endSegment_canon h)))

theorem itemTested_canon {g : Seg} (h : Canon s) : Canon (itemTested s g) := canon_mk h

theorem marchTraffic_canon {g : Seg} (h : Canon s) : Canon (marchTraffic s g) := canon_ite h (modStc_canon h)

theorem itemPassed_canon {g : Seg} {flaky : List Nat} (h : Canon s) : Canon (itemPassed s g flaky) :=
  settleDebt_canon (canon_ite (scrubRun_canon h) (canon_mk h))

theorem execHolidaySegmentEnd_canon {pass : Bool} {flaky : List Nat} (h : Canon s) : CanonNext (execHolidaySegmentEnd pass flaky s) := by
  unfold execHolidaySegmentEnd
  split
  · exact done_canon h
  · exact canonNext_ite (done_canon (abortSegment_canon h)) (done_canon (canon_both itemPassed_canon holidayFailure_canon (marchTraffic_canon
      (itemTested_canon (endSegment_canon h)))))

theorem execSegmentWatchdog_canon (h : Canon s) : CanonNext (execSegmentWatchdog s) := by
  unfold execSegmentWatchdog
  split
  · exact done_canon h
  · exact done_canon (abortSegment_canon h)

/-! ## Mailbox -/

theorem bufOut_canon {e : SubEntry} {bs : List Byte} (h : Canon s) : Canon (bufOut s e bs) := canon_mk ⟨h.1, wf_scatter _ _ _ h.2⟩

theorem grantChannels_canon (h : Canon s) : Canon (grantChannels s) := by
  unfold grantChannels
  refine canon_foldl (fun h => canon_ite h ?_) h
  split
  · exact canon_mk h
  · exact h

theorem complete_canon {e : SubEntry} {status : Nat} {result : List Byte} (h : Canon s) : Canon (complete s e status result) :=
  canon_of_same (complete_mem s e status result) (complete_hostMem s e status result) h

theorem settleStray_canon {n : Nat} (h : Canon s) : Canon (settleStray s n) :=
  canon_of_same (settleStray_mem s n) (settleStray_hostMem s n) h

theorem mailbox_canon {k : MbxCmd} {e : SubEntry} {body : State → Answer} (hb : ∀ {t}, Canon t → Canon (body t).st) (h : Canon s) :
    CanonNext (mailbox k e body s) := by
  unfold mailbox
  exact canonNext_ite (done_canon h) (canonNext_ite (done_canon (settleStray_canon (complete_canon h)))
    (done_canon (settleStray_canon (complete_canon (hb h)))))

theorem doorbellBad_canon {reg v : Nat} (h : Canon s) : Canon (doorbellBad s reg v) := alm_canon (canon_mk h)

theorem sqTailWrite_canon {v : Nat} (h : Canon s) : Canon (sqTailWrite s v) := canon_ite h (canon_ite (canon_mk h) (doorbellBad_canon h))

theorem cqHeadWrite_canon {v : Nat} (h : Canon s) : Canon (cqHeadWrite s v) := canon_ite h (canon_ite (canon_mk h) (doorbellBad_canon h))

theorem execSqTailDoorbell_canon {v : Nat} (h : Canon s) : CanonNext (execSqTailDoorbell v s) := done_canon (sqTailWrite_canon h)

theorem execCqHeadDoorbell_canon {v : Nat} (h : Canon s) : CanonNext (execCqHeadDoorbell v s) := done_canon (cqHeadWrite_canon h)

theorem execSubmissionFetch_canon (h : Canon s) : CanonNext (execSubmissionFetch s) :=
  canonNext_ite (done_canon h) (done_canon (settleStray_canon (grantChannels_canon (canon_mk h))))

theorem execCompletionPost_canon (h : Canon s) : CanonNext (execCompletionPost s) := by
  unfold execCompletionPost
  split
  · exact done_canon h
  · exact canonNext_ite (done_canon h) (done_canon (canon_unless msix_canon (canon_mk h)))

theorem execNop_canon {e : SubEntry} (h : Canon s) : CanonNext (execNop e s) := mailbox_canon canon_answer h

theorem getEvents_canon {e : SubEntry} (h : Canon s) : Canon (getEvents e s).st :=
  canon_ite_of Answer.st (canon_answer h) (canon_answer (canon_mk (bufOut_canon h)))

theorem execGetEvents_canon {e : SubEntry} (h : Canon s) : CanonNext (execGetEvents e s) := mailbox_canon getEvents_canon h

theorem resultRingSet_canon {e : SubEntry} (h : Canon s) : Canon (resultRingSet e s).st :=
  canon_ite_of Answer.st (canon_answer h) (canon_answer (canon_mk h))

theorem execResultRingSet_canon {e : SubEntry} (h : Canon s) : CanonNext (execResultRingSet e s) := mailbox_canon resultRingSet_canon h

theorem resultRingRemove_canon {e : SubEntry} (h : Canon s) : Canon (resultRingRemove e s).st :=
  canon_ite_of Answer.st (canon_answer (canon_mk h)) (canon_answer h)

theorem execResultRingRemove_canon {e : SubEntry} (h : Canon s) : CanonNext (execResultRingRemove e s) := mailbox_canon resultRingRemove_canon h

theorem resultAck_canon {e : SubEntry} (h : Canon s) : Canon (resultAck e s).st :=
  canon_ite_of Answer.st (canon_answer h) (canon_ite_of Answer.st (canon_answer h) (canon_answer (canon_mk h)))

theorem execResultAck_canon {e : SubEntry} (h : Canon s) : CanonNext (execResultAck e s) := mailbox_canon resultAck_canon h

theorem resultRingStatus_canon {e : SubEntry} (h : Canon s) : Canon (resultRingStatus e s).st :=
  canon_ite_of Answer.st (canon_answer h) (canon_answer h)

theorem execResultRingStatus_canon {e : SubEntry} (h : Canon s) : CanonNext (execResultRingStatus e s) := mailbox_canon resultRingStatus_canon h

theorem expertOpen_canon {service : Bool} (h : Canon s) : Canon (expertOpen s service) := alm_canon (canon_mk h)

theorem expertClose_canon {cause : Nat} (h : Canon s) : Canon (expertClose s cause) := canon_ite (alm_canon (canon_mk h)) h

theorem execExpertUnlockP3_canon {e : SubEntry} (h : Canon s) : CanonNext (execExpertUnlockP3 e s) :=
  mailbox_canon (fun h => canon_answer (expertOpen_canon h)) h

theorem execExpertUnlockService_canon {e : SubEntry} (h : Canon s) : CanonNext (execExpertUnlockService e s) :=
  mailbox_canon (fun h => canon_answer (expertOpen_canon h)) h

theorem execExpertLock_canon {e : SubEntry} (h : Canon s) : CanonNext (execExpertLock e s) :=
  mailbox_canon (fun h => canon_answer (alm_canon (canon_mk h))) h

theorem execHealthStatus_canon {e : SubEntry} (h : Canon s) : CanonNext (execHealthStatus e s) :=
  mailbox_canon (fun h => canon_answer (bufOut_canon h)) h

theorem fenceFence_canon {e : SubEntry} (h : Canon s) : Canon (fenceFence e s).st :=
  canon_answer (fenceClu_canon (canon_ite (abandonTest_canon h) h))

theorem execFenceClusterFence_canon {e : SubEntry} (h : Canon s) : CanonNext (execFenceClusterFence e s) := mailbox_canon fenceFence_canon h

theorem fenceRelease_canon {e : SubEntry} (h : Canon s) : Canon (fenceRelease e s).st :=
  canon_ite_of Answer.st (canon_answer h) (canon_answer (releaseClu_canon h))

theorem execFenceClusterRelease_canon {e : SubEntry} (h : Canon s) : CanonNext (execFenceClusterRelease e s) := mailbox_canon fenceRelease_canon h

theorem clusterRestrict_canon {e : SubEntry} (h : Canon s) : Canon (clusterRestrict e s).st :=
  canon_ite_of Answer.st (canon_answer h) (canon_answer (alm_canon (modHealth_canon h)))

theorem execClusterRestrictRestrict_canon {e : SubEntry} (h : Canon s) : CanonNext (execClusterRestrictRestrict e s) :=
  mailbox_canon clusterRestrict_canon h

theorem clusterUnrestrict_canon {e : SubEntry} (h : Canon s) : Canon (clusterUnrestrict e s).st :=
  canon_ite_of Answer.st (canon_answer h) (canon_answer (quarantineNow_canon h))

theorem execClusterRestrictUnrestrict_canon {e : SubEntry} (h : Canon s) : CanonNext (execClusterRestrictUnrestrict e s) :=
  mailbox_canon clusterUnrestrict_canon h

theorem healthResume_canon {e : SubEntry} (h : Canon s) : Canon (healthResume e s).st :=
  canon_ite_of Answer.st (canon_answer h) (canon_answer (modHltQ_canon h))

theorem execHealthResume_canon {e : SubEntry} (h : Canon s) : CanonNext (execHealthResume e s) := mailbox_canon healthResume_canon h

theorem execVigilStatus_canon {e : SubEntry} (h : Canon s) : CanonNext (execVigilStatus e s) := mailbox_canon canon_answer h

theorem execVigilDebugEnable_canon {e : SubEntry} (h : Canon s) : CanonNext (execVigilDebugEnable e s) :=
  mailbox_canon (fun h => canon_answer (modIsl_canon h)) h

theorem execVigilDebugDisable_canon {e : SubEntry} (h : Canon s) : CanonNext (execVigilDebugDisable e s) :=
  mailbox_canon (fun h => canon_answer (modIsl_canon h)) h

theorem execGetSafetyReport_canon {e : SubEntry} (h : Canon s) : CanonNext (execGetSafetyReport e s) :=
  mailbox_canon (fun h => canon_answer (bufOut_canon h)) h

/-! ## Almanac -/

theorem execAlmanacEvent_canon {e : AlmMsg} (h : Canon s) : CanonNext (execAlmanacEvent e s) := done_canon (almAt_canon h)

theorem journalError_canon (h : Canon s) : Canon (journalError s) := alm_canon (canon_mk h)

theorem programDue_canon {k : Nat} {fail : Bool} (h : Canon s) : Canon (programDue s k fail) := by
  unfold programDue
  exact canon_ite h (canon_ite (journalError_canon (canon_mk h)) (canon_mk h))

theorem beginCompaction_canon (h : Canon s) : Canon (beginCompaction s) := canon_ite h (canon_mk h)

theorem endCompaction_canon {fail : Bool} (h : Canon s) : Canon (endCompaction s fail) :=
  canon_ite h (canon_ite (journalError_canon (canon_mk h)) (canon_mk h))

theorem recordSummary_canon {sev : Nat} {payload : List Nat} {time : Nat} (h : Canon s) : Canon (recordSummary s sev payload time) :=
  canon_unless canon_mk (almCreate_canon h)

theorem execAlmanacSummary_canon (h : Canon s) : CanonNext (execAlmanacSummary s) :=
  canonNext_ite (done_canon h) (done_canon (canon_both almBuffer_canon recordSummary_canon (canon_mk (canon_mk h))))

theorem almRead_canon {e : SubEntry} (h : Canon s) : Canon (almRead e s).st :=
  canon_ite_of Answer.st (canon_answer h) (canon_answer (bufOut_canon h))

theorem execAlmRead_canon {e : SubEntry} (h : Canon s) : CanonNext (execAlmRead e s) := mailbox_canon almRead_canon h

theorem almInfo_canon {e : SubEntry} (h : Canon s) : Canon (almInfo e s).st := canon_answer (bufOut_canon h)

theorem execAlmInfo_canon {e : SubEntry} (h : Canon s) : CanonNext (execAlmInfo e s) := mailbox_canon almInfo_canon h

theorem execAlmHeadLoRead_canon (h : Canon s) : CanonNext (execAlmHeadLoRead s) := done_canon (canon_mk h)

theorem cleared_canon {body : List Byte} (h : Canon s) : Canon (cleared s body) := msix_canon (canon_mk h)

theorem beginClear_canon {e : SubEntry} {fails : Bool} (h : Canon s) : Canon (beginClear s e fails) := canon_mk h

theorem recordBuffered_canon {e : AlmMsg} (h : Canon s) : Canon (recordBuffered s e) := canon_ite (recordSummary_canon h) (almAt_canon h)

theorem closeClear_canon {fail : Bool} (h : Canon s) : Canon (closeClear s fail) :=
  canon_when alm_canon (canon_foldl recordBuffered_canon (canon_mk (canon_ite h (cleared_canon h))))

theorem endClear_canon {fail : Bool} (h : Canon s) : Canon (endClear s fail) := by
  unfold endClear
  split
  · exact settleStray_canon (complete_canon (closeClear_canon h))
  · exact closeClear_canon h

theorem execAlmClear_canon {e : SubEntry} {flashFail : Bool} (h : Canon s) : CanonNext (execAlmClear e flashFail s) :=
  canonNext_ite (done_canon h) (canonNext_ite (done_canon (beginClear_canon h)) (mailbox_canon canon_answer h))

theorem execJournalFlush_canon {fail : FlushFail} (h : Canon s) : CanonNext (execJournalFlush fail s) :=
  canonNext_ite (done_canon (endClear_canon h)) (done_canon (canon_unless canon_mk (canon_both endCompaction_canon beginCompaction_canon
    (programDue_canon h))))

theorem rebuildAlmanac_canon {cause rejected : Nat} (h : Canon s) : Canon (rebuildAlmanac s cause rejected) := almCreate_canon (canon_mk h)

/-! ## Attention -/

theorem checkPositions_canon {c : Cmdr} {d : SeqDesc} {layer : Nat} {ps : List Nat} {r : Rd} (h : Canon r.s) : Canon (checkPositions c d layer ps
    r).s :=
  canon_foldl_of Rd.s (fun h => canon_foldl_of Rd.s checkTile_canon h) h

theorem Rd_mayWrite_canon {r : Rd} {c : Cmdr} {foreign : Option Nat} (h : Canon r.s) : Canon (Rd.mayWrite r c foreign).s := by
  unfold Rd.mayWrite
  split
  · exact canon_rd (dropEvent_canon h)
  · exact h

theorem readList_canon {r : Rd} {c : Cmdr} (h : Canon r.s) : Canon (readList r c).1.s := readLocal_canon h

theorem walkSeq_canon {c : Cmdr} {prefill : Bool} {w : Walk} {e : ListEntry} (h : Canon w.r.s) : Canon (walkSeq c prefill w e).r.s :=
  canon_both_of (fun x : Walk => x.r.s) (fun h => h) (fun h => Rd_mayWrite_canon (checkPositions_canon (readLocal_canon (readLocal_canon
    (readLocal_canon h))))) (canon_ite_of (fun x : Rd × _ => x.1.s) h (readLocal_canon h))

theorem commitSeq_canon {c : Cmdr} {w : Walk} {e : ListEntry} (h : Canon w.r.s) : Canon (commitSeq c w e).r.s :=
  canon_ite_of (fun x : Walk => x.r.s) h (canon_ite_of (fun x : Walk => x.r.s) h (canon_ite_of (fun x : Walk => x.r.s) h (Rd_mayWrite_canon
    (canon_foldl_of Rd.s checkPositions_canon h))))

theorem walkerBody_canon {one : Cmdr → Walk → ListEntry → Walk} {c : Cmdr} (ho : ∀ {c w e}, Canon w.r.s → Canon (one c w e).r.s) (h : Canon s) :
    Canon (walkerBody one c s).s := by
  have hw : Canon ((readList { s := s } c).2.foldl (one c) { r := (readList { s := s } c).1 }).r.s :=
    canon_foldl_of (fun x : Walk => x.r.s) ho (readList_canon (canon_rd h))
  unfold walkerBody
  refine canon_ite_of Eff.s (canon_eff (modClu_canon (modClu_canon (Rd_mayWrite_canon hw)))) (canon_eff ?_)
  exact canon_ite (effLocalWith_canon (modClu_canon (modClu_canon (Rd_mayWrite_canon hw))))
    (writeArena_canon (effLocalWith_canon (modClu_canon (modClu_canon (Rd_mayWrite_canon hw)))))

theorem execAttnStep_canon {u ctx : Nat} {ph : Phys} (h : Canon s) : CanonNext (execAttnStep u ctx ph s) :=
  done_canon (issueWith_canon (fun h => walkerBody_canon walkSeq_canon h) h)

theorem execAttnPrefill_canon {u ctx : Nat} {ph : Phys} (h : Canon s) : CanonNext (execAttnPrefill u ctx ph s) :=
  done_canon (issueWith_canon (fun h => walkerBody_canon walkSeq_canon h) h)

theorem execAttnCommit_canon {u ctx : Nat} {ph : Phys} (h : Canon s) : CanonNext (execAttnCommit u ctx ph s) :=
  done_canon (issueWith_canon (fun h => walkerBody_canon commitSeq_canon h) h)

/-! ## Results -/

theorem pushRing_canon {r : Nat} {bytes : List Byte} (h : Canon s) : Canon (pushRing s r bytes) :=
  canon_ite (canon_mk h) (canon_ite (canon_mk h) (msix_canon (canon_mk (canon_mk ⟨h.1, wf_mwrite _ _ _ (wf_mwrite _ _ _ h.2)⟩))))

theorem publish_canon {i : Nat} {b : Buf} (h : Canon s) : Canon (publish s i b) :=
  canon_foldl (fun h => canon_ite (pushRing_canon h) h) (canon_mk h)

theorem readOutput_canon {c : Cmdr} {o : OutEntry} {gen : Nat} (h : Canon s) : Canon (readOutput s c o gen).1.s :=
  canon_rd (countCmd_canon (canon_foldl_of Rd.s checkTile_canon (canon_rd h)))

theorem publishOutput_canon {planId : Nat} {t : Token} {stamp : Nat} (h : Canon s) : Canon (publishOutput s planId t stamp) := by
  unfold publishOutput
  split
  · refine canon_ite h ?_
    split
    · exact publish_canon h
    · exact canon_both publish_canon (fun h => canon_ite (publish_canon h) (publish_canon h)) (canon_when modStats_canon (readOutput_canon h))
  · exact h

theorem execResultToken_canon {planId : Nat} {t : Token} (h : Canon s) : CanonNext (execResultToken planId t s) := by
  unfold execResultToken
  split
  · exact done_canon (publishOutput_canon (canon_mk h))
  · exact done_canon (publishOutput_canon h)

theorem publishReport_canon (h : Canon s) : Canon (publishReport s) := canon_ite h (msix_canon (canon_mk (publish_canon h)))

theorem execFrameReportPublish_canon (h : Canon s) : CanonNext (execFrameReportPublish s) := done_canon (publishReport_canon h)

/-! ## Fusion -/

theorem fusStart_canon {c : Cmdr} (h : Canon s) : Canon (fusStart c s) := canon_mk h

theorem fusEnd_canon {c : Cmdr} {r : Rd} {cyc : Nat} {e : Fus} {out : Option (List Byte)} (h : Canon r.s) : Canon (fusEnd c r cyc e out).s := by
  unfold fusEnd
  refine canon_ite_of Eff.s (canon_eff h) (canon_ite_of Eff.s (canon_eff (engineMismatch_canon (canon_mk h))) ?_)
  split
  · exact canon_eff (canon_mk h)
  · exact canon_both_of Eff.s canon_eff canon_eff (putOutput_canon (canon_mk h))

theorem fusEgoBody_canon {c : Cmdr} (h : Canon s) : Canon (fusEgoBody c s).s := by
  unfold fusEgoBody
  extract_lets d s1 a
  split
  next r _ e =>
    have hr : Canon r.s := canon_of_rd_eq e (readInput_canon (canon_rd (fusStart_canon h)))
    extract_lets n
    split
    next r' _ e' =>
      have hr' : Canon r'.s := canon_of_rd_eq e' (readInput_canon hr)
      exact fusEnd_canon hr'

theorem readLists_canon {c : Cmdr} {r : Rd} (h : Canon r.s) : Canon (readLists c r).1.s :=
  canon_foldl_of (fun x : Rd × _ => x.1.s) (fun h => readLogical_canon (readLogical_canon h)) (readInput_canon h)

theorem fusUpdateBody_canon {c : Cmdr} (h : Canon s) : Canon (fusUpdateBody c s).s :=
  fusEnd_canon (canon_both_of Rd.s (fun h => canon_rd (alm_canon h)) (fun h => h) (readLists_canon (canon_rd (fusStart_canon h))))

theorem fusPublishBody_canon {c : Cmdr} (h : Canon s) : Canon (fusPublishBody c s).s := fusEnd_canon (canon_rd (fusStart_canon h))

theorem execFusEgo_canon {u ctx : Nat} {ph : Phys} (h : Canon s) : CanonNext (execFusEgo u ctx ph s) :=
  done_canon (issueWith_canon fusEgoBody_canon h)

theorem execFusUpdate_canon {u ctx : Nat} {ph : Phys} (h : Canon s) : CanonNext (execFusUpdate u ctx ph s) :=
  done_canon (issueWith_canon fusUpdateBody_canon h)

theorem execFusPublish_canon {u ctx : Nat} {ph : Phys} (h : Canon s) : CanonNext (execFusPublish u ctx ph s) :=
  done_canon (issueWith_canon fusPublishBody_canon h)

/-! ## Planning -/

theorem readRoadMap_canon {c : Cmdr} {slot : Nat} {r : Rd} {ofs n : Nat} (h : Canon r.s) : Canon (readRoadMap c slot r ofs n).1.s :=
  canon_foldl_of Rd.s checkTile_canon h

theorem readEdge_canon {c : Cmdr} {slot : Nat} {hd : List Byte} {r : Rd} {i : Nat} (h : Canon r.s) : Canon (readEdge c slot hd r i).1.s :=
  readRoadMap_canon (readRoadMap_canon h)

theorem readCand_canon {c : Cmdr} {slot : Nat} {hd : List Byte} {r : Rd} {i : Nat} (h : Canon r.s) : Canon (readCand c slot hd r i).1.s :=
  readRoadMap_canon h

theorem readRoot_canon {c : Cmdr} {slot : Nat} {hd : List Byte} {r : Rd} {i : Nat} (h : Canon r.s) : Canon (readRoot c slot hd r i).1.s :=
  readRoadMap_canon h

theorem readHorizon_canon {c : Cmdr} {slot : Nat} {hd : List Byte} {root : MapRoot} {r : Rd} {k : Nat} (h : Canon r.s) : Canon (readHorizon c slot
    hd root r k).1.s := by
  unfold readHorizon
  exact readEdge_canon (readRoadMap_canon h)

theorem readAll_canon {β : Type} {f : Rd → Nat → Rd × β} {r : Rd} {is : List Nat} (hf : ∀ {q i}, Canon q.s → Canon (f q i).1.s) (h : Canon r.s) :
    Canon (readAll f r is).1.s :=
  canon_foldl_of (fun x : Rd × List β => x.1.s) hf h

theorem chkStart_canon {c : Cmdr} (h : Canon s) : Canon (chkStart c s) := canon_mk h

theorem chkBusy_canon {c : Cmdr} {cyc : Nat} (h : Canon s) : Canon (chkBusy c cyc s) := canon_mk h

theorem chkEnd_canon {c : Cmdr} {r : Rd} {cyc : Nat} {grid : Grid} {out : List Byte} {after : State → State}
    (ha : ∀ {t}, Canon t → Canon (after t)) (h : Canon r.s) : Canon (chkEnd c r cyc grid out after).s := by
  unfold chkEnd
  refine canon_ite_of Eff.s (canon_eff (chkBusy_canon h)) (canon_ite_of Eff.s (canon_eff (canon_unless (fun h => canon_mk h) (chkBusy_canon h)))
    (canon_ite_of Eff.s (canon_eff (engineMismatch_canon (canon_mk (chkBusy_canon h)))) ?_))
  exact canon_ite_of Eff.s (canon_eff (putOutput_canon (ha (chkBusy_canon h)))) (canon_eff (putOutput_canon (ha (chkBusy_canon h))))

theorem gridGeom_canon (h : Canon s) : Canon (gridGeom s).1 :=
  canon_ite_of Prod.fst (canon_fst h) (canon_fst (draw_canon (draw_canon (draw_canon h))))

theorem plnGridBody_canon {c : Cmdr} (h : Canon s) : Canon (plnGridBody c s).s := by
  unfold plnGridBody
  extract_lets d pln s1 a aux gens
  have hs : Canon s1 := canon_mk h
  split
  next r _ e =>
    have hr : Canon r.s := canon_of_rd_eq e (readLogical_canon (canon_rd hs))
    split
    next r1 _ e1 =>
      have h1 : Canon r1.s := canon_of_rd_eq e1 (readLogical_canon hr)
      split
      next r2 _ e2 =>
        have h2 : Canon r2.s := canon_of_rd_eq e2 (canon_ite_of (fun x : Rd × List Byte => x.1.s) h1 (readLogical_canon h1))
        extract_lets n
        split
        next r3 _ e3 =>
          have h3 : Canon r3.s := canon_of_rd_eq e3 (readLogical_canon h2)
          extract_lets tracks contested
          split
          next s4 _ _ _ e4 =>
            have h4 : Canon s4 := canon_of_fst_eq e4 (gridGeom_canon h3)
            refine canon_ite_of Eff.s (canon_eff h4) (canon_ite_of Eff.s (canon_eff (engineMismatch_canon (canon_mk h4)))
              (canon_eff (canon_unless alm_canon (canon_mk h4))))

theorem plnCheckBody_canon {c : Cmdr} (h : Canon s) : Canon (plnCheckBody c s).s := by
  unfold plnCheckBody
  extract_lets d slot gen grid s1
  split
  next r _ e =>
    have hr : Canon r.s := canon_of_rd_eq e (readInput_canon (canon_rd (chkStart_canon h)))
    extract_lets root w named
    refine canon_ite_of Eff.s (chkEnd_canon id hr) (canon_ite_of Eff.s (chkEnd_canon canon_mk hr) ?_)
    split
    next r1 _ e1 =>
      have h1 : Canon r1.s := canon_of_rd_eq e1 (readRoadMap_canon hr)
      refine canon_ite_of Eff.s (chkEnd_canon canon_mk h1) ?_
      split
      next r2 _ e2 =>
        have h2 : Canon r2.s := canon_of_rd_eq e2 (readRoot_canon h1)
        split
        next r3 _ e3 =>
          have h3 : Canon r3.s := canon_of_rd_eq e3 (readAll_canon readHorizon_canon h2)
          split
          next r4 _ e4 =>
            exact chkEnd_canon canon_mk (canon_of_rd_eq e4 (readAll_canon readCand_canon h3))

theorem fallbackEvent_canon {c : Cmdr} (h : Canon s) : Canon (fallbackEvent c s) := alm_canon (canon_mk h)

theorem disagreeEvent_canon {c : Cmdr} {k : Nat} (h : Canon s) : Canon (disagreeEvent c s k) := by
  unfold disagreeEvent
  exact healthEvent_canon (alm_canon (cmdEvent_canon (modStats_canon (canon_mk h))))

theorem trajNodes_canon {c : Cmdr} {slot : Nat} {hd : List Byte} {r : Rd} {es : List MapEdge} (h : Canon r.s) : Canon (trajNodes c slot hd r es).1.s
    := by
  unfold trajNodes
  split
  · exact readRoadMap_canon (readRoadMap_canon (canon_foldl_of (fun x : Rd × _ => x.1.s) (fun h => readRoadMap_canon (readRoadMap_canon h)) h))
  · exact canon_foldl_of (fun x : Rd × _ => x.1.s) (fun h => readRoadMap_canon (readRoadMap_canon h)) h

theorem plnCommitBody_canon {c : Cmdr} (h : Canon s) : Canon (plnCommitBody c s).s := by
  unfold plnCommitBody
  extract_lets d gen grid
  split
  next r _ e =>
    have hr : Canon (chkStart c r.s) := chkStart_canon (canon_of_rd_eq e (readInput_canon (canon_rd h)))
    refine canon_ite_of Eff.s (chkEnd_canon id (canon_rd (canon_mk hr))) (canon_ite_of Eff.s (chkEnd_canon fallbackEvent_canon (canon_rd (canon_mk hr))) ?_)
    refine chkEnd_canon (fun h => canon_foldl disagreeEvent_canon (canon_unless fallbackEvent_canon h)) (trajNodes_canon ?_)
    exact canon_foldl_of (fun x : Rd × List Trial => x.1.s) (fun h => readAll_canon readHorizon_canon (readCand_canon h))
      (readRoot_canon (readRoadMap_canon (canon_rd (canon_mk hr))))

theorem execPlnGrid_canon {u ctx : Nat} {ph : Phys} (h : Canon s) : CanonNext (execPlnGrid u ctx ph s) :=
  done_canon (issueWith_canon plnGridBody_canon h)

theorem execPlnCheck_canon {u ctx : Nat} {ph : Phys} (h : Canon s) : CanonNext (execPlnCheck u ctx ph s) :=
  done_canon (issueWith_canon plnCheckBody_canon h)

theorem execPlnCommit_canon {u ctx : Nat} {ph : Phys} (h : Canon s) : CanonNext (execPlnCommit u ctx ph s) :=
  done_canon (issueWith_canon plnCommitBody_canon h)

end Sys2Proof.Machine
end

section
/-! PROOFS. What keeps both memories canonical (O57): memory space, objects, ingest, plans, power and Seasons. -/

namespace Sys2Proof.Machine
variable {s : State}

/-! ## Space -/

theorem setTag_canon {u tag : Nat} (h : Canon s) : Canon (setTag s u tag) := canon_mk h

theorem claim_canon {key part : Nat} {units : List Nat} (h : Canon s) : Canon (claim s key part units) :=
  canon_foldl (fun h => canon_unless canon_mk (canon_ite (setTag_canon h) h)) h

theorem clearUnit_canon {u : Nat} (h : Canon s) : Canon (clearUnit s u) := by
  unfold clearUnit
  dsimp only
  split
  · exact canon_foldl (fun h => canon_foldl (fun h => canon_ite (dropCheck_canon h) h) h) (canon_mk ⟨wf_mclear _ _ _ h.1, h.2⟩)
  · exact canon_mk h

theorem releaseUnits_canon {key : Nat} (h : Canon s) : Canon (releaseUnits s key) :=
  canon_foldl (fun h => canon_ite h (setTag_canon (clearUnit_canon h))) (canon_mk h)

theorem fitRecords_canon {q n : Nat} (h : Canon s) : CanonSome (fitRecords s q n) := by
  unfold fitRecords
  dsimp only
  split
  · exact canonSome_some (canon_foldl (fun h => setTag_canon (clearUnit_canon (canon_mk h))) h)
  · split
    · exact canonSome_none
    · exact canonSome_some (claim_canon h)

theorem putFines_canon {die : Nat} {fs : List Fine} (h : Canon s) : Canon (putFines s die fs) := canon_mk h

theorem copyEntry_canon {src dst : Nat × Nat × Nat} (h : Canon s) : Canon (copyEntry s src dst) := wrBit_canon (wr_canon h)

theorem addFine_canon {key part a n k : Nat} {avoid : List Nat} (h : Canon s) : CanonSome (addFine s key part avoid a n k) := by
  unfold addFine
  dsimp only
  split
  · exact canonSome_none
  · split
    · exact canonSome_some (putFines_canon h)
    · split
      · exact canonSome_none
      · split
        · exact canonSome_none
        · next u _ =>
          have hc := claim_canon (key := keyFine (u * 65536)) (part := part) (units := unitsOf (u * 65536) (extBytes (n / 2 ^ k))) h
          exact canonSome_some (canon_foldl copyEntry_canon (putFines_canon (canon_mk ⟨wf_mclear _ _ _ hc.1, hc.2⟩)))

theorem needFine_canon {key part a n k : Nat} {avoid : List Nat} (h : Canon s) : CanonSome (needFine s key part avoid a n k) := by
  unfold needFine
  split
  · exact addFine_canon h
  · exact canonSome_some h

theorem dropFine_canon {die : Nat} {f : Fine} (h : Canon s) : Canon (dropFine s die f) :=
  releaseUnits_canon (putFines_canon (canon_foldl copyEntry_canon h))

theorem release_canon {key : Nat} (h : Canon s) : Canon (release s key) :=
  canon_foldl (fun h => canon_foldl dropFine_canon (putFines_canon h)) (releaseUnits_canon h)

theorem applyTags_canon (h : Canon s) : Canon (applyTags s) := canon_mk h

theorem putOwned_canon {part a k gen : Nat} {bs : List Byte} (h : Canon s) : Canon (putOwned s part a k gen bs) :=
  canon_ite (countBytes_canon (putTile_canon h)) (alm_canon h)

theorem putWeight_canon {r : Region} {i gen : Nat} {bs : List Byte} (h : Canon s) : Canon (putWeight s r i gen bs) :=
  canon_unless putOwned_canon (putOwned_canon h)

theorem settleAsked_canon {id : Nat} {is : List Nat} (h : Canon s) : Canon (settleAsked s id is) := canon_mk h

theorem openRegion_canon {id : Nat} {r : Region} (h : Canon s) : CanonSome (openRegion s id r) := by
  unfold openRegion
  dsimp only
  split
  · exact canonSome_none
  · next s1 e1 =>
    have h1 : Canon s1 := needFine_canon h _ e1
    split
    · exact canonSome_none
    · next s2 e2 =>
      have h2 : Canon s2 := by
        split at e2
        · exact Option.some.inj e2 ▸ h1
        · exact needFine_canon h1 _ e2
      exact canonSome_some (canon_mk (canon_unless (canon_foldl dropCheck_canon) (canon_foldl dropCheck_canon (claim_canon h2))))

theorem closeRegion_canon {id : Nat} (h : Canon s) : Canon (closeRegion s id) := release_canon (canon_mk h)

/-! ## Data -/

theorem dataCreate_canon {e : SubEntry} (h : Canon s) : Canon (dataCreate e s).st := by
  unfold dataCreate
  refine canon_ite_of Answer.st (canon_answer h) (canon_ite_of Answer.st (canon_answer h) (canon_ite_of Answer.st (canon_answer h)
    (canon_ite_of Answer.st (canon_answer h) ?_)))
  split
  · exact canon_answer h
  · next e => exact canon_answer (openRegion_canon h _ e)

theorem execDataWriteCreate_canon {e : SubEntry} (h : Canon s) : CanonNext (execDataWriteCreate e s) := mailbox_canon dataCreate_canon h

theorem writeTiles_canon {r : Region} {i0 gen : Nat} {bs : List Byte} (h : Canon s) : Canon (writeTiles s r i0 gen bs) :=
  canon_foldl putWeight_canon h

theorem dataRewrite_canon {e : SubEntry} (h : Canon s) : Canon (dataRewrite e s).st :=
  canon_ite_of Answer.st (canon_answer h) (canon_ite_of Answer.st (canon_answer h) (canon_ite_of Answer.st (canon_answer h) (canon_answer (canon_mk
    (writeTiles_canon h)))))

theorem execDataWriteRewrite_canon {e : SubEntry} (h : Canon s) : CanonNext (execDataWriteRewrite e s) := mailbox_canon dataRewrite_canon h

theorem dataRepair_canon {e : SubEntry} (h : Canon s) : Canon (dataRepair e s).st :=
  canon_ite_of Answer.st (canon_answer h) (canon_ite_of Answer.st (canon_answer h) (canon_ite_of Answer.st (canon_answer h) (canon_answer
    (settleAsked_canon (canon_foldl (fun h => canon_ite (putWeight_canon h) h) h)))))

theorem execDataWriteRepair_canon {e : SubEntry} (h : Canon s) : CanonNext (execDataWriteRepair e s) := mailbox_canon dataRepair_canon h

theorem dataDelete_canon {e : SubEntry} (h : Canon s) : Canon (dataDelete e s).st :=
  canon_ite_of Answer.st (canon_answer h) (canon_ite_of Answer.st (canon_answer h) (canon_answer (closeRegion_canon h)))

theorem execDataWriteDelete_canon {e : SubEntry} (h : Canon s) : CanonNext (execDataWriteDelete e s) := mailbox_canon dataDelete_canon h

theorem dataRead_canon {e : SubEntry} (h : Canon s) : Canon (dataRead e s).st :=
  canon_ite_of Answer.st (canon_answer h) (canon_answer (bufOut_canon (countBytes_canon h)))

theorem execDataRead_canon {e : SubEntry} (h : Canon s) : CanonNext (execDataRead e s) := mailbox_canon dataRead_canon h

theorem dataCheck_canon {e : SubEntry} (h : Canon s) : Canon (dataCheck e s).st := by
  unfold dataCheck
  split
  · exact canon_answer h
  · exact canon_answer (putCvu_canon (countRun_canon h))

theorem execDataCheck_canon {e : SubEntry} (h : Canon s) : CanonNext (execDataCheck e s) := mailbox_canon dataCheck_canon h

theorem loseSegment_canon {die k : Nat} (h : Canon s) : Canon (loseSegment s die k) :=
  alm_canon (canon_mk ⟨wf_mclear _ _ _ ((canon_foldl dropFine_canon (canon_mk ⟨wf_mclear _ _ _ h.1, h.2⟩)).1), (canon_foldl dropFine_canon (canon_mk
    ⟨wf_mclear _ _ _ h.1, h.2⟩)).2⟩)

theorem storeRetain_canon {e : SubEntry} (h : Canon s) : Canon (storeRetain e s).st :=
  canon_ite_of Answer.st (canon_answer h) (canon_answer (canon_foldl modStc_canon (canon_mk (canon_foldl loseSegment_canon h))))

theorem execStoreRetain_canon {e : SubEntry} (h : Canon s) : CanonNext (execStoreRetain e s) := mailbox_canon storeRetain_canon h

theorem regionFines_canon {id : Nat} {r : Region} (h : Canon s) : Canon (regionFines s id r) :=
  canon_unless (fun h => canonSome_getD (needFine_canon h) h) (canonSome_getD (needFine_canon h) h)

theorem resumeRegion_canon {id : Nat} {r : Region} (h : Canon s) : Canon (resumeRegion s id r) :=
  canon_foldl (fun h => notify_canon (alm_canon h)) (canon_mk (canon_foldl (fun h => canon_ite (repairTile_canon h) h) h))

theorem seqFines_canon {id : Nat} {d : SeqDesc} (h : Canon s) : CanonSome (seqFines s id d) := by
  unfold seqFines
  refine foldl_keeps CanonSome _ (fun o x ho => ?_) _ _ (canonSome_some h)
  cases o with
  | none => exact canonSome_none
  | some t => exact needFine_canon (ho t rfl)

theorem storeResume_canon (h : Canon s) : Canon (storeResume s).st := by
  unfold storeResume
  refine canon_ite_of Answer.st (canon_answer h) (canon_answer (canon_foldl modStc_canon (canon_foldl (canon_when putSeq_canon)
    (canon_foldl (canon_when resumeRegion_canon) (canon_foldl (canon_when (fun h => canonSome_getD (seqFines_canon h) h))
      (canon_foldl (canon_when regionFines_canon) h))))))

theorem execStoreResume_canon {e : SubEntry} (h : Canon s) : CanonNext (execStoreResume e s) := mailbox_canon storeResume_canon h

theorem emptySlot_canon {k : Nat} (h : Canon s) : Canon (emptySlot s k) := canon_mk (canon_ite (closeRegion_canon h) h)

theorem loadMap_canon {k part base reserve : Nat} {img : List Byte} (h : Canon s) : Canon (loadMap s k part base reserve img).1 := by
  unfold loadMap
  dsimp only
  split
  · exact canon_fst (emptySlot_canon h)
  · split
    · exact canon_fst (emptySlot_canon h)
    · next e => exact canon_fst (canon_mk (canon_foldl (fun h => canon_unless putTile_canon (putTile_canon h)) (openRegion_canon (emptySlot_canon h) _ e)))

theorem mapLoad_canon {e : SubEntry} (h : Canon s) : Canon (mapLoad e s).st := by
  unfold mapLoad
  refine canon_ite_of Answer.st (canon_answer h) (canon_ite_of Answer.st (canon_answer h) ?_)
  split
  · next e => exact canon_answer (canon_of_fst_eq e (loadMap_canon h))
  · next e => exact canon_answer (alm_canon (canon_of_fst_eq e (loadMap_canon h)))

theorem execMapLoad_canon {e : SubEntry} (h : Canon s) : CanonNext (execMapLoad e s) := mailbox_canon mapLoad_canon h

theorem mapSelect_canon {e : SubEntry} (h : Canon s) : Canon (mapSelect e s).st :=
  canon_ite_of Answer.st (canon_answer h) (canon_answer (canon_mk h))

theorem execMapSelect_canon {e : SubEntry} (h : Canon s) : CanonNext (execMapSelect e s) := mailbox_canon mapSelect_canon h

theorem execMapStatus_canon {e : SubEntry} (h : Canon s) : CanonNext (execMapStatus e s) := mailbox_canon canon_answer h

theorem switchMap_canon {n : Nat} (h : Canon s) : Canon (switchMap s n) := by
  unfold switchMap
  split
  · exact canon_mk h
  · exact h

theorem execMapSwitch_canon (h : Canon s) : CanonNext (execMapSwitch s) :=
  canonNext_ite (done_canon (switchMap_canon (atCalend_canon h))) (done_canon h)

theorem seqDefine_canon {e : SubEntry} (h : Canon s) : Canon (seqDefine e s).st := by
  unfold seqDefine
  refine canon_ite_of Answer.st (canon_answer h) ?_
  split
  · exact canon_answer h
  · split
    · exact canon_answer h
    · next e => exact canon_answer (putSeq_canon (claim_canon (seqFines_canon h _ e)))

theorem execSeqDefine_canon {e : SubEntry} (h : Canon s) : CanonNext (execSeqDefine e s) := mailbox_canon seqDefine_canon h

theorem seqEdit_canon {e : SubEntry} {op : Nat} (h : Canon s) : Canon (seqEdit e op s).st :=
  canon_ite_of Answer.st (canon_answer h) (canon_ite_of Answer.st (canon_ite_of Answer.st (canon_answer h) (canon_answer (putSeq_canon h)))
    (canon_answer (putSeq_canon h)))

theorem execSeqEditTruncate_canon {e : SubEntry} (h : Canon s) : CanonNext (execSeqEditTruncate e s) := mailbox_canon seqEdit_canon h

theorem execSeqEditSetWindow_canon {e : SubEntry} (h : Canon s) : CanonNext (execSeqEditSetWindow e s) := mailbox_canon seqEdit_canon h

theorem execSeqEditSetGlobals_canon {e : SubEntry} (h : Canon s) : CanonNext (execSeqEditSetGlobals e s) := mailbox_canon seqEdit_canon h

theorem execSeqEditReset_canon {e : SubEntry} (h : Canon s) : CanonNext (execSeqEditReset e s) := mailbox_canon seqEdit_canon h

theorem seqRead_canon {e : SubEntry} (h : Canon s) : Canon (seqRead e s).st :=
  canon_ite_of Answer.st (canon_answer h) (canon_answer (bufOut_canon h))

theorem execSeqRead_canon {e : SubEntry} (h : Canon s) : CanonNext (execSeqRead e s) := mailbox_canon seqRead_canon h

theorem seqDelete_canon {e : SubEntry} (h : Canon s) : Canon (seqDelete e s).st := by
  unfold seqDelete
  exact canon_ite_of Answer.st (canon_answer h) (canon_ite_of Answer.st (canon_answer h) (canon_answer (release_canon (putSeq_canon h))))

theorem execSeqDelete_canon {e : SubEntry} (h : Canon s) : CanonNext (execSeqDelete e s) := mailbox_canon seqDelete_canon h

theorem execQueueStatus_canon {e : SubEntry} (h : Canon s) : CanonNext (execQueueStatus e s) :=
  mailbox_canon (fun h => canon_answer (bufOut_canon h)) h

/-! ## Ingest -/

theorem stepTime_canon {d : Int} (h : Canon s) : Canon (stepTime s d) := alm_canon (canon_mk (canon_mk (canon_mk h)))

theorem freePpm_canon (h : Canon s) : Canon (freePpm s).2 := canon_snd (draw_canon h)

theorem inSync_canon (h : Canon s) : Canon (inSync s) := canon_mk h

theorem execGptpSync_canon {offset : Int} {gm steps : Nat} (h : Canon s) : CanonNext (execGptpSync offset gm steps s) :=
  canonNext_ite (done_canon h) (canonNext_ite (done_canon (inSync_canon (canon_unless stepTime_canon (canon_mk h)))) (canonNext_ite (done_canon
    (canon_mk (canon_mk h))) (canonNext_ite (done_canon (inSync_canon (stepTime_canon (canon_mk h)))) (done_canon (canon_mk (freePpm_canon (canon_mk
    h)))))))

theorem execGptpHoldover_canon {lost : Bool} (h : Canon s) : CanonNext (execGptpHoldover lost s) :=
  canonNext_ite (done_canon (canon_mk h)) (done_canon h)

theorem execTimeLoRead_canon (h : Canon s) : CanonNext (execTimeLoRead s) := done_canon (canon_mk h)

theorem modStream_canon {k : Nat} {f : Stream → Stream} (h : Canon s) : Canon (modStream s k f) :=
  canon_of_same (modStream_mem s k f) (modStream_hostMem s k f) h

theorem damage_canon {k cause : Nat} (h : Canon s) : Canon (damage s k cause) := by
  unfold damage
  split
  · exact h
  · exact canon_ite h (alm_canon (modStream_canon h))

theorem openSample_canon {k : Nat} (h : Canon s) : Canon (openSample s k) := canon_ite (modStream_canon h) (modStream_canon h)

theorem closeSample_canon {k last : Nat} (h : Canon s) : Canon (closeSample s k last) := modStream_canon h

theorem stage_canon {k ofs : Nat} {bs : List Byte} {f : Sample → Sample} (h : Canon s) : Canon (stage s k ofs bs f) := by
  unfold stage
  dsimp only
  split
  · exact h
  · exact canon_ite h (canon_ite (damage_canon h) (canon_mk h))

theorem modLink_canon {k : Nat} {f : LinkS → LinkS} (h : Canon s) : Canon (modLink s k f) :=
  canon_of_same (modLink_mem s k f) (modLink_hostMem s k f) h

theorem csiSeen_canon {port : Nat} {bad : Bool} (h : Canon s) : Canon (csiSeen s port bad) := canon_ite h (modLink_canon h)

theorem startSample_canon {k : Nat} (h : Canon s) : Canon (startSample s k) := openSample_canon (modStream_canon (damage_canon h))

theorem execCsi2FrameStart_canon {port vc frameNo : Nat} (h : Canon s) : CanonNext (execCsi2FrameStart port vc frameNo s) :=
  canonNext_ite (done_canon (csiSeen_canon h)) (done_canon (canon_foldl startSample_canon (csiSeen_canon h)))

theorem takeLine_canon {k : Nat} {p : CsiPacket} (h : Canon s) : Canon (takeLine s k p) := by
  unfold takeLine
  dsimp only
  split
  · exact h
  · exact canon_ite h (canon_ite (damage_canon h) (canon_ite (canon_ite (damage_canon h) (canon_ite (damage_canon h) (stage_canon h))) (canon_ite h
      (canon_ite (damage_canon h) (canon_ite (damage_canon h) (stage_canon h))))))

theorem execCsi2Packet_canon {port : Nat} {p : CsiPacket} (h : Canon s) : CanonNext (execCsi2Packet port p s) :=
  done_canon (canon_foldl takeLine_canon (csiSeen_canon h))

theorem endSample_canon {k : Nat} (h : Canon s) : Canon (endSample s k) := by
  unfold endSample
  dsimp only
  split
  · exact h
  · exact closeSample_canon (canon_ite (damage_canon h) h)

theorem execCsi2FrameEnd_canon {port vc frameNo : Nat} (h : Canon s) : CanonNext (execCsi2FrameEnd port vc frameNo s) :=
  done_canon (canon_foldl endSample_canon h)

theorem takeDatagram_canon {k : Nat} {d : Datagram} {fcsOk : Bool} (h : Canon s) : Canon (takeDatagram s k d fcsOk) := by
  unfold takeDatagram
  dsimp only
  split
  · exact canon_ite (openSample_canon h) h
  · exact canon_when closeSample_canon (modStream_canon (canon_both damage_canon stage_canon (canon_ite (openSample_canon h) h)))

theorem execEthernetFrame_canon {port : Nat} {f : EthFrame} (h : Canon s) : CanonNext (execEthernetFrame port f s) := by
  unfold execEthernetFrame
  refine canonNext_ite (done_canon (canon_ite h (modLink_canon h))) ?_
  split
  · exact done_canon (canon_ite h (modLink_canon h))
  · exact done_canon (canon_foldl takeDatagram_canon (canon_ite h (modLink_canon h)))

theorem execGapExpiry_canon {k : Nat} (h : Canon s) : CanonNext (execGapExpiry k s) := by
  unfold execGapExpiry
  dsimp only
  split
  · exact done_canon h
  · exact canonNext_ite (done_canon (closeSample_canon h)) (done_canon h)

theorem putIngest_canon {k a lg gen : Nat} {bs : List Byte} (h : Canon s) : Canon (putIngest s k a lg gen bs) :=
  canon_ite (alm_canon h) (putTile_canon h)

theorem moveTile_canon {k : Nat} {x y : Sample} {closed : Bool} {t : State} (h : Canon s) (e : moveTile s k x closed = some (t, y)) : Canon t := by
  unfold moveTile at e
  dsimp only at e
  split at e
  · cases e
  · split at e
    · cases e
    · split at e
      · cases e
      · cases e
        exact putIngest_canon (ingestIn_canon h)

theorem execIngestTileMove_canon {k : Nat} (h : Canon s) : CanonNext (execIngestTileMove k s) := by
  unfold execIngestTileMove
  refine canonNext_ite (done_canon h) ?_
  split
  · split
    · next e => exact done_canon (modStream_canon (moveTile_canon h e))
    · exact done_canon h
  · refine canonNext_ite (done_canon h) ?_
    split
    · exact done_canon h
    · split
      · next e => exact done_canon (modStream_canon (moveTile_canon h e))
      · exact done_canon h

theorem execSampleComplete_canon {k : Nat} (h : Canon s) : CanonNext (execSampleComplete k s) := by
  unfold execSampleComplete
  dsimp only
  split
  · exact done_canon h
  · refine canonNext_ite (done_canon h) ?_
    split
    · exact done_canon h
    · exact done_canon (modStream_canon (putIngest_canon (ingestIn_canon h)))

theorem placeholder_canon {k : Nat} (h : Canon s) : Canon (placeholder s k) := canon_foldl putIngest_canon (putIngest_canon h)

theorem takeSnapshot_canon {frame t0 prevCal : Nat} (h : Canon s) : Canon (takeSnapshot s frame t0 prevCal) := canon_mk (putTile_canon (canon_mk h))

/-! ## Admit -/

theorem addFines_canon {key part : Nat} {avoid : List Nat} {xs : List (Nat × Nat × Nat)} (h : Canon s) :
    CanonSome (addFines s key part avoid xs) := by
  unfold addFines
  refine foldl_keeps CanonSome _ (fun o x ho => ?_) _ _ (canonSome_some h)
  cases o with
  | none => exact canonSome_none
  | some t => exact addFine_canon (ho t rfl)

theorem admitDesc_canon {key i : Nat} {c : SeasonCfg} {img d : List Byte} {t : Task} (h : Canon s) : Canon (admitDesc s key c img t i d).2 :=
  canon_snd (claim_canon (canonSome_getD (addFines_canon h) h))

theorem admitDescs_canon {key i : Nat} {c : SeasonCfg} {img : List Byte} {t : Task} {ds : List (List Byte)} (h : Canon s) :
    Canon (admitDescs s key c img t i ds).2 := by
  induction ds generalizing s i with
  | nil => exact h
  | cons d ds ih =>
    unfold admitDescs
    exact canon_ite_of Prod.snd (ih (admitDesc_canon (i := i) h)) (canon_snd h)

theorem admitTask_canon {key : Nat} {c : SeasonCfg} {img : List Byte} {t : Task} (h : Canon s) : Canon (admitTask s key c img t).2 :=
  canon_ite_of Prod.snd (canon_snd h) (admitDescs_canon h)

theorem admitTasks_canon {key : Nat} {c : SeasonCfg} {img : List Byte} {ts : List Task} (h : Canon s) : Canon (admitTasks s key c img ts).2 := by
  induction ts generalizing s with
  | nil => exact h
  | cons t ts ih =>
    unfold admitTasks
    exact canon_ite_of Prod.snd (ih (admitTask_canon h)) (canon_snd h)

/-- If the records find their places, the memories are canonical. -/
def CanonPlaced (x : Nat ⊕ State) : Prop := ∀ t, x = .inr t → Canon t

theorem placeRecords_canon {ps : List Plan} (h : Canon s) : CanonPlaced (placeRecords s ps) := by
  unfold placeRecords
  refine foldl_keeps CanonPlaced _ (fun x q hx => ?_) _ _ (fun _ e => Sum.inr.inj e ▸ h)
  cases x with
  | inl q => exact fun _ e => nomatch e
  | inr t =>
    dsimp only
    split
    · next e => exact fun _ e' => Sum.inr.inj e' ▸ fitRecords_canon (hx t rfl) _ e
    · exact fun _ e => nomatch e

theorem admitCheck_canon {p : Plan} (h : Canon s) : Canon (admitCheck s p).2 := by
  unfold admitCheck
  dsimp only
  split
  · exact canon_snd h
  · split
    · exact canon_snd h
    · split
      · exact canon_snd h
      · split
        · exact canon_snd h
        · split
          · exact canon_snd h
          · split
            · next e => exact canon_snd (placeRecords_canon (admitTasks_canon h) _ e)
            · exact canon_snd h

/-! ## Plans -/

theorem loadPlan_canon {img : List Byte} (h : Canon s) : Canon (loadPlan s img).1 := by
  unfold loadPlan
  refine canon_ite_of Prod.fst (canon_fst h) (canon_ite_of Prod.fst (canon_fst h) (canon_ite_of Prod.fst (canon_fst h) ?_))
  split
  · exact canon_fst h
  · exact canon_fst (canon_mk h)

theorem planLoad_canon {e : SubEntry} (h : Canon s) : Canon (planLoad e s).st :=
  canon_ite_of Answer.st (canon_answer h) (canon_answer (loadPlan_canon h))

theorem execPlanLoad_canon {e : SubEntry} (h : Canon s) : CanonNext (execPlanLoad e s) := mailbox_canon planLoad_canon h

theorem bindSeqs_canon {p : Plan} (h : Canon s) : Canon (bindSeqs s p) := canon_foldl putSeq_canon h

theorem admitPlan_canon {p : Plan} (h : Canon s) : Canon (admitPlan s p).1 := by
  unfold admitPlan
  split
  · exact canon_fst h
  · next e => exact canon_fst (bindSeqs_canon (canon_mk (modPlan_canon (canon_of_snd_eq e (admitCheck_canon h)))))

theorem planAdmit_canon {e : SubEntry} (h : Canon s) : Canon (planAdmit e s).st := by
  unfold planAdmit
  split
  · exact canon_answer h
  · split
    · next e => exact canon_answer (canon_of_fst_eq e (admitPlan_canon h))
    · exact canon_answer h

theorem execPlanAdmit_canon {e : SubEntry} (h : Canon s) : CanonNext (execPlanAdmit e s) := mailbox_canon planAdmit_canon h

theorem planSelect_canon {e : SubEntry} (h : Canon s) : Canon (planSelect e s).st := by
  unfold planSelect
  split
  · exact canon_answer h
  · refine canon_ite_of Answer.st (canon_answer h) (canon_ite_of Answer.st (canon_answer h) ?_)
    split
    · exact canon_answer h
    · exact canon_answer (modPlan_canon h)

theorem execPlanSelect_canon {e : SubEntry} (h : Canon s) : CanonNext (execPlanSelect e s) := mailbox_canon planSelect_canon h

theorem dropPlan_canon {id : Nat} (h : Canon s) : Canon (dropPlan s id) := canon_mk h

theorem planRetire_canon {e : SubEntry} (h : Canon s) : Canon (planRetire e s).st := by
  unfold planRetire
  split
  · exact canon_answer h
  · exact canon_ite_of Answer.st (canon_answer (modPlan_canon h)) (canon_answer (dropPlan_canon h))

theorem execPlanRetire_canon {e : SubEntry} (h : Canon s) : CanonNext (execPlanRetire e s) := mailbox_canon planRetire_canon h

theorem retireNow_canon {id : Nat} (h : Canon s) : Canon (retireNow s id) := by
  unfold retireNow
  exact release_canon (canon_mk (retirePlan_canon h))

theorem dropRetired_canon (h : Canon s) : Canon (dropRetired s) := by
  have hd := canon_foldl (f := fun s p => dropPlan s p.planId) (l := s.plans.filter (fun p => p.retired && !planBusy s p.planId)) dropPlan_canon h
  refine canon_unless (fun hd => ?_) hd
  split
  · next e => exact placeRecords_canon hd _ e
  · exact hd

theorem sparesExhausted_canon {p : Plan} {gs : List Nat} (h : Canon s) : Canon (sparesExhausted s p gs) :=
  notify_canon (alm_canon (canon_foldl modHltQ_canon h))

theorem overrideSelect_canon {p : Plan} {n v : Nat} (h : Canon s) : Canon (overrideSelect s p n v) :=
  notify_canon (alm_canon (modStats_canon (modPlan_canon h)))

theorem exclusionSwitch_canon {p : Plan} {n : Nat} (h : Canon s) : Canon (exclusionSwitch s p n) := by
  unfold exclusionSwitch
  dsimp only
  split
  · exact modPlan_canon (canon_when overrideSelect_canon (canon_mk h))
  · exact canon_when sparesExhausted_canon (canon_when overrideSelect_canon (canon_mk h))

theorem selectSwitch_canon {p : Plan} {n : Nat} (h : Canon s) : Canon (selectSwitch s p n) := by
  unfold selectSwitch
  split
  · exact modPlan_canon h
  · exact h

theorem leaveSubstitute_canon {q : Nat} (h : Canon s) : Canon (leaveSubstitute s q) := clearCluSide_canon (modRot_canon h)

theorem extendStep_canon {q : Nat} (h : Canon s) : Canon (extendStep s q) := by
  unfold extendStep
  refine canon_ite h (canon_ite (canon_ite (leaveSubstitute_canon h) h) (canon_ite (canon_ite h (endStep_canon h)) ?_))
  split
  · exact modRot_canon h
  · exact endStep_canon h

theorem extendSteps_canon (h : Canon s) : Canon (extendSteps s) := canon_foldl extendStep_canon h

theorem execVariantSwitch_canon {planId : Nat} (h : Canon s) : CanonNext (execVariantSwitch planId s) := by
  unfold execVariantSwitch
  split
  · exact done_canon h
  · exact canonNext_ite (done_canon (extendSteps_canon (selectSwitch_canon (atCalend_canon h)))) (done_canon h)

theorem execExclusionSwitch_canon {planId : Nat} (h : Canon s) : CanonNext (execExclusionSwitch planId s) := by
  unfold execExclusionSwitch
  split
  · exact done_canon h
  · exact canonNext_ite (done_canon (extendSteps_canon (exclusionSwitch_canon (atCalend_canon h)))) (done_canon h)

theorem calendSwitches_canon {n : Nat} (h : Canon s) : Canon (calendSwitches s n) := by
  unfold calendSwitches
  refine extendSteps_canon (canon_mk (canon_when canon_mk (canon_foldl (fun h => ?_) h)))
  split
  · exact canon_ite (exclusionSwitch_canon h) (selectSwitch_canon h)
  · exact h

/-! ## Power -/

theorem modPm_canon {f : Pm → Pm} (h : Canon s) : Canon (modPm s f) := canon_of_same (modPm_mem s f) (modPm_hostMem s f) h

theorem modPmQ_canon {q : Nat} {f : PmQ → PmQ} (h : Canon s) : Canon (modPmQ s q f) := canon_of_same (modPmQ_mem s q f) (modPmQ_hostMem s q f) h

theorem divFree_canon {a b : Nat} (h : Canon s) : Canon (divFree s a b).2 := canon_ite_of Prod.snd (canon_snd h) (canon_snd (draw_canon h))

theorem enterState_canon {n : Nat} (h : Canon s) : Canon (enterState s n) :=
  canon_ite h (canon_unless (fun h => notify_canon (alm_canon h)) (modStats_canon (modPm_canon h)))

theorem clockAt_canon {q k : Nat} (h : Canon s) : Canon (clockAt s q k) := modPmQ_canon (canon_ite h (modPmQ_canon (modStats_canon h)))

theorem beginChange_canon {q k : Nat} (h : Canon s) : Canon (beginChange s q k) :=
  canon_both clockAt_canon modPmQ_canon (modPmQ_canon (modPm_canon h))

theorem execDvfsStepComplete_canon {q : Nat} (h : Canon s) : CanonNext (execDvfsStepComplete q s) := by
  unfold execDvfsStepComplete
  split
  · exact done_canon h
  · exact done_canon (modPmQ_canon (clockAt_canon h))

theorem forceStep_canon {q k : Nat} (h : Canon s) : Canon (forceStep s q k) := modPmQ_canon (clockAt_canon h)

theorem stopWarm_canon (h : Canon s) : Canon (stopWarm s) := canon_ite (modPm_canon h) h

theorem enterSurvival_canon (h : Canon s) : Canon (enterSurvival s) :=
  canon_ite h (enterState_canon (modPm_canon (canon_foldl forceStep_canon (stopWarm_canon h))))

theorem execSurvivalP0Stop_canon (h : Canon s) : CanonNext (execSurvivalP0Stop s) :=
  canonNext_ite (done_canon (modPm_canon (canon_mk h))) (done_canon h)

theorem execSurvivalExit_canon (h : Canon s) : CanonNext (execSurvivalExit s) := by
  unfold execSurvivalExit
  split
  · exact done_canon h
  · exact canonNext_ite (done_canon (alm_canon (modPm_canon h))) (done_canon h)

theorem failSensor_canon {p k : Nat} (h : Canon s) : Canon (failSensor s p k) := alm_canon h

theorem pairFirst_canon {x : PmInput} {p : Nat} (h : Canon s) : Canon (pairFirst x s p) :=
  canon_when alm_canon (canon_when alm_canon (modPm_canon (canon_when failSensor_canon (canon_ite (failSensor_canon h) h))))

theorem pairSecond_canon {t : Tbl PairS} {p : Nat} (h : Canon s) : Canon (pairSecond t s p) := by
  unfold pairSecond
  refine canon_ite (modPm_canon h) ?_
  split
  · exact canon_ite h (canon_both (fun h => failSensor_canon (modPm_canon h)) (fun h => failSensor_canon (modPm_canon h)) (canon_ite (draw_canon h)
      h))
  · exact h

theorem tempBreach_canon {item : Nat} {v : Int} (h : Canon s) : Canon (tempBreach s item v) := canon_ite (alm_canon (breach_canon h)) h

theorem dieTemps_canon (h : Canon s) : Canon (dieTemps s) :=
  canon_when tempBreach_canon (canon_when tempBreach_canon (canon_foldl storeTemp_canon (canon_mk (modPm_canon (modPm_canon h)))))

theorem countHours_canon (h : Canon s) : Canon (countHours s) := modPm_canon h

/-- The two functions that the kernel would run on the states before them, `divFree` and `powerOver`, are taken for any that keep the memories. -/
theorem pmSample_canon {x : PmInput} (h : Canon s) : Canon (pmSample x s) := by
  suffices key : ∀ f, f = pmSample → Canon (f x s) from key _ rfl
  intro f e
  have hd : ∀ {s a b}, Canon s → Canon (divFree s a b).2 := divFree_canon
  delta pmSample at e
  revert hd e
  generalize divFree = dv
  generalize powerOver = po
  intro e hd
  rw [congrFun (congrFun e x) s]
  extract_lets s1 s2 s3 qs s4 p s5
  have h4 : Canon s4 := canon_foldl modPmQ_canon (dieTemps_canon (canon_foldl pairSecond_canon (canon_foldl pairFirst_canon h)))
  split
  next sum n _ =>
    split
    next mean s6 e6 =>
      have h6 : Canon s6 := canon_of_snd_eq e6 (hd (modPm_canon h4))
      extract_lets s7 s8 s9 s10 s11
      have h9 : Canon s9 := canon_foldl modPmQ_canon (modStats_canon (modPm_canon h6))
      have h11 : Canon s11 := canon_when enterSurvival_canon (countHours_canon h9)
      exact modPm_canon h11

theorem execPmSample_canon {x : PmInput} (h : Canon s) : CanonNext (execPmSample x s) :=
  canonNext_ite (done_canon h) (done_canon (pmSample_canon h))

theorem execThermtrip_canon (h : Canon s) : CanonNext (execThermtrip s) := canonNext_ite (done_canon h) (done_canon (tempBreach_canon (canon_mk h)))

theorem loseCoolant_canon (h : Canon s) : Canon (loseCoolant s) := modPm_canon h

theorem execCoolantRead_canon {v : Option Int} (h : Canon s) : CanonNext (execCoolantRead v s) := by
  unfold execCoolantRead
  split
  · exact done_canon h
  · exact canonNext_ite (done_canon (modPm_canon h)) (done_canon (loseCoolant_canon h))

theorem execCoolantLost_canon (h : Canon s) : CanonNext (execCoolantLost s) :=
  canonNext_ite (done_canon h) (done_canon (loseCoolant_canon (canon_mk h)))

theorem execCoolFlowPulse_canon (h : Canon s) : CanonNext (execCoolFlowPulse s) := canonNext_ite (done_canon h) (done_canon (modPm_canon h))

theorem execFlowTimeout_canon (h : Canon s) : CanonNext (execFlowTimeout s) :=
  canonNext_ite (done_canon h) (done_canon (enterSurvival_canon (alm_canon (modPm_canon (canon_mk h)))))

theorem blendRth_canon {est : Nat} {num den : Int} (h : Canon s) : Canon (blendRth s est num den).2 :=
  canon_ite_of Prod.snd (canon_snd h) (canon_snd (draw_canon h))

theorem takeEvidence_canon {numJ numS den : Int} (h : Canon s) : Canon (takeEvidence s numJ numS den) :=
  canon_ite h (modPm_canon (blendRth_canon (blendRth_canon h)))

theorem evidence_canon (h : Canon s) : Canon (evidence s) := by
  unfold evidence
  refine canon_ite h (canon_when modPm_canon ?_)
  split
  · refine takeEvidence_canon ?_
    split
    · exact takeEvidence_canon h
    · exact h
  · split
    · exact takeEvidence_canon h
    · exact h

theorem moveCap_canon (h : Canon s) : Canon (moveCap s) := canon_ite (modPm_canon h) (modPm_canon h)

theorem judgeState_canon (h : Canon s) : Canon (judgeState s) :=
  canon_ite h (canon_both enterState_canon (fun h => canon_ite (enterState_canon h) (enterState_canon h)) (canon_ite (modPm_canon h) h))

theorem capLawUpdate_canon (h : Canon s) : Canon (capLawUpdate s) := judgeState_canon (moveCap_canon (modPm_canon (evidence_canon (modPm_canon h))))

theorem execCapLawUpdate_canon (h : Canon s) : CanonNext (execCapLawUpdate s) := canonNext_ite (done_canon h) (done_canon (capLawUpdate_canon h))

theorem lowerOne_canon (h : Canon s) : Canon (lowerOne s) := by
  unfold lowerOne
  dsimp only
  split
  · exact modPm_canon (beginChange_canon (stopWarm_canon h))
  · exact modPm_canon (stopWarm_canon h)

theorem raiseOne_canon (h : Canon s) : Canon (raiseOne s) := by
  unfold raiseOne
  refine canon_ite h ?_
  split
  · exact modPm_canon (beginChange_canon h)
  · exact h

theorem execCapControl_canon (h : Canon s) : CanonNext (execCapControl s) :=
  canonNext_ite (done_canon h) (canonNext_ite (done_canon (modPm_canon (divFree_canon h))) (done_canon (judgeState_canon (canon_both lowerOne_canon
    (fun h => canon_ite (raiseOne_canon h) h) (modPm_canon (divFree_canon h))))))

theorem warmHold_canon (h : Canon s) : Canon (warmHold s) :=
  canon_foldl modPmQ_canon (canon_foldl (fun h => modPmQ_canon (canon_unless modPm_canon (draw_canon h))) h)

theorem execWarmHoldAdjust_canon (h : Canon s) : CanonNext (execWarmHoldAdjust s) :=
  canonNext_ite (done_canon h) (canonNext_ite (done_canon (stopWarm_canon h)) (done_canon (warmHold_canon h)))

theorem execWarmShort_canon {q : Nat} (h : Canon s) : CanonNext (execWarmShort q s) := by
  unfold execWarmShort
  split
  · exact done_canon h
  · exact done_canon (modPmQ_canon (canon_mk h))

theorem dropMaxStep_canon {q k : Nat} (h : Canon s) : Canon (dropMaxStep s q k) := modPmQ_canon h

theorem raiseOffset_canon {q k n : Nat} (h : Canon s) : Canon (raiseOffset s q k n).1 := canon_fst (modPmQ_canon h)

theorem replanStep_canon {q k : Nat} (h : Canon s) : Canon (replanStep s q k) := by
  unfold replanStep
  split
  · exact canon_ite (canon_unless dropMaxStep_canon (raiseOffset_canon h)) h
  · exact h

theorem setCeilings_canon (h : Canon s) : Canon (setCeilings s) := canon_foldl (fun h => modPmQ_canon (canon_ite (alm_canon h) h)) h

theorem ageingReplan_canon (h : Canon s) : Canon (ageingReplan s) :=
  modPm_canon (canon_foldl canon_mk (setCeilings_canon (canon_foldl (fun h => canon_foldl replanStep_canon h) (canon_unless (fun h =>
    countHours_canon (canon_mk h)) (countHours_canon h)))))

theorem execAgeingReplan_canon (h : Canon s) : CanonNext (execAgeingReplan s) := canonNext_ite (done_canon h) (done_canon (ageingReplan_canon h))

theorem powerSeason_canon {start : Bool} (h : Canon s) : Canon (powerSeason s start) :=
  canon_both modPm_canon moveCap_canon (canon_foldl modPmQ_canon (setCeilings_canon (canon_when modPm_canon (modPm_canon h))))

theorem startSteps_canon {capped : List Nat} (h : Canon s) : Canon (startSteps s capped) := canon_foldl forceStep_canon h

theorem epochSteps_canon {was : List Nat} (h : Canon s) : Canon (epochSteps s was) :=
  canon_foldl (fun h => canon_ite (forceStep_canon h) (canon_ite (canon_ite (forceStep_canon h) h) (forceStep_canon (draw_canon h)))) h

theorem bootSweep_canon {raises : List (Nat × Nat × Nat)} {short : List (Nat × Nat)} (h : Canon s) : Canon (bootSweep s raises short) :=
  canon_foldl (fun h => canon_ite (dropMaxStep_canon h) h) (canon_foldl (fun h => canon_ite (raiseOffset_canon h) h) h)

theorem powerSection_canon (h : Canon s) : Canon (powerSection s).2 := canon_snd (draw_canon (divFree_canon h))

theorem execPwrStatus_canon {e : SubEntry} (h : Canon s) : CanonNext (execPwrStatus e s) := mailbox_canon (fun h => canon_answer (bufOut_canon h)) h

theorem pwrLimit_canon {e : SubEntry} (h : Canon s) : Canon (pwrLimit e s).st :=
  canon_ite_of Answer.st (canon_answer h) (canon_answer (moveCap_canon (modPm_canon h)))

theorem execPwrLimit_canon {e : SubEntry} (h : Canon s) : CanonNext (execPwrLimit e s) := mailbox_canon pwrLimit_canon h

/-! ## Seasons -/

theorem retagRings_canon {c : SeasonCfg} (h : Canon s) : Canon (retagRings s c) :=
  canon_foldl canon_mk (canon_foldl (fun h => canon_mk (clearUnit_canon h)) h)

theorem writeRwl_canon {c : SeasonCfg} (h : Canon s) : Canon (writeRwl s c) :=
  canon_foldl setDelays_canon (canon_mk (canon_mk (canon_mk (retagRings_canon h))))

theorem itemRefused_canon {kind item status reason : Nat} (h : Canon s) : Canon (itemRefused s kind item status reason) := alm_canon h

theorem preloadRegion_canon {id : Nat} {r : Region} {bs : List Byte} (h : Canon s) : Canon (preloadRegion s id r bs).1 := by
  unfold preloadRegion
  refine canon_ite_of Prod.fst (canon_fst h) (canon_ite_of Prod.fst (canon_fst h) (canon_ite_of Prod.fst (canon_fst h)
    (canon_ite_of Prod.fst (canon_fst h) (canon_ite_of Prod.fst (canon_fst h) ?_))))
  split
  · exact canon_fst h
  · next e => exact canon_fst (writeTiles_canon (applyTags_canon (openRegion_canon h _ e)))

theorem preloadMap_canon {m : Nat × Nat × Nat × Nat × List Byte} (h : Canon s) : Canon (preloadMap s m).1 := by
  unfold preloadMap
  refine canon_ite_of Prod.fst (canon_fst h) (canon_ite_of Prod.fst (canon_fst h) ?_)
  split
  · next e => exact canon_fst (applyTags_canon (canon_of_fst_eq e (loadMap_canon h)))
  · next e => exact canon_fst (canon_of_fst_eq e (loadMap_canon h))

theorem preloadMaps_canon {c : SeasonCfg} (h : Canon s) : Canon (preloadMaps s c) := by
  unfold preloadMaps
  refine canon_unless (fun h => ?_) (canon_foldl (fun h => canon_unless itemRefused_canon (preloadMap_canon h)) h)
  split
  · exact canon_mk h
  · exact h

theorem preloadPlan_canon {i : Nat} {img : List Byte} (h : Canon s) : Canon (preloadPlan s i img) := by
  unfold preloadPlan
  split
  next s1 st e =>
    have hl : Canon s1 := canon_of_fst_eq e (loadPlan_canon h)
    refine canon_ite (itemRefused_canon h) ?_
    split
    · exact hl
    · split
      · next e => exact canon_of_fst_eq e (admitPlan_canon hl)
      · exact itemRefused_canon (dropPlan_canon hl)

theorem applySeason_canon {c : SeasonCfg} (h : Canon s) : Canon (applySeason s c) :=
  canon_foldl preloadPlan_canon (preloadMaps_canon (canon_foldl (fun h => canon_ite (preloadRegion_canon h) (itemRefused_canon h)) (writeRwl_canon
    (expertClose_canon h))))

theorem setSeason_canon {e : SubEntry} (h : Canon s) : Canon (setSeason e s).st := by
  unfold setSeason
  dsimp only
  split
  · exact canon_answer h
  · exact canon_ite_of Answer.st (canon_answer h) (canon_ite_of Answer.st (canon_answer h) (canon_answer (canon_mk h)))

theorem execSetSeason_canon {e : SubEntry} (h : Canon s) : CanonNext (execSetSeason e s) := mailbox_canon setSeason_canon h

theorem tornSlot_canon {k : Nat} {img : List Byte} (h : Canon s) : Canon (tornSlot s k img) := canon_unless canon_mk (draw_canon (draw_canon h))

theorem seasonStore_canon {e : SubEntry} {flashFail : Bool} (h : Canon s) : Canon (seasonStore e flashFail s).st :=
  canon_ite_of Answer.st (canon_answer h) (canon_ite_of Answer.st (canon_answer h) (canon_ite_of Answer.st (canon_answer (tornSlot_canon h))
    (canon_answer (canon_mk h))))

theorem execSeasonStore_canon {e : SubEntry} {flashFail : Bool} (h : Canon s) : CanonNext (execSeasonStore e flashFail s) :=
  mailbox_canon seasonStore_canon h

theorem execSeasonRead_canon {e : SubEntry} (h : Canon s) : CanonNext (execSeasonRead e s) :=
  mailbox_canon (fun h => canon_answer (bufOut_canon h)) h

theorem execTrigPulseStart_canon {k : Nat} (h : Canon s) : CanonNext (execTrigPulseStart k s) :=
  canonNext_ite (done_canon h) (done_canon (canon_mk h))

theorem execTrigPulseEnd_canon {k : Nat} (h : Canon s) : CanonNext (execTrigPulseEnd k s) := canonNext_ite (done_canon h) (done_canon (canon_mk h))

theorem execLinkTraining_canon {link : Nat} {m : LinkMeasure} (h : Canon s) : CanonNext (execLinkTraining link m s) :=
  canonNext_ite (done_canon h) (done_canon (canon_unless canon_mk (modLink_canon h)))

theorem execEthLinkDown_canon {mac : Nat} (h : Canon s) : CanonNext (execEthLinkDown mac s) :=
  canonNext_ite (done_canon h) (done_canon (modLink_canon h))

theorem railEntry_canon (h : Canon s) : Canon (railEntry s).2 := canon_snd (draw_canon (draw_canon (draw_canon (draw_canon h))))

theorem surroundings_canon (h : Canon s) : Canon (surroundings s).2 := by
  unfold surroundings
  split
  next rails s1 e =>
    have h1 : Canon s1 := canon_of_snd_eq e (canon_foldl_of Prod.snd (fun h => canon_snd (railEntry_canon h)) (canon_snd h))
    split
    next n s2 e2 =>
      have h2 : Canon s2 := canon_of_snd_eq e2 (draw_canon h1)
      exact canon_snd h2

theorem getSurroundings_canon {e : SubEntry} (h : Canon s) : Canon (getSurroundings e s).st := canon_answer (bufOut_canon (surroundings_canon h))

theorem execGetSurroundings_canon {e : SubEntry} (h : Canon s) : CanonNext (execGetSurroundings e s) := mailbox_canon getSurroundings_canon h

end Sys2Proof.Machine
end

section
/-! PROOFS. What keeps both memories canonical (O57): boot, update, reports, frames and the host interface. -/

namespace Sys2Proof.Machine
variable {s : State}

/-! ## FwImage -/

theorem modUpd_canon {f : Upd → Upd} (h : Canon s) : Canon (modUpd s f) := canon_of_same (modUpd_mem s f) (modUpd_hostMem s f) h

theorem writeDir_canon {f : Tbl BootBank → Tbl BootBank} (h : Canon s) : Canon (writeDir s f) := modUpd_canon h

theorem useOlder_canon (h : Canon s) : Canon (useOlder s) := modUpd_canon h

theorem setBank_canon {b state attempts : Nat} (h : Canon s) : Canon (setBank s b state attempts) :=
  canon_of_same (setBank_mem s b state attempts) (setBank_hostMem s b state attempts) h

/-! ## Settings -/

theorem compactSettings_canon (h : Canon s) : Canon (compactSettings s) := canon_ite h (canon_mk h)

theorem writeSetting_canon {cls idx : Nat} {v : List Nat} (h : Canon s) : Canon (writeSetting s cls idx v) := compactSettings_canon (canon_mk h)

theorem writeSettings_canon (h : Canon s) : Canon (writeSettings s) := canon_foldl (fun h => canon_ite (writeSetting_canon h) h) h

theorem execSettingsJournalWrite_canon (h : Canon s) : CanonNext (execSettingsJournalWrite s) :=
  canonNext_ite (done_canon h) (done_canon (writeSettings_canon h))

theorem execRthJournal_canon (h : Canon s) : CanonNext (execRthJournal s) := canonNext_ite (done_canon h) (done_canon (writeSetting_canon h))

theorem readSetting_canon {cls idx : Nat} (h : Canon s) : Canon (readSetting s cls idx).1 := by
  unfold readSetting
  split
  · exact canon_fst h
  · exact canon_ite_of Prod.fst (canon_fst (alm_canon h)) (canon_fst h)

theorem restoreHealth_canon {g : Nat} (h : Canon s) : Canon (restoreHealth s g) := by
  unfold restoreHealth
  split
  · next e => exact modHealth_canon (canon_of_fst_eq e (readSetting_canon h))
  · next e => exact canon_unless alm_canon (modHealth_canon (canon_of_fst_eq e (readSetting_canon h)))

theorem restoreAge_canon {q : Nat} (h : Canon s) : Canon (restoreAge s q) := by
  unfold restoreAge
  split
  · next e => exact modPm_canon (modPmQ_canon (canon_of_fst_eq e (readSetting_canon h)))
  · next e => exact modPmQ_canon (canon_of_fst_eq e (readSetting_canon h))

theorem restoreRth_canon (h : Canon s) : Canon (restoreRth s) := by
  unfold restoreRth
  split
  · next e => exact modPm_canon (canon_of_fst_eq e (readSetting_canon h))
  · next e => exact modPm_canon (canon_of_fst_eq e (readSetting_canon h))

theorem restoreSettings_canon (h : Canon s) : Canon (restoreSettings s) :=
  restoreRth_canon (canon_foldl restoreAge_canon (canon_foldl restoreHealth_canon (modPm_canon h)))

theorem rewriteKey_canon {key : Nat} (h : Canon s) : Canon (rewriteKey s key) := by
  unfold rewriteKey
  split
  · exact writeSetting_canon h
  · exact canon_ite (writeSetting_canon h) h
  · exact writeSetting_canon h
  · exact writeSetting_canon h

theorem rewriteKeys_canon {bad : List JKey} (h : Canon s) : Canon (rewriteKeys s bad) := alm_canon (canon_foldl rewriteKey_canon h)

/-! ## Boot -/

/-- A reset empties device memory and keeps the host's. -/
theorem deviceReset_canon {cause : Nat} (h : Canon s) : Canon (deviceReset s cause) :=
  canon_mk (canon_mk (canon_mk (canon_mk ⟨rfl, h.2⟩)))

theorem restartDevice_canon {cause : Nat} (h : Canon s) : Canon (restartDevice s cause) := canon_mk (deviceReset_canon (canon_mk h))

theorem execPorstAssert_canon (h : Canon s) : CanonNext (execPorstAssert s) := done_canon (canon_mk (deviceReset_canon h))

theorem execPorstRelease_canon (h : Canon s) : CanonNext (execPorstRelease s) := canonNext_ite (done_canon h) (done_canon (canon_mk h))

theorem execHubRailLow_canon (h : Canon s) : CanonNext (execHubRailLow s) := done_canon (canon_mk (deviceReset_canon h))

theorem execHubRailRecover_canon (h : Canon s) : CanonNext (execHubRailRecover s) := canonNext_ite (done_canon h) (done_canon (canon_mk h))

theorem toStage_canon {n : Nat} (h : Canon s) : Canon (toStage s n) := canon_mk h

theorem execHubClockLock_canon {fuseOk : Bool} (h : Canon s) : CanonNext (execHubClockLock fuseOk s) :=
  canonNext_ite (done_canon h) (done_canon (toStage_canon (canon_mk h)))

theorem bootStop_canon {err : Nat} (h : Canon s) : Canon (bootStop s err) := canon_mk h

theorem rejectTried_canon (h : Canon s) : Canon (rejectTried s).1 :=
  canon_foldl_of Prod.fst (fun h => canon_ite_of Prod.fst (canon_fst (setBank_canon h)) h) (canon_fst h)

theorem tryBanks_canon {bs : List Nat} {m : Nat} (h : Canon s) : Canon (tryBanks bs s m).1 := by
  induction bs generalizing s m with
  | nil => exact h
  | cons b bs ih =>
    unfold tryBanks
    exact canon_ite_of Prod.fst (canon_fst (canon_when setBank_canon h)) (ih (setBank_canon (canon_when setBank_canon h)))

theorem startXiuth_canon {b : Nat} (h : Canon s) : Canon (startXiuth s b) := canon_mk (canon_mk h)

theorem blowFloor_canon {target mask : Nat} (h : Canon s) : Canon (blowFloor s target mask) := canon_mk h

theorem updAfterBoot_canon (h : Canon s) : Canon (updAfterBoot s) := modUpd_canon h

theorem bootBank_canon {mask b : Nat} (h : Canon s) : Canon (bootBank s mask b) := by
  unfold bootBank
  refine canon_both (fun h => restartDevice_canon (draw_canon (alm_canon (setBank_canon h)))) (fun h => toStage_canon (canon_mk (updAfterBoot_canon
    ?_))) (rebuildAlmanac_canon (startXiuth_canon h))
  split
  · exact blowFloor_canon h
  · exact h

theorem tornJournal_canon (h : Canon s) : Canon (tornJournal s) := canon_mk h

theorem foundFlash_canon {ph : BootPhys} (h : Canon s) : Canon (foundFlash ph s) := canon_when useOlder_canon (canon_ite (tornJournal_canon h) h)

theorem execImageLoad_canon {ph : BootPhys} (h : Canon s) : CanonNext (execImageLoad ph s) := by
  unfold execImageLoad
  refine canonNext_ite (done_canon h) (canonNext_ite (done_canon (bootStop_canon h)) (canonNext_ite (done_canon (bootStop_canon h))
    (canonNext_ite (done_canon (bootStop_canon h)) ?_)))
  dsimp only
  split
  · next e => exact done_canon (bootStop_canon (canon_of_fst_eq e (tryBanks_canon (rejectTried_canon (foundFlash_canon h)))))
  · next e => exact done_canon (bootBank_canon (canon_of_fst_eq e (tryBanks_canon (rejectTried_canon (foundFlash_canon h)))))

theorem restrictPackage_canon (h : Canon s) : Canon (restrictPackage s) := canon_mk h

theorem identityBad_canon {die field : Nat} (h : Canon s) : Canon (identityBad s die field) := restrictPackage_canon (alm_canon h)

theorem checkIdentity_canon (h : Canon s) : Canon (checkIdentity s) :=
  canon_unless identityBad_canon (canon_foldl identityBad_canon (canon_when identityBad_canon (canon_foldl identityBad_canon (canon_foldl
    identityBad_canon (canon_mk h)))))

theorem loadMicrocode_canon {r bank : Nat} {p : List Byte} {ok : Bool} (h : Canon s) : Canon (loadMicrocode s r bank p ok) := modUnit_canon h

theorem discoverQuarter_canon {ph : BootPhys} {q : Nat} (h : Canon s) : Canon (discoverQuarter ph s q) :=
  canon_foldl (fun h => canon_ite (canon_unless quarantineNow_canon (modHealth_canon h)) (canon_when hardFault_canon (loadMicrocode_canon h))) h

theorem tornSetting_canon (h : Canon s) : Canon (tornSetting s) := canon_mk h

theorem discover_canon {ph : BootPhys} (h : Canon s) : Canon (discover ph s) :=
  canon_foldl loadMicrocode_canon (canon_foldl (fun h => canon_ite (loadMicrocode_canon (discoverQuarter_canon h)) (canon_foldl modHealth_canon h))
    (checkIdentity_canon (canon_when rewriteKeys_canon (restoreSettings_canon (canon_ite (tornSetting_canon h) h)))))

theorem execDiscovery_canon {ph : BootPhys} (h : Canon s) : CanonNext (execDiscovery ph s) :=
  canonNext_ite (done_canon h) (done_canon (toStage_canon (discover_canon h)))

theorem setupDelays_canon {ph : BootPhys} (h : Canon s) : Canon (setupDelays ph s) :=
  canon_foldl (fun h => restrictPackage_canon (alm_canon h)) (canon_foldl (fun h => canon_mk ⟨wf_mclear _ _ _ ((modStc_canon (draw_canon
    (setDelays_canon (modStc_canon h)))).1), (modStc_canon (draw_canon (setDelays_canon (modStc_canon h)))).2⟩) h)

theorem execDelaySetup_canon {ph : BootPhys} (h : Canon s) : CanonNext (execDelaySetup ph s) :=
  canonNext_ite (done_canon h) (done_canon (toStage_canon (setupDelays_canon h)))

theorem injectRow_canon {ph : BootPhys} {row : Nat} (h : Canon s) : Canon (injectRow ph s row) :=
  canon_unless (fun h => canon_ite (restrictPackage_canon h) (canon_foldl (fun h => canon_ite (quarantineNow_canon h) h) h)) (alm_canon (canon_mk
    h))

theorem injectErrors_canon {ph : BootPhys} (h : Canon s) : Canon (injectErrors ph s) := canon_mk (canon_foldl injectRow_canon (canon_mk h))

theorem execErrorInjection_canon {ph : BootPhys} (h : Canon s) : CanonNext (execErrorInjection ph s) :=
  canonNext_ite (done_canon h) (done_canon (toStage_canon (injectErrors_canon h)))

theorem selectSeason_canon (h : Canon s) : Canon (selectSeason s).1 := by
  unfold selectSeason
  refine canon_ite_of Prod.fst (canon_fst h) ?_
  split
  · exact canon_fst (alm_canon h)
  · exact canon_ite_of Prod.fst (canon_fst h) (canon_ite_of Prod.fst (canon_fst (alm_canon h)) (canon_fst (alm_canon h)))

theorem startSeason_canon {ph : BootPhys} (h : Canon s) : Canon (startSeason ph s) :=
  startSteps_canon (powerSeason_canon (canon_when bootSweep_canon (applySeason_canon (canon_mk (selectSeason_canon h)))))

theorem execSeasonSelection_canon {ph : BootPhys} (h : Canon s) : CanonNext (execSeasonSelection ph s) :=
  canonNext_ite (done_canon h) (done_canon (toStage_canon (startSeason_canon h)))

theorem becomeReady_canon (h : Canon s) : Canon (becomeReady s) := canon_foldl placeholder_canon (canon_mk h)

theorem execReady_canon (h : Canon s) : CanonNext (execReady s) := canonNext_ite (done_canon h) (done_canon (becomeReady_canon h))

/-! ## Identity -/

theorem execGetIdentity_canon {e : SubEntry} (h : Canon s) : CanonNext (execGetIdentity e s) :=
  mailbox_canon (fun h => canon_answer (bufOut_canon h)) h

theorem execKeyDerivationDone_canon (h : Canon s) : CanonNext (execKeyDerivationDone s) :=
  canonNext_ite (done_canon h) (done_canon (modUpd_canon h))

theorem execGetCerts_canon {e : SubEntry} (h : Canon s) : CanonNext (execGetCerts e s) := mailbox_canon (fun h => canon_answer (bufOut_canon h)) h

theorem attest_canon {e : SubEntry} (h : Canon s) : Canon (attest e s).st := canon_answer (bufOut_canon (draw_canon (draw_canon h)))

theorem execAttest_canon {e : SubEntry} (h : Canon s) : CanonNext (execAttest e s) := mailbox_canon attest_canon h

/-! ## Update -/

theorem modBank_canon {b : Nat} {f : BootBank → BootBank} (h : Canon s) : Canon (modBank s b f) := modUpd_canon h

theorem discardUpdate_canon (h : Canon s) : Canon (discardUpdate s) := modUpd_canon (writeDir_canon h)

theorem stageComps_canon {img : List Byte} {relayFail : List Nat} (h : Canon s) : Canon (stageComps s img relayFail) :=
  modUpd_canon (canon_foldl (fun h => canon_foldl loadMicrocode_canon h) h)

theorem finishLoad_canon {img : List Byte} {relayFail : List Nat} (h : Canon s) : Canon (finishLoad s img relayFail) :=
  modUpd_canon (writeDir_canon (stageComps_canon h))

theorem lastPart_canon {relayFail : List Nat} (h : Canon s) : Canon (lastPart s relayFail).st :=
  canon_ite_of Answer.st (canon_answer (discardUpdate_canon h)) (canon_ite_of Answer.st (canon_answer (discardUpdate_canon h)) (canon_ite_of
    Answer.st (canon_answer (discardUpdate_canon h)) (canon_answer (finishLoad_canon h))))

theorem updLoad_canon {e : SubEntry} {relayFail : List Nat} (h : Canon s) : Canon (updLoad e relayFail s).st := by
  unfold updLoad
  refine canon_ite_of Answer.st (canon_ite_of Answer.st (canon_answer (discardUpdate_canon h)) (canon_both_of Answer.st lastPart_canon canon_answer
    (modBank_canon h))) (canon_ite_of Answer.st (canon_answer h) ?_)
  dsimp only
  split
  · exact canon_answer (alm_canon (discardUpdate_canon (writeDir_canon h)))
  · exact canon_both_of Answer.st lastPart_canon canon_answer (modUpd_canon (modBank_canon (writeDir_canon h)))

theorem execUpdLoad_canon {e : SubEntry} {relayFail : List Nat} (h : Canon s) : CanonNext (execUpdLoad e relayFail s) :=
  mailbox_canon updLoad_canon h

theorem updSchedule_canon {e : SubEntry} (h : Canon s) : Canon (updSchedule e s).st :=
  canon_ite_of Answer.st (canon_answer h) (canon_ite_of Answer.st (canon_answer h) (canon_answer (modUpd_canon h)))

theorem execUpdSchedule_canon {e : SubEntry} (h : Canon s) : CanonNext (execUpdSchedule e s) := mailbox_canon updSchedule_canon h

theorem execUpdStatus_canon {e : SubEntry} (h : Canon s) : CanonNext (execUpdStatus e s) := mailbox_canon canon_answer h

theorem defaultKey_canon {j : JKey} (h : Canon s) : Canon (defaultKey s j) := by
  unfold defaultKey
  split
  · exact modHealth_canon (alm_canon h)
  · exact modPm_canon (alm_canon h)
  · exact setCeilings_canon (modPmQ_canon (alm_canon h))
  · exact alm_canon h

theorem takeSettings_canon (h : Canon s) : Canon (takeSettings s) := rewriteKeys_canon (canon_foldl defaultKey_canon h)

theorem flipBanks_canon (h : Canon s) : Canon (flipBanks s) := canon_foldl (fun h => canon_foldl modUnit_canon h) h

theorem handOver_canon {b : Nat} (h : Canon s) : Canon (handOver s b) := takeSettings_canon (canon_mk (modUpd_canon (flipBanks_canon h)))

theorem seamless_canon {n : Nat} (h : Canon s) : Canon (seamless s n) := notify_canon (modUpd_canon (handOver_canon (writeDir_canon h)))

theorem execUpdateEpoch_canon (h : Canon s) : CanonNext (execUpdateEpoch s) := by
  unfold execUpdateEpoch
  split
  · exact done_canon h
  · exact canonNext_ite (done_canon h) (canonNext_ite (done_canon (restartDevice_canon (setBank_canon h))) (done_canon (seamless_canon h)))

theorem updConfirm_canon (h : Canon s) : Canon (updConfirm s).st := by
  unfold updConfirm
  split
  · exact canon_answer h
  · exact canon_ite_of Answer.st (canon_answer h) (canon_answer (canon_when blowFloor_canon (modUpd_canon (writeDir_canon h))))

theorem execUpdConfirm_canon {e : SubEntry} (h : Canon s) : CanonNext (execUpdConfirm e s) := mailbox_canon updConfirm_canon h

theorem scheduleFallback_canon {n : Nat} (h : Canon s) : Canon (scheduleFallback s n) := notify_canon (alm_canon (modUpd_canon (setBank_canon h)))

theorem execConfirmWindowExpiry_canon (h : Canon s) : CanonNext (execConfirmWindowExpiry s) := by
  unfold execConfirmWindowExpiry
  split
  · exact done_canon h
  · exact canonNext_ite (done_canon h) (done_canon (scheduleFallback_canon h))

theorem execFallbackEpoch_canon (h : Canon s) : CanonNext (execFallbackEpoch s) := by
  unfold execFallbackEpoch
  split
  · exact done_canon h
  · exact canonNext_ite (done_canon h) (canonNext_ite (done_canon (restartDevice_canon h)) (done_canon (modUpd_canon (handOver_canon h))))

theorem updCancel_canon {cut : Bool} (h : Canon s) : Canon (updCancel cut s).st :=
  canon_ite_of Answer.st (canon_answer (discardUpdate_canon h)) (canon_ite_of Answer.st (canon_answer (scheduleFallback_canon h)) (canon_ite_of
    Answer.st (canon_answer h) (canon_answer h)))

theorem execUpdCancel_canon {e : SubEntry} (h : Canon s) : CanonNext (execUpdCancel e s) :=
  canonNext_ite (mailbox_canon updCancel_canon h) (mailbox_canon updCancel_canon (canon_foldl complete_canon h))

/-! ## Report -/

theorem topOf_canon {xs : List (Nat × Nat)} (h : Canon s) : Canon (topOf xs s).2 := by
  unfold topOf
  dsimp only
  split
  · exact canon_snd h
  · exact canon_snd h
  · exact canon_snd (draw_canon h)

theorem chargeRun_canon {u ctx : Nat} {c : Ctx} {r : Run} (h : Canon s) : Canon (chargeRun s u ctx c r) := putCtx_canon (draw_canon h)

theorem chargeRunning_canon (h : Canon s) : Canon (chargeRunning s) := by
  unfold chargeRunning
  refine canon_foldl (fun h => canon_foldl (fun h => ?_) h) h
  split
  · exact chargeRun_canon h
  · exact h

theorem slowRatio_canon {x sc sr : Nat} (h : Canon s) : Canon (slowRatio x sc sr s).2 :=
  canon_ite_of Prod.snd (canon_ite_of Prod.snd (canon_snd (draw_canon h)) (canon_snd h)) (canon_snd h)

theorem slowTasks_canon (h : Canon s) : Canon (slowTasks s).2 :=
  canon_foldl_of Prod.snd (fun h => canon_foldl_of Prod.snd (fun h => canon_ite_of Prod.snd h (canon_snd (slowRatio_canon h))) h) (canon_snd h)

theorem slowEntry_canon {t : Slow} (h : Canon s) : Canon (slowEntry t s).2 := canon_snd (topOf_canon h)

theorem slowSection_canon (h : Canon s) : Canon (slowSection s).2 :=
  canon_snd (canon_foldl_of Prod.snd (fun h => canon_snd (slowEntry_canon h)) (canon_snd (slowTasks_canon h)))

theorem storeSection_canon (h : Canon s) : Canon (storeSection s).2 := canon_foldl_of Prod.snd (fun h => canon_snd (topOf_canon h)) (canon_snd h)

theorem frameReport_canon (h : Canon s) : Canon (frameReport s).2.2 := canon_snd (powerSection_canon (storeSection_canon (slowSection_canon h)))

theorem latchReport_canon (h : Canon s) : Canon (latchReport s) := canon_ite h (canon_mk (frameReport_canon (chargeRunning_canon h)))

theorem clearCounts_canon (h : Canon s) : Canon (clearCounts s) := canon_mk (canon_mk (canon_mk h))

/-! ## Calend -/

theorem noteOverruns_canon (h : Canon s) : Canon (noteOverruns s) := by
  unfold noteOverruns
  refine canon_foldl (fun h => canon_foldl (fun h => ?_) h) h
  split
  · exact canon_ite h (alm_canon (modStats_canon h))
  · exact h

theorem dueQuarantines_canon {n : Nat} (h : Canon s) : Canon (dueQuarantines s n) := by
  unfold dueQuarantines
  refine canon_foldl (fun h => ?_) (canon_foldl (fun h => canon_ite (carryOut_canon h) h) h)
  split
  · exact carryOut_canon h
  · exact h

theorem endFrame_canon (h : Canon s) : Canon (endFrame s) := canon_ite h (canon_mk (noteOverruns_canon (eveDeadline_canon h)))

theorem phaseError_canon {t p f : Nat} (h : Canon s) : Canon (phaseError t p f s).2 :=
  canon_ite_of Prod.snd (canon_snd (draw_canon h)) (canon_snd h)

theorem notePhase_canon {e : Int} (h : Canon s) : Canon (notePhase s e) := canon_ite (canon_mk (alm_canon h)) (canon_ite (canon_mk (alm_canon h)) h)

theorem schedule_canon {t : Nat} (h : Canon s) : Canon (schedule s t) := canon_mk (notePhase_canon (phaseError_canon h))

theorem startFrame_canon {n t : Nat} (h : Canon s) : Canon (startFrame s n t) := schedule_canon (canon_mk (canon_mk h))

theorem retireDue_canon {n : Nat} (h : Canon s) : Canon (retireDue s n) := canon_foldl retireNow_canon h

theorem returnHeld_canon (h : Canon s) : Canon (returnHeld s) := canon_foldl send_canon (canon_mk h)

theorem armFor_canon {n id : Nat} (h : Canon s) : Canon (armFor n s id) := by
  unfold armFor
  split
  · exact h
  · exact canon_mk (armPlan_canon (placePlan_canon h))

theorem sendHeartbeats_canon (h : Canon s) : Canon (sendHeartbeats s) := canon_mk h

theorem reseed_canon {k : Nat} (h : Canon s) : Canon (reseed s k) := modStc_canon (draw_canon h)

theorem openWindow_canon {n : Nat} (h : Canon s) : Canon (openWindow s n) := canon_ite h (notify_canon (modUpd_canon h))

theorem calend_canon {n t : Nat} (h : Canon s) : Canon (calend s n t) :=
  openWindow_canon (canon_mk (canon_foldl reseed_canon (sendHeartbeats_canon (canon_foldl armFor_canon (takeSnapshot_canon (applyTags_canon
    (dropRetired_canon (freeContexts_canon (returnHeld_canon (switchMap_canon (calendSwitches_canon (retireDue_canon (canon_foldl (fun h =>
    canon_ite (endStep_canon h) h) (canon_foldl promote_canon (dueQuarantines_canon (startFrame_canon (clearCounts_canon (latchReport_canon
    (endFrame_canon (publishReport_canon (canon_mk h)))))))))))))))))))))

theorem execCalend_canon (h : Canon s) : CanonNext (execCalend s) := canonNext_ite (done_canon h) (done_canon (calend_canon h))

theorem moveSnapTable_canon {old : Tbl Stream} {was : List Byte} (h : Canon s) : Canon (moveSnapTable s old was) := putTile_canon h

theorem newSchedule_canon (h : Canon s) : Canon (newSchedule s) := canon_mk (notePhase_canon h)

theorem startPlans_canon (h : Canon s) : Canon (startPlans s) := canon_foldl armFor_canon (canon_mk h)

theorem execSeasonEpoch_canon (h : Canon s) : CanonNext (execSeasonEpoch s) := by
  unfold execSeasonEpoch
  split
  · exact done_canon h
  · refine canonNext_ite (done_canon h) ?_
    split
    · exact done_canon (canon_mk h)
    · exact done_canon (startPlans_canon (moveSnapTable_canon (canon_foldl placeholder_canon (epochSteps_canon (powerSeason_canon (newSchedule_canon
        (applySeason_canon (canon_mk h))))))))

/-! ## HostIface -/

theorem execApertureRead_canon {ofs len : Nat} (h : Canon s) : CanonNext (execApertureRead ofs len s) :=
  done_canon (canon_unless (fun h => canon_ite (alm_canon h) (countBytes_canon h)) (canon_mk h))

theorem aperWrite_canon {ofs : Nat} {bs : List Byte} (h : Canon s) : Canon (aperWrite s ofs bs) := by
  unfold aperWrite
  refine canon_ite h (canon_ite (expertRefuse_canon h) (canon_ite (alm_canon h) ?_))
  split
  · exact alm_canon (hubWrite_canon h)
  · exact countBytes_canon (hubWrite_canon h)

theorem execApertureWrite_canon {ofs : Nat} {bytes : List Byte} (h : Canon s) : CanonNext (execApertureWrite ofs bytes s) :=
  done_canon (aperWrite_canon h)

theorem vectorControl_canon {v x : Nat} (h : Canon s) : Canon (vectorControl s v x) := canon_when (fun h => msix_canon (canon_mk h)) (canon_mk h)

theorem bar0Word_canon {w : Nat × Nat} (h : Canon s) : Canon (bar0Word s w) :=
  canon_ite (sqTailWrite_canon h) (canon_ite (cqHeadWrite_canon h) (canon_ite (canon_mk h) (canon_ite (canon_ite (canon_mk h) h) (canon_ite
    (canon_ite (canon_mk h) h) (canon_ite (canon_ite (vectorControl_canon h) (canon_mk h)) h)))))

theorem bar0Write_canon {o size value : Nat} (h : Canon s) : Canon (bar0Write s o size value) :=
  canon_ite (canon_ite (canon_mk h) h) (canon_ite h (canon_when expertRefuse_canon (canon_foldl bar0Word_canon h)))

theorem cvuWord_canon {k : Nat} {w : Nat × Nat} (h : Canon s) : Canon (cvuWord s k w) := by
  unfold cvuWord
  refine canon_ite (putCvu_canon h) (canon_ite (putCvu_canon h) (canon_ite h ?_))
  split
  · exact putCvu_canon h
  · exact putCvu_canon h
  · exact putCvu_canon h
  · exact putCvu_canon h
  · exact putCvu_canon h
  · exact putCvu_canon h
  · exact putCvu_canon h
  · exact putCvu_canon h
  · exact h

theorem expertWord_canon {w : Nat × Nat} (h : Canon s) : Canon (expertWord s w) := canon_ite (cvuWord_canon h) (canon_ite (alm_canon h) h)

theorem bar2Write_canon {o size value : Nat} (h : Canon s) : Canon (bar2Write s o size value) :=
  canon_ite h (canon_ite (canon_ite h (canon_ite (expertRefuse_canon h) (canon_foldl expertWord_canon h))) (canon_ite (aperWrite_canon h) h))

theorem execRegisterWrite_canon {addr size value : Nat} (h : Canon s) : CanonNext (execRegisterWrite addr size value s) :=
  done_canon (canon_ite (canon_ite (bar0Write_canon h) h) (bar2Write_canon h))

theorem execFrameLoRead_canon (h : Canon s) : CanonNext (execFrameLoRead s) := done_canon (canon_mk h)

theorem spoilRewrite_canon {e : SubEntry} (h : Canon s) : Canon (spoilRewrite s e) :=
  canon_ite h (canon_foldl (fun h => canon_unless dropCheck_canon (dropCheck_canon h)) h)

theorem resetInterface_canon {kind : Nat} (h : Canon s) : Canon (resetInterface s kind) :=
  alm_canon (canon_mk (expertClose_canon (canon_foldl spoilRewrite_canon h)))

theorem execHostInterfaceReset_canon {kind : Nat} (h : Canon s) : CanonNext (execHostInterfaceReset kind s) :=
  done_canon (canon_when canon_mk (resetInterface_canon h))

theorem execPerstRelease_canon (h : Canon s) : CanonNext (execPerstRelease s) := done_canon (resetInterface_canon h)

theorem execPciePowerState_canon {d3 : Bool} (h : Canon s) : CanonNext (execPciePowerState d3 s) :=
  canonNext_ite (done_canon (canon_mk h)) (done_canon (canon_foldl (fun h => canon_ite (msix_canon (canon_mk h)) h) (canon_mk h)))

theorem dmaFail_canon {e : SubEntry} (h : Canon s) : Canon (dmaFail s e) :=
  settleStray_canon (complete_canon (canon_mk (canon_ite (spoilRewrite_canon h) h)))

theorem execDmaCompletion_canon {tag : Nat} {good : Bool} (h : Canon s) : CanonNext (execDmaCompletion tag good s) := by
  unfold execDmaCompletion
  split
  · exact done_canon h
  · exact done_canon (canon_ite (canon_mk h) (dmaFail_canon h))

theorem execDmaTimeout_canon {tag : Nat} (h : Canon s) : CanonNext (execDmaTimeout tag s) := by
  unfold execDmaTimeout
  split
  · exact done_canon h
  · exact done_canon (dmaFail_canon h)

/-! ## Tokens -/

theorem hear_canon {dst src : Nat} (h : Canon s) : Canon (hear s dst src) := canon_ite (modUnit_canon h) h

theorem execTokenArrival_canon {dst : Nat} {t : Token} (h : Canon s) : CanonNext (execTokenArrival dst t s) := by
  unfold execTokenArrival
  refine canonNext_ite ?_ (done_canon (recvToken_canon h))
  split
  · exact done_canon (hear_canon (recvToken_canon (canon_mk h)))
  · exact done_canon h

theorem execCreditArrival_canon {dst : Nat} {c : Credit} (h : Canon s) : CanonNext (execCreditArrival dst c s) := by
  unfold execCreditArrival
  refine canonNext_ite ?_ (done_canon (recvCredit_canon h))
  split
  · exact done_canon (hear_canon (recvCredit_canon (canon_mk h)))
  · exact done_canon h

theorem execInputVoidComplete_canon {u ctx : Nat} (h : Canon s) : CanonNext (execInputVoidComplete u ctx s) := by
  unfold execInputVoidComplete
  split
  · exact done_canon h
  · split
    · exact done_canon h
    · exact canonNext_ite (done_canon (inputVoid_canon h)) (done_canon h)

theorem execCommandComplete_canon {u ctx : Nat} (h : Canon s) : CanonNext (execCommandComplete u ctx s) := by
  unfold execCommandComplete
  split
  · exact done_canon h
  · split
    · exact done_canon h
    · exact canonNext_ite (done_canon (modUnit_canon (finish_canon h))) (done_canon h)

theorem execCommandLapse_canon {u ctx : Nat} (h : Canon s) : CanonNext (execCommandLapse u ctx s) := by
  unfold execCommandLapse
  split
  · exact done_canon h
  · split
    · exact done_canon (lapseOne_canon h)
    · exact done_canon h

theorem countSwap_canon {u : Nat} (h : Canon s) : Canon (countSwap s u) := by
  unfold countSwap
  split
  · split
    · exact countBytes_canon (countBytes_canon h)
    · exact countBytes_canon h
  · exact h

theorem beginSwap_canon {u ctx : Nat} (h : Canon s) : Canon (beginSwap s u ctx) := canon_ite h (countSwap_canon (startSwap_canon h))

theorem execContextSwapStart_canon {u ctx : Nat} (h : Canon s) : CanonNext (execContextSwapStart u ctx s) :=
  canonNext_ite (done_canon (beginSwap_canon h)) (done_canon h)

theorem execContextSwapComplete_canon {u : Nat} (h : Canon s) : CanonNext (execContextSwapComplete u s) := by
  unfold execContextSwapComplete
  refine canonNext_ite (done_canon h) ?_
  dsimp only
  split
  · exact done_canon (beginSwap_canon (endSwap_canon h))
  · exact done_canon (endSwap_canon h)

theorem releaseRun_canon {u ctx : Nat} {a : Armed} {f : Run → Run} (h : Canon s) : Canon (releaseRun s u ctx a f) := modCtx_canon h

theorem twinAgree_canon {u v ctx : Nat} {r q : Run} (h : Canon s) : Canon (twinAgree s u v ctx r q) :=
  modClu_canon (modClu_canon (cmdEvent_canon (releaseRun_canon (releaseRun_canon (writeSeqs_canon (writeArena_canon h))))))

theorem twinDiffer_canon {u v ctx : Nat} {r : Run} (h : Canon s) : Canon (twinDiffer s u v ctx r) :=
  healthEvent_canon (healthEvent_canon (alm_canon (cmdEvent_canon (modClu_canon (modClu_canon (releaseRun_canon (releaseRun_canon h)))))))

theorem execTwinNote_canon {u ctx : Nat} (h : Canon s) : CanonNext (execTwinNote u ctx s) := by
  unfold execTwinNote
  split
  · exact done_canon h
  · split
    · exact done_canon h
    · refine canonNext_ite (done_canon h) ?_
      dsimp only
      split
      · exact done_canon (canon_mk (modCtx_canon h))
      · split
        · exact done_canon (releaseRun_canon (canon_mk (modCtx_canon h)))
        · exact canonNext_ite (done_canon (twinAgree_canon (canon_mk (modCtx_canon h)))) (done_canon (twinDiffer_canon (canon_mk (modCtx_canon h))))

/-! ## Idle -/

theorem tickTime_canon (h : Canon s) : Canon (tickTime s) := canon_mk h

theorem idle_canon (h : Canon s) : CanonNext (idle s) :=
  canonNext_ite (done_canon h) (done_canon (tickTime_canon h))

end Sys2Proof.Machine
end

section
/-! PROOFS. Both memories stay canonical over every step (O57). -/

namespace Sys2Proof.Machine
variable {s : State}

theorem exec_canon (i : Instr) (h : Canon s) : CanonNext (exec i s) := by
  cases i with
  | calend => exact execCalend_canon h
  | trigPulseStart => exact execTrigPulseStart_canon h
  | trigPulseEnd => exact execTrigPulseEnd_canon h
  | seasonEpoch => exact execSeasonEpoch_canon h
  | eveCheck => exact execEveCheck_canon h
  | eveDeadline => exact execEveDeadline_canon h
  | safeEdge => exact execSafeEdge_canon h
  | frameReportPublish => exact execFrameReportPublish_canon h
  | nop => exact execNop_canon h
  | getEvents => exact execGetEvents_canon h
  | setSeason => exact execSetSeason_canon h
  | seasonStore => exact execSeasonStore_canon h
  | seasonRead => exact execSeasonRead_canon h
  | getSurroundings => exact execGetSurroundings_canon h
  | getIdentity => exact execGetIdentity_canon h
  | attest => exact execAttest_canon h
  | getCerts => exact execGetCerts_canon h
  | planLoad => exact execPlanLoad_canon h
  | planAdmit => exact execPlanAdmit_canon h
  | planSelect => exact execPlanSelect_canon h
  | planRetire => exact execPlanRetire_canon h
  | queueStatus => exact execQueueStatus_canon h
  | dataWriteCreate => exact execDataWriteCreate_canon h
  | dataWriteRewrite => exact execDataWriteRewrite_canon h
  | dataWriteRepair => exact execDataWriteRepair_canon h
  | dataWriteDelete => exact execDataWriteDelete_canon h
  | dataRead => exact execDataRead_canon h
  | dataCheck => exact execDataCheck_canon h
  | storeRetain => exact execStoreRetain_canon h
  | storeResume => exact execStoreResume_canon h
  | mapLoad => exact execMapLoad_canon h
  | mapSelect => exact execMapSelect_canon h
  | mapStatus => exact execMapStatus_canon h
  | seqDefine => exact execSeqDefine_canon h
  | seqEditTruncate => exact execSeqEditTruncate_canon h
  | seqEditSetWindow => exact execSeqEditSetWindow_canon h
  | seqEditSetGlobals => exact execSeqEditSetGlobals_canon h
  | seqEditReset => exact execSeqEditReset_canon h
  | seqRead => exact execSeqRead_canon h
  | seqDelete => exact execSeqDelete_canon h
  | resultRingSet => exact execResultRingSet_canon h
  | resultRingRemove => exact execResultRingRemove_canon h
  | resultAck => exact execResultAck_canon h
  | resultRingStatus => exact execResultRingStatus_canon h
  | healthStatus => exact execHealthStatus_canon h
  | fenceClusterFence => exact execFenceClusterFence_canon h
  | fenceClusterRelease => exact execFenceClusterRelease_canon h
  | clusterRestrictRestrict => exact execClusterRestrictRestrict_canon h
  | clusterRestrictUnrestrict => exact execClusterRestrictUnrestrict_canon h
  | healthResume => exact execHealthResume_canon h
  | vigilStatus => exact execVigilStatus_canon h
  | vigilDebugEnable => exact execVigilDebugEnable_canon h
  | vigilDebugDisable => exact execVigilDebugDisable_canon h
  | getSafetyReport => exact execGetSafetyReport_canon h
  | almRead => exact execAlmRead_canon h
  | almInfo => exact execAlmInfo_canon h
  | almClear => exact execAlmClear_canon h
  | updLoad => exact execUpdLoad_canon h
  | updSchedule => exact execUpdSchedule_canon h
  | updConfirm => exact execUpdConfirm_canon h
  | updStatus => exact execUpdStatus_canon h
  | updCancel => exact execUpdCancel_canon h
  | pwrStatus => exact execPwrStatus_canon h
  | pwrLimit => exact execPwrLimit_canon h
  | expertUnlockP3 => exact execExpertUnlockP3_canon h
  | expertUnlockService => exact execExpertUnlockService_canon h
  | expertLock => exact execExpertLock_canon h
  | sqTailDoorbell => exact execSqTailDoorbell_canon h
  | cqHeadDoorbell => exact execCqHeadDoorbell_canon h
  | submissionFetch => exact execSubmissionFetch_canon h
  | completionPost => exact execCompletionPost_canon h
  | registerWrite => exact execRegisterWrite_canon h
  | frameLoRead => exact execFrameLoRead_canon h
  | timeLoRead => exact execTimeLoRead_canon h
  | almHeadLoRead => exact execAlmHeadLoRead_canon h
  | apertureRead => exact execApertureRead_canon h
  | apertureWrite => exact execApertureWrite_canon h
  | cvuStart => exact execCvuStart_canon h
  | cvuDataWrite => exact execCvuDataWrite_canon h
  | cvuRunDone => exact execCvuRunDone_canon h
  | inputVoidComplete => exact execInputVoidComplete_canon h
  | load => exact execLoad_canon h
  | store => exact execStore_canon h
  | sync => exact execSync_canon h
  | matmul => exact execMatmul_canon h
  | matmulDx => exact execMatmulDx_canon h
  | matmulDw => exact execMatmulDw_canon h
  | vec => exact execVec_canon h
  | sfu => exact execSfu_canon h
  | optStep => exact execOptStep_canon h
  | conv => exact execConv_canon h
  | convFused => exact execConvFused_canon h
  | dwconv => exact execDwconv_canon h
  | pool => exact execPool_canon h
  | layout => exact execLayout_canon h
  | nleConvIn => exact execNleConvIn_canon h
  | nleConvOut => exact execNleConvOut_canon h
  | nleCrop => exact execNleCrop_canon h
  | nlePool => exact execNlePool_canon h
  | nleResample => exact execNleResample_canon h
  | attnStep => exact execAttnStep_canon h
  | attnPrefill => exact execAttnPrefill_canon h
  | attnCommit => exact execAttnCommit_canon h
  | fusEgo => exact execFusEgo_canon h
  | fusUpdate => exact execFusUpdate_canon h
  | fusPublish => exact execFusPublish_canon h
  | plnGrid => exact execPlnGrid_canon h
  | plnCheck => exact execPlnCheck_canon h
  | plnCommit => exact execPlnCommit_canon h
  | commandComplete => exact execCommandComplete_canon h
  | tokenArrival => exact execTokenArrival_canon h
  | creditArrival => exact execCreditArrival_canon h
  | commandLapse => exact execCommandLapse_canon h
  | contextSwapStart => exact execContextSwapStart_canon h
  | contextSwapComplete => exact execContextSwapComplete_canon h
  | twinNote => exact execTwinNote_canon h
  | resultToken => exact execResultToken_canon h
  | variantSwitch => exact execVariantSwitch_canon h
  | exclusionSwitch => exact execExclusionSwitch_canon h
  | mapSwitch => exact execMapSwitch_canon h
  | quarantine => exact execQuarantine_canon h
  | deferredExpulsion => exact execDeferredExpulsion_canon h
  | hardFault => exact execHardFault_canon h
  | busTimeout => exact execBusTimeout_canon h
  | seqHeartbeat => exact execSeqHeartbeat_canon h
  | heartbeatDeadline => exact execHeartbeatDeadline_canon h
  | checkAttribution => exact execCheckAttribution_canon h
  | weightRepair => exact execWeightRepair_canon h
  | cleanRunCredit => exact execCleanRunCredit_canon h
  | probationEnd => exact execProbationEnd_canon h
  | deepSelfTestStart => exact execDeepSelfTestStart_canon h
  | deepSelfTestDone => exact execDeepSelfTestDone_canon h
  | rotationStepStart => exact execRotationStepStart_canon h
  | rotationTestDone => exact execRotationTestDone_canon h
  | rotationStepEnd => exact execRotationStepEnd_canon h
  | holidaySegmentStart => exact execHolidaySegmentStart_canon h
  | holidaySegmentEnd => exact execHolidaySegmentEnd_canon h
  | segmentWatchdog => exact execSegmentWatchdog_canon h
  | testDebtWarning => exact execTestDebtWarning_canon h
  | testOverdue => exact execTestOverdue_canon h
  | budgetExceeded => exact execBudgetExceeded_canon h
  | vigilEvent => exact execVigilEvent_canon h
  | vigilWatchdogExpiry => exact execVigilWatchdogExpiry_canon h
  | vigilHeartbeatSend => exact execVigilHeartbeatSend_canon h
  | vigilHeartbeat => exact execVigilHeartbeat_canon h
  | peerLossTimeout => exact execPeerLossTimeout_canon h
  | lossNotice => exact execLossNotice_canon h
  | comparatorMismatch => exact execComparatorMismatch_canon h
  | restartRetry => exact execRestartRetry_canon h
  | islandResetRelease => exact execIslandResetRelease_canon h
  | islandBrownOut => exact execIslandBrownOut_canon h
  | vigilInputChange => exact execVigilInputChange_canon h
  | vigilBBreach => exact execVigilBBreach_canon h
  | readStatus => exact execReadStatus_canon h
  | hold => exact execHold_canon h
  | release => exact execRelease_canon h
  | spiBadCommand => exact execSpiBadCommand_canon h
  | debugAttach => exact execDebugAttach_canon h
  | debugRegisterWrite => exact execDebugRegisterWrite_canon h
  | debugResume => exact execDebugResume_canon h
  | debugDetach => exact execDebugDetach_canon h
  | storeRequest => exact execStoreRequest_canon h
  | refreshDue => exact execRefreshDue_canon h
  | refreshWindowReturn => exact execRefreshWindowReturn_canon h
  | ingestWrite => exact execIngestWrite_canon h
  | levelBroadcast => exact execLevelBroadcast_canon h
  | levelStale => exact execLevelStale_canon h
  | transactionIssue => exact execTransactionIssue_canon h
  | transactionComplete => exact execTransactionComplete_canon h
  | bucketRefill => exact execBucketRefill_canon h
  | delayUpdate => exact execDelayUpdate_canon h
  | csi2FrameStart _ _ n => exact execCsi2FrameStart_canon (frameNo := n) h
  | csi2Packet => exact execCsi2Packet_canon h
  | csi2FrameEnd _ _ n => exact execCsi2FrameEnd_canon (frameNo := n) h
  | ethernetFrame => exact execEthernetFrame_canon h
  | gapExpiry => exact execGapExpiry_canon h
  | ingestTileMove => exact execIngestTileMove_canon h
  | sampleComplete => exact execSampleComplete_canon h
  | gptpSync => exact execGptpSync_canon h
  | gptpHoldover => exact execGptpHoldover_canon h
  | almanacEvent => exact execAlmanacEvent_canon h
  | journalFlush => exact execJournalFlush_canon h
  | almanacSummary => exact execAlmanacSummary_canon h
  | settingsJournalWrite => exact execSettingsJournalWrite_canon h
  | porstRelease => exact execPorstRelease_canon h
  | porstAssert => exact execPorstAssert_canon h
  | hubRailLow => exact execHubRailLow_canon h
  | hubClockLock => exact execHubClockLock_canon h
  | imageLoad => exact execImageLoad_canon h
  | discovery => exact execDiscovery_canon h
  | delaySetup => exact execDelaySetup_canon h
  | errorInjection => exact execErrorInjection_canon h
  | seasonSelection => exact execSeasonSelection_canon h
  | ready => exact execReady_canon h
  | perstRelease => exact execPerstRelease_canon h
  | hostInterfaceReset => exact execHostInterfaceReset_canon h
  | pciePowerState => exact execPciePowerState_canon h
  | dmaCompletion => exact execDmaCompletion_canon h
  | dmaTimeout => exact execDmaTimeout_canon h
  | pmSample => exact execPmSample_canon h
  | survivalP0Stop => exact execSurvivalP0Stop_canon h
  | survivalExit => exact execSurvivalExit_canon h
  | thermtrip => exact execThermtrip_canon h
  | capControl => exact execCapControl_canon h
  | dvfsStepComplete => exact execDvfsStepComplete_canon h
  | capLawUpdate => exact execCapLawUpdate_canon h
  | coolantRead => exact execCoolantRead_canon h
  | coolantLost => exact execCoolantLost_canon h
  | coolFlowPulse => exact execCoolFlowPulse_canon h
  | flowTimeout => exact execFlowTimeout_canon h
  | warmHoldAdjust => exact execWarmHoldAdjust_canon h
  | warmShort => exact execWarmShort_canon h
  | rthJournal => exact execRthJournal_canon h
  | ageingReplan => exact execAgeingReplan_canon h
  | updateEpoch => exact execUpdateEpoch_canon h
  | confirmWindowExpiry => exact execConfirmWindowExpiry_canon h
  | fallbackEpoch => exact execFallbackEpoch_canon h
  | keyDerivationDone => exact execKeyDerivationDone_canon h
  | islandResetAssert => exact execIslandResetAssert_canon h
  | pairRestartDone => exact execPairRestartDone_canon h
  | hubRailRecover => exact execHubRailRecover_canon h
  | linkTraining => exact execLinkTraining_canon h
  | ethLinkDown => exact execEthLinkDown_canon h
  | debugHalt => exact execDebugHalt_canon h
  | debugSingleStep => exact execDebugSingleStep_canon h
  | debugMemoryWrite => exact execDebugMemoryWrite_canon h
  | rowClose => exact execRowClose_canon h

theorem step_canon (h : Canon s) : CanonNext (step s) := by
  unfold step
  split
  · exact idle_canon h
  · exact exec_canon _ (canon_mk h)

end Sys2Proof.Machine

namespace Sys2Proof.Machine

/-- Settles O57: no command writes memory but through `mset`, `mwrite`, `mclear` and `scatter`, each of which keeps the form; a reset empties it. -/
theorem memoryStaysCanonical : Obligations.MemoryStaysCanonical := by
  unfold Obligations.MemoryStaysCanonical
  intro s t hm hh e
  exact step_canon ⟨hm, hh⟩ t e

end Sys2Proof.Machine
end
